-- ==== Sys2Proof/Word.lean ====
section
/-! DEFINITION. The word types of the bridge: bytes, 16-bit values and 32-bit values, which the manual treats as bits. -/

namespace Sys2Proof

/-- One byte of a frame, a table entry, a tile slot or the settings store. -/
abbrev Byte := BitVec 8

/-- A 16-bit value: a sequence number, a colour, a two-byte field (section 0.6.2, 11.3). -/
abbrev Half := BitVec 16

/-- A 32-bit value: an attach number or a tile key. -/
abbrev Word := BitVec 32

end Sys2Proof
end

