-- ==== Sys2Proof/Config.lean ====
section
/-! DEFINITION. What the manual fixes for every OL4120, and the values it leaves open. An open value is a constant with no
body: nothing in Lean can evaluate it, and a statement about the machine holds for every value of it. -/

namespace Sys2Proof.Config

/-- Vendor number of the IDENT entry (section 11.7). -/
def vendorNumber : Half := 0x0A47
/-- Part number of the IDENT entry (section 11.7). -/
def partNumber : Half := 4120
/-- Silicon revision of the IDENT entry (section 11.7). -/
def siliconRevision : Byte := 1

/-- Ticks of one millisecond (section 0.6.4). -/
def ticksPerMs : Nat := 1000
/-- Ticks of one unit of the loss limit (R1). -/
def lossUnit : Nat := 16
/-- Ticks of one unit of the hold time (R11). -/
def holdUnit : Nat := 10000
/-- Ticks of the panel block write timer (R128). -/
def blockTimeout : Nat := 10000
/-- Ticks of one period of the backlight output (R133). -/
def backlightPeriod : Nat := 1500
/-- Ticks of drive per backlight level in one period (R133). -/
def driveUnit : Nat := 100
/-- Valid symbol groups to leave ALIGNING (R2). -/
def alignGroups : Nat := 64
/-- Passing frames to reach UP (R4). -/
def framingFrames : Nat := 4
/-- Failing frames in a row that leave UP (R5). -/
def lossFrames : Nat := 4
/-- Bytes of the largest possible frame (section 11.1). -/
def maxFrameBytes : Nat := 164
/-- Bytes of the largest payload (R3). -/
def maxPayload : Nat := 160
/-- Reports the KEYS queue holds (R151). -/
def keysDepth : Nat := 8
/-- Replies the REPLY queue holds (R155). -/
def repliesDepth : Nat := 4
/-- Entries a side queue holds (R46). -/
def sideDepth : Nat := 24
/-- Timeouts in a row that halt the panel (R130). -/
def haltStreak : Nat := 3
/-- Up to how many the scans since the power-on reset are counted, for what R137 says of the first scans. THE MODEL'S CHOICE (log
entry 34): two, the fewest that the plural allows. -/
def firstScans : Nat := 2
/-- Largest backlight level (R125). -/
def maxLevel : Nat := 15
/-- Largest value of a monitor counter (R170). -/
def maxCount : Nat := 4294967295
/-- Bytes of the settings store (R164). -/
def flashBytes : Nat := 4096
/-- Bytes of one page of the settings store (R164). -/
def pageBytes : Nat := 1024
/-- Bytes of the contents of the settings image (section 11.10). -/
def imageContents : Nat := 873
/-- The identifying value of the settings image (section 11.10). -/
def imageMarker : Word := 0x5A3C4E21
/-- Bytes that the entries of one TABLE_READ share (section 11.6). -/
def readBytes : Nat := 153

/-- FREE VALUE. When both draw engines may be handed an entry in one event, whether engine B's handover comes first. The
manual gives no order between the sides (R47, R114: writers that began together may be served in either order). The
argument is the machine's count of free values taken. -/
opaque sideBFirst : Nat → Bool

/-- FREE VALUE. The order in which expiries that fall on one tick are taken (R14, R105: either may be taken first). It
names a permutation; the argument is the tick. -/
opaque dueOrder : Nat → Nat

/-- FREE VALUE. When both draw engines, FREE at the beginning of an event, have taken an entry in it, whether the engine that
was handed its entry later is served first (R114: writers that began to wait together may be served in either order).
The argument is the machine's count of free values taken. -/
opaque laterEngineFirst : Nat → Bool

/-- FREE VALUE. The moment in the course of a write from which on a pixel under it has been written (R25). Moments are numbered
by the count of free values taken, so that a pixel once written stays written. The arguments are the moment at which the
write began and the pixel's raster index. -/
opaque writtenFrom : Nat → Nat → Nat

/-- FREE VALUE. How many more pixels of the block in flight the panel port has read when a write ends (R25, R128); it reads them
in their order. The argument is the count of free values taken. -/
opaque pixelsRead : Nat → Nat

/-- FREE VALUE. Whether a pixel of the block in flight was read only when the write had come to it, and not before (R25, R128).
The arguments are the count of free values taken and the pixel's place in the block. -/
opaque readLater : Nat → Nat → Bool

/-- FREE VALUE. How many bytes of an upstream frame had left when it was cut (R19, R173). The argument is the count of
free values taken. -/
opaque bytesSent : Nat → Nat

/-- FREE VALUE. Whether a byte under an erase or a program keeps its former value when a power-on reset ends the operation
(R164). The arguments are the count of free values taken and the byte's offset. -/
opaque flashByteKept : Nat → Nat → Bool

end Sys2Proof.Config
end

