-- ==== Sys2Proof/Syntax.lean ====
section
/-! DEFINITION. The commands of the bridge, one constructor per row of spec/opcode_table.json: the groups and frames of the
downstream lane, the management requests, and the occurrences inside the part that the table lists as steps. -/

namespace Sys2Proof

/-- The two draw paths (chapter 3). -/
inductive Side where
  | a
  | b
  deriving DecidableEq, Repr

/-- One symbol group of the downstream lane as the Link Controller sees it (section 1.1). -/
inductive SymbolGroup where
  /-- a data group, carrying one byte -/
  | data (b : Byte)
  /-- a start delimiter -/
  | startDelimiter
  /-- an end delimiter -/
  | endDelimiter
  /-- a filler group, sent between frames -/
  | filler
  /-- a group that does not decode -/
  | invalid
  deriving DecidableEq, Repr

/-- The commands. A frame constructor (idle to tile, the management requests) is the arrival, at the framing logic of the
Link Controller, of one closed frame of that kind that passes the frame check (R3). Byte-wide arguments hold the byte as
the frame carries it. Every management request opens with its tag. -/
inductive Instr where
  /-- POWER_ON_RESET (R21) -/
  | powerOnReset
  /-- SYMBOL_GROUP (R2, R3) -/
  | symbolGroup (g : SymbolGroup)
  /-- LOSS_DETECTOR_EXPIRY (R1) -/
  | lossDetectorExpiry
  /-- CHECK_FAIL (R4, R5): one frame fails the frame check -/
  | checkFail
  /-- IDLE (R4, R5, R16) -/
  | idle
  /-- BAD_FRAME (R16): a passing frame of unknown kind, or of a length its kind does not allow -/
  | badFrame
  /-- HELLO (R9, R10, R12, R13) with its attach number -/
  | hello (number : Word)
  /-- HOLD_TIMER_EXPIRY (R14) -/
  | holdTimerExpiry
  /-- DRAW (R50 to R57): stream byte, sequence number, and the payload from offset 3 on -/
  | draw (stream : Byte) (seq : Half) (commands : List Byte)
  /-- EXECUTION_END (R119) of the draw engine of one side -/
  | executionEnd (side : Side)
  /-- TILE (R77): key, sector byte and sector data -/
  | tile (key : Word) (sector : Byte) (data : List Byte)
  /-- FAULT_TIMER_EXPIRY (R100) of one side's record -/
  | faultTimerExpiry (side : Side)
  /-- TRANSMISSION_COMPLETE (R19) -/
  | transmissionComplete
  /-- BAD_REQUEST (R156): the tag and kind byte of a request of unknown kind or wrong argument form -/
  | badRequest (tag kind : Byte)
  /-- TABLE_READ (R158) -/
  | tableRead (tag table : Byte) (first : Half) (count : Byte)
  /-- TABLE_WRITE (R159): table, entry number and entry contents -/
  | tableWrite (tag table : Byte) (entry : Half) (contents : List Byte)
  /-- LAYOUT_HEADER_WRITE (R31) -/
  | layoutHeaderWrite (tag : Byte) (border undocked : Half)
  /-- LAYOUT_REGION_WRITE (R30) -/
  | layoutRegionWrite (tag : Byte) (region : Fin 8) (enabled : Bool) (ox oy rw rh background : Half)
  /-- STREAM_WRITE (R36): the written stale bit -/
  | streamWrite (tag : Byte) (stream : Fin 8) (stale : Bool)
  /-- KEYMAP_WRITE (R148): entry number, class byte and value byte -/
  | keymapWrite (tag : Byte) (entry : Half) (cls value : Byte)
  /-- SETTINGS_WRITE (R160): the items of the record as written -/
  | settingsWrite (tag lossLimit holdTime : Byte) (scanPeriod : Half) (depth faultTimeout retryLimit shedThreshold enables : Byte)
  /-- PANEL_WRITE (R136): width and height in blocks and backlight level as written -/
  | panelWrite (tag width height level : Byte)
  /-- STREAM_OPEN (R42) -/
  | streamOpen (tag stream : Byte) (start : Half)
  /-- STREAM_CLOSE (R44) -/
  | streamClose (tag stream : Byte)
  /-- QUIESCE (R61) -/
  | quiesce (tag : Byte)
  /-- RESUME (R64) -/
  | resume (tag : Byte)
  /-- LAYOUT_APPLY_END (R34, R64) -/
  | layoutApplyEnd
  /-- TEARDOWN_FILL_END (R37) -/
  | teardownFillEnd
  /-- TILE_FLUSH (R86) -/
  | tileFlush (tag : Byte)
  /-- SWEEP_STEP (R87) -/
  | sweepStep
  /-- TILE_PIN (R84) -/
  | tilePin (tag : Byte) (key : Word)
  /-- TILE_UNPIN (R85) -/
  | tileUnpin (tag : Byte) (key : Word)
  /-- PANEL_RESTART (R132) -/
  | panelRestart (tag : Byte)
  /-- DOCK_RESET (R161) -/
  | dockReset (tag : Byte)
  /-- STORE_ERASE (R165, R166) -/
  | storeErase (tag page : Byte)
  /-- STORE_WRITE (R165, R167) -/
  | storeWrite (tag : Byte) (offset : Half) (data : List Byte)
  /-- STORE_READ (R165) -/
  | storeRead (tag : Byte) (offset : Half) (count : Byte)
  /-- MONITOR_SET (R170): entry, mode, group, unit mask and condition as written -/
  | monitorSet (tag entry mode group : Byte) (unitMask : Word) (condition : Byte)
  /-- ERASE_DONE (R166) -/
  | eraseDone
  /-- PROGRAM_DONE (R167) -/
  | programDone
  /-- ACKNOWLEDGEMENT (R129) with its echo -/
  | acknowledgement (echo : Byte)
  /-- BLOCK_TIMEOUT (R130) -/
  | blockTimeout
  /-- SCAN (R138) with the one reading of the matrix port: bit p is set when the contact at position p is closed -/
  | scan (contacts : BitVec 128)
  /-- MILLISECOND_TICK (R171) -/
  | millisecondTick
  /-- BACKLIGHT_PERIOD (R133) -/
  | backlightPeriod
  deriving DecidableEq, Repr

end Sys2Proof
end

