-- ==== Sys2Proof/WellFormed.lean ====
section
/-! DEFINITION. Which commands the downstream lane can carry: the payload lengths of section 11.2. The meanings are defined
on every command; a command that is not well formed is one that no frame of its kind can spell. -/

namespace Sys2Proof

/-- The lengths that section 11.2 leaves free: a DRAW payload holds 4 to 160 bytes, a TILE payload 133, a MGMT payload at
most 160. Every other command is well formed whatever its arguments. -/
def Instr.wf : Instr → Bool
  | .draw _ _ commands => 1 ≤ commands.length && commands.length ≤ 157
  | .tile _ _ data => data.length == 128
  | .tableWrite _ _ _ contents => contents.length ≤ 155
  | .storeWrite _ _ data => data.length ≤ 156
  | .powerOnReset => true
  | .symbolGroup _ => true
  | .lossDetectorExpiry => true
  | .checkFail => true
  | .idle => true
  | .badFrame => true
  | .hello _ => true
  | .holdTimerExpiry => true
  | .executionEnd _ => true
  | .faultTimerExpiry _ => true
  | .transmissionComplete => true
  | .badRequest _ _ => true
  | .tableRead _ _ _ _ => true
  | .layoutHeaderWrite _ _ _ => true
  | .layoutRegionWrite _ _ _ _ _ _ _ _ => true
  | .streamWrite _ _ _ => true
  | .keymapWrite _ _ _ _ => true
  | .settingsWrite _ _ _ _ _ _ _ _ _ => true
  | .panelWrite _ _ _ _ => true
  | .streamOpen _ _ _ => true
  | .streamClose _ _ => true
  | .quiesce _ => true
  | .resume _ => true
  | .layoutApplyEnd => true
  | .teardownFillEnd => true
  | .tileFlush _ => true
  | .sweepStep => true
  | .tilePin _ _ => true
  | .tileUnpin _ _ => true
  | .panelRestart _ => true
  | .dockReset _ => true
  | .storeErase _ _ => true
  | .storeRead _ _ _ => true
  | .monitorSet _ _ _ _ _ _ => true
  | .eraseDone => true
  | .programDone => true
  | .acknowledgement _ => true
  | .blockTimeout => true
  | .scan _ => true
  | .millisecondTick => true
  | .backlightPeriod => true

end Sys2Proof
end

