-- ==== Sys2Proof/Decode.lean ====
section
/-! DEFINITION. Reading a command from the bits of spec/opcode_table.json. The table gives no row any bits, so no word spells
a command; the bytes of a frame are read where frames are taken (Sys2Proof/Machine/Operands.lean). -/

namespace Sys2Proof

/-- The command that a word spells by the bits of the opcode table: none, since no row of the table has bits. -/
def decodeTableWord (_nbits _w : Nat) : Option Instr := none

end Sys2Proof
end

