-- ==== Sys2Proof/Machine/Bytes.lean ====
section
/-! DEFINITION. Byte order (section 0.6.3: the least significant byte first) and byte-addressed memory: a list of cells in one
canonical form, used for the settings store and the tile store. -/

namespace Sys2Proof.Machine

/-- The two bytes of a 16-bit field, low byte first (section 0.6.3). -/
def le16 (v : Half) : List Byte := [v.extractLsb' 0 8, v.extractLsb' 8 8]

/-- The four bytes of a 32-bit field, low byte first (section 0.6.3). -/
def le32 (v : Word) : List Byte :=
  [v.extractLsb' 0 8, v.extractLsb' 8 8, v.extractLsb' 16 8, v.extractLsb' 24 8]

/-- The 16-bit value of two bytes, low byte first. -/
def half (lo hi : Byte) : Half := hi ++ lo

/-- The 32-bit value of four bytes, low byte first. -/
def word (b0 b1 b2 b3 : Byte) : Word := b3 ++ (b2 ++ (b1 ++ b0))

/-- Byte i of a list, 0 past its end. -/
def byteAt (bs : List Byte) (i : Nat) : Byte := bs.getD i 0

/-- The 16-bit field at offset i of a list of bytes. -/
def halfAt (bs : List Byte) (i : Nat) : Half := half (byteAt bs i) (byteAt bs (i + 1))

/-- The 32-bit field at offset i of a list of bytes. -/
def wordAt (bs : List Byte) (i : Nat) : Word :=
  word (byteAt bs i) (byteAt bs (i + 1)) (byteAt bs (i + 2)) (byteAt bs (i + 3))

/-- The 16-bit pixels of a list of bytes, two bytes each, low byte first (section 11.3). -/
def pixelsOf : List Byte → List Half
  | lo :: hi :: rest => half lo hi :: pixelsOf rest
  | _ => []

/-- The byte at address a, where an unlisted address reads as d. -/
def cellRead (d : Byte) : List Host.Cell → Nat → Byte
  | [], _ => d
  | (k, v) :: rest, a => if k = a then v else cellRead d rest a

/-- The n bytes from address a on. -/
def cellBlock (d : Byte) (m : List Host.Cell) (a n : Nat) : List Byte :=
  (List.range n).map fun i => cellRead d m (a + i)

/-- The cells of a run of bytes stored from address a on, less those that equal what an unlisted address reads as. -/
def cellsOf (d : Byte) : Nat → List Byte → List Host.Cell
  | _, [] => []
  | a, b :: rest => if b = d then cellsOf d (a + 1) rest else (a, b) :: cellsOf d (a + 1) rest

/-- Stores the bytes bs from address a on. The canonical form is kept (Laws/Memory.lean). -/
def cellWrite (d : Byte) (m : List Host.Cell) (a : Nat) (bs : List Byte) : List Host.Cell :=
  m.filter (fun c => c.1 < a) ++ cellsOf d a bs ++ m.filter (fun c => a + bs.length ≤ c.1)

/-- The canonical form: addresses strictly rising, and no entry equal to what an unlisted address reads as. -/
abbrev cellsWf (d : Byte) (m : List Host.Cell) : Prop :=
  m.Pairwise (fun c e => c.1 < e.1) ∧ ∀ c ∈ m, c.2 ≠ d

end Sys2Proof.Machine
end

