-- ==== Sys2Proof/Machine/Image.lean ====
section
/-! DEFINITION. The picture held by the frame store (R24), as runs of equal pixels in raster order. An entry (k, c) says that
the pixels from raster index k up to the next entry hold colour c, so an unlisted pixel reads as the nearest listed one
before it. The form is canonical: indices strictly rising from 0 and below the number of pixels, and no entry equal to the
one before it; equal pictures are then equal data. -/

namespace Sys2Proof.Machine

/-- The picture as runs: raster index of the first pixel, and colour. -/
abbrev Image := List (Nat × Half)

/-- The colour at raster index a, where the pixels before the first entry hold c. -/
def imageReadFrom (c : Half) : Image → Nat → Half
  | [], _ => c
  | (k, v) :: rest, a => if a < k then c else imageReadFrom v rest a

/-- The colour of the pixel at raster index a. -/
def imageRead (img : Image) (a : Nat) : Half := imageReadFrom 0 img a

/-- Drops every entry whose colour equals the colour before it. -/
def imageMerge : Option Half → Image → Image
  | _, [] => []
  | before, (k, v) :: rest =>
    if before = some v then imageMerge before rest else (k, v) :: imageMerge (some v) rest

/-- The entries that resume the old picture at index b, when b is still a pixel. -/
def imageResume (size : Nat) (img : Image) (b : Nat) : Image :=
  if b < size then (b, imageRead img b) :: img.filter (fun e => b < e.1) else []

/-- Replaces the n pixels from index a on by the runs mid, which start at a and lie below a + n. A stretch that would leave
the picture of size pixels is not written. -/
def imagePaint (size : Nat) (img : Image) (a n : Nat) (mid : Image) : Image :=
  if n = 0 ∨ size < a + n then img
  else imageMerge none (img.filter (fun e => e.1 < a) ++ mid ++ imageResume size img (a + n))

/-- The n pixels of img from index src on, as runs that start at index dst. -/
def imageSlice (img : Image) (src n dst : Nat) : Image :=
  (dst, imageRead img src) ::
    (img.filter (fun e => src < e.1 ∧ e.1 < src + n)).map (fun e => (e.1 - src + dst, e.2))

/-- Writes n pixels of one colour from index a on. -/
def imageRow (size : Nat) (img : Image) (a n : Nat) (c : Half) : Image :=
  imagePaint size img a n [(a, c)]

/-- Writes a rectangle of one colour in a picture of the given width and size: columns x to x + w - 1 of rows y to
y + h - 1. -/
def imageRect (width size : Nat) (img : Image) (x y w h : Nat) (c : Half) : Image :=
  (List.range h).foldl (fun acc v => imageRow size acc ((y + v) * width + x) w c) img

/-- Copies a rectangle of the picture src, at the same place, into img. -/
def imageCopyRect (width size : Nat) (src img : Image) (x y w h : Nat) : Image :=
  (List.range h).foldl (fun acc v =>
    let a := (y + v) * width + x
    imagePaint size acc a w (imageSlice src a w a)) img

/-- The whole picture in one colour. -/
def imageUniform (c : Half) : Image := [(0, c)]

/-- The picture of size pixels that holds at each raster index what new holds there when late picks it, else what old holds. -/
def imageBlend (size : Nat) (late : Nat → Bool) (old new : Image) : Image :=
  imageMerge none ((List.range size).map fun a => (a, imageRead (if late a then new else old) a))

/-- No entry equals the colour before it. -/
def imageMerged : Option Half → Image → Bool
  | _, [] => true
  | before, (_, v) :: rest => before != some v && imageMerged (some v) rest

/-- The canonical form of a picture of size pixels. -/
abbrev imageWf (size : Nat) (img : Image) : Prop :=
  img.head?.map Prod.fst = some 0 ∧ img.Pairwise (fun e f => e.1 < f.1) ∧ (∀ e ∈ img, e.1 < size) ∧
    imageMerged none img = true

end Sys2Proof.Machine
end

