-- ==== Sys2Proof/Machine/Records.lean ====
section
/-! DEFINITION. The records that State is made of, block by block (chapters 1 to 10), as plain data, and the default values
that the manual names for them. -/

namespace Sys2Proof.Machine

/-! ## Link Controller (chapter 1) -/

/-- The link state machine (chapter 1). -/
inductive LinkState where
  | down | aligning | framing | up
  deriving DecidableEq, Repr

/-- The attachment machine (R8). -/
inductive Attachment where
  | unattached | attached | held
  deriving DecidableEq, Repr

/-- The cause of a departure from UP (R6). -/
inductive DepartCause where
  | lossDetector | frameErrors
  deriving DecidableEq, Repr

/-- The outcome a GREET announces (section 1.3). -/
inductive GreetOutcome where
  | newSession | resumed | repeated
  deriving DecidableEq, Repr

/-- A key report (R149): modifier set (bit i is modifier i), key code list, overflow flag. -/
structure Report where
  mods : BitVec 8
  codes : List Byte
  overflow : Bool
  deriving DecidableEq, Repr

/-- The status codes of section 11.9, in the order of their numbers. -/
inductive Status where
  | ok | busy | badRequest | badTable | badIndex | badValue | readOnly | notQuiesced
  | streamIsOpen | streamClosed | regionDisabled | overlap | notPresent | pinLimit | storeMismatch
  deriving DecidableEq, Repr

/-- A reply (R156, section 11.5): tag and kind byte echoed, status, data. -/
structure Reply where
  tag : Byte
  kind : Byte
  status : Status
  data : List Byte
  deriving DecidableEq, Repr

/-- The six event kinds (R162), in the order of their numbers. -/
inductive EventKind where
  | linkResumed | regionStale | backlight | panelHalted | monitorSaturated | storeDefaulted
  deriving DecidableEq, Repr

/-- What an upstream transmission carries (R17). -/
inductive TxItem where
  | greet
  | keys
  | fault (side : Side)
  | rewind (stream : Fin 8)
  | reply
  | event (kind : EventKind)
  deriving DecidableEq, Repr

/-- A transmission in progress: its item, and the frame built at its start (R18). -/
structure Transmission where
  item : TxItem
  frame : List Byte
  deriving DecidableEq, Repr

/-- The Link Controller: downstream receive state (R7), attachment record (R8), upstream classes (R17), the last reattach
(R22) and the upstream lane. -/
structure LinkCtl where
  /-- link state (R7) -/
  link : LinkState
  /-- alignment count, 0 to 64 (R7) -/
  alignCount : Nat
  /-- framing count, 0 to 4 (R7) -/
  framingCount : Nat
  /-- failure count, 0 to 4 (R7) -/
  failureCount : Nat
  /-- loss detector count in ticks (R1) -/
  lossCount : Nat
  /-- the bytes of the frame in assembly, if one is open (R3) -/
  assembly : Option (List Byte)
  /-- attachment state (R8) -/
  attachment : Attachment
  /-- attach number, 0 for none (R8) -/
  attachNumber : Word
  /-- hold timer in ticks remaining; none when stopped (R8) -/
  holdTimer : Option Nat
  /-- hold cause (R8) -/
  holdCause : Option DepartCause
  /-- hold start tick (R8) -/
  holdStart : Option Nat
  /-- attach counter (R8) -/
  attachCounter : Word
  /-- hold cause of the most recent reattach (R22) -/
  lastCause : Option DepartCause
  /-- hold duration in ms of the most recent reattach (R22) -/
  lastDuration : Nat
  /-- GREET slot (R17) -/
  greet : Option GreetOutcome
  /-- renewed mark of the GREET slot (R17) -/
  greetRenewed : Bool
  /-- KEYS queue, oldest first (R17) -/
  keys : List Report
  /-- REPLY queue, oldest first (R17) -/
  replies : List Reply
  /-- the transmission in progress on the upstream lane (R18) -/
  tx : Option Transmission
  /-- the symbol groups of the frame that last left on the upstream lane, whole or cut (R19, R173) -/
  laneOut : List SymbolGroup
  deriving DecidableEq, Repr

/-! ## Layout Unit (chapter 2) -/

/-- A region record (R27). -/
structure Region where
  enabled : Bool
  ox : Half
  oy : Half
  rw : Half
  rh : Half
  background : Half
  changed : Bool
  stale : Bool
  deriving DecidableEq, Repr

/-- The Layout Unit: panel geometry (R23), layout header (R26), region records (R27), and its fills under way (R34, R37). -/
structure LayoutUnit where
  /-- panel width in blocks (R23) -/
  width : Nat
  /-- panel height in blocks (R23) -/
  height : Nat
  /-- border colour (R26) -/
  border : Half
  /-- undocked colour (R26) -/
  undocked : Half
  /-- header-changed flag (R26) -/
  headerChanged : Bool
  /-- the eight region records (R27) -/
  regions : Vector Region 8
  /-- the layout apply under way, with the regions noted as enabled and changed (R33) -/
  apply : Option (BitVec 8)
  /-- the colour of the teardown fill being written: the undocked colour as it stood when the fill began (R37) -/
  fillColour : Option Half
  /-- whether the settings image was valid at the last power-on (IDENT, section 9.2) -/
  imageUsed : Bool
  deriving DecidableEq, Repr

/-! ## Stream Sequencer (chapter 3) -/

/-- The state of a stream (R40). -/
inductive StreamState where
  | closed | ready | waitTile | waitSlot | waitWay
  deriving DecidableEq, Repr

/-- Why a rewind was flagged (R58). -/
inductive RewindReason where
  | gap | shed | quiesceEnd | reattach
  deriving DecidableEq, Repr

/-- The quiesce state (section 3.7). -/
inductive QuiesceState where
  | running | quiescing | quiesced
  deriving DecidableEq, Repr

/-- A stream record (R40). The rewind flag is set exactly when a reason is present. The queued item is the number of the
stream's entries in its side queue and is computed (R41). -/
structure Stream where
  state : StreamState
  side : Option Side
  expected : Half
  rewind : Option RewindReason
  renewed : Bool
  reservation : Option Word
  deriving DecidableEq, Repr

/-- A draw command (section 11.4), its coordinates and sizes as numbers. -/
inductive DrawCommand where
  | place (key : Word) (x y : Int) (keyColour : Option Half)
  | fill (colour : Half) (x y : Int) (w h : Nat)
  | scroll (dx dy : Int)
  deriving DecidableEq, Repr

/-- An entry of a side queue (R46). -/
structure Entry where
  stream : Fin 8
  seq : Half
  pos : Nat
  command : DrawCommand
  executing : Bool
  deriving DecidableEq, Repr

/-- The Stream Sequencer: stream records (R40), side queues, oldest entry first (R46), quiesce state (R61). -/
structure Sequencer where
  streams : Vector Stream 8
  queueA : List Entry
  queueB : List Entry
  quiesce : QuiesceState
  deriving DecidableEq, Repr

/-! ## Draw engines and frame store (chapters 2 and 6) -/

/-- The record of the entry under execution (R108). The clip rectangle is in region coordinates; the tile contents are the
pixels of the needed sectors, from the first needed sector on. -/
structure ExecRecord where
  stream : Fin 8
  seq : Half
  pos : Nat
  command : DrawCommand
  ox : Nat
  oy : Nat
  rw : Nat
  rh : Nat
  background : Half
  cx0 : Int
  cx1 : Int
  cy0 : Int
  cy1 : Int
  firstSector : Nat
  tile : List Half
  removed : Bool
  deriving DecidableEq, Repr

/-- The draw engines: an engine with no record is FREE; one with a record is WRITING when it holds the frame store and
WAITING otherwise (R108). -/
structure Engines where
  engineA : Option ExecRecord
  engineB : Option ExecRecord
  deriving DecidableEq, Repr

/-- A writer of the frame store (R25). The power-on fill is not among them: it ends within its reset (R38). -/
inductive Writer where
  | engine (side : Side)
  | layoutApply
  | teardownFill
  deriving DecidableEq, Repr

/-- The frame store: the picture (R24), the writer that holds it, and the writers that wait, first to begin first (R25). The
model's own field began is the count of free values taken when the latest writer was given the store (log entry 9). -/
structure FrameStore where
  image : Image
  holder : Option Writer
  waiting : List Writer
  began : Nat
  deriving DecidableEq, Repr

/-! ## Tile Cache (chapter 4) -/

/-- A directory entry (R71). Bit k of sectors is the validity of sector k. -/
structure DirEntry where
  valid : Bool
  key : Word
  sectors : BitVec 4
  age : Nat
  pinned : Bool
  pending : Bool
  reserve : Nat
  deriving DecidableEq, Repr

/-- One set of the directory. -/
abbrev TileSet := Vector DirEntry 4

/-- The Tile Cache: directory of 64 sets of 4 ways (R71), tile store of 256 slots of 512 bytes (R70), and flush sweep
pointer, 64 when no sweep is running (R88). -/
structure TileCache where
  dir : Vector TileSet 64
  store : List Host.Cell
  sweep : Nat
  deriving DecidableEq, Repr

/-! ## Tile Fault Unit (chapter 5) -/

/-- A fault record (R92). Bit k of needed is sector k; bit s of waiting is stream s. -/
structure FaultRecord where
  active : Bool
  key : Word
  needed : BitVec 4
  waiting : BitVec 8
  tries : Nat
  timer : Option Nat
  send : Bool
  renewed : Bool
  deriving DecidableEq, Repr

/-- The two fault records (R92). -/
structure FaultUnit where
  recA : FaultRecord
  recB : FaultRecord
  deriving DecidableEq, Repr

/-! ## Panel Updater (chapter 7) -/

/-- The in-flight block (R125). -/
structure InFlight where
  block : Nat
  number : Byte
  timer : Nat
  deriving DecidableEq, Repr

/-- A block write as it goes out on the panel port (R128): its block, its write number and its pixels, row by row from the top
and in each row from the left, which is the order in which they are read. While the block is in flight, the first read of
them have been read for good, and the others stand as they would be read now; read is the model's own (log entry 10). -/
structure BlockWrite where
  block : Nat
  number : Byte
  pixels : List Half
  read : Nat
  deriving DecidableEq, Repr

/-- The Panel Updater (R125) with its backlight output (R133). -/
structure PanelUpdater where
  /-- one dirty flag per block in raster order -/
  dirty : List Bool
  /-- scan pointer -/
  scan : Nat
  /-- in-flight block -/
  inFlight : Option InFlight
  /-- write number of the most recent block write -/
  number : Byte
  /-- timeout streak -/
  streak : Nat
  /-- halted -/
  halted : Bool
  /-- the block write last put on the panel port (R128) -/
  port : Option BlockWrite
  /-- backlight level -/
  level : Nat
  /-- the level that the running period of the backlight output is driven with (R133) -/
  drivenLevel : Nat
  /-- ticks to the next period of the backlight output (R133) -/
  periodTimer : Nat
  deriving DecidableEq, Repr

/-! ## Key Scanner (chapter 8) -/

/-- The two LOCAL actions (R144). -/
inductive LocalAction where
  | backlightUp | backlightDown
  deriving DecidableEq, Repr

/-- A keymap entry (R144). -/
inductive KeyEntry where
  | none
  | ordinary (code : Byte)
  | modifier (index : Fin 8)
  | layer (n : Fin 3)
  | localAction (action : LocalAction)
  deriving DecidableEq, Repr

/-- One position of the matrix (R137): raw contact at the last scan (true when closed), debounce count, whether pressed,
whether withheld. -/
structure KeyPosition where
  raw : Bool
  count : Nat
  pressed : Bool
  withheld : Bool
  deriving DecidableEq, Repr

/-- A record of the latched key table (R137). -/
structure Latched where
  pos : Nat
  entry : KeyEntry
  layer : Fin 3
  deriving DecidableEq, Repr

/-- The Key Scanner (R137). Keymap entry i is layer i / 128, position i mod 128 (R148). The item scans, the model's own, is how many of the
first scans have been made since the power-on reset, 0 to Config.firstScans (log entry 34). -/
structure KeyScanner where
  positions : Vector KeyPosition 128
  latched : List Latched
  report : Report
  keymap : Vector KeyEntry 384
  scanTimer : Nat
  scans : Nat
  deriving DecidableEq, Repr

/-! ## Management Engine (chapter 9) -/

/-- The operation of a long request in progress (R156). -/
inductive LongOp where
  | quiesce
  | resume
  | tileFlush
  | erase (page : Nat)
  | program (offset : Nat) (data : List Byte)
  deriving DecidableEq, Repr

/-- A request in progress (R154). It is silent when a teardown has taken its reply (R157). -/
structure Request where
  tag : Byte
  kind : Byte
  op : LongOp
  silent : Bool
  deriving DecidableEq, Repr

/-- One kind of the event pending set (R162): pending flag, the three detail bytes of its frame (section 11.5), renewed mark
and renewal mask. -/
structure EventSlot where
  pending : Bool
  detail : BitVec 24
  renewed : Bool
  renewal : BitVec 24
  deriving DecidableEq, Repr

/-- The Management Engine: request in progress (R154) and event pending set, indexed by kind number (R162). The count of
owed reply slots is 1 exactly while a request is in progress and is computed. -/
structure Management where
  inProgress : Option Request
  events : Vector EventSlot 6
  deriving DecidableEq, Repr

/-- The settings record (R160). Bit n of enables is the enable of event kind n. -/
structure Settings where
  lossLimit : Nat
  holdTime : Nat
  scanPeriod : Nat
  depth : Nat
  faultTimeout : Nat
  retryLimit : Nat
  shedThreshold : Nat
  enables : BitVec 6
  deriving DecidableEq, Repr

/-! ## Monitor (chapter 10) -/

/-- Counter modes (R170). -/
inductive CounterMode where
  | occurrence | conditionTime | conditionEdge
  deriving DecidableEq, Repr

/-- Sub-event groups (section 10.4). -/
inductive Group where
  | tileLookup | tileFill | fault | drawFrame | shed | link | panel | keys
  deriving DecidableEq, Repr

/-- Monitor conditions (section 10.4). -/
inductive Condition where
  | anyStreamWaiting | sideQueueFull | quiesceNotRunning | engineBusy | attachmentHeld
  deriving DecidableEq, Repr

/-- A monitor counter with its selection (R170). -/
structure Counter where
  value : Nat
  mode : CounterMode
  group : Group
  mask : Word
  condition : Condition
  deriving DecidableEq, Repr

/-- The fault a tracker follows (R172). -/
structure Tracked where
  side : Side
  key : Word
  start : Nat
  deriving DecidableEq, Repr

/-- The latency tracker (R172): it is armed exactly when it follows a fault. -/
structure Tracker where
  armed : Option Tracked
  last : Nat
  max : Nat
  completed : Nat
  lost : Nat
  deriving DecidableEq, Repr

/-- The Monitor (R170, R172). -/
structure Monitor where
  counters : Vector Counter 4
  tracker : Tracker
  deriving DecidableEq, Repr

/-! ## Values at reset and defaults -/

/-- An invalid directory entry of age a (R71, R72). -/
def DirEntry.invalid (a : Nat) : DirEntry := ⟨false, 0, 0, a, false, false, 0⟩

/-- A set as the resets leave it: every way invalid, way w of age w (R72, R90). -/
def emptySet : TileSet := Vector.ofFn fun w => DirEntry.invalid w.val

/-- The directory as the resets leave it (R90). -/
def emptyDir : Vector TileSet 64 := Vector.replicate 64 emptySet

/-- An IDLE fault record (R92). -/
def FaultRecord.idle : FaultRecord := ⟨false, 0, 0, 0, 0, none, false, false⟩

/-- A stream record after power-on reset (R40). -/
def Stream.initial : Stream := ⟨.closed, none, 0, none, false, none⟩

/-- A report with nothing held (R137). -/
def Report.empty : Report := ⟨0, [], false⟩

/-- A released position (R137). -/
def KeyPosition.released : KeyPosition := ⟨false, 0, false, false⟩

/-- An event kind that is not pending (R162). -/
def EventSlot.clear : EventSlot := ⟨false, 0, false, 0⟩

/-- A counter after power-on reset or DOCK_RESET (R170). -/
def Counter.initial : Counter := ⟨0, .occurrence, .tileLookup, 0, .anyStreamWaiting⟩

/-- The tracker after power-on reset or DOCK_RESET (R172). -/
def Tracker.initial : Tracker := ⟨none, 0, 0, 0, 0⟩

/-- The Monitor after power-on reset or DOCK_RESET (R170, R172). -/
def Monitor.initial : Monitor := ⟨Vector.replicate 4 Counter.initial, Tracker.initial⟩

/-- The default settings record (R160). -/
def Settings.default : Settings := ⟨4, 150, 1000, 4, 40, 3, 6, 0x3F⟩

/-- The default panel width in blocks (R23). -/
def defaultWidth : Nat := 80
/-- The default panel height in blocks (R23). -/
def defaultHeight : Nat := 50
/-- The default border colour (R26). -/
def defaultBorder : Half := 0
/-- The default undocked colour (R26). -/
def defaultUndocked : Half := 10565
/-- The default backlight level (R133). -/
def defaultLevel : Nat := 8

/-- The default region records for a panel of width by height blocks (R27, R28): region 0 enabled over the whole panel,
regions 1 to 7 disabled; every changed and stale flag set. -/
def defaultRegions (width height : Nat) : Vector Region 8 :=
  Vector.ofFn fun r =>
    if r = 0 then ⟨true, 0, 0, BitVec.ofNat 16 (16 * width), BitVec.ofNat 16 (16 * height), 0, true, true⟩
    else ⟨false, 0, 0, 0, 0, 0, true, true⟩

/-- The default keymap entry of position p in layer 0 (R144). -/
def defaultKey (p : Nat) : KeyEntry :=
  if p < 112 then .ordinary (BitVec.ofNat 8 (p + 1))
  else if p < 120 then .modifier (Fin.ofNat 8 (p - 112))
  else if p = 120 then .layer 1
  else if p = 121 then .layer 2
  else if p = 122 then .localAction .backlightDown
  else if p = 123 then .localAction .backlightUp
  else .none

/-- The default keymap (R144): layers 1 and 2 hold NONE throughout. -/
def defaultKeymap : Vector KeyEntry 384 :=
  Vector.ofFn fun i => if i.val < 128 then defaultKey i.val else .none

end Sys2Proof.Machine
end

