-- ==== Sys2Proof/Machine/State.lean ====
section
/-! DEFINITION. The state of the bridge, the reasons a step can stop, and the machine right after power-on reset. -/

namespace Sys2Proof.Machine

/-- The state of the bridge: one field per block (section 0.3), the settings record, the settings store, the time base, and
the commands that wait. -/
structure State where
  /-- Link Controller -/
  lc : LinkCtl
  /-- Layout Unit -/
  lu : LayoutUnit
  /-- Stream Sequencer -/
  sq : Sequencer
  /-- Draw Engines A and B -/
  de : Engines
  /-- Tile Cache -/
  tc : TileCache
  /-- Tile Fault Unit -/
  tf : FaultUnit
  /-- Frame Store -/
  fs : FrameStore
  /-- Panel Updater -/
  pu : PanelUpdater
  /-- Key Scanner -/
  ks : KeyScanner
  /-- Management Engine -/
  me : Management
  /-- the settings record (R160) -/
  settings : Settings
  /-- Settings Store: the flash array (R164); an unlisted byte is erased and reads 255 -/
  flash : List Host.Cell
  /-- Monitor -/
  mn : Monitor
  /-- the current tick of the time base (section 0.6.4) -/
  tick : Nat
  /-- ticks to the next millisecond of the time base (R171) -/
  msTimer : Nat
  /-- MODEL'S OWN: how many free values have been taken (Config) -/
  free : Nat
  /-- MODEL'S OWN: the commands that wait, first in first out -/
  pending : List Instr
  deriving DecidableEq, Repr

/-- Why a step would stop with a fault: the manual names no occurrence that stops the bridge, so there is no reason. No
command raises one. -/
inductive Fault where
  deriving DecidableEq, Repr

/-- Why a step would be refused. -/
inductive Refusal where
  /-- exec, for a command that has no meaning yet. Safe: nothing is claimed of such a step. No arm uses it. -/
  | notModelled (mnemonic : String)
  deriving DecidableEq, Repr

/-- The machine right after power-on reset with an erased settings store: the image is invalid (R168), so every item takes
its default, STORE_DEFAULTED is pending (R169), the screen holds the undocked colour (R38), and the Panel Updater has made
its first selection: block 0 is in flight with write number 1 (R125, R127, R128). -/
def State.reset : State where
  lc :=
    { link := .down, alignCount := 0, framingCount := 0, failureCount := 0, lossCount := 0, assembly := none
      attachment := .unattached, attachNumber := 0, holdTimer := none, holdCause := none, holdStart := none
      attachCounter := 1, lastCause := none, lastDuration := 0, greet := none, greetRenewed := false
      keys := [], replies := [], tx := none, laneOut := [] }
  lu :=
    { width := defaultWidth, height := defaultHeight, border := defaultBorder, undocked := defaultUndocked
      headerChanged := true, regions := defaultRegions defaultWidth defaultHeight
      apply := none, fillColour := none, imageUsed := false }
  sq := { streams := Vector.replicate 8 Stream.initial, queueA := [], queueB := [], quiesce := .running }
  de := { engineA := none, engineB := none }
  tc := { dir := emptyDir, store := [], sweep := 64 }
  tf := { recA := FaultRecord.idle, recB := FaultRecord.idle }
  fs := { image := imageUniform defaultUndocked, holder := none, waiting := [], began := 0 }
  pu :=
    { dirty := false :: List.replicate (defaultWidth * defaultHeight - 1) true, scan := 1
      inFlight := some ⟨0, 1, Config.blockTimeout⟩, number := 1, streak := 0, halted := false
      port := some ⟨0, 1, List.replicate 256 defaultUndocked, 0⟩
      level := defaultLevel, drivenLevel := defaultLevel, periodTimer := Config.backlightPeriod }
  ks :=
    { positions := Vector.replicate 128 KeyPosition.released, latched := [], report := Report.empty
      keymap := defaultKeymap, scanTimer := Settings.default.scanPeriod, scans := 0 }
  me :=
    { inProgress := none
      events := (Vector.replicate 6 EventSlot.clear).set 5 { EventSlot.clear with pending := true } }
  settings := Settings.default
  flash := []
  mn := Monitor.initial
  tick := 0
  msTimer := Config.ticksPerMs
  free := 0
  pending := []

end Sys2Proof.Machine
end

