-- ==== Sys2Proof/Machine/Flags.lean ====
section
/-! DEFINITION. The sub-events that the blocks offer to the monitor counters, with the bits of section 11.8; the conditions;
counting; and the event pending set. Counting and raising belong together: a counter that reaches its maximum raises
MONITOR_SATURATED, and a raise is itself the sub-event EVENT_RAISED (R163, R171). -/

namespace Sys2Proof.Machine

/-- A sub-event: its group and its bit in the group's unit mask (section 11.8). -/
structure SubEvent where
  group : Group
  bit : Nat
  deriving DecidableEq, Repr

/-! ### Group TILE_LOOKUP: 4 sub-events, bit 0 upward -/

/-- HIT -/
def SubEvent.hit : SubEvent := ⟨.tileLookup, 0⟩
/-- SECTOR_MISS -/
def SubEvent.sectorMiss : SubEvent := ⟨.tileLookup, 1⟩
/-- ABSENT -/
def SubEvent.absent : SubEvent := ⟨.tileLookup, 2⟩
/-- EVICT -/
def SubEvent.evict : SubEvent := ⟨.tileLookup, 3⟩

/-! ### Group TILE_FILL: 5 sub-events, bit 0 upward -/

/-- FILL_PRESENT -/
def SubEvent.fillPresent : SubEvent := ⟨.tileFill, 0⟩
/-- FILL_ALLOCATED -/
def SubEvent.fillAllocated : SubEvent := ⟨.tileFill, 1⟩
/-- FILL_NO_WAY -/
def SubEvent.fillNoWay : SubEvent := ⟨.tileFill, 2⟩
/-- FILL_BAD -/
def SubEvent.fillBad : SubEvent := ⟨.tileFill, 3⟩
/-- FILL_FLUSHED -/
def SubEvent.fillFlushed : SubEvent := ⟨.tileFill, 4⟩

/-! ### Group FAULT: 10 sub-events, bit 0 upward -/

/-- RAISED -/
def SubEvent.raised : SubEvent := ⟨.fault, 0⟩
/-- JOINED -/
def SubEvent.joined : SubEvent := ⟨.fault, 1⟩
/-- WIDENED -/
def SubEvent.widened : SubEvent := ⟨.fault, 2⟩
/-- SLOT_WAIT -/
def SubEvent.slotWait : SubEvent := ⟨.fault, 3⟩
/-- WAY_WAIT -/
def SubEvent.wayWait : SubEvent := ⟨.fault, 4⟩
/-- COMPLETED -/
def SubEvent.completed : SubEvent := ⟨.fault, 5⟩
/-- RETRIED -/
def SubEvent.retried : SubEvent := ⟨.fault, 6⟩
/-- ABANDONED -/
def SubEvent.abandoned : SubEvent := ⟨.fault, 7⟩
/-- CANCELLED -/
def SubEvent.cancelled : SubEvent := ⟨.fault, 8⟩
/-- REPRESENTED -/
def SubEvent.represented : SubEvent := ⟨.fault, 9⟩

/-! ### Group DRAW_FRAME: 13 sub-events, bit 0 upward -/

/-- ACCEPTED -/
def SubEvent.accepted : SubEvent := ⟨.drawFrame, 0⟩
/-- MALFORMED -/
def SubEvent.malformed : SubEvent := ⟨.drawFrame, 1⟩
/-- CLOSED_STREAM -/
def SubEvent.closedStream : SubEvent := ⟨.drawFrame, 2⟩
/-- HELD_OFF -/
def SubEvent.heldOff : SubEvent := ⟨.drawFrame, 3⟩
/-- GAP -/
def SubEvent.gap : SubEvent := ⟨.drawFrame, 4⟩
/-- DUPLICATE -/
def SubEvent.duplicate : SubEvent := ⟨.drawFrame, 5⟩
/-- NO_ROOM -/
def SubEvent.noRoom : SubEvent := ⟨.drawFrame, 6⟩
/-- COMMAND_SKIPPED -/
def SubEvent.commandSkipped : SubEvent := ⟨.drawFrame, 7⟩
/-- PLACE_DRAWN -/
def SubEvent.placeDrawn : SubEvent := ⟨.drawFrame, 8⟩
/-- FILL_DRAWN -/
def SubEvent.fillDrawn : SubEvent := ⟨.drawFrame, 9⟩
/-- SCROLL_DRAWN -/
def SubEvent.scrollDrawn : SubEvent := ⟨.drawFrame, 10⟩
/-- CLIPPED -/
def SubEvent.clipped : SubEvent := ⟨.drawFrame, 11⟩
/-- KEY_ZERO -/
def SubEvent.keyZero : SubEvent := ⟨.drawFrame, 12⟩

/-! ### Group SHED: 4 sub-events, bit 0 upward -/

/-- SHED_RUN -/
def SubEvent.shedRun : SubEvent := ⟨.shed, 0⟩
/-- COMMANDS_SHED -/
def SubEvent.commandsShed : SubEvent := ⟨.shed, 1⟩
/-- SHED_NONE -/
def SubEvent.shedNone : SubEvent := ⟨.shed, 2⟩
/-- REBALANCE_MOVE -/
def SubEvent.rebalanceMove : SubEvent := ⟨.shed, 3⟩

/-! ### Group LINK: 19 sub-events, bit 0 upward -/

/-- CHECK_FAIL -/
def SubEvent.checkFail : SubEvent := ⟨.link, 0⟩
/-- FRAME_CUT -/
def SubEvent.frameCut : SubEvent := ⟨.link, 1⟩
/-- BAD_FRAME -/
def SubEvent.badFrame : SubEvent := ⟨.link, 2⟩
/-- NOT_ATTACHED -/
def SubEvent.notAttached : SubEvent := ⟨.link, 3⟩
/-- LINK_DOWN -/
def SubEvent.linkDown : SubEvent := ⟨.link, 4⟩
/-- LINK_REALIGN -/
def SubEvent.linkRealign : SubEvent := ⟨.link, 5⟩
/-- LINK_UP -/
def SubEvent.linkUp : SubEvent := ⟨.link, 6⟩
/-- HOLD_START -/
def SubEvent.holdStart : SubEvent := ⟨.link, 7⟩
/-- REATTACH -/
def SubEvent.reattach : SubEvent := ⟨.link, 8⟩
/-- TEARDOWN -/
def SubEvent.teardown : SubEvent := ⟨.link, 9⟩
/-- TX_CUT -/
def SubEvent.txCut : SubEvent := ⟨.link, 10⟩
/-- REQ_TAKEN -/
def SubEvent.reqTaken : SubEvent := ⟨.link, 11⟩
/-- REQ_BUSY -/
def SubEvent.reqBusy : SubEvent := ⟨.link, 12⟩
/-- REQ_DISCARDED -/
def SubEvent.reqDiscarded : SubEvent := ⟨.link, 13⟩
/-- EVENT_RAISED -/
def SubEvent.eventRaised : SubEvent := ⟨.link, 14⟩
/-- EVENT_SENT -/
def SubEvent.eventSent : SubEvent := ⟨.link, 15⟩
/-- ERASE_DONE -/
def SubEvent.eraseDone : SubEvent := ⟨.link, 16⟩
/-- PROGRAM_DONE -/
def SubEvent.programDone : SubEvent := ⟨.link, 17⟩
/-- PROGRAM_MISMATCH -/
def SubEvent.programMismatch : SubEvent := ⟨.link, 18⟩

/-! ### Group PANEL: 10 sub-events, bit 0 upward -/

/-- LAYOUT_REFUSED -/
def SubEvent.layoutRefused : SubEvent := ⟨.panel, 0⟩
/-- LAYOUT_APPLY -/
def SubEvent.layoutApply : SubEvent := ⟨.panel, 1⟩
/-- TEARDOWN_FILL -/
def SubEvent.teardownFill : SubEvent := ⟨.panel, 2⟩
/-- BLOCK_SENT -/
def SubEvent.blockSent : SubEvent := ⟨.panel, 3⟩
/-- BLOCK_DONE -/
def SubEvent.blockDone : SubEvent := ⟨.panel, 4⟩
/-- LATE_ACK -/
def SubEvent.lateAck : SubEvent := ⟨.panel, 5⟩
/-- BLOCK_TIMEOUT -/
def SubEvent.blockTimeout : SubEvent := ⟨.panel, 6⟩
/-- PANEL_HALT -/
def SubEvent.panelHalt : SubEvent := ⟨.panel, 7⟩
/-- RESTARTED -/
def SubEvent.restarted : SubEvent := ⟨.panel, 8⟩
/-- BACKLIGHT_CHANGE -/
def SubEvent.backlightChange : SubEvent := ⟨.panel, 9⟩

/-! ### Group KEYS: 11 sub-events, bit 0 upward -/

/-- SCAN -/
def SubEvent.scan : SubEvent := ⟨.keys, 0⟩
/-- CHATTER -/
def SubEvent.chatter : SubEvent := ⟨.keys, 1⟩
/-- PRESS_ACCEPTED -/
def SubEvent.pressAccepted : SubEvent := ⟨.keys, 2⟩
/-- RELEASE_ACCEPTED -/
def SubEvent.releaseAccepted : SubEvent := ⟨.keys, 3⟩
/-- GHOST_WITHHELD -/
def SubEvent.ghostWithheld : SubEvent := ⟨.keys, 4⟩
/-- GHOST_RESOLVED -/
def SubEvent.ghostResolved : SubEvent := ⟨.keys, 5⟩
/-- LOCAL_ACTION -/
def SubEvent.localAction : SubEvent := ⟨.keys, 6⟩
/-- REPORT_BUILT -/
def SubEvent.reportBuilt : SubEvent := ⟨.keys, 7⟩
/-- REPORT_QUEUED -/
def SubEvent.reportQueued : SubEvent := ⟨.keys, 8⟩
/-- REPORT_COALESCED -/
def SubEvent.reportCoalesced : SubEvent := ⟨.keys, 9⟩
/-- REATTACH_SNAPSHOT -/
def SubEvent.reattachSnapshot : SubEvent := ⟨.keys, 10⟩

/-- The number of sub-events of a group (section 11.8). -/
def groupSize : Group → Nat
  | .tileLookup => 4
  | .tileFill => 5
  | .fault => 10
  | .drawFrame => 13
  | .shed => 4
  | .link => 19
  | .panel => 10
  | .keys => 11

/-! ### Codes of section 11.8 -/

/-- The group of a code, if it names one. -/
def groupOfCode (c : Byte) : Option Group :=
  [Group.tileLookup, .tileFill, .fault, .drawFrame, .shed, .link, .panel, .keys][c.toNat]?

/-- The code of a group. -/
def groupCode : Group → Byte
  | .tileLookup => 0
  | .tileFill => 1
  | .fault => 2
  | .drawFrame => 3
  | .shed => 4
  | .link => 5
  | .panel => 6
  | .keys => 7

/-- The mode of a code, if it names one. -/
def modeOfCode (c : Byte) : Option CounterMode :=
  [CounterMode.occurrence, .conditionTime, .conditionEdge][c.toNat]?

/-- The code of a mode. -/
def modeCode : CounterMode → Byte
  | .occurrence => 0
  | .conditionTime => 1
  | .conditionEdge => 2

/-- The condition of a code, if it names one. -/
def conditionOfCode (c : Byte) : Option Condition :=
  [Condition.anyStreamWaiting, .sideQueueFull, .quiesceNotRunning, .engineBusy, .attachmentHeld][c.toNat]?

/-- The code of a condition. -/
def conditionCode : Condition → Byte
  | .anyStreamWaiting => 0
  | .sideQueueFull => 1
  | .quiesceNotRunning => 2
  | .engineBusy => 3
  | .attachmentHeld => 4

/-! ### Conditions -/

/-- Whether a stream is in a wait state (R69). -/
def StreamState.waits : StreamState → Bool
  | .waitTile => true
  | .waitSlot => true
  | .waitWay => true
  | .closed => false
  | .ready => false

/-- Whether a condition of the monitor holds (R69, R124, section 1.8). -/
def holds (s : State) : Condition → Bool
  | .anyStreamWaiting => s.sq.streams.toList.any fun r => r.state.waits
  | .sideQueueFull => s.sq.queueA.length == Config.sideDepth || s.sq.queueB.length == Config.sideDepth
  | .quiesceNotRunning => s.sq.quiesce != .running
  | .engineBusy => s.de.engineA.isSome || s.de.engineB.isSome
  | .attachmentHeld => s.lc.attachment == .held

/-! ### The event pending set (R162) -/

/-- The number of an event kind (R162). -/
def EventKind.number : EventKind → Fin 6
  | .linkResumed => 0
  | .regionStale => 1
  | .backlight => 2
  | .panelHalted => 3
  | .monitorSaturated => 4
  | .storeDefaulted => 5

/-- The two kinds whose raises accumulate a mask (R162). -/
def EventKind.accumulates : EventKind → Bool
  | .regionStale => true
  | .monitorSaturated => true
  | .linkResumed => false
  | .backlight => false
  | .panelHalted => false
  | .storeDefaulted => false

/-- The two kinds whose detail each raise replaces (R162). -/
def EventKind.replaces : EventKind → Bool
  | .linkResumed => true
  | .backlight => true
  | .regionStale => false
  | .monitorSaturated => false
  | .panelHalted => false
  | .storeDefaulted => false

/-- The slot of a kind. -/
def eventSlot (k : EventKind) (s : State) : EventSlot := s.me.events[k.number]

/-- Replaces the slot of a kind. -/
def setEventSlot (k : EventKind) (e : EventSlot) (s : State) : State :=
  { s with me.events := s.me.events.set k.number e }

/-- Whether the enable of a kind is set in the settings record (R160). -/
def eventEnabled (k : EventKind) (s : State) : Bool := s.settings.enables.getLsbD k.number.val

/-- Whether an EVENT transmission of the kind is in progress. -/
def eventOnLane (k : EventKind) (s : State) : Bool := s.lc.tx.any fun t => t.item == .event k

/-- A raise of an enabled kind (R162): the flag is set; the detail is replaced, accumulated or left as the kind's row says;
during the kind's own transmission the renewed mark is set, and an accumulated mask also joins the renewal mask. -/
def raisedSlot (k : EventKind) (detail : BitVec 24) (onLane : Bool) (e : EventSlot) : EventSlot where
  pending := true
  detail :=
    if k.accumulates then (if e.pending then e.detail ||| detail else detail)
    else if k.replaces then detail
    else e.detail
  renewed := e.renewed || onLane
  renewal := if k.accumulates && onLane then e.renewal ||| detail else e.renewal

/-! ### Counting (R171) -/

/-- Whether an occurrence of u adds to counter c (R171). -/
def Counter.selects (u : SubEvent) (c : Counter) : Bool :=
  c.mode == .occurrence && c.group == u.group && c.mask.getLsbD u.bit

/-- An addition to a counter, saturating (R171). -/
def Counter.add (n : Nat) (c : Counter) : Counter := { c with value := min (c.value + n) Config.maxCount }

/-- Whether an addition first brings the counter to its maximum (R171). -/
def Counter.saturates (n : Nat) (c : Counter) : Bool :=
  c.value < Config.maxCount && Config.maxCount ≤ c.value + n

/-- Adds n to every counter that p selects. -/
def addCounters (p : Counter → Bool) (n : Nat) (s : State) : State :=
  let counters := Vector.ofFn fun i => if p s.mn.counters[i] then s.mn.counters[i].add n else s.mn.counters[i]
  { s with mn.counters := counters }

/-- The counters that p selects and that the addition of n first brings to their maximum, lowest number first. -/
def newlySaturated (p : Counter → Bool) (n : Nat) (s : State) : List (Fin 4) :=
  (List.finRange 4).filter fun i => p s.mn.counters[i] && s.mn.counters[i].saturates n

/-- Adds n to every counter that p selects. Each counter that first reaches its maximum raises MONITOR_SATURATED with a mask
naming it (R171), and a raise taken is counted as EVENT_RAISED (R163). A counter reaches its maximum once, so four
levels of such raises are all there can be; the fuel 5 covers them. -/
def addWhere : Nat → (Counter → Bool) → Nat → State → State
  | 0, _, _, s => s
  | fuel + 1, p, n, s =>
    (newlySaturated p n s).foldl (fun t i =>
      if eventEnabled .monitorSaturated t then
        addWhere fuel (Counter.selects SubEvent.eventRaised) 1
          (setEventSlot .monitorSaturated
            (raisedSlot .monitorSaturated (BitVec.ofNat 24 (2 ^ i.val)) (eventOnLane .monitorSaturated t)
              (eventSlot .monitorSaturated t)) t)
      else t) (addCounters p n s)

/-- Counts n occurrences of a sub-event (R171). -/
def countN (u : SubEvent) (n : Nat) (s : State) : State :=
  if n = 0 then s else addWhere 5 (Counter.selects u) n s

/-- Counts one occurrence of a sub-event (R171). -/
def count (u : SubEvent) (s : State) : State := countN u 1 s

/-- Raises an event kind with a detail (R162): nothing when its enable is clear, else the slot's new value, counted. -/
def raiseEvent (k : EventKind) (detail : BitVec 24) (s : State) : State :=
  if eventEnabled k s then
    count .eventRaised (setEventSlot k (raisedSlot k detail (eventOnLane k s) (eventSlot k s)) s)
  else s

/-- CONDITION_EDGE (R171): each counter in that mode adds 1 if its condition did not hold before the event and holds after
it. -/
def countEdges (before after : State) : State :=
  addWhere 5 (fun c => c.mode == .conditionEdge && !holds before c.condition && holds after c.condition) 1 after

/-- CONDITION_TIME (R171): each counter in that mode adds 1 if its condition holds at the millisecond. -/
def countMillisecond (s : State) : State :=
  addWhere 5 (fun c => c.mode == .conditionTime && holds s c.condition) 1 s

/-! ### The latency tracker (R172) -/

/-- An addition of 1 to a count of the tracker, saturating (R172). -/
def bump (n : Nat) : Nat := min (n + 1) Config.maxCount

/-- The tracker arms on a fault being raised, unless it already follows one (R172). -/
def trackRaise (side : Side) (key : Word) (s : State) : State :=
  if s.mn.tracker.armed.isSome then s
  else { s with mn.tracker.armed := some ⟨side, key, s.tick⟩ }

/-- Completion of a record: if the tracker follows it, the latency is recorded and the tracker disarms (R172). -/
def trackComplete (side : Side) (s : State) : State :=
  match s.mn.tracker.armed with
  | some t =>
    if t.side = side then
      let latency := min (s.tick - t.start) Config.maxCount
      { s with mn.tracker := ⟨none, latency, max s.mn.tracker.max latency, bump s.mn.tracker.completed, s.mn.tracker.lost⟩ }
    else s
  | none => s

/-- Loss of a record: if the tracker follows it, it is counted lost and the tracker disarms (R172). -/
def trackLost (side : Side) (s : State) : State :=
  match s.mn.tracker.armed with
  | some t =>
    if t.side = side then
      { s with mn.tracker.armed := none, mn.tracker.lost := bump s.mn.tracker.lost }
    else s
  | none => s

/-- Teardown: a followed fault is counted lost, whichever side it is on (R106, R172). -/
def trackTeardown (s : State) : State := trackLost .b (trackLost .a s)

end Sys2Proof.Machine
end

