-- ==== Sys2Proof/Machine/Operands.lean ====
section
/-! DEFINITION. The operand forms of chapter 11: the frame check, draw command encodings, settings and keymap values, table
entry layouts and code numbers. -/

namespace Sys2Proof.Machine

/-! ### The frame check (R173) -/

/-- One shift of the check register (R173). -/
def crcShift (r : Half) : Half := if r.msb then (r <<< 1) ^^^ 0x1021 else r <<< 1

/-- One byte into the check register (R173): exclusive-ORed into the upper 8 bits, then eight shifts. -/
def crcByte (r : Half) (b : Byte) : Half :=
  (List.range 8).foldl (fun acc _ => crcShift acc) (r ^^^ (b ++ (0 : Byte)))

/-- The frame check of a header and payload (R173). -/
def frameCheck (bs : List Byte) : Half := bs.foldl crcByte 65535

/-- A whole upstream frame: kind, payload length, payload, check (section 11.1). -/
def buildFrame (kind : Byte) (payload : List Byte) : List Byte :=
  let body := kind :: BitVec.ofNat 8 payload.length :: payload
  body ++ le16 (frameCheck body)

/-- The bytes of a frame cut after n of them: the bytes sent, then their check with every bit inverted (R173). -/
def cutFrame (frame : List Byte) (n : Nat) : List Byte :=
  frame.take n ++ le16 (~~~ frameCheck (frame.take n))

/-- The symbol groups of a frame on the lane (R3, section 11.1): a start delimiter, a data group for each byte, an end
delimiter. -/
def frameGroups (frame : List Byte) : List SymbolGroup :=
  .startDelimiter :: frame.map .data ++ [.endDelimiter]

/-- Whether a closed frame passes the frame check (R3): a whole header and check, the payload length as received, at most
160, and the check equal to the one computed. -/
def framePasses (bs : List Byte) : Bool :=
  let n := (byteAt bs 1).toNat
  4 ≤ bs.length && bs.length == n + 4 && n ≤ Config.maxPayload && halfAt bs (n + 2) == frameCheck (bs.take (n + 2))

/-! ### Draw commands (section 11.4) -/

/-- A coordinate: bits 0 to 11 as two's complement; the bits above are ignored (R175). -/
def coordinate (v : Half) : Int := (v.setWidth 12).toInt

/-- A size: bits 0 to 10 hold it less 1; the bits above are ignored (R175). -/
def sizeOf11 (v : Half) : Nat := (v.setWidth 11).toNat + 1

/-- The command at the front of a byte list, with the bytes after it; none when its form byte is not 1 to 4 or it runs past
the end (section 11.4). -/
def parseCommand (bs : List Byte) : Option (DrawCommand × List Byte) :=
  let form := byteAt bs 0
  if form = 1 ∧ 9 ≤ bs.length then
    some (.place (wordAt bs 1) (coordinate (halfAt bs 5)) (coordinate (halfAt bs 7)) none, bs.drop 9)
  else if form = 2 ∧ 11 ≤ bs.length then
    some (.place (wordAt bs 1) (coordinate (halfAt bs 5)) (coordinate (halfAt bs 7)) (some (halfAt bs 9)), bs.drop 11)
  else if form = 3 ∧ 11 ≤ bs.length then
    some (.fill (halfAt bs 1) (coordinate (halfAt bs 3)) (coordinate (halfAt bs 5)) (sizeOf11 (halfAt bs 7))
      (sizeOf11 (halfAt bs 9)), bs.drop 11)
  else if form = 4 ∧ 5 ≤ bs.length then
    some (.scroll (coordinate (halfAt bs 1)) (coordinate (halfAt bs 3)), bs.drop 5)
  else none

/-- Reads at most n whole commands that fill the bytes exactly. -/
def parseCommands : Nat → List Byte → Option (List DrawCommand)
  | _, [] => some []
  | 0, _ :: _ => none
  | n + 1, b :: rest =>
    match parseCommand (b :: rest) with
    | some (c, after) => (parseCommands n after).map fun cs => c :: cs
    | none => none

/-- The 1 to 8 commands of a DRAW payload from offset 3 on; none when the payload is malformed (R50). -/
def parseDraw (bs : List Byte) : Option (List DrawCommand) :=
  match parseCommands 8 bs with
  | some (c :: cs) => some (c :: cs)
  | some [] => none
  | none => none

/-! ### Settings (R160) -/

/-- Brings a value into a range. -/
def clamp (lo hi v : Nat) : Nat := min hi (max lo v)

/-- The scan period held for a written value: lowered to a multiple of 250, then brought into 500 to 4000 (R160). -/
def clampScan (v : Nat) : Nat := clamp 500 4000 (v / 250 * 250)

/-- The settings record for the items as written, each brought into its range (R160). -/
def settingsOf (lossLimit holdTime : Byte) (scanPeriod : Half) (depth faultTimeout retryLimit shedThreshold enables : Byte) :
    Settings where
  lossLimit := clamp 1 15 lossLimit.toNat
  holdTime := clamp 1 255 holdTime.toNat
  scanPeriod := clampScan scanPeriod.toNat
  depth := clamp 1 15 depth.toNat
  faultTimeout := clamp 1 255 faultTimeout.toNat
  retryLimit := clamp 0 7 retryLimit.toNat
  shedThreshold := clamp 2 16 shedThreshold.toNat
  enables := enables.setWidth 6

/-- The settings record of the ten bytes of a SETTINGS entry (section 11.7). -/
def settingsOfEntry (e : List Byte) : Settings :=
  settingsOf (byteAt e 0) (byteAt e 1) (halfAt e 2) (byteAt e 4) (byteAt e 5) (byteAt e 6) (byteAt e 7) (byteAt e 8)

/-! ### Keymap entries (R144, R148, section 11.7) -/

/-- The keymap entry of a class and value byte; none when the class is unknown or the value outside its range (R148). The
value of a NONE entry is not taken. -/
def keyEntryOf (cls value : Byte) : Option KeyEntry :=
  if cls = 0 then some .none
  else if cls = 1 then (if value = 0 then none else some (.ordinary value))
  else if cls = 2 then (if value.toNat < 8 then some (.modifier (Fin.ofNat 8 value.toNat)) else none)
  else if cls = 3 then (if value = 1 then some (.layer 1) else if value = 2 then some (.layer 2) else none)
  else if cls = 4 then
    (if value = 1 then some (.localAction .backlightUp)
     else if value = 2 then some (.localAction .backlightDown) else none)
  else none

/-- The class and value bytes of a keymap entry (section 11.7). -/
def keyEntryBytes : KeyEntry → List Byte
  | .none => [0, 0]
  | .ordinary code => [1, code]
  | .modifier index => [2, BitVec.ofNat 8 index.val]
  | .layer n => [3, BitVec.ofNat 8 n.val]
  | .localAction .backlightUp => [4, 1]
  | .localAction .backlightDown => [4, 2]

/-! ### Code numbers of chapter 11 -/

/-- Status codes (section 11.9). -/
def Status.code : Status → Byte
  | .ok => 0
  | .busy => 1
  | .badRequest => 2
  | .badTable => 3
  | .badIndex => 4
  | .badValue => 5
  | .readOnly => 6
  | .notQuiesced => 7
  | .streamIsOpen => 8
  | .streamClosed => 9
  | .regionDisabled => 10
  | .overlap => 11
  | .notPresent => 12
  | .pinLimit => 13
  | .storeMismatch => 14

/-- Outcome codes of a GREET (section 11.5). -/
def GreetOutcome.code : GreetOutcome → Byte
  | .newSession => 1
  | .resumed => 2
  | .repeated => 3

/-- Reason codes of a REWIND (section 11.5). -/
def RewindReason.code : RewindReason → Byte
  | .gap => 1
  | .shed => 2
  | .quiesceEnd => 3
  | .reattach => 4

/-- Cause codes (sections 11.5, 11.7). -/
def DepartCause.code : DepartCause → Byte
  | .lossDetector => 1
  | .frameErrors => 2

/-- Link state codes (section 11.7). -/
def LinkState.code : LinkState → Byte
  | .down => 0
  | .aligning => 1
  | .framing => 2
  | .up => 3

/-- Attachment codes (section 11.7). -/
def Attachment.code : Attachment → Byte
  | .unattached => 0
  | .attached => 1
  | .held => 2

/-- Stream state codes (section 11.7). -/
def StreamState.code : StreamState → Byte
  | .closed => 0
  | .ready => 1
  | .waitTile => 2
  | .waitSlot => 3
  | .waitWay => 4

/-- Quiesce state codes (section 11.7). -/
def QuiesceState.code : QuiesceState → Byte
  | .running => 0
  | .quiescing => 1
  | .quiesced => 2

/-- Side codes (sections 11.5, 11.7). -/
def sideCode : Side → Byte
  | .a => 0
  | .b => 1

/-- A flag as bit n of a byte. -/
def flagBit (b : Bool) (n : Nat) : Byte := if b then BitVec.ofNat 8 (2 ^ n) else 0

/-- A number as one byte of a table entry. -/
def byteOf (n : Nat) : Byte := BitVec.ofNat 8 n

/-- A number as two bytes of a table entry. -/
def bytes2 (n : Nat) : List Byte := le16 (BitVec.ofNat 16 n)

/-- A number as four bytes of a table entry. -/
def bytes4 (n : Nat) : List Byte := le32 (BitVec.ofNat 32 n)

/-! ### Region entries (section 11.7) -/

/-- The eleven bytes of a LAYOUT region entry. -/
def regionBytes (r : Region) : List Byte :=
  [flagBit r.enabled 0 ||| flagBit r.changed 1 ||| flagBit r.stale 2] ++ le16 r.ox ++ le16 r.oy ++ le16 r.rw ++ le16 r.rh ++
    le16 r.background

/-- A region as stored in the settings image: bit 0 of the flags is read, and the changed and stale flags are set (R28). -/
def regionOfEntry (e : List Byte) : Region :=
  ⟨(byteAt e 0).getLsbD 0, halfAt e 1, halfAt e 3, halfAt e 5, halfAt e 7, halfAt e 9, true, true⟩

/-- The validity of an enabled region on a panel of width by height blocks (R27). -/
def regionFits (width height : Nat) (ox oy rw rh : Half) : Bool :=
  16 ≤ rw.toNat && 16 ≤ rh.toNat && ox.toNat + rw.toNat ≤ 16 * width && oy.toNat + rh.toNat ≤ 16 * height

/-- Whether two rectangles share a pixel: each one's first column and row is at most the other's last (R27). -/
def rectsOverlap (ox oy rw rh ox' oy' rw' rh' : Half) : Bool :=
  ox.toNat < ox'.toNat + rw'.toNat && ox'.toNat < ox.toNat + rw.toNat &&
  oy.toNat < oy'.toNat + rh'.toNat && oy'.toNat < oy.toNat + rh.toNat

end Sys2Proof.Machine
end

