-- ==== Sys2Proof/Machine/Ops.lean ====
section
/-! DEFINITION. The named reads and updates of State, and the operations that every block shares: the upstream lane and its
arbiter, posting a reply, and the end of an event. -/

namespace Sys2Proof.Machine

/-- What a step answers. -/
abbrev Result := Host.Outcome State Fault Refusal

/-! ### Reads and updates by side, stream and region -/

/-- The other side. -/
def otherSide : Side → Side
  | .a => .b
  | .b => .a

/-- The side queue of a side (R46). -/
def queueOf (side : Side) (s : State) : List Entry :=
  match side with
  | .a => s.sq.queueA
  | .b => s.sq.queueB

/-- Replaces the side queue of a side. -/
def setQueue (side : Side) (q : List Entry) (s : State) : State :=
  match side with
  | .a => { s with sq.queueA := q }
  | .b => { s with sq.queueB := q }

/-- The stream record of a stream (R40). -/
def streamOf (i : Fin 8) (s : State) : Stream := s.sq.streams[i]

/-- Replaces a stream record. -/
def setStream (i : Fin 8) (r : Stream) (s : State) : State := { s with sq.streams := s.sq.streams.set i r }

/-- Changes every stream record by its number. -/
def mapStreams (f : Fin 8 → Stream → Stream) (s : State) : State :=
  let streams := Vector.ofFn fun i => f i s.sq.streams[i]
  { s with sq.streams := streams }

/-- Whether a stream is open (R41). -/
def isOpen (i : Fin 8) (s : State) : Bool := (streamOf i s).state != .closed

/-- The queued item of a stream (R41): the number of its entries in the queue of its side; 0 when it has no side. -/
def queued (i : Fin 8) (s : State) : Nat :=
  match (streamOf i s).side with
  | some side => (queueOf side s).countP fun e => e.stream == i
  | none => 0

/-- The open count of a side (R41). -/
def openCount (side : Side) (s : State) : Nat :=
  (List.finRange 8).countP fun i => isOpen i s && (streamOf i s).side == some side

/-- The record under execution of a side's engine; none when the engine is FREE (R108). -/
def engineOf (side : Side) (s : State) : Option ExecRecord :=
  match side with
  | .a => s.de.engineA
  | .b => s.de.engineB

/-- Replaces the record under execution of a side's engine. -/
def setEngine (side : Side) (r : Option ExecRecord) (s : State) : State :=
  match side with
  | .a => { s with de.engineA := r }
  | .b => { s with de.engineB := r }

/-- The fault record of a side (R92). -/
def recordOf (side : Side) (s : State) : FaultRecord :=
  match side with
  | .a => s.tf.recA
  | .b => s.tf.recB

/-- Replaces the fault record of a side. -/
def setRecord (side : Side) (r : FaultRecord) (s : State) : State :=
  match side with
  | .a => { s with tf.recA := r }
  | .b => { s with tf.recB := r }

/-- The region record of a region (R27). -/
def regionOf (i : Fin 8) (s : State) : Region := s.lu.regions[i]

/-- Replaces a region record. -/
def setRegion (i : Fin 8) (r : Region) (s : State) : State := { s with lu.regions := s.lu.regions.set i r }

/-- Changes every region record by its number. -/
def mapRegions (f : Fin 8 → Region → Region) (s : State) : State :=
  let regions := Vector.ofFn fun i => f i s.lu.regions[i]
  { s with lu.regions := regions }

/-- The mask of the streams or regions for which p holds. -/
def maskOf (p : Fin 8 → Bool) : BitVec 8 :=
  (List.finRange 8).foldl (fun m i => if p i then m ||| BitVec.ofNat 8 (2 ^ i.val) else m) 0

/-- The members of a mask, lowest first. -/
def membersOf (m : BitVec 8) : List (Fin 8) := (List.finRange 8).filter fun i => m.getLsbD i.val

/-- Takes one free value: the count of them advances. -/
def takeFree (s : State) : State := { s with free := s.free + 1 }

/-! ### Identity and upstream frames (sections 9.2, 11.2, 11.5) -/

/-- The part identity: the eight bytes of the IDENT entry (section 11.7). -/
def identBytes (s : State) : List Byte :=
  le16 Config.vendorNumber ++ le16 Config.partNumber ++
    [Config.siliconRevision, byteOf s.lu.width, byteOf s.lu.height, flagBit s.lu.imageUsed 0]

/-- The eleven bytes of a KEYS payload (section 11.5). -/
def keysBytes (r : Report) : List Byte :=
  [r.mods, flagBit r.overflow 0, byteOf r.codes.length] ++ (r.codes ++ List.replicate (8 - r.codes.length) 0)

/-- The seven bytes of a FAULT payload (section 11.5). -/
def faultBytes (side : Side) (r : FaultRecord) : List Byte :=
  sideCode side :: le32 r.key ++ [r.needed.setWidth 8, byteOf r.tries]

/-- The four bytes of a REWIND payload (R59, section 11.5). -/
def rewindBytes (i : Fin 8) (r : Stream) : List Byte :=
  byteOf i.val :: le16 r.expected ++ [(r.rewind.map RewindReason.code).getD 0]

/-- A REPLY payload (section 11.5). -/
def replyBytes (r : Reply) : List Byte := [r.tag, r.kind, r.status.code] ++ r.data

/-- The four bytes of an EVENT payload (section 11.5). -/
def eventBytes (k : EventKind) (e : EventSlot) : List Byte :=
  [byteOf k.number.val, e.detail.extractLsb' 0 8, e.detail.extractLsb' 8 8, e.detail.extractLsb' 16 8]

/-- The frame of an item, its contents taken at transmission start (R17). -/
def frameOf (item : TxItem) (s : State) : List Byte :=
  match item with
  | .greet =>
    buildFrame 0x11 ((s.lc.greet.map GreetOutcome.code).getD 0 :: le32 s.lc.attachNumber ++ identBytes s)
  | .keys => buildFrame 0x12 (keysBytes (s.lc.keys.headD Report.empty))
  | .fault side => buildFrame 0x13 (faultBytes side (recordOf side s))
  | .rewind i => buildFrame 0x14 (rewindBytes i (streamOf i s))
  | .reply => buildFrame 0x15 ((s.lc.replies.head?.map replyBytes).getD [])
  | .event k => buildFrame 0x16 (eventBytes k (eventSlot k s))

/-! ### The upstream arbiter (R17 to R19) -/

/-- The stream whose rewind is sent next: the lowest flagged (R18). -/
def nextRewind (s : State) : Option (Fin 8) := (List.finRange 8).find? fun i => (streamOf i s).rewind.isSome

/-- The event kind sent next: the lowest pending (R18). -/
def nextEvent (s : State) : Option EventKind :=
  [EventKind.linkResumed, .regionStale, .backlight, .panelHalted, .monitorSaturated, .storeDefaulted].find?
    fun k => (eventSlot k s).pending

/-- The item the arbiter would take: the first class of R17 with something waiting, and within it the order of R18. -/
def nextItem (s : State) : Option TxItem :=
  if s.lc.greet.isSome then some .greet
  else if !s.lc.keys.isEmpty then some .keys
  else if s.tf.recA.send then some (.fault .a)
  else if s.tf.recB.send then some (.fault .b)
  else match nextRewind s with
    | some i => some (.rewind i)
    | none =>
      if !s.lc.replies.isEmpty then some .reply
      else (nextEvent s).map .event

/-- Whether the arbiter selects: the lane free, the link UP and the attachment ATTACHED (R18). -/
def mayTransmit (s : State) : Bool := s.lc.tx.isNone && s.lc.link == .up && s.lc.attachment == .attached

/-- At the start of an EVENT transmission the renewal mask is emptied (R163). -/
def emptyRenewal (item : TxItem) (s : State) : State :=
  match item with
  | .event k => setEventSlot k { eventSlot k s with renewal := 0 } s
  | .greet => s
  | .keys => s
  | .fault _ => s
  | .rewind _ => s
  | .reply => s

/-- The arbiter's selection (R18): when it may select and something waits, the first item's frame is built and its
transmission starts. -/
def arbitrate (s : State) : State :=
  if mayTransmit s then
    match nextItem s with
    | some item => emptyRenewal item { s with lc.tx := some ⟨item, frameOf item s⟩ }
    | none => s
  else s

/-- Whether a symbol group is one that the upstream lane carries in a state: during a transmission the groups of its frame;
between frames filler and nothing else, in every link state (R173, section 1.6). -/
def laneCarries (s : State) (g : SymbolGroup) : Bool :=
  match s.lc.tx with
  | some t => (frameGroups t.frame).contains g
  | none => g == .filler

/-- The end of an event: condition edges are counted between the state before it and after it (R171), and the arbiter
selects from what then waits (R18). -/
def conclude (before after : State) : State := arbitrate (countEdges before after)

/-- The renewed mark that a cut clears: GREET's (R17) and an event kind's (R163). A cut changes no fault or stream record. -/
def cutMark (item : TxItem) (s : State) : State :=
  match item with
  | .greet => { s with lc.greetRenewed := false }
  | .event k => setEventSlot k { eventSlot k s with renewed := false } s
  | .keys => s
  | .fault _ => s
  | .rewind _ => s
  | .reply => s

/-- Cuts the transmission in progress, if there is one (R19): the frame is closed after the bytes already sent with a wrong
check and an end delimiter (R173), its item stays where it was, and TX_CUT is counted. How many bytes had left is a free value. -/
def cutTx (s : State) : State :=
  match s.lc.tx with
  | some t =>
    let sent := Config.bytesSent s.free % t.frame.length
    count .txCut (cutMark t.item (takeFree { s with lc.tx := none, lc.laneOut := frameGroups (cutFrame t.frame sent) }))
  | none => s

/-- Completion of an item's transmission (R19): the report or reply is removed; the flag or pending kind is cleared, or kept
as renewed. -/
def completeItem (item : TxItem) (s : State) : State :=
  match item with
  | .greet => if s.lc.greetRenewed then { s with lc.greetRenewed := false } else { s with lc.greet := none }
  | .keys => { s with lc.keys := s.lc.keys.tail }
  | .fault side =>
    let r := recordOf side s
    setRecord side (if r.renewed then { r with renewed := false } else { r with send := false }) s
  | .rewind i =>
    let r := streamOf i s
    setStream i (if r.renewed then { r with renewed := false } else { r with rewind := none }) s
  | .reply => { s with lc.replies := s.lc.replies.tail }
  | .event k =>
    let e := eventSlot k s
    count .eventSent (setEventSlot k
      (if e.renewed then { e with renewed := false, detail := if k.accumulates then e.renewal else e.detail }
       else { e with pending := false, detail := 0 }) s)

/-- Flags GREET with an outcome (R17). -/
def flagGreet (o : GreetOutcome) (s : State) : State :=
  let onLane := s.lc.tx.any fun t => t.item == .greet
  if o = .repeated then (if s.lc.greet.isSome then s else { s with lc.greet := some o })
  else { s with lc.greet := some o, lc.greetRenewed := s.lc.greetRenewed || onLane }

/-- Flags a rewind on a stream (R58): the reason is set or replaced; during a REWIND transmission for the stream the renewed
mark is set too. -/
def flagRewind (reason : RewindReason) (i : Fin 8) (s : State) : State :=
  let onLane := s.lc.tx.any fun t => t.item == .rewind i
  setStream i { streamOf i s with rewind := some reason, renewed := (streamOf i s).renewed || onLane } s

/-- Flags a rewind on every open stream (R60, R64). -/
def flagOpenRewinds (reason : RewindReason) (s : State) : State :=
  (List.finRange 8).foldl (fun t i => if isOpen i t then flagRewind reason i t else t) s

/-! ### Requests and replies (R154 to R157) -/

/-- Reply slots owed (R154): 1 while a request is in progress. -/
def owed (s : State) : Nat := if s.me.inProgress.isSome then 1 else 0

/-- Queues a reply at the tail of the REPLY queue (R17). -/
def postReply (tag kind : Byte) (status : Status) (data : List Byte) (s : State) : State :=
  { s with lc.replies := s.lc.replies ++ [⟨tag, kind, status, data⟩] }

/-- Queues a reply with no data. -/
def answer (tag kind : Byte) (status : Status) (s : State) : State := postReply tag kind status [] s

/-- Arrival of a MGMT frame at the Management Engine (R155): discarded when no reply slot is free, answered BUSY while a
request is in progress, else taken and carried out by run. THE MODEL'S CHOICE (log entry 32): REQ_TAKEN is counted before the
request is carried out in the same event, so that a read of the MONITOR table finds it counted already, and a MONITOR_SET or
a DOCK_RESET clears it with the rest. -/
def takeRequest (tag kind : Byte) (run : State → State) (s : State) : State :=
  if Config.repliesDepth ≤ s.lc.replies.length + owed s then count .reqDiscarded s
  else if s.me.inProgress.isSome then count .reqBusy (answer tag kind .busy s)
  else run (count .reqTaken s)

/-- Makes a long request the request in progress (R156). -/
def beginLong (tag kind : Byte) (op : LongOp) (s : State) : State :=
  { s with me.inProgress := some ⟨tag, kind, op, false⟩ }

/-- The end of a long request (R156, R157): the request in progress ends, and its reply is queued unless a teardown has taken
it. -/
def endLong (status : Status) (s : State) : State :=
  match s.me.inProgress with
  | some r =>
    if r.silent then { s with me.inProgress := none }
    else answer r.tag r.kind status { s with me.inProgress := none }
  | none => s

end Sys2Proof.Machine
end

