-- ==== Sys2Proof/Machine/Writing.lean ====
section
/-! DEFINITION. What the writers of the frame store write (R24, R25): the pixels of a PLACE, FILL or SCROLL (R115 to R117), of a
layout apply (R33) and of a teardown fill (R37), with the geometry of the screen; and the picture that the writer at the
frame store is about to leave. -/

namespace Sys2Proof.Machine

/-! ### Geometry -/

/-- The panel width W in pixels (R23). -/
def panelW (s : State) : Nat := 16 * s.lu.width
/-- The panel height H in pixels (R23). -/
def panelH (s : State) : Nat := 16 * s.lu.height
/-- The number of pixels of the screen (R24). -/
def panelPixels (s : State) : Nat := panelW s * panelH s
/-- The number N of blocks of the panel (R125). -/
def blockCount (s : State) : Nat := s.lu.width * s.lu.height

/-- The raster index of pixel p, row by row, of block i (R125, R128). -/
def blockPixel (s : State) (i p : Nat) : Nat :=
  (16 * (i / s.lu.width) + p / 16) * panelW s + (16 * (i % s.lu.width) + p % 16)

/-! ### Draw commands (R115 to R117) -/

/-- The pixel of the tile contents at tile column tx and row ty (R70, R115). -/
def tilePixel (r : ExecRecord) (tx ty : Int) : Half := r.tile.getD ((ty - 4 * r.firstSector) * 16 + tx).toNat 0

/-- The region columns of a clip rectangle. -/
def clipColumns (r : ExecRecord) : List Int := (List.range (r.cx1 + 1 - r.cx0).toNat).map fun i : Nat => r.cx0 + (i : Int)
/-- The region rows of a clip rectangle. -/
def clipRows (r : ExecRecord) : List Int := (List.range (r.cy1 + 1 - r.cy0).toNat).map fun i : Nat => r.cy0 + (i : Int)

/-- The pixels of a PLACE (R115): each visible pixel from the tile, those equal to the key colour left as they are. -/
def writePlace (width size : Nat) (r : ExecRecord) (x y : Int) (keyColour : Option Half) (img : Image) : Image :=
  (clipRows r).foldl (fun acc cy =>
    (clipColumns r).foldl (fun acc cx =>
      let c := tilePixel r (cx - x) (cy - y)
      if keyColour = some c then acc
      else imageRow size acc ((r.oy + cy).toNat * width + (r.ox + cx).toNat) 1 c) acc) img

/-- The pixels of a FILL (R116). -/
def writeFill (width size : Nat) (r : ExecRecord) (c : Half) (img : Image) : Image :=
  imageRect width size img (r.ox + r.cx0).toNat (r.oy + r.cy0).toNat (r.cx1 + 1 - r.cx0).toNat (r.cy1 + 1 - r.cy0).toNat c

/-- The pixels of a SCROLL (R117), from the picture as it stood before the writing: the region takes the background, and then
each row whose source row lies in the region takes its source columns. -/
def writeScroll (width size : Nat) (r : ExecRecord) (dx dy : Int) (img : Image) : Image :=
  let blank := imageRect width size img r.ox r.oy r.rw r.rh r.background
  if r.rw ≤ dx.natAbs ∨ r.rh ≤ dy.natAbs then blank
  else
    let n := r.rw - dx.natAbs
    (List.range (r.rh - dy.natAbs)).foldl (fun acc i =>
      let src := (r.oy + (max (-dy) 0).toNat + i) * width + (r.ox + (max (-dx) 0).toNat)
      let dst := (r.oy + (max dy 0).toNat + i) * width + (r.ox + (max dx 0).toNat)
      imagePaint size acc dst n (imageSlice img src n dst)) blank

/-- The picture after a command's write. -/
def writeCommand (width size : Nat) (r : ExecRecord) (img : Image) : Image :=
  match r.command with
  | .place _ x y keyColour => writePlace width size r x y keyColour img
  | .fill c _ _ _ _ => writeFill width size r c img
  | .scroll dx dy => writeScroll width size r dx dy img

/-! ### Fills of the Layout Unit (R33, R37) -/

/-- Whether a writer is the Layout Unit. -/
def Writer.isLayout : Writer → Bool
  | .engine _ => false
  | .layoutApply => true
  | .teardownFill => true

/-- The picture after the fill (R33): the border everywhere, then each enabled region, with its background when noted and with
what it held when not. Enabled regions do not overlap, so each pixel falls under one line of R33's table. -/
def applyImage (s : State) (mask : BitVec 8) : Image :=
  let old := s.fs.image
  (List.finRange 8).foldl (fun acc i =>
    let r := regionOf i s
    if r.enabled then
      if mask.getLsbD i.val then
        imageRect (panelW s) (panelPixels s) acc r.ox.toNat r.oy.toNat r.rw.toNat r.rh.toNat r.background
      else imageCopyRect (panelW s) (panelPixels s) old acc r.ox.toNat r.oy.toNat r.rw.toNat r.rh.toNat
    else acc) (imageUniform s.lu.border)

/-! ### The write going on -/

/-- Whether the write going on has written pixel a by now (R25). The moment at which it does is a free value of the write and
the pixel, and now is the count of free values taken, which only grows; so a pixel once written stays written to the end
of the write (log entry 9). -/
def isWritten (s : State) (a : Nat) : Bool := s.fs.holder.isSome && decide (Config.writtenFrom s.fs.began a ≤ s.free)

/-- The picture as it will stand when the writer that holds the frame store has written its last pixel; with no holder, the
picture as it stands. A write gives each pixel it touches one value, so while it goes on a pixel holds either what it held
before or what it holds here (R25). -/
def writtenImage (s : State) : Image :=
  match s.fs.holder with
  | some (.engine side) =>
    match engineOf side s with
    | some r => writeCommand (panelW s) (panelPixels s) r s.fs.image
    | none => s.fs.image
  | some .layoutApply =>
    match s.lu.apply with
    | some mask => applyImage s mask
    | none => s.fs.image
  | some .teardownFill =>
    match s.lu.fillColour with
    | some c => imageUniform c
    | none => s.fs.image
  | none => s.fs.image

/-- What the frame store holds at pixel a now (R24, R25). -/
def storedPixel (s : State) (a : Nat) : Half := imageRead (if isWritten s a then writtenImage s else s.fs.image) a

end Sys2Proof.Machine
end

