-- ==== Sys2Proof/Machine/Panel.lean ====
section
/-! DEFINITION. The Panel Updater (chapter 7): marks, selection, block sends, acknowledgement and timeout, halt and restart,
and the backlight. -/

namespace Sys2Proof.Machine

/-! ### The panel port reading the frame store (R25, R128) -/

/-- The 256 pixels that the panel port carries for block i, as they would all be read at its selection (R128). A pixel is what
the frame store holds at the moment it is read (R25). While a writer holds the store, a pixel that the write changes has been written by
then or not; any other pixel is the same either way (log entry 10). -/
def portPixels (s : State) (i : Nat) : List Half := (List.range 256).map fun p => storedPixel s (blockPixel s i p)

/-- The panel port has gone on reading the block in flight, in the order of its pixels (R25, R121, R128), and upTo says how many
of them it has read by now. In the course of the write so far, the pixels that written picks have come to hold what img
holds there. A pixel read before the write stays as it was; one read in its course was read before or after the write had
come to it, which is a free value; one that is still to be read stands as img has it where written (log entry 10). With no
block in flight nothing is being read. -/
def rereadPort (upTo : Nat → Nat) (written : Nat → Bool) (img : Image) (s : State) : State :=
  if s.pu.inFlight.isSome then
    takeFree { s with pu.port := s.pu.port.map fun w =>
      { w with
        read := upTo w.read
        pixels := w.pixels.mapIdx fun p c =>
          if w.read ≤ p ∧ written (blockPixel s w.block p) = true ∧ (upTo w.read ≤ p ∨ Config.readLater s.free p = true)
          then imageRead img (blockPixel s w.block p) else c } }
  else s

/-- How many pixels of the block in flight have been read when a write ends: as many as before or more, as a free value says
(log entry 10). -/
def readOnTo (s : State) (read : Nat) : Nat := read + Config.pixelsRead s.free % (257 - read)

/-- A write of the whole of img ends, and the panel port has read the block in flight up to some pixel. -/
def readToEnd (img : Image) (s : State) : State := rereadPort (readOnTo s) (fun _ => true) img s

/-- The block in flight has been read whole, in the course of a write that goes on: it has come to the pixels that it has
written by now (log entry 10). -/
def endReading (s : State) : State :=
  if s.fs.holder.isSome then rereadPort (fun _ => 256) (isWritten s) (writtenImage s) s else s

/-- The bytes of a block write's pixels on the panel port (R128): two a pixel, in the byte order of the frame store, low byte
first (section 11.3). -/
def portBytes (w : BlockWrite) : List Byte := w.pixels.flatMap le16

/-! ### Selection and sending (R127, R128) -/

/-- The lowest dirty block from index lo on, below hi. -/
def firstDirty (dirty : List Bool) (lo hi : Nat) : Option Nat :=
  (List.range' lo (hi - lo)).find? fun i => dirty.getD i false

/-- The block a selection takes (R127): the lowest dirty one at or after the scan pointer, else the lowest below it. -/
def nextBlock (s : State) : Option Nat :=
  (firstDirty s.pu.dirty s.pu.scan (blockCount s)).or (firstDirty s.pu.dirty 0 s.pu.scan)

/-- Sends block i (R128): its flag is cleared, the write number advances, it becomes the in-flight block, the scan pointer
moves past it, and BLOCK_SENT is counted. -/
def sendBlock (i : Nat) (s : State) : State :=
  let number := s.pu.number + 1
  let write : BlockWrite := ⟨i, number, portPixels s i, 0⟩
  count .blockSent { s with
    pu.dirty := s.pu.dirty.set i false
    pu.number := number
    pu.inFlight := some ⟨i, number, Config.blockTimeout⟩
    pu.scan := if i + 1 = blockCount s then 0 else i + 1
    pu.port := some write
    free := if s.fs.holder.isSome then s.free + 1 else s.free }

/-- A selection (R127): made when no block is in flight and the panel is not halted. -/
def selectBlock (s : State) : State :=
  if s.pu.inFlight.isNone && !s.pu.halted then
    match nextBlock s with
    | some i => sendBlock i s
    | none => s
  else s

/-- A mark (R126): sets the dirty flag of every block that named holds of, and a selection follows. -/
def markBlocks (named : Nat → Bool) (s : State) : State :=
  selectBlock { s with pu.dirty := s.pu.dirty.mapIdx fun i d => d || named i }

/-- The blocks of block columns a to b of block rows c to d. -/
def inBlockRect (width a b c d i : Nat) : Bool :=
  a ≤ i % width && i % width ≤ b && c ≤ i / width && i / width ≤ d

/-- The blocks that a rectangle of screen columns x0 to x1 and rows y0 to y1 touches (R118). -/
def touches (s : State) (x0 x1 y0 y1 i : Nat) : Bool :=
  inBlockRect s.lu.width (x0 / 16) (x1 / 16) (y0 / 16) (y1 / 16) i

/-! ### The backlight (R133, R134) -/

/-- Applies a resulting level (R134): when it differs from the level held, the level takes it, BACKLIGHT_CHANGE is counted and
the BACKLIGHT event raised. -/
def applyLevel (level : Nat) (s : State) : State :=
  if level = s.pu.level then s
  else raiseEvent .backlight (BitVec.ofNat 24 level) (count .backlightChange { s with pu.level := level })

/-- A LOCAL action of the Key Scanner (R134). -/
def localLevel (a : LocalAction) (level : Nat) : Nat :=
  match a with
  | .backlightUp => min (level + 1) Config.maxLevel
  | .backlightDown => level - 1

/-- Whether the backlight output is driven at this tick: for 100 ticks per level from the start of each period (R133). -/
def backlightDriven (s : State) : Bool :=
  Config.backlightPeriod - s.pu.periodTimer < Config.driveUnit * s.pu.drivenLevel

/-- BACKLIGHT_PERIOD (R133): when the running period has ended, the next one begins with the level then held. Before that
moment no period starts and nothing changes. -/
def execBacklightPeriod (s : State) : Result :=
  if s.pu.periodTimer = 0 then
    .next (conclude s { s with pu.drivenLevel := s.pu.level, pu.periodTimer := Config.backlightPeriod })
  else .next s

/-! ### Acknowledgement, timeout, restart -/

/-- The in-flight block write completes (R129). -/
def completeBlock (s : State) : State :=
  selectBlock (count .blockDone { endReading s with pu.inFlight := none, pu.streak := 0 })

/-- ACKNOWLEDGEMENT (R129): an echo equal to the in-flight write number completes the write; any other is late. -/
def execAcknowledgement (echo : Byte) (s : State) : Result :=
  match s.pu.inFlight with
  | some f =>
    if f.number = echo then .next (conclude s (completeBlock s)) else .next (conclude s (count .lateAck s))
  | none => .next (conclude s (count .lateAck s))

/-- The timeout of the in-flight block (R130). -/
def timeOutBlock (f : InFlight) (s : State) : State :=
  let t := count .blockTimeout { endReading s with
    pu.dirty := s.pu.dirty.set f.block true, pu.inFlight := none, pu.streak := s.pu.streak + 1 }
  if t.pu.streak < Config.haltStreak then selectBlock t
  else raiseEvent .panelHalted 0 (count .panelHalt { t with pu.halted := true })

/-- BLOCK_TIMEOUT (R130): when the timer of the in-flight block has run out, the write times out. Otherwise no timeout falls
and nothing changes. -/
def execBlockTimeout (s : State) : Result :=
  match s.pu.inFlight with
  | some f => if f.timer = 0 then .next (conclude s (timeOutBlock f s)) else .next s
  | none => .next s

/-- PANEL_RESTART (R132). -/
def restartPanel (s : State) : State :=
  markBlocks (fun _ => true) (count .restarted { s with pu.halted := false, pu.streak := 0 })

/-- PANEL_RESTART carried out as a request: its OK is queued in the same event (R132). -/
def doPanelRestart (tag : Byte) (s : State) : State := answer tag 0x0A .ok (restartPanel s)

/-- A write of the PANEL entry (R136): refused when the geometry differs from the panel's, else the level is applied. -/
def doPanelWrite (tag width height level : Byte) (s : State) : State :=
  if width.toNat = s.lu.width ∧ height.toNat = s.lu.height then
    answer tag 0x02 .ok (applyLevel (min level.toNat Config.maxLevel) s)
  else answer tag 0x02 .readOnly s

end Sys2Proof.Machine
end

