-- ==== Sys2Proof/Machine/Store.lean ====
section
/-! DEFINITION. The Settings Store (R164 to R168): erase, program, read, and the settings image; with MONITOR_SET (R170). -/

namespace Sys2Proof.Machine

/-! ### Erase and program (R165 to R167) -/

/-- The flash after a page has been erased (R166). -/
def erasePage (page : Nat) (m : List Host.Cell) : List Host.Cell :=
  cellWrite 255 m (Config.pageBytes * page) (List.replicate Config.pageBytes 255)

/-- The bytes a program leaves (R167): each the AND of its former value and its data byte. -/
def programmed (m : List Host.Cell) (offset : Nat) (data : List Byte) : List Byte :=
  List.zipWith (fun old new => old &&& new) (cellBlock 255 m offset data.length) data

/-- The flash after a program (R167). -/
def programBytes (offset : Nat) (data : List Byte) (m : List Host.Cell) : List Host.Cell :=
  cellWrite 255 m offset (programmed m offset data)

/-- STORE_ERASE (R165, R166). -/
def doStoreErase (tag page : Byte) (s : State) : State :=
  if 3 < page.toNat then answer tag 0x0C .badValue s else beginLong tag 0x0C (.erase page.toNat) s

/-- STORE_WRITE (R165, R167). -/
def doStoreWrite (tag : Byte) (offset : Half) (data : List Byte) (s : State) : State :=
  let o := offset.toNat
  if data.length = 0 ∨ 64 < data.length ∨ Config.flashBytes < o + data.length ∨
      o / Config.pageBytes ≠ (o + data.length - 1) / Config.pageBytes then
    answer tag 0x0D .badValue s
  else beginLong tag 0x0D (.program o data) s

/-- STORE_READ (R165). -/
def doStoreRead (tag : Byte) (offset : Half) (count : Byte) (s : State) : State :=
  if count.toNat = 0 ∨ 128 < count.toNat ∨ Config.flashBytes < offset.toNat + count.toNat then
    answer tag 0x0E .badValue s
  else postReply tag 0x0E .ok (cellBlock 255 s.flash offset.toNat count.toNat) s

/-- The end of the erase of a page (R166). -/
def finishErase (page : Nat) (s : State) : State :=
  endLong .ok (count .eraseDone { s with flash := erasePage page s.flash })

/-- The end of a program (R167): OK when every byte holds the data sent, else STORE_MISMATCH. THE MODEL'S CHOICE (log entry 35):
PROGRAM_MISMATCH is counted when a byte differs, also where a teardown has taken the reply (R157). -/
def finishProgram (offset : Nat) (data : List Byte) (s : State) : State :=
  let t := count .programDone { s with flash := programBytes offset data s.flash }
  if programmed s.flash offset data = data then endLong .ok t
  else endLong .storeMismatch (count .programMismatch t)

/-- ERASE_DONE (R166): the erase in progress ends. With none in progress nothing changes. -/
def execEraseDone (s : State) : Result :=
  match s.me.inProgress with
  | some ⟨_, _, .erase page, _⟩ => .next (conclude s (finishErase page s))
  | _ => .next s

/-- PROGRAM_DONE (R167): the program in progress ends. With none in progress nothing changes. -/
def execProgramDone (s : State) : Result :=
  match s.me.inProgress with
  | some ⟨_, _, .program offset data, _⟩ => .next (conclude s (finishProgram offset data s))
  | _ => .next s

/-- The flash when a power-on reset ends an operation in progress (R164): each byte under the erase or program holds its
former value or the one the operation would have left; which is a free value. -/
def cutFlash (s : State) : List Host.Cell :=
  let choose (o : Nat) (new : List Byte) : List Host.Cell :=
    cellWrite 255 s.flash o (new.zipIdx.map fun b =>
      if Config.flashByteKept s.free (o + b.2) then cellRead 255 s.flash (o + b.2) else b.1)
  match s.me.inProgress with
  | some ⟨_, _, .erase page, _⟩ => choose (Config.pageBytes * page) (List.replicate Config.pageBytes 255)
  | some ⟨_, _, .program offset data, _⟩ => choose offset (programmed s.flash offset data)
  | _ => s.flash

/-! ### The settings image (R168, section 11.10) -/

/-- The header of the image: its eight bytes. -/
def imageHeader (m : List Host.Cell) : List Byte := cellBlock 255 m 0 8

/-- The sum of the n bytes that follow the header, modulo 65536 (R168). -/
def imageSum (m : List Host.Cell) (n : Nat) : Half :=
  (cellBlock 255 m 8 n).foldl (fun acc b => acc + b.setWidth 16) 0

/-- Whether the image is valid (R168). -/
def imageValid (m : List Host.Cell) : Bool :=
  let h := imageHeader m
  let n := (halfAt h 4).toNat
  wordAt h 0 == Config.imageMarker && Config.imageContents ≤ n && n ≤ Config.flashBytes - 8 &&
    imageSum m n == halfAt h 6

/-- The contents of the image: the bytes from offset 8 on. -/
def imageBytes (m : List Host.Cell) : List Byte := cellBlock 255 m 8 Config.imageContents

/-! ### MONITOR_SET (R170) -/

/-- The selection a MONITOR_SET names, if its mode, group and condition are known and its unit mask names no sub-event outside
the group (R170, section 11.8). -/
def selectionOf (mode group : Byte) (unitMask : Word) (condition : Byte) : Option Counter :=
  match modeOfCode mode, groupOfCode group, conditionOfCode condition with
  | some m, some g, some c => if unitMask.toNat < 2 ^ groupSize g then some ⟨0, m, g, unitMask, c⟩ else none
  | _, _, _ => none

/-- MONITOR_SET (R170, R172). THE MODEL'S CHOICE (log entry 31): the results of the latency tracker that a MONITOR_SET of entry 4
clears are the last and the largest latency and the counts of completed and lost faults. -/
def doMonitorSet (tag entry mode group : Byte) (unitMask : Word) (condition : Byte) (s : State) : State :=
  if h : entry.toNat < 4 then
    match selectionOf mode group unitMask condition with
    | some c => answer tag 0x0F .ok { s with mn.counters := s.mn.counters.set entry.toNat c }
    | none => answer tag 0x0F .badValue s
  else if entry.toNat = 4 then
    answer tag 0x0F .ok { s with mn.tracker := ⟨s.mn.tracker.armed, 0, 0, 0, 0⟩ }
  else answer tag 0x0F .badIndex s

/-- MILLISECOND_TICK (R171): when a millisecond of the time base has passed, the CONDITION_TIME counters add, and the next
millisecond begins. Before that moment nothing changes. -/
def execMillisecondTick (s : State) : Result :=
  if s.msTimer = 0 then .next (conclude s { countMillisecond s with msTimer := Config.ticksPerMs })
  else .next s

end Sys2Proof.Machine
end

