-- ==== Sys2Proof/Machine/Keys.lean ====
section
/-! DEFINITION. The Key Scanner (chapter 8): debouncing, phantom withholding, layers and the keymap, LOCAL actions, reports and
their queueing. -/

namespace Sys2Proof.Machine

/-- A position of the matrix. -/
abbrev Pos := Fin 128

/-- The record of a position. -/
def keyAt (p : Pos) (s : State) : KeyPosition := s.ks.positions[p]

/-- Replaces the record of a position. -/
def setKey (p : Pos) (k : KeyPosition) (s : State) : State := { s with ks.positions := s.ks.positions.set p k }

/-- Changes the record of every position by its number. -/
def mapKeys (f : Pos → KeyPosition → KeyPosition) (s : State) : State :=
  let positions := Vector.ofFn fun p => f p s.ks.positions[p]
  { s with ks.positions := positions }

/-! ### Debouncing (R139) -/

/-- The new count of a position (R139). -/
def newCount (depth : Nat) (closed : Bool) (c : Nat) : Nat := if closed then min (c + 1) depth else c - 1

/-- A position after a scan's reading: raw contact and count (R138, R139). -/
def readKey (depth : Nat) (closed : Bool) (k : KeyPosition) : KeyPosition :=
  { k with raw := closed, count := newCount depth closed k.count }

/-- Whether a position, its count updated, becomes pressed (R139). -/
def becomesPressed (depth : Nat) (k : KeyPosition) : Bool := !k.pressed && k.count == depth
/-- Whether a position, its count updated, becomes released (R139). -/
def becomesReleased (k : KeyPosition) : Bool := k.pressed && k.count == 0

/-- Whether a scan counts CHATTER at a position (R139): its raw contact differs from its debounced state and does not change
it. -/
def chatters (depth : Nat) (k : KeyPosition) : Bool :=
  k.raw != k.pressed && !becomesPressed depth k && !becomesReleased k

/-! ### Phantoms (R142) -/

/-- The position of a drive and a sense (chapter 8). -/
def posOf (drive : Fin 8) (sense : Fin 16) : Pos := Fin.ofNat 128 (drive.val * 16 + sense.val)

/-- Whether a position meets the phantom condition against the pressed set (R142). -/
def isPhantom (p : Pos) (s : State) : Bool :=
  let d : Fin 8 := Fin.ofNat 8 (p.val / 16)
  let n : Fin 16 := Fin.ofNat 16 p.val
  (List.finRange 8).any fun d' => d' != d && (keyAt (posOf d' n) s).pressed &&
    (List.finRange 16).any fun n' => n' != n && (keyAt (posOf d n') s).pressed && (keyAt (posOf d' n') s).pressed

/-! ### Layers and resolution (R145 to R147) -/

/-- The layer a latched entry makes a candidate (R145). -/
def layerOf : KeyEntry → Nat
  | .layer n => n.val
  | .none => 0
  | .ordinary _ => 0
  | .modifier _ => 0
  | .localAction _ => 0

/-- The active layer (R145): the highest among the latched LAYER entries, 0 when there is none. -/
def activeLayer (latched : List Latched) : Nat := latched.foldl (fun m r => max m (layerOf r.entry)) 0

/-- The keymap entry of a layer and position (R148). -/
def keymapAt (layer : Nat) (p : Pos) (s : State) : KeyEntry := s.ks.keymap.toList.getD (layer * 128 + p.val) .none

/-- The record a resolution latches (R145): the active layer's entry, or layer 0's when that is NONE. -/
def latchFor (p : Pos) (s : State) : Latched :=
  let layer := activeLayer s.ks.latched
  if keymapAt layer p s = .none then ⟨p.val, keymapAt 0 p s, 0⟩
  else ⟨p.val, keymapAt layer p s, Fin.ofNat 3 layer⟩

/-- Carries out a latched entry's LOCAL action (R147): handed to the Panel Updater and counted. -/
def actLocal (e : KeyEntry) (s : State) : State :=
  match e with
  | .localAction a => applyLevel (localLevel a s.pu.level) (count .localAction s)
  | .none => s
  | .ordinary _ => s
  | .modifier _ => s
  | .layer _ => s

/-- Resolves a position (R145). -/
def resolveKey (p : Pos) (s : State) : State :=
  let r := latchFor p s
  actLocal r.entry { s with ks.latched := s.ks.latched ++ [r] }

/-! ### The order of work within a scan (R141) -/

/-- Step 1 for one position (R141, R143, R146): it leaves the pressed set, and the withheld set or the latched key table. -/
def releaseKey (s : State) (p : Pos) : State :=
  count .releaseAccepted
    { setKey p { keyAt p s with pressed := false, withheld := false } s with
      ks.latched := s.ks.latched.filter fun r => r.pos != p.val }

/-- Step 2 for one position (R143): a withheld position that no longer meets the condition is resolved. -/
def reevaluateKey (s : State) (p : Pos) : State :=
  if (keyAt p s).withheld && !isPhantom p s then
    resolveKey p (count .ghostResolved (setKey p { keyAt p s with withheld := false } s))
  else s

/-- Step 3 for one position (R141, R142): it is tested against the presses before it, enters the pressed set, and is withheld
or resolved. -/
def pressKey (s : State) (p : Pos) : State :=
  let t := count .pressAccepted (setKey p { keyAt p s with pressed := true, withheld := isPhantom p s } s)
  if isPhantom p s then count .ghostWithheld t else resolveKey p t

/-- The three steps of a scan, each in ascending order of position (R141). The positions that change are those the updated
counts name. THE MODEL'S CHOICE (log entry 30): when one LOCAL key is resolved at step 2 and another at step 3, their actions
are carried out in the order of the steps (R141), also where R147's ascending order of position would turn them round. -/
def changeKeys (s : State) : State :=
  let released := (List.finRange 128).filter fun p => becomesReleased (keyAt p s)
  let pressed := (List.finRange 128).filter fun p => becomesPressed s.settings.depth (keyAt p s)
  let t := released.foldl releaseKey s
  let t := if released.isEmpty then t else (List.finRange 128).foldl reevaluateKey t
  pressed.foldl pressKey t

/-! ### Reports (R149 to R152) -/

/-- The modifier an entry contributes. -/
def modifierBit : KeyEntry → BitVec 8
  | .modifier i => BitVec.ofNat 8 (2 ^ i.val)
  | .none => 0
  | .ordinary _ => 0
  | .layer _ => 0
  | .localAction _ => 0

/-- The key code an entry contributes. -/
def codeOf : KeyEntry → Option Byte
  | .ordinary c => some c
  | .none => none
  | .modifier _ => none
  | .layer _ => none
  | .localAction _ => none

/-- The distinct codes of a list of records, each at the place of the oldest record that holds it (R149). -/
def distinctCodes (latched : List Latched) : List Byte :=
  latched.foldl (fun acc r =>
    match codeOf r.entry with
    | some c => if acc.contains c then acc else acc ++ [c]
    | none => acc) []

/-- The reported state (R149). -/
def reportedState (latched : List Latched) : Report where
  mods := latched.foldl (fun m r => m ||| modifierBit r.entry) 0
  codes := (distinctCodes latched).take 8
  overflow := 8 < (distinctCodes latched).length

/-- Hands a snapshot on (R151): appended, or in place of the newest of a full queue; dropped while UNATTACHED. -/
def queueReport (r : Report) (s : State) : State :=
  if s.lc.attachment = .unattached then s
  else if s.lc.keys.length < Config.keysDepth then count .reportQueued { s with lc.keys := s.lc.keys ++ [r] }
  else count .reportCoalesced { s with lc.keys := s.lc.keys.dropLast ++ [r] }

/-- The report at the end of a scan (R150). -/
def buildReport (s : State) : State :=
  let r := reportedState s.ks.latched
  if r = s.ks.report then s else queueReport r (count .reportBuilt { s with ks.report := r })

/-- The snapshot of a reattach (R152). -/
def reattachSnapshot (s : State) : State := queueReport s.ks.report (count .reattachSnapshot s)

/-! ### The scan (R138) -/

/-- The five steps of a scan (R138), noted among the first scans (log entry 34). -/
def scanKeys (contacts : BitVec 128) (s : State) : State :=
  let depth := s.settings.depth
  let t := mapKeys (fun p k => readKey depth (contacts.getLsbD p.val) k) s
  let noisy := (List.finRange 128).countP fun p => chatters depth (keyAt p t)
  let t := buildReport (changeKeys (countN .chatter noisy (count .scan t)))
  { t with ks.scanTimer := s.settings.scanPeriod, ks.scans := min (s.ks.scans + 1) Config.firstScans }

/-- SCAN (R138): when the scan timer has expired, the scan with the reading that the matrix port gives. Before that moment no
scan takes place and nothing changes. -/
def execScan (contacts : BitVec 128) (s : State) : Result :=
  if s.ks.scanTimer = 0 then .next (conclude s (scanKeys contacts s)) else .next s

/-! ### Writes that reach the Key Scanner (R140, R148) -/

/-- The effect of a debounce depth on the counts (R140): every count above it is set to it. -/
def clampCounts (depth : Nat) (s : State) : State := mapKeys (fun _ k => { k with count := min k.count depth }) s

/-- A write of a KEYMAP entry (R148). -/
def doKeymapWrite (tag : Byte) (entry : Half) (cls value : Byte) (s : State) : State :=
  if h : entry.toNat < 384 then
    match keyEntryOf cls value with
    | some e => answer tag 0x02 .ok { s with ks.keymap := s.ks.keymap.set entry.toNat e }
    | none => answer tag 0x02 .badValue s
  else answer tag 0x02 .badIndex s

/-- A write of the SETTINGS entry (R160): the record is replaced; the debounce depth acts on the counts at once (R140). -/
def doSettingsWrite (tag : Byte) (r : Settings) (s : State) : State :=
  answer tag 0x02 .ok (clampCounts r.depth { s with settings := r })

end Sys2Proof.Machine
end

