-- ==== Sys2Proof/Machine/Cache.lean ====
section
/-! DEFINITION. The Tile Cache (chapter 4): lookup, allocation, fills, reservations, pins, the flush sweep; and the wake-ups of
streams that wait for a way (R97), which its releases and unpins cause. -/

namespace Sys2Proof.Machine

/-! ### The directory -/

/-- The set of a key: the key modulo 64 (R71). -/
def setIndex (key : Word) : Fin 64 := Fin.ofNat 64 key.toNat

/-- The set a key belongs to. -/
def tileSet (key : Word) (s : State) : TileSet := s.tc.dir[setIndex key]

/-- Replaces the set a key belongs to. -/
def setTileSet (key : Word) (ways : TileSet) (s : State) : State :=
  { s with tc.dir := s.tc.dir.set (setIndex key) ways }

/-- The way of a set that holds a key, if a valid way does (R73). -/
def findWay (key : Word) (ways : TileSet) : Option (Fin 4) :=
  (List.finRange 4).find? fun w => ways[w].valid && ways[w].key == key

/-- Makes a way most recent (R72): it takes age 0, and each way of a lower age than it had takes its age plus 1. -/
def makeRecent (w : Fin 4) (ways : TileSet) : TileSet :=
  Vector.ofFn fun v =>
    if v = w then { ways[v] with age := 0 }
    else if ways[v].age < ways[w].age then { ways[v] with age := ways[v].age + 1 }
    else ways[v]

/-- A candidate for allocation (R75). -/
def DirEntry.candidate (e : DirEntry) : Bool := !e.valid || (!e.pending && !e.pinned && e.reserve == 0)

/-- The valid candidate with the highest age, the lowest way among equal ages. -/
def oldestCandidate (ways : TileSet) : Option (Fin 4) :=
  (List.finRange 4).foldl (fun best w =>
    if ways[w].candidate then
      match best with
      | some b => if ways[b].age < ways[w].age then some w else some b
      | none => some w
    else best) none

/-- The victim of an allocation (R75): the lowest invalid way, else the candidate of the highest age; none when the
allocation fails. -/
def victim (ways : TileSet) : Option (Fin 4) :=
  match (List.finRange 4).find? fun w => !ways[w].valid with
  | some w => some w
  | none => oldestCandidate ways

/-- The victim takes the new key (R76): valid, no sector valid, not pinned, not pending, no reservation, most recent. -/
def takeWay (key : Word) (w : Fin 4) (ways : TileSet) : TileSet :=
  (makeRecent w ways).set w
    { valid := true, key := key, sectors := 0, age := 0, pinned := false, pending := false, reserve := 0 }

/-- Takes a victim for a key in its set, counting EVICT when the victim was valid (R76). -/
def allocateWay (key : Word) (w : Fin 4) (s : State) : State :=
  let t := setTileSet key (takeWay key w (tileSet key s)) s
  if (tileSet key s)[w].valid then count .evict t else t

/-- Changes the entry that holds a key, if a valid way does. -/
def mapEntry (key : Word) (f : DirEntry → DirEntry) (s : State) : State :=
  match findWay key (tileSet key s) with
  | some w => setTileSet key ((tileSet key s).set w (f (tileSet key s)[w])) s
  | none => s

/-! ### The tile store (R70) -/

/-- The first address of a sector of the slot of entry set × 4 + way. -/
def sectorAddress (key : Word) (w : Fin 4) (sector : Nat) : Nat :=
  ((setIndex key).val * 4 + w.val) * 512 + sector * 128

/-- The pixels of sectors lo to hi of the slot of an entry, in the order of R70. -/
def sectorPixels (key : Word) (w : Fin 4) (lo hi : Nat) (s : State) : List Half :=
  pixelsOf (cellBlock 0 s.tc.store (sectorAddress key w lo) ((hi + 1 - lo) * 128))

/-- Writes a sector and sets its flag (R78). -/
def writeSector (key : Word) (w : Fin 4) (sector : Nat) (data : List Byte) (s : State) : State :=
  let e := (tileSet key s)[w]
  setTileSet key ((tileSet key s).set w { e with sectors := e.sectors ||| BitVec.ofNat 4 (2 ^ sector) })
    { s with tc.store := cellWrite 0 s.tc.store (sectorAddress key w sector) data }

/-! ### Lookup (R73) -/

/-- The sector mask of sectors lo to hi. -/
def sectorMask (lo hi : Nat) : BitVec 4 :=
  (List.range 4).foldl (fun m k => if lo ≤ k ∧ k ≤ hi then m ||| BitVec.ofNat 4 (2 ^ k) else m) 0

/-- The outcomes of a lookup (R73). -/
inductive Lookup where
  | hit (way : Fin 4)
  | sectorMiss (way : Fin 4)
  | absent
  deriving DecidableEq, Repr

/-- The outcome of a lookup of a key with a sector mask (R73). -/
def lookupOf (key : Word) (mask : BitVec 4) (s : State) : Lookup :=
  match findWay key (tileSet key s) with
  | some w => if mask &&& ~~~ (tileSet key s)[w].sectors = 0 then .hit w else .sectorMiss w
  | none => .absent

/-- The directory after a lookup, and the count of its outcome (R73): a hit makes its entry most recent; a miss changes
nothing. -/
def afterLookup (key : Word) (l : Lookup) (s : State) : State :=
  match l with
  | .hit w => count .hit (setTileSet key (makeRecent w (tileSet key s)) s)
  | .sectorMiss _ => count .sectorMiss s
  | .absent => count .absent s

/-! ### Wakes for a way and reservations (R82, R97) -/

/-- Wakes every stream in WAIT_WAY (R97). -/
def wakeWay (s : State) : State :=
  mapStreams (fun _ r => if r.state = .waitWay then { r with state := .ready } else r) s

/-- Takes one reservation off the entry of a key (R82); when its reserve count comes to 0, every WAIT_WAY stream is woken
(R97). -/
def releaseEntry (key : Word) (s : State) : State :=
  match findWay key (tileSet key s) with
  | some w =>
    let e := (tileSet key s)[w]
    let t := setTileSet key ((tileSet key s).set w { e with reserve := e.reserve - 1 }) s
    if e.reserve = 1 then wakeWay t else t
  | none => s

/-- Releases a stream's reservation, if it holds one (R82). -/
def releaseReservation (i : Fin 8) (s : State) : State :=
  match (streamOf i s).reservation with
  | some key => releaseEntry key (setStream i { streamOf i s with reservation := none } s)
  | none => s

/-! ### Pins (R83 to R85) -/

/-- The number of pinned ways of a set. -/
def pinnedWays (ways : TileSet) : Nat := (List.finRange 4).countP fun w => ways[w].pinned

/-- TILE_PIN (R84). -/
def doTilePin (tag : Byte) (key : Word) (s : State) : State :=
  let ways := tileSet key s
  match (if key = 0 then none else findWay key ways) with
  | some w =>
    if ways[w].sectors ≠ 15 ∨ ways[w].pending = true then answer tag 0x08 .notPresent s
    else if ways[w].pinned then answer tag 0x08 .ok s
    else if 3 ≤ pinnedWays ways then answer tag 0x08 .pinLimit s
    else answer tag 0x08 .ok (setTileSet key (ways.set w { ways[w] with pinned := true }) s)
  | none => answer tag 0x08 .notPresent s

/-- The unpin of TILE_UNPIN (R85): a pinned entry is unpinned and every WAIT_WAY stream is woken. The handovers that the wakes
allow follow in Streams.lean. -/
def unpin (tag : Byte) (key : Word) (s : State) : State :=
  let ways := tileSet key s
  match (if key = 0 then none else findWay key ways) with
  | some w =>
    if ways[w].pinned then
      answer tag 0x09 .ok (wakeWay (setTileSet key (ways.set w { ways[w] with pinned := false }) s))
    else answer tag 0x09 .ok s
  | none => answer tag 0x09 .notPresent s

/-! ### The flush sweep (R86 to R89) -/

/-- TILE_FLUSH (R86): taken only in QUIESCED; the sweep begins at set 0 and the request stays in progress. -/
def doTileFlush (tag : Byte) (s : State) : State :=
  if s.sq.quiesce = .quiesced then beginLong tag 0x07 .tileFlush { s with tc.sweep := 0 }
  else answer tag 0x07 .notQuiesced s

/-- The end of a request when its operation is the one given. -/
def endOp (op : LongOp) (status : Status) (s : State) : State :=
  if s.me.inProgress.any fun r => r.op == op then endLong status s else s

/-- One step of the sweep at set n (R87): every way invalid, the ages set anew, the pointer advanced; the step of set 63 ends
the sweep and queues the reply (R89). -/
def sweepSet (n : Fin 64) (s : State) : State :=
  let t := { s with tc.dir := s.tc.dir.set n emptySet, tc.sweep := n.val + 1 }
  if n.val + 1 = 64 then endOp .tileFlush .ok t else t

/-- SWEEP_STEP (R87): while a sweep runs, its next step. With no sweep running no step falls and nothing changes. -/
def execSweepStep (s : State) : Result :=
  if h : s.tc.sweep < 64 then .next (conclude s (sweepSet ⟨s.tc.sweep, h⟩ s)) else .next s

/-- The directory as a reset leaves it (R90). The slots keep their contents. -/
def resetCache (s : State) : State := { s with tc.dir := emptyDir, tc.sweep := 64 }

end Sys2Proof.Machine
end

