-- ==== Sys2Proof/Machine/Fault.lean ====
section
/-! DEFINITION. The Tile Fault Unit (chapter 5): taking a miss, completion, expiry, cancellation and re-presentation. The
handovers that its wake-ups allow follow in Drawing.lean. -/

namespace Sys2Proof.Machine

/-- The load of a fault timer: the fault timeout in ticks (R100). -/
def faultLoad (s : State) : Nat := s.settings.faultTimeout * Config.ticksPerMs

/-- Whether a FAULT transmission of a side is in progress (R98). -/
def faultOnLane (side : Side) (s : State) : Bool := s.lc.tx.any fun t => t.item == .fault side

/-- A record with its send flag set (R98): during a FAULT transmission of the side the renewed mark is set too. -/
def sendSet (onLane : Bool) (r : FaultRecord) : FaultRecord := { r with send := true, renewed := r.renewed || onLane }

/-- The side whose ACTIVE record names a key (R93: at most one; record A is looked at first). -/
def faultOn (key : Word) (s : State) : Option Side :=
  if s.tf.recA.active && s.tf.recA.key == key then some .a
  else if s.tf.recB.active && s.tf.recB.key == key then some .b
  else none

/-- The wait state a miss leaves its stream in. -/
def setWait (i : Fin 8) (w : StreamState) (s : State) : State := setStream i { streamOf i s with state := w } s

/-- A stream joins an active fault (R95). -/
def joinFault (side : Side) (i : Fin 8) (mask : BitVec 4) (s : State) : State :=
  let r := { recordOf side s with waiting := (recordOf side s).waiting ||| BitVec.ofNat 8 (2 ^ i.val) }
  let t :=
    if mask &&& ~~~ r.needed = 0 then setRecord side r s
    else
      count .widened (setRecord side
        (sendSet (faultOnLane side s) { r with needed := r.needed ||| mask, timer := some (faultLoad s) }) s)
  setWait i .waitTile (count .joined t)

/-- A fault is raised in a side's record (R96): the entry is marked pending, the record set up, the send flag set, and the
stream waits. -/
def raiseFault (side : Side) (i : Fin 8) (key : Word) (mask : BitVec 4) (s : State) : State :=
  let r : FaultRecord :=
    { active := true, key := key, needed := mask, waiting := BitVec.ofNat 8 (2 ^ i.val), tries := 0
      timer := some (faultLoad s), send := false, renewed := false }
  let t := setRecord side (sendSet (faultOnLane side s) r) (mapEntry key (fun e => { e with pending := true }) s)
  setWait i .waitTile (trackRaise side key (count .raised t))

/-- The Tile Fault Unit takes a miss of stream i on a side (R94), by the first case that holds. The lookup's outcome tells
whether the key is present. -/
def takeMiss (side : Side) (i : Fin 8) (key : Word) (mask : BitVec 4) (present : Bool) (s : State) : State :=
  match faultOn key s with
  | some x => joinFault x i mask s
  | none =>
    if (recordOf side s).active then setWait i .waitSlot (count .slotWait s)
    else if present then raiseFault side i key mask s
    else
      match victim (tileSet key s) with
      | some w => raiseFault side i key mask (allocateWay key w s)
      | none => setWait i .waitWay (count .wayWait s)

/-- A record goes IDLE by completion, abandonment or cancellation (R92), with the wake-ups of R97: the WAIT_SLOT streams of
its side and every WAIT_WAY stream. -/
def goIdle (side : Side) (s : State) : State :=
  wakeWay (mapStreams (fun _ r =>
    if r.state = .waitSlot ∧ r.side = some side then { r with state := .ready } else r)
    (setRecord side FaultRecord.idle s))

/-- An entry whose pending flag is cleared at abandonment or cancellation (R71): with no valid sector it becomes invalid and
keeps its age. -/
def clearPending (e : DirEntry) : DirEntry :=
  if e.sectors = 0 then DirEntry.invalid e.age else { e with pending := false }

/-- A fault completes (R99): pending cleared, reservations given, the waiting streams woken, the record IDLE with its
wake-ups. -/
def completeFault (side : Side) (s : State) : State :=
  let r := recordOf side s
  let t := mapEntry r.key (fun e =>
    { e with pending := false, reserve := e.reserve + (membersOf r.waiting).length }) s
  let t := mapStreams (fun i x =>
    if r.waiting.getLsbD i.val then { x with state := .ready, reservation := some r.key } else x) t
  trackComplete side (count .completed (goIdle side t))

/-- A fill of a pending entry is passed on (R99): its fault completes when every needed sector is valid in the entry. -/
def fillPassed (key : Word) (w : Fin 4) (s : State) : State :=
  match faultOn key s with
  | some side =>
    if (recordOf side s).needed &&& ~~~ (tileSet key s)[w].sectors = 0 then completeFault side s else s
  | none => s

/-- Whether a side's fault timer expires (R100): its record is ACTIVE, the timer has run down to 0, and the attachment is
ATTACHED. While HELD the timer stands still, at 0 too, and every item of the record is kept (R104). -/
def faultExpires (side : Side) (s : State) : Bool :=
  s.lc.attachment == .attached && (recordOf side s).active && (recordOf side s).timer == some 0

/-- A fault is retried (R101). -/
def retryFault (side : Side) (s : State) : State :=
  let r := recordOf side s
  count .retried (setRecord side
    (sendSet (faultOnLane side s) { r with tries := r.tries + 1, timer := some (faultLoad s) }) s)

/-- Skips the oldest entry of a stream (R49): it leaves its side queue and the stream becomes READY. -/
def skipHead (s : State) (i : Fin 8) : State :=
  match (streamOf i s).side with
  | some side =>
    count .commandSkipped (setStream i { streamOf i s with state := .ready }
      (setQueue side ((queueOf side s).eraseP fun e => e.stream == i) s))
  | none => s

/-- Stale marking (R35): the flags of the regions of a mask are set, and REGION_STALE is raised with the mask. -/
def setStale (mask : BitVec 8) (s : State) : State :=
  raiseEvent .regionStale (mask.setWidth 24)
    (mapRegions (fun i r => if mask.getLsbD i.val then { r with stale := true } else r) s)

/-- A fault is abandoned (R102). -/
def abandonFault (side : Side) (s : State) : State :=
  let r := recordOf side s
  let t := (membersOf r.waiting).foldl skipHead s
  let t := mapEntry r.key clearPending (setStale r.waiting t)
  trackLost side (count .abandoned (goIdle side t))

/-- A fault is cancelled (R103). -/
def cancelFault (side : Side) (s : State) : State :=
  trackLost side (count .cancelled (goIdle side (mapEntry (recordOf side s).key clearPending s)))

/-- A closing stream leaves the waiting set it is in (R44); a fault whose set is then empty is cancelled (R103). -/
def leaveFault (side : Side) (i : Fin 8) (s : State) : State :=
  let r := recordOf side s
  if r.active && r.waiting.getLsbD i.val then
    let waiting := r.waiting &&& ~~~ BitVec.ofNat 8 (2 ^ i.val)
    let t := setRecord side { r with waiting := waiting } s
    if waiting = 0 then cancelFault side t else t
  else s

/-- Re-presentation of a side's record at reattach, if it is ACTIVE (R104). -/
def representFault (side : Side) (s : State) : State :=
  let r := recordOf side s
  if r.active then
    count .represented (setRecord side (sendSet (faultOnLane side s) { r with timer := some (faultLoad s) }) s)
  else s

/-- Both records IDLE, as the resets leave them (R106). -/
def resetFaults (s : State) : State := { s with tf := ⟨FaultRecord.idle, FaultRecord.idle⟩ }

end Sys2Proof.Machine
end

