-- ==== Sys2Proof/Machine/Drawing.lean ====
section
/-! DEFINITION. Drawing (chapter 6) with the handover of entries (R47 to R49), the frame store arbiter (R25, R114) and the end
of an execution (R118 to R120). -/

namespace Sys2Proof.Machine

/-! ### The frame store arbiter (R25) -/

/-- The three states of a draw engine (R108). -/
inductive EngineState where
  | free | waiting | writing
  deriving DecidableEq, Repr

/-- The state of a side's engine: FREE with no record, WRITING when it holds the frame store, else WAITING (R108). -/
def engineState (side : Side) (s : State) : EngineState :=
  if (engineOf side s).isNone then .free
  else if s.fs.holder = some (.engine side) then .writing
  else .waiting

/-- The free frame store goes to the writer that began to wait first (R25). A teardown fill that is given it begins: its
colour is the undocked colour as it then stands, and TEARDOWN_FILL is counted (R37). The moment at which the write begins is
noted (log entry 9). -/
def grantStore (s : State) : State :=
  if s.fs.holder.isNone then
    match s.fs.waiting with
    | w :: rest =>
      let t := { s with fs.holder := some w, fs.waiting := rest, fs.began := s.free }
      if w = .teardownFill then count .teardownFill { t with lu.fillColour := some s.lu.undocked } else t
    | [] => s
  else s

/-- A writer asks for the frame store (R114): it takes it at once when no other writer holds it or waits for it, else it
waits behind the others. -/
def askStore (w : Writer) (s : State) : State := grantStore { s with fs.waiting := s.fs.waiting ++ [w] }

/-- The holder releases the frame store, which passes to the next waiting writer (R119). -/
def releaseStore (s : State) : State := grantStore { s with fs.holder := none }

/-! ### Clipping and sector need (R110, R112) -/

/-- The target rectangle of a PLACE or FILL: x, y, w, h; none for a SCROLL. -/
def targetOf : DrawCommand → Option (Int × Int × Int × Int)
  | .place _ x y _ => some (x, y, 16, 16)
  | .fill _ x y w h => some (x, y, w, h)
  | .scroll _ _ => none

/-- The record of an entry handed over (R108, R109): the entry copied, the region geometry as it stands, and the clip
rectangle of R110; for a SCROLL the whole region. -/
def recordFor (e : Entry) (r : Region) : ExecRecord :=
  let rw : Int := r.rw.toNat
  let rh : Int := r.rh.toNat
  let base : ExecRecord :=
    { stream := e.stream, seq := e.seq, pos := e.pos, command := e.command
      ox := r.ox.toNat, oy := r.oy.toNat, rw := r.rw.toNat, rh := r.rh.toNat, background := r.background
      cx0 := 0, cx1 := rw - 1, cy0 := 0, cy1 := rh - 1, firstSector := 0, tile := [], removed := false }
  match targetOf e.command with
  | some (x, y, w, h) =>
    { base with
      cx0 := max x 0, cx1 := min (x + w - 1) (rw - 1)
      cy0 := max y 0, cy1 := min (y + h - 1) (rh - 1) }
  | none => base

/-- Whether the clip rectangle is empty (R110). -/
def clipEmpty (r : ExecRecord) : Bool := decide (r.cx0 > r.cx1) || decide (r.cy0 > r.cy1)

/-- The first and last sector a PLACE at row y needs: those of its visible tile rows (R112). -/
def needLo (r : ExecRecord) (y : Int) : Nat := ((r.cy0 - y) / 4).toNat
/-- See needLo. -/
def needHi (r : ExecRecord) (y : Int) : Nat := ((r.cy1 - y) / 4).toNat

/-! ### Handover (R109, R111, R113) -/

/-- Whether an entry is the one a record was copied from. -/
def ExecRecord.names (r : ExecRecord) (e : Entry) : Bool := e.stream == r.stream && e.seq == r.seq && e.pos == r.pos

/-- Takes the entry that a record names out of a side queue. -/
def removeEntry (side : Side) (r : ExecRecord) (s : State) : State :=
  setQueue side ((queueOf side s).eraseP r.names) s

/-- Marks the first entry that a record names as executing (R47). -/
def markExecuting (r : ExecRecord) : List Entry → List Entry
  | [] => []
  | e :: rest => if r.names e then { e with executing := true } :: rest else e :: markExecuting r rest

/-- The engine takes the entry under execution and asks for the frame store (R114). -/
def beginExecution (side : Side) (r : ExecRecord) (s : State) : State :=
  askStore (.engine side) (setEngine side (some r) (setQueue side (markExecuting r (queueOf side s)) s))

/-- A PLACE with a non-empty clip rectangle (R113): the lookup is made, the reservation released after its outcome, and then
either the engine takes the contents handed over and asks for the frame store, or the Tile Fault Unit takes the miss. -/
def handPlace (side : Side) (r : ExecRecord) (key : Word) (y : Int) (s : State) : State :=
  let lo := needLo r y
  let hi := needHi r y
  let mask := sectorMask lo hi
  let l := lookupOf key mask s
  let t := releaseReservation r.stream (afterLookup key l s)
  match l with
  | .hit w => beginExecution side { r with firstSector := lo, tile := sectorPixels key w lo hi s } t
  | .sectorMiss _ => takeMiss side r.stream key mask true t
  | .absent => takeMiss side r.stream key mask false t

/-- Handover of an entry to the FREE engine of a side (R109), by the first case that holds. A PLACE that completes at once
releases its stream's reservation; a FILL or SCROLL does not (R111). -/
def handOver (side : Side) (e : Entry) (s : State) : State :=
  let r := recordFor e (regionOf e.stream s)
  match e.command with
  | .place key _ y _ =>
    if key = 0 then releaseReservation e.stream (removeEntry side r (count .keyZero s))
    else if clipEmpty r then releaseReservation e.stream (removeEntry side r (count .clipped s))
    else handPlace side r key y s
  | .fill _ _ _ _ _ =>
    if clipEmpty r then removeEntry side r (count .clipped s) else beginExecution side r s
  | .scroll dx dy =>
    if dx = 0 ∧ dy = 0 then removeEntry side r (count .clipped s) else beginExecution side r s

/-- The entry that the sequencer would hand a side's engine (R47): with the engine FREE, the oldest waiting entry whose stream
is READY. -/
def eligible (side : Side) (s : State) : Option Entry :=
  if (engineOf side s).isSome then none
  else (queueOf side s).find? fun e => !e.executing && (streamOf e.stream s).state == .ready

/-- Hands entries over until neither engine can be handed one. When both sides have one, which goes first is a free value
(R47: the two sides do not wait on each other). Each handover removes an entry, makes an engine busy or makes a READY
stream wait; a stream is woken again only by the release of one of at most eight reservations. So the fuel of
handEach is never short. -/
def handFuel : Nat → State → State
  | 0, s => s
  | fuel + 1, s =>
    match eligible .a s, eligible .b s with
    | none, none => s
    | some e, none => handFuel fuel (handOver .a e s)
    | none, some e => handFuel fuel (handOver .b e s)
    | some e, some f =>
      if Config.sideBFirst s.free then handFuel fuel (handOver .b f (takeFree s))
      else handFuel fuel (handOver .a e (takeFree s))

/-- The handovers to both engines, one after another (R47). -/
def handEach (s : State) : State := handFuel (s.sq.queueA.length + s.sq.queueB.length + 80) s

/-- The other engine for an engine. -/
def Writer.otherEngine : Writer → Writer
  | .engine side => .engine (otherSide side)
  | .layoutApply => .layoutApply
  | .teardownFill => .teardownFill

/-- The engines' turns at the frame store exchanged. -/
def exchangeTurns (s : State) : State :=
  { s with fs.holder := s.fs.holder.map Writer.otherEngine, fs.waiting := s.fs.waiting.map Writer.otherEngine }

/-- Whether both engines, FREE in s, have taken an entry by t. -/
def bothTook (s t : State) : Bool :=
  s.de.engineA.isNone && s.de.engineB.isNone && t.de.engineA.isSome && t.de.engineB.isSome

/-- The choices of the Stream Sequencer for both engines (R47). THE MODEL'S CHOICE (log entry 8): when both engines take an entry
in one event, whether each had one from the start or one side's handover woke the other side's stream, they began to wait
together, and which of the two is served first is a free value (R114). -/
def handAll (s : State) : State :=
  let t := handEach s
  if bothTook s t then (if Config.laterEngineFirst t.free then exchangeTurns (takeFree t) else takeFree t) else t

/-! ### The drain (R62) -/

/-- The drain condition of a quiesce (R62). -/
def drained (s : State) : Bool :=
  s.sq.queueA.isEmpty && s.sq.queueB.isEmpty && s.de.engineA.isNone && s.de.engineB.isNone &&
    !s.tf.recA.active && !s.tf.recB.active

/-- In QUIESCING, when the drain condition holds, the state becomes QUIESCED and the OK to the QUIESCE is queued (R62). -/
def checkDrain (s : State) : State :=
  if s.sq.quiesce = .quiescing ∧ drained s = true then
    endOp .quiesce .ok { s with sq.quiesce := .quiesced }
  else s

/-- The sequencer's part of an event that may have freed an engine, queued an entry or woken a stream: its choices (R47), and
then the drain condition (R62). THE MODEL'S CHOICE (log entry 33): in an event of several steps, such as the completion,
abandonment or cancellation of a fault (R99, R102, R103), the choices are made once, after all of its steps, and not at the
step that makes a stream READY. -/
def settle (s : State) : State := checkDrain (handAll s)

/-! ### Marks (R118) -/

/-- The blocks a command marks (R118). -/
def commandBlocks (s : State) (r : ExecRecord) : Nat → Bool :=
  match r.command with
  | .scroll _ _ => touches s r.ox (r.ox + r.rw - 1) r.oy (r.oy + r.rh - 1)
  | .place _ _ _ _ =>
    touches s (r.ox + r.cx0).toNat (r.ox + r.cx1).toNat (r.oy + r.cy0).toNat (r.oy + r.cy1).toNat
  | .fill _ _ _ _ _ =>
    touches s (r.ox + r.cx0).toNat (r.ox + r.cx1).toNat (r.oy + r.cy0).toNat (r.oy + r.cy1).toNat

/-- The sub-event a command's end is counted as (R119). -/
def drawnEvent : DrawCommand → SubEvent
  | .place _ _ _ _ => .placeDrawn
  | .fill _ _ _ _ _ => .fillDrawn
  | .scroll _ _ => .scrollDrawn

/-! ### The end of an execution (R119, R120) -/

/-- The end of a side's execution: the pixels are written, the frame store released, the blocks marked, the entry taken out of
its queue unless it was removed, the command counted, and the engine FREE. -/
def finishExecution (side : Side) (r : ExecRecord) (s : State) : State :=
  let img := writeCommand (panelW s) (panelPixels s) r s.fs.image
  let t := readToEnd img { s with fs.image := img, fs.holder := none }
  let t := markBlocks (commandBlocks s r) t
  let t := if r.removed then t else removeEntry side r t
  grantStore (setEngine side none (count (drawnEvent r.command) t))

/-- EXECUTION_END (R119): the engine of the side, when WRITING, ends its execution, and the sequencer makes its next choice.
An engine that is not WRITING has no execution to end and nothing changes. -/
def execExecutionEnd (side : Side) (s : State) : Result :=
  match engineOf side s with
  | some r =>
    if s.fs.holder = some (.engine side) then .next (conclude s (settle (finishExecution side r s))) else .next s
  | none => .next s

/-- Sets the removed item of an engine's record (R120). -/
def markRemoved (side : Side) (s : State) : State :=
  setEngine side ((engineOf side s).map fun r => { r with removed := true }) s

/-- Sets the removed item of an engine's record when the entry is of the stream given (R45). -/
def markRemovedOf (side : Side) (i : Fin 8) (s : State) : State :=
  setEngine side ((engineOf side s).map fun r => if r.stream = i then { r with removed := true } else r) s

end Sys2Proof.Machine
end

