-- ==== Sys2Proof/Machine/Layout.lean ====
section
/-! DEFINITION. The Layout Unit (chapter 2): layout writes and their checks, the layout apply, and the teardown fill. -/

namespace Sys2Proof.Machine

/-! ### Layout writes (R29 to R31) -/

/-- A refused LAYOUT write: counted, answered, nothing else (R30, R39). -/
def refuseLayout (tag : Byte) (status : Status) (s : State) : State :=
  answer tag 0x02 status (count .layoutRefused s)

/-- A write of the header entry (R29, R31): in QUIESCED both colours are replaced and header-changed is set. -/
def doHeaderWrite (tag : Byte) (border undocked : Half) (s : State) : State :=
  if s.sq.quiesce = .quiesced then
    answer tag 0x02 .ok { s with lu.border := border, lu.undocked := undocked, lu.headerChanged := true }
  else refuseLayout tag .notQuiesced s

/-- Whether written geometry overlaps an enabled region other than i (R30). -/
def overlapsOther (i : Fin 8) (ox oy rw rh : Half) (s : State) : Bool :=
  (List.finRange 8).any fun j =>
    j != i && (regionOf j s).enabled &&
      rectsOverlap ox oy rw rh (regionOf j s).ox (regionOf j s).oy (regionOf j s).rw (regionOf j s).rh

/-- A write of a region entry (R29, R30), checked in the order of R30's table. -/
def doRegionWrite (tag : Byte) (i : Fin 8) (enabled : Bool) (ox oy rw rh background : Half) (s : State) : State :=
  if s.sq.quiesce ≠ .quiesced then refuseLayout tag .notQuiesced s
  else if enabled && !regionFits s.lu.width s.lu.height ox oy rw rh then refuseLayout tag .badValue s
  else if enabled && overlapsOther i ox oy rw rh s then refuseLayout tag .overlap s
  else if !enabled && isOpen i s then refuseLayout tag .streamIsOpen s
  else
    answer tag 0x02 .ok
      (setRegion i { regionOf i s with
        enabled := enabled, ox := ox, oy := oy, rw := rw, rh := rh, background := background, changed := true } s)

/-! ### The layout apply (R33, R34) -/

/-- Whether any of the nine changed flags is set (R32). -/
def anyChanged (s : State) : Bool := s.lu.headerChanged || (List.finRange 8).any fun i => (regionOf i s).changed

/-- The regions that are both enabled and marked changed (R33). -/
def notedRegions (s : State) : BitVec 8 := maskOf fun i => (regionOf i s).enabled && (regionOf i s).changed

/-- All nine changed flags set or cleared together (R32). -/
def setChanged (b : Bool) (s : State) : State :=
  mapRegions (fun _ r => { r with changed := b }) { s with lu.headerChanged := b }

/-- The beginning of the layout apply's fill (R33): the regions are noted, the changed flags cleared, the noted regions set
stale with their event, and the frame store asked for. With no region noted no stale flag is set and no event raised. -/
def beginApply (s : State) : State :=
  let mask := notedRegions s
  let t := setChanged false { s with lu.apply := some mask }
  let t := if mask = 0 then t else setStale mask t
  askStore .layoutApply (count .layoutApply t)

/-- Whether a screen pixel lies inside a region. -/
def inRegion (r : Region) (x y : Nat) : Bool :=
  r.ox.toNat ≤ x && x < r.ox.toNat + r.rw.toNat && r.oy.toNat ≤ y && y < r.oy.toNat + r.rh.toNat

/-- Whether a block holds at least one pixel inside no enabled region (R34). A block that one enabled region covers whole
holds none. -/
def holdsBorder (s : State) (i : Nat) : Bool :=
  let x := 16 * (i % s.lu.width)
  let y := 16 * (i / s.lu.width)
  let enabled := (List.finRange 8).filter fun j => (regionOf j s).enabled
  if enabled.any fun j => inRegion (regionOf j s) x y && inRegion (regionOf j s) (x + 15) (y + 15) then false
  else (List.range 256).any fun p => enabled.all fun j => !inRegion (regionOf j s) (x + p % 16) (y + p / 16)

/-- The blocks the apply marks (R34): those of each filled region, and every block that holds border. -/
def applyBlocks (s : State) (mask : BitVec 8) (i : Nat) : Bool :=
  ((membersOf mask).any fun j =>
    let r := regionOf j s
    r.enabled && touches s r.ox.toNat (r.ox.toNat + r.rw.toNat - 1) r.oy.toNat (r.oy.toNat + r.rh.toNat - 1) i) ||
  holdsBorder s i

/-- The end of the apply's fill (R34): the pixels are written, the frame store released, the blocks marked. -/
def finishApply (mask : BitVec 8) (s : State) : State :=
  let img := applyImage s mask
  let t := readToEnd img { s with fs.image := img, fs.holder := none, lu.apply := none }
  grantStore (markBlocks (applyBlocks s mask) t)

/-! ### The teardown fill (R37) -/

/-- A teardown stops a fill of the Layout Unit that holds the frame store where it is (R34, R37), and the store is free. Each
pixel that the fill has written by now holds what the fill gives it, any other what it held before (log entry 9). -/
def stopFill (s : State) : State :=
  if s.fs.holder.any Writer.isLayout then
    let img := imageBlend (panelPixels s) (isWritten s) s.fs.image (writtenImage s)
    readToEnd img (takeFree { s with fs.image := img, fs.holder := none })
  else s

/-- Teardown asks for the teardown fill (R37). A layout apply stops. A fill already running stops and starts over. Draw writes
that hold the frame store or wait for it complete first, so the fill takes its place behind them. THE MODEL'S CHOICE (log
entry 11): a fill still waiting does not become two, and it does not keep its turn; it waits behind every draw write that
waits at the later teardown, so that no pixel written for that tablet survives it. -/
def requestTeardownFill (s : State) : State :=
  grantStore { stopFill s with
    fs.waiting := s.fs.waiting.filter (fun w => !w.isLayout) ++ [.teardownFill]
    lu.apply := none
    lu.fillColour := none }

/-- The Layout Unit's part of a teardown (R37): every stale and changed flag set, REGION_STALE raised with all eight regions,
the teardown fill asked for. -/
def teardownLayout (s : State) : State := requestTeardownFill (setChanged true (setStale 0xFF s))

/-- The end of the teardown fill (R37): every pixel holds the fill's colour, and every block is marked. -/
def finishTeardownFill (c : Half) (s : State) : State :=
  let img := imageUniform c
  let t := readToEnd img { s with fs.image := img, fs.holder := none, lu.fillColour := none }
  grantStore (markBlocks (fun _ => true) t)

/-- TEARDOWN_FILL_END (R37): the running teardown fill ends. With none running nothing changes. -/
def execTeardownFillEnd (s : State) : Result :=
  match s.lu.fillColour with
  | some c =>
    if s.fs.holder = some .teardownFill then .next (conclude s (finishTeardownFill c s)) else .next s
  | none => .next s

end Sys2Proof.Machine
end

