-- ==== Sys2Proof/Machine/Streams.lean ====
section
/-! DEFINITION. The Stream Sequencer (chapter 3): opening and closing, taking DRAW frames, shedding, and the quiesce; with the
requests whose effects end in its choices (TILE_UNPIN) or its RESUME (the end of the layout apply). -/

namespace Sys2Proof.Machine

/-! ### Opening and closing (R42 to R45) -/

/-- The side a stream being opened goes to (R43). -/
def sideForOpen (s : State) : Side := if openCount .b s < openCount .a s then .b else .a

/-- A stream set up by an accepted open (R42). -/
def openStream (i : Fin 8) (start : Half) (s : State) : State :=
  let side := sideForOpen s
  setRegion i { regionOf i s with stale := false }
    (setStream i ⟨.ready, some side, start, none, false, none⟩ s)

/-- STREAM_OPEN (R42), checked in the order of its table. -/
def doStreamOpen (tag stream : Byte) (start : Half) (s : State) : State :=
  if h : stream.toNat < 8 then
    let i : Fin 8 := ⟨stream.toNat, h⟩
    if !(regionOf i s).enabled then answer tag 0x03 .regionDisabled s
    else if isOpen i s then answer tag 0x03 .streamIsOpen s
    else answer tag 0x03 .ok (openStream i start s)
  else answer tag 0x03 .badIndex s

/-- A stream record as a close leaves it (R44): expected keeps its value. -/
def closedRecord (r : Stream) : Stream := ⟨.closed, none, r.expected, none, false, none⟩

/-- Closes a stream (R44): its entries leave the queue, the one in execution marked as removed (R45); it leaves the fault it
waits on; its reservation is released; its record is closed. -/
def closeStream (i : Fin 8) (s : State) : State :=
  let t :=
    match (streamOf i s).side with
    | some side => markRemovedOf side i (setQueue side ((queueOf side s).filter fun e => e.stream != i) s)
    | none => s
  let t := releaseReservation i (leaveFault .b i (leaveFault .a i t))
  setStream i (closedRecord (streamOf i t)) t

/-- STREAM_CLOSE (R44). The wakes of a cancelled fault or a released reservation let the sequencer choose again. -/
def doStreamClose (tag stream : Byte) (s : State) : State :=
  if h : stream.toNat < 8 then
    let i : Fin 8 := ⟨stream.toNat, h⟩
    if isOpen i s then settle (answer tag 0x04 .ok (closeStream i s)) else answer tag 0x04 .streamClosed s
  else answer tag 0x04 .badIndex s

/-- TILE_UNPIN with the choices that its wakes allow (R85, R47). -/
def doTileUnpin (tag : Byte) (key : Word) (s : State) : State := settle (unpin tag key s)

/-- A write of a STREAM entry (R36): a clear stale bit clears the region's stale flag; a set one changes nothing. -/
def doStreamWrite (tag : Byte) (i : Fin 8) (stale : Bool) (s : State) : State :=
  answer tag 0x02 .ok (if stale then s else setRegion i { regionOf i s with stale := false } s)

/-! ### Shedding (R56, R57) -/

/-- The sequence number of a stream's oldest entry in a queue. -/
def oldestSeq (i : Fin 8) (q : List Entry) : Option Half := (q.find? fun e => e.stream == i).map Entry.seq

/-- Whether an entry belongs to a frame of stream i younger than the frame of its oldest entry. A stream's entries stand in
the order of their frames (R46), so these are the ones of another frame. -/
def younger (i : Fin 8) (q : List Entry) (e : Entry) : Bool := e.stream == i && oldestSeq i q != some e.seq

/-- Whether a stream is a candidate for shedding on a side (R56). -/
def shedCandidate (side : Side) (s : State) (i : Fin 8) : Bool :=
  (streamOf i s).side == some side && (streamOf i s).state.waits &&
    decide (s.settings.shedThreshold < queued i s) && (queueOf side s).any (younger i (queueOf side s))

/-- The victim (R56): the candidate with the largest queued item, the lowest number among equals. -/
def shedVictim (side : Side) (s : State) : Option (Fin 8) :=
  (List.finRange 8).foldl (fun best i =>
    if shedCandidate side s i then
      match best with
      | some b => if queued b s < queued i s then some i else some b
      | none => some i
    else best) none

/-- The shed of a victim (R57). -/
def shedStream (side : Side) (v : Fin 8) (s : State) : State :=
  let q := queueOf side s
  let gone := q.filter (younger v q)
  let resume := (gone.head?.map Entry.seq).getD (streamOf v s).expected
  let t := setQueue side (q.filter fun e => !younger v q e) s
  let t := flagRewind .shed v (setStream v { streamOf v t with expected := resume } t)
  countN .commandsShed gone.length (count .shedRun t)

/-! ### DRAW frames (R50 to R55) -/

/-- The entries of a frame's commands, in order of position (R46). -/
def entriesOf (i : Fin 8) (seq : Half) (cs : List DrawCommand) : List Entry :=
  cs.zipIdx.map fun c => ⟨i, seq, c.2, c.1, false⟩

/-- Whether a side queue has n free entries (R46, R53). -/
def hasRoom (side : Side) (n : Nat) (s : State) : Bool := (queueOf side s).length + n ≤ Config.sideDepth

/-- A frame is taken (R53): its commands join the tail, expected advances, a GAP or SHED flag is cleared; the engine, if FREE,
may then be handed an entry (R47). -/
def takeFrame (side : Side) (i : Fin 8) (seq : Half) (cs : List DrawCommand) (s : State) : State :=
  let r := streamOf i s
  let clears := r.rewind = some .gap ∨ r.rewind = some .shed
  let r' := { r with
    expected := r.expected + 1
    rewind := if clears then none else r.rewind
    renewed := if clears then false else r.renewed }
  settle (count .accepted (setStream i r' (setQueue side (queueOf side s ++ entriesOf i seq cs) s)))

/-- An in-order frame that still lacks room is discarded and its stream flagged GAP (R57). -/
def refuseForRoom (i : Fin 8) (s : State) : State := flagRewind .gap i (count .noRoom s)

/-- An in-order frame (R53), with the shed rule when it lacks room (R56, R57). -/
def inOrder (side : Side) (i : Fin 8) (seq : Half) (cs : List DrawCommand) (s : State) : State :=
  if hasRoom side cs.length s then takeFrame side i seq cs s
  else
    match shedVictim side s with
    | some v =>
      let t := shedStream side v s
      if v = i then count .noRoom t
      else if hasRoom side cs.length t then takeFrame side i seq cs t
      else refuseForRoom i t
    | none => refuseForRoom i (count .shedNone s)

/-- A well-formed DRAW frame (R51, R52): judged by stream, quiesce state and the distance of its number from expected. -/
def judgeDraw (i : Fin 8) (seq : Half) (cs : List DrawCommand) (s : State) : State :=
  match (streamOf i s).side with
  | none => count .closedStream s
  | some side =>
    if !isOpen i s then count .closedStream s
    else if s.sq.quiesce ≠ .running then count .heldOff s
    else
      let d := seq - (streamOf i s).expected
      if d = 0 then inOrder side i seq cs s
      else if d.toNat < 32768 then
        let t := count .gap s
        if (streamOf i s).rewind.isNone then flagRewind .gap i t else t
      else count .duplicate s

/-- A DRAW frame at the Stream Sequencer (R50). -/
def doDraw (stream : Byte) (seq : Half) (commands : List Byte) (s : State) : State :=
  if h : stream.toNat < 8 then
    match parseDraw commands with
    | some cs => judgeDraw ⟨stream.toNat, h⟩ seq cs s
    | none => count .malformed s
  else count .malformed s

/-! ### Quiesce and resume (R61 to R66) -/

/-- QUIESCE (R61): from QUIESCED the OK at once; else the state is QUIESCING, the request in progress, and the drain looked
at. -/
def doQuiesce (tag : Byte) (s : State) : State :=
  if s.sq.quiesce = .quiesced then answer tag 0x05 .ok s
  else checkDrain (beginLong tag 0x05 .quiesce { s with sq.quiesce := .quiescing })

/-- The highest-numbered open stream of a side. -/
def highestOpen (side : Side) (s : State) : Option (Fin 8) :=
  (List.finRange 8).reverse.find? fun i => isOpen i s && (streamOf i s).side == some side

/-- Moves the highest-numbered open stream of a side to the other (R65). -/
def moveStream (side : Side) (s : State) : State :=
  match highestOpen side s with
  | some i => count .rebalanceMove (setStream i { streamOf i s with side := some (otherSide side) } s)
  | none => s

/-- The rebalancing (R65): while the open counts differ by more than 1, a stream of the larger side moves. Four moves are the
most that eight streams can need; the fuel of rebalance covers them. -/
def rebalanceFuel : Nat → State → State
  | 0, s => s
  | fuel + 1, s =>
    if openCount .b s + 1 < openCount .a s then rebalanceFuel fuel (moveStream .a s)
    else if openCount .a s + 1 < openCount .b s then rebalanceFuel fuel (moveStream .b s)
    else s

/-- The rebalancing at RESUME (R65). -/
def rebalance (s : State) : State := rebalanceFuel 8 s

/-- Steps 2 to 4 of a RESUME (R64): the rebalancing, a QUIESCE_END rewind on every open stream, RUNNING and the reply. -/
def finishResume (s : State) : State :=
  let t := flagOpenRewinds .quiesceEnd (rebalance s)
  endOp .resume .ok { t with sq.quiesce := .running }

/-- RESUME (R64, R66): refused unless QUIESCED; else the layout apply begins, or ends at once when no changed flag is set. -/
def doResume (tag : Byte) (s : State) : State :=
  if s.sq.quiesce = .quiesced then
    let t := beginLong tag 0x06 .resume s
    if anyChanged t then beginApply t else finishResume t
  else answer tag 0x06 .notQuiesced s

/-- LAYOUT_APPLY_END (R34, R64): the running apply ends and the RESUME goes on. With no apply writing nothing changes. -/
def execLayoutApplyEnd (s : State) : Result :=
  match s.lu.apply with
  | some mask =>
    if s.fs.holder = some .layoutApply then .next (conclude s (finishResume (finishApply mask s))) else .next s
  | none => .next s

/-! ### Teardown and DOCK_RESET (R67, R68) -/

/-- Every stream closed, both side queues empty, entries in execution removed (R120), RUNNING (R67, R68). -/
def resetStreams (s : State) : State :=
  let t := mapStreams (fun _ r => closedRecord r) (markRemoved .b (markRemoved .a s))
  { t with sq.queueA := [], sq.queueB := [], sq.quiesce := .running }

end Sys2Proof.Machine
end

