-- ==== Sys2Proof/Machine/Link.lean ====
section
/-! DEFINITION. The Link Controller (chapter 1): departures from UP, teardown, attachment, framing, and the expiries and
completions it takes. -/

namespace Sys2Proof.Machine

/-! ### Departures (R6, R11) -/

/-- A frame in assembly is discarded by a change of link state (R6). -/
def cutAssembly (s : State) : State :=
  if s.lc.assembly.isSome then count .frameCut { s with lc.assembly := none } else s

/-- The attachment machine is told of a departure from UP (R11): ATTACHED becomes HELD; otherwise nothing. -/
def enterHold (cause : DepartCause) (s : State) : State :=
  if s.lc.attachment = .attached then
    count .holdStart { s with
      lc.attachment := .held
      lc.holdCause := some cause
      lc.holdStart := some s.tick
      lc.holdTimer := some (s.settings.holdTime * Config.holdUnit) }
  else s

/-- A departure from UP (R6): the frame in assembly discarded, the counts 0, the transmission cut, the attachment told. -/
def leaveUp (cause : DepartCause) (s : State) : State :=
  enterHold cause (cutTx { cutAssembly s with lc.failureCount := 0, lc.framingCount := 0 })

/-- Expiry of the loss detector (R1, R6). -/
def expireLoss (s : State) : State :=
  let t := { s with lc.link := .down, lc.lossCount := 0 }
  let t := if s.lc.link = .up then leaveUp .lossDetector t else cutAssembly t
  count .linkDown t

/-- Whether the loss detector has expired (R1): running, and its count at the loss limit in ticks or above. -/
def lossExpired (s : State) : Bool :=
  s.lc.link != .down && decide (s.settings.lossLimit * Config.lossUnit ≤ s.lc.lossCount)

/-- LOSS_DETECTOR_EXPIRY (R1). With the count below the limit, or the detector stopped, nothing expires and nothing changes. -/
def execLossDetectorExpiry (s : State) : Result :=
  if lossExpired s then .next (conclude s (expireLoss s)) else .next s

/-! ### Teardown (R15) -/

/-- Every slot of the event pending set emptied (R163). -/
def clearEvents (s : State) : State := { s with me.events := Vector.replicate 6 EventSlot.clear }

/-- A request in progress meets a teardown (R157): a store operation runs on without a reply; any other ends. -/
def abandonRequest (s : State) : State :=
  match s.me.inProgress with
  | some r =>
    match r.op with
    | .erase _ => { s with me.inProgress := some { r with silent := true } }
    | .program _ _ => { s with me.inProgress := some { r with silent := true } }
    | .quiesce => { s with me.inProgress := none }
    | .resume => { s with me.inProgress := none }
    | .tileFlush => { s with me.inProgress := none }
  | none => s

/-- The Link Controller's own part of a teardown (R15). -/
def teardownLink (s : State) : State :=
  { cutTx s with
    lc.attachment := .unattached, lc.attachNumber := 0, lc.holdTimer := none, lc.holdCause := none, lc.holdStart := none
    lc.greet := none, lc.greetRenewed := false, lc.keys := [], lc.replies := [] }

/-- Teardown in every block (R15): the pending set is emptied as it is taken, and the events that its other parts raise stand
afterwards. -/
def teardown (s : State) : State :=
  let t := count .teardown (teardownLink (abandonRequest (clearEvents s)))
  trackTeardown (teardownLayout (resetFaults (resetCache (resetStreams t))))

/-- HOLD_TIMER_EXPIRY (R14). While the hold timer is stopped or has ticks left nothing expires and nothing changes. -/
def execHoldTimerExpiry (s : State) : Result :=
  if s.lc.holdTimer = some 0 then .next (conclude s (teardown s)) else .next s

/-! ### HELLO (R9 to R13) -/

/-- The attach counter after a number has been issued (R8). -/
def nextCounter (c : Word) : Word := if c = 4294967295 then 1 else c + 1

/-- A fresh attach (R9): the HELLO's number is recorded, or one is issued; GREET is flagged NEW. -/
def freshAttach (number : Word) (s : State) : State :=
  flagGreet .newSession
    (if number = 0 then
      { s with lc.attachment := .attached, lc.attachNumber := s.lc.attachCounter, lc.attachCounter := nextCounter s.lc.attachCounter }
    else { s with lc.attachment := .attached, lc.attachNumber := number })

/-- The hold duration in ms at a reattach (R12). -/
def holdMs (s : State) : Nat := (s.tick - s.lc.holdStart.getD s.tick) / Config.ticksPerMs

/-- The detail of LINK_RESUMED (section 11.5): duration in the low two bytes, cause in the third. -/
def resumedDetail (s : State) : BitVec 24 :=
  (s.lc.holdCause.map DepartCause.code).getD 0 ++ BitVec.ofNat 16 (holdMs s)

/-- A reattach (R12). -/
def reattach (s : State) : State :=
  let t := flagGreet .resumed
    { s with
      lc.attachment := .attached, lc.holdTimer := none
      lc.lastCause := s.lc.holdCause, lc.lastDuration := holdMs s }
  let t := representFault .b (representFault .a (flagOpenRewinds .reattach t))
  count .reattach (raiseEvent .linkResumed (resumedDetail s) (reattachSnapshot t))

/-- A HELLO taken for dispatch (R9, R10, R12, R13). -/
def takeHello (number : Word) (s : State) : State :=
  match s.lc.attachment with
  | .unattached => freshAttach number s
  | .attached =>
    if number = s.lc.attachNumber then flagGreet .repeated s else freshAttach number (teardown s)
  | .held =>
    if number = s.lc.attachNumber then reattach s else freshAttach number (teardown s)

/-! ### Framing (R3 to R5) -/

/-- A frame that passes the check (R4, R5): in FRAMING it counts toward framing and is dropped; in UP the failure count is 0
and the frame goes to dispatch. In DOWN and ALIGNING no frame is assembled. -/
def passFrame (dispatch : State → State) (s : State) : State :=
  match s.lc.link with
  | .framing =>
    if Config.framingFrames ≤ s.lc.framingCount + 1 then
      count .linkUp { s with lc.link := .up, lc.framingCount := s.lc.framingCount + 1, lc.failureCount := 0 }
    else { s with lc.framingCount := s.lc.framingCount + 1 }
  | .up => dispatch { s with lc.failureCount := 0 }
  | .down => s
  | .aligning => s

/-- A frame that fails the check (R4, R5): in FRAMING the framing count is 0; in UP the failure count rises, and the fourth
failure in a row is frame loss. -/
def failFrame (s : State) : State :=
  match s.lc.link with
  | .framing => count .checkFail { s with lc.framingCount := 0 }
  | .up =>
    if Config.lossFrames ≤ s.lc.failureCount + 1 then
      leaveUp .frameErrors (count .linkRealign (count .checkFail { s with lc.link := .aligning, lc.alignCount := 0 }))
    else count .checkFail { s with lc.failureCount := s.lc.failureCount + 1 }
  | .down => s
  | .aligning => s

/-- Whether the Link Controller assembles frames: the link FRAMING or UP (R3). -/
def assembles (s : State) : Bool := s.lc.link == .framing || s.lc.link == .up

/-- The arrival of a frame command: its effect when the link is FRAMING or UP. In DOWN and ALIGNING no frame can be closed
(R2, R3), and nothing changes. -/
def frameArrival (effect : State → State) (s : State) : Result :=
  if assembles s then .next (conclude s (effect s)) else .next s

/-- Dispatch of a DRAW, TILE or MGMT frame by attachment (R16, step 2). -/
def ifAttached (run : State → State) (s : State) : State :=
  if s.lc.attachment = .attached then run s else count .notAttached s

/-- The arrival of a MGMT frame with a request (R16, R155). -/
def requestArrival (tag kind : Byte) (run : State → State) (s : State) : Result :=
  frameArrival (passFrame (ifAttached (takeRequest tag kind run))) s

/-! ### Commands of the Link Controller -/

/-- CHECK_FAIL (R4, R5). -/
def execCheckFail (s : State) : Result := frameArrival failFrame s

/-- IDLE (R4, R5, R16): no effect beyond the counts of framing. -/
def execIdle (s : State) : Result := frameArrival (passFrame id) s

/-- BAD_FRAME (R16). -/
def execBadFrame (s : State) : Result := frameArrival (passFrame (count .badFrame)) s

/-- HELLO (R9 to R13). -/
def execHello (number : Word) (s : State) : Result := frameArrival (passFrame (takeHello number)) s

/-- TRANSMISSION_COMPLETE (R19): the lane is free, the frame has left whole, and its item is removed or kept as renewed. With
no transmission in progress nothing changes. -/
def execTransmissionComplete (s : State) : Result :=
  match s.lc.tx with
  | some t => .next (conclude s (completeItem t.item { s with lc.tx := none, lc.laneOut := frameGroups t.frame }))
  | none => .next s

end Sys2Proof.Machine
end

