-- ==== Sys2Proof/Machine/Tiles.lean ====
section
/-! DEFINITION. Fills from TILE frames (R77 to R79, R88) and the expiry of a fault timer (R100 to R102), each with the choices
of the Stream Sequencer that its wake-ups allow. -/

namespace Sys2Proof.Machine

/-! ### Fills (R77 to R79, R88) -/

/-- A fill of a key that way w of its set holds (R78): the sector is written, its flag set; a pending entry's fill is passed
to the Tile Fault Unit. -/
def fillPresent (key : Word) (w : Fin 4) (sector : Nat) (data : List Byte) (s : State) : State :=
  let t := count .fillPresent (writeSector key w sector data s)
  if (tileSet key t)[w].pending then fillPassed key w t else t

/-- A fill of a key that no valid way holds (R79): the victim is taken and the sector written, or the fill is discarded. -/
def fillAbsent (key : Word) (sector : Nat) (data : List Byte) (s : State) : State :=
  match victim (tileSet key s) with
  | some w => count .fillAllocated (writeSector key w sector data (allocateWay key w s))
  | none => count .fillNoWay s

/-- Whether a running flush sweep discards a fill of a key (R88): its set is at or above the sweep pointer. -/
def sweepDiscards (key : Word) (s : State) : Bool := decide (s.tc.sweep ≤ (setIndex key).val)

/-- A TILE frame at the Tile Cache (R77). -/
def doTile (key : Word) (sector : Byte) (data : List Byte) (s : State) : State :=
  if key = 0 ∨ 3 < sector.toNat then count .fillBad s
  else if sweepDiscards key s then count .fillFlushed s
  else
    match findWay key (tileSet key s) with
    | some w => settle (fillPresent key w sector.toNat data s)
    | none => fillAbsent key sector.toNat data s

/-! ### The fault timer (R100 to R102) -/

/-- The expiry of a side's fault timer: a retry while tries are below the retry limit, else the abandonment, after which the
sequencer chooses. -/
def expireFault (side : Side) (s : State) : State :=
  if (recordOf side s).tries < s.settings.retryLimit then retryFault side s else settle (abandonFault side s)

/-- FAULT_TIMER_EXPIRY (R100): when the timer of the side's ACTIVE record expires. Otherwise no expiry falls (R104, R105) and
nothing changes. -/
def execFaultTimerExpiry (side : Side) (s : State) : Result :=
  if faultExpires side s then .next (conclude s (expireFault side s)) else .next s

end Sys2Proof.Machine
end

