-- ==== Sys2Proof/Machine/Manage.lean ====
section
/-! DEFINITION. The Management Engine's tables (section 9.2, R158, R159, entry layouts of section 11.7), DOCK_RESET (R161), and
the reading of a request from its bytes (R156, R174). -/

namespace Sys2Proof.Machine

/-! ### The ten tables (sections 9.2 and 11.7) -/

/-- The tables. -/
inductive Table where
  | ident | layout | stream | tileDir | fault | keymap | settings | panel | link | monitor
  deriving DecidableEq, Repr

/-- The table of a number, if it names one (section 11.7). -/
def tableOfCode (c : Byte) : Option Table :=
  [Table.ident, .layout, .stream, .tileDir, .fault, .keymap, .settings, .panel, .link, .monitor][c.toNat]?

/-- The number of entries of a table (section 9.2). -/
def Table.entries : Table → Nat
  | .ident => 1
  | .layout => 9
  | .stream => 9
  | .tileDir => 256
  | .fault => 2
  | .keymap => 384
  | .settings => 1
  | .panel => 1
  | .link => 1
  | .monitor => 5

/-- The size of an entry of a table in bytes (section 11.7). -/
def Table.size : Table → Nat
  | .ident => 8
  | .layout => 11
  | .stream => 11
  | .tileDir => 8
  | .fault => 10
  | .keymap => 2
  | .settings => 10
  | .panel => 7
  | .link => 16
  | .monitor => 26

/-! ### Entries as bytes (section 11.7) -/

/-- LAYOUT entry 0: header flags and the two colours (R39). -/
def headerEntry (s : State) : List Byte :=
  [flagBit s.lu.headerChanged 1] ++ le16 s.lu.border ++ le16 s.lu.undocked ++ List.replicate 6 0

/-- STREAM entries 1 to 8 (R69). -/
def streamEntry (i : Fin 8) (s : State) : List Byte :=
  let r := streamOf i s
  [r.state.code, (r.side.map sideCode).getD 255] ++ le16 r.expected ++
    [(r.rewind.map RewindReason.code).getD 0, byteOf (queued i s)] ++ le32 (r.reservation.getD 0) ++
    [flagBit (regionOf i s).stale 0]

/-- A TILEDIR entry (R91). -/
def dirEntryBytes (e : DirEntry) : List Byte :=
  [flagBit e.valid 0 ||| flagBit e.pinned 1 ||| flagBit e.pending 2] ++ le32 e.key ++
    [e.sectors.setWidth 8, byteOf e.age, byteOf e.reserve]

/-- A FAULT entry (R107): the timer in ms, rounded up. -/
def faultEntry (r : FaultRecord) : List Byte :=
  [flagBit r.active 0] ++ le32 r.key ++
    [r.needed.setWidth 8, r.waiting, byteOf r.tries,
      byteOf ((r.timer.getD 0 + (Config.ticksPerMs - 1)) / Config.ticksPerMs), flagBit r.send 0]

/-- The SETTINGS entry (R160). -/
def settingsEntry (r : Settings) : List Byte :=
  [byteOf r.lossLimit, byteOf r.holdTime] ++ bytes2 r.scanPeriod ++
    [byteOf r.depth, byteOf r.faultTimeout, byteOf r.retryLimit, byteOf r.shedThreshold, r.enables.setWidth 8, 0]

/-- The PANEL entry (R135). -/
def panelEntry (s : State) : List Byte :=
  [byteOf s.lu.width, byteOf s.lu.height, byteOf s.pu.level,
    flagBit s.pu.halted 0 ||| flagBit s.pu.inFlight.isSome 1, byteOf s.pu.streak] ++
    bytes2 (s.pu.dirty.count true)

/-- The LINK entry (R22). -/
def linkEntry (s : State) : List Byte :=
  [s.lc.link.code, s.lc.attachment.code] ++ le32 s.lc.attachNumber ++ le32 s.lc.attachCounter ++
    [(s.lc.lastCause.map DepartCause.code).getD 0] ++ bytes2 s.lc.lastDuration ++
    [byteOf s.lc.keys.length, byteOf s.lc.replies.length, (s.lc.greet.map GreetOutcome.code).getD 0]

/-- MONITOR entries 0 to 3 (R172). -/
def counterEntry (c : Counter) : List Byte :=
  bytes4 c.value ++ [modeCode c.mode, groupCode c.group] ++ le32 c.mask ++ [conditionCode c.condition] ++
    List.replicate 15 0

/-- MONITOR entry 4 (R172). -/
def trackerEntry (t : Tracker) : List Byte :=
  (match t.armed with
    | some f => [1, sideCode f.side] ++ le32 f.key ++ bytes4 f.start
    | none => List.replicate 10 0) ++
    bytes4 t.last ++ bytes4 t.max ++ bytes4 t.completed ++ bytes4 t.lost

/-- Entry n of a table as bytes. It is asked only of entries below the table's count. -/
def entryBytes (t : Table) (n : Nat) (s : State) : List Byte :=
  match t with
  | .ident => identBytes s
  | .layout => if n = 0 then headerEntry s else regionBytes (regionOf (Fin.ofNat 8 (n - 1)) s)
  | .stream =>
    if n = 0 then s.sq.quiesce.code :: List.replicate 10 0 else streamEntry (Fin.ofNat 8 (n - 1)) s
  | .tileDir => dirEntryBytes (s.tc.dir[Fin.ofNat 64 (n / 4)])[Fin.ofNat 4 n]
  | .fault => faultEntry (if n = 0 then s.tf.recA else s.tf.recB)
  | .keymap => keyEntryBytes (s.ks.keymap.toList.getD n .none)
  | .settings => settingsEntry s.settings
  | .panel => panelEntry s
  | .link => linkEntry s
  | .monitor => if n < 4 then counterEntry s.mn.counters[Fin.ofNat 4 n] else trackerEntry s.mn.tracker

/-! ### TABLE_READ (R158) -/

/-- The number of entries a TABLE_READ returns (R158): the smallest of the count asked, the entries to the end of the table,
and the entries that fit whole in 153 bytes (section 11.6). -/
def readCount (t : Table) (first count : Nat) : Nat :=
  min count (min (t.entries - first) (Config.readBytes / t.size))

/-- The data of a TABLE_READ's OK (section 11.6): table, first entry, number of entries, entries. -/
def readData (table : Byte) (t : Table) (first : Half) (count : Nat) (s : State) : List Byte :=
  let n := readCount t first.toNat count
  [table] ++ le16 first ++ [byteOf n] ++ (List.range n).flatMap fun k => entryBytes t (first.toNat + k) s

/-- TABLE_READ (R158), checked in the order of its table. -/
def doTableRead (tag table : Byte) (first : Half) (count : Byte) (s : State) : State :=
  match tableOfCode table with
  | none => answer tag 0x01 .badTable s
  | some t =>
    if t.entries ≤ first.toNat then answer tag 0x01 .badIndex s
    else if count = 0 then answer tag 0x01 .badValue s
    else postReply tag 0x01 .ok (readData table t first count.toNat s) s

/-! ### TABLE_WRITE (R159, R174) -/

/-- A write of a table's entry under the table's own rule (R159). The contents hold the whole entry. -/
def writeEntry (t : Table) (tag : Byte) (entry : Half) (e : List Byte) (s : State) : State :=
  let n := entry.toNat
  match t with
  | .ident => answer tag 0x02 .readOnly s
  | .tileDir => answer tag 0x02 .readOnly s
  | .fault => answer tag 0x02 .readOnly s
  | .link => answer tag 0x02 .readOnly s
  | .monitor => answer tag 0x02 .readOnly s
  | .layout =>
    if n = 0 then doHeaderWrite tag (halfAt e 1) (halfAt e 3) s
    else doRegionWrite tag (Fin.ofNat 8 (n - 1)) ((byteAt e 0).getLsbD 0) (halfAt e 1) (halfAt e 3) (halfAt e 5)
      (halfAt e 7) (halfAt e 9) s
  | .stream =>
    if n = 0 then answer tag 0x02 .readOnly s
    else doStreamWrite tag (Fin.ofNat 8 (n - 1)) ((byteAt e 10).getLsbD 0) s
  | .keymap => doKeymapWrite tag entry (byteAt e 0) (byteAt e 1) s
  | .settings => doSettingsWrite tag (settingsOfEntry e) s
  | .panel => doPanelWrite tag (byteAt e 0) (byteAt e 1) (byteAt e 2) s

/-- TABLE_WRITE (R159), its form first (R174): a table byte that names no table is answered BAD_TABLE whatever the contents;
contents of another size than the table's entries are answered BAD_REQUEST. -/
def doTableWrite (tag table : Byte) (entry : Half) (contents : List Byte) (s : State) : State :=
  match tableOfCode table with
  | none => answer tag 0x02 .badTable s
  | some t =>
    if contents.length ≠ t.size then answer tag 0x02 .badRequest s
    else if t.entries ≤ entry.toNat then answer tag 0x02 .badIndex s
    else writeEntry t tag entry contents s

/-! ### DOCK_RESET (R20, R161) -/

/-- Cuts the transmission in progress unless it is a GREET (R20). -/
def cutAllButGreet (s : State) : State :=
  if s.lc.tx.any fun t => t.item != .greet then cutTx s else s

/-- DOCK_RESET in every block (R161): the link, the attachment record, the GREET slot, the layout, the picture, the panel, the
Key Scanner and the settings are kept. The pending set is emptied last, so no event stands afterwards. -/
def dockReset (s : State) : State :=
  let t := cutAllButGreet s
  let t := resetFaults (resetCache (resetStreams { t with lc.keys := [], lc.replies := [] }))
  clearEvents { t with mn := Monitor.initial }

/-- DOCK_RESET as a request: the OK is queued after the emptying. -/
def doDockReset (tag : Byte) (s : State) : State := answer tag 0x0B .ok (dockReset s)

/-! ### A request from its bytes (R156, R174, section 11.6) -/

/-- The request of a kind byte and its argument bytes, carried out: an unknown kind, or arguments that do not fill the
payload exactly in the kind's form, are answered BAD_REQUEST. -/
def runRequest (tag kind : Byte) (args : List Byte) (s : State) : State :=
  let n := args.length
  let b := byteAt args
  if kind = 0x01 ∧ n = 4 then doTableRead tag (b 0) (halfAt args 1) (b 3) s
  else if kind = 0x02 ∧ 3 ≤ n then doTableWrite tag (b 0) (halfAt args 1) (args.drop 3) s
  else if kind = 0x03 ∧ n = 3 then doStreamOpen tag (b 0) (halfAt args 1) s
  else if kind = 0x04 ∧ n = 1 then doStreamClose tag (b 0) s
  else if kind = 0x05 ∧ n = 0 then doQuiesce tag s
  else if kind = 0x06 ∧ n = 0 then doResume tag s
  else if kind = 0x07 ∧ n = 0 then doTileFlush tag s
  else if kind = 0x08 ∧ n = 4 then doTilePin tag (wordAt args 0) s
  else if kind = 0x09 ∧ n = 4 then doTileUnpin tag (wordAt args 0) s
  else if kind = 0x0A ∧ n = 0 then doPanelRestart tag s
  else if kind = 0x0B ∧ n = 0 then doDockReset tag s
  else if kind = 0x0C ∧ n = 1 then doStoreErase tag (b 0) s
  else if kind = 0x0D ∧ 2 ≤ n then doStoreWrite tag (halfAt args 0) (args.drop 2) s
  else if kind = 0x0E ∧ n = 3 then doStoreRead tag (halfAt args 0) (b 2) s
  else if kind = 0x0F ∧ n = 8 then doMonitorSet tag (b 0) (b 1) (b 2) (wordAt args 3) (b 7) s
  else answer tag kind .badRequest s

end Sys2Proof.Machine
end

