-- ==== Sys2Proof/Machine/Frames.lean ====
section
/-! DEFINITION. Arrivals on the downstream lane: symbol groups, alignment and the assembly of frames (R1 to R3), the dispatch of a
passing frame by its bytes (R16), and the frame commands with the management requests. -/

namespace Sys2Proof.Machine

/-! ### Dispatch of a frame from its bytes (R16, sections 11.2 and 11.3) -/

/-- Dispatch of a passing frame by kind, payload length and attachment (R16). -/
def dispatchPayload (kind : Byte) (p : List Byte) (s : State) : State :=
  let n := p.length
  let b := byteAt p
  if kind = 0x01 ∧ n = 4 then takeHello (wordAt p 0) s
  else if kind = 0x02 then s
  else if kind = 0x03 ∧ 4 ≤ n then ifAttached (doDraw (b 0) (halfAt p 1) (p.drop 3)) s
  else if kind = 0x04 ∧ n = 133 then ifAttached (doTile (wordAt p 0) (b 4) (p.drop 5)) s
  else if kind = 0x05 ∧ 2 ≤ n then
    ifAttached (takeRequest (b 0) (b 1) (runRequest (b 0) (b 1) (p.drop 2))) s
  else count .badFrame s

/-- Dispatch of the bytes of a frame that passes the check: the payload lies between the two header bytes and the check. -/
def dispatchBytes (bs : List Byte) (s : State) : State :=
  dispatchPayload (byteAt bs 0) ((bs.drop 2).take (bs.length - 4)) s

/-! ### Frame assembly (R3) -/

/-- A frame closed by an end delimiter: it passes or fails the check. -/
def closeFrame (bs : List Byte) (s : State) : State :=
  if framePasses bs then passFrame (dispatchBytes bs) { s with lc.assembly := none }
  else failFrame { s with lc.assembly := none }

/-- An open frame fails before its end delimiter. -/
def failOpen (s : State) : State := failFrame { s with lc.assembly := none }

/-- A start delimiter opens a frame while the link assembles frames. -/
def openFrame (s : State) : State := if assembles s then { s with lc.assembly := some [] } else s

/-- A data group while a frame is open: its byte is appended, and a frame above the largest size fails. -/
def appendByte (bs : List Byte) (b : Byte) (s : State) : State :=
  if Config.maxFrameBytes < bs.length + 1 then failOpen s else { s with lc.assembly := some (bs ++ [b]) }

/-- A symbol group in FRAMING or UP (R3). Filler, and with no frame open everything but a start delimiter, has no effect. -/
def assembleGroup (g : SymbolGroup) (s : State) : State :=
  match g, s.lc.assembly with
  | .startDelimiter, none => openFrame s
  | .startDelimiter, some _ => openFrame (failOpen s)
  | .data b, some bs => appendByte bs b s
  | .endDelimiter, some bs => closeFrame bs s
  | .invalid, some _ => failOpen s
  | .filler, _ => s
  | .data _, none => s
  | .endDelimiter, none => s
  | .invalid, none => s

/-! ### Alignment (R1, R2) -/

/-- Whether a symbol group is valid (section 1.1). -/
def groupValid : SymbolGroup → Bool
  | .data _ => true
  | .startDelimiter => true
  | .endDelimiter => true
  | .filler => true
  | .invalid => false

/-- A symbol group in ALIGNING (R2). -/
def alignGroup (g : SymbolGroup) (s : State) : State :=
  if groupValid g then
    if Config.alignGroups ≤ s.lc.alignCount + 1 then
      { s with lc.link := .framing, lc.alignCount := s.lc.alignCount + 1, lc.framingCount := 0, lc.assembly := none }
    else { s with lc.alignCount := s.lc.alignCount + 1 }
  else { s with lc.alignCount := 0 }

/-- A symbol group in DOWN (R2): a valid one moves the link to ALIGNING, whenever it comes (log entry 34), and an invalid one is
ignored. -/
def downGroup (g : SymbolGroup) (s : State) : State :=
  if groupValid g then { s with lc.link := .aligning, lc.alignCount := 1 } else s

/-- A valid group restarts the loss detector's count (R1). -/
def restartLoss (g : SymbolGroup) (s : State) : State := if groupValid g then { s with lc.lossCount := 0 } else s

/-- A symbol group on the downstream lane (R1 to R3). -/
def takeGroup (g : SymbolGroup) (s : State) : State :=
  let t := restartLoss g s
  match t.lc.link with
  | .down => downGroup g t
  | .aligning => alignGroup g t
  | .framing => assembleGroup g t
  | .up => assembleGroup g t

/-- SYMBOL_GROUP (R1 to R3). -/
def execSymbolGroup (g : SymbolGroup) (s : State) : Result := .next (conclude s (takeGroup g s))

/-! ### DRAW and TILE frames -/

/-- DRAW (R50 to R57). A body that no DRAW payload of 4 to 160 bytes holds makes the frame a BAD_FRAME (R16). -/
def execDraw (stream : Byte) (seq : Half) (commands : List Byte) (s : State) : Result :=
  frameArrival (passFrame
    (if 1 ≤ commands.length ∧ commands.length ≤ 157 then ifAttached (doDraw stream seq commands) else count .badFrame)) s

/-- TILE (R77 to R79). Data of another length than 128 bytes makes the frame a BAD_FRAME (R16). -/
def execTile (key : Word) (sector : Byte) (data : List Byte) (s : State) : Result :=
  frameArrival (passFrame
    (if data.length = 128 then ifAttached (doTile key sector data) else count .badFrame)) s

/-! ### Management requests -/

/-- BAD_REQUEST (R156). -/
def execBadRequest (tag kind : Byte) (s : State) : Result := requestArrival tag kind (answer tag kind .badRequest) s

/-- TABLE_READ (R158). -/
def execTableRead (tag table : Byte) (first : Half) (count : Byte) (s : State) : Result :=
  requestArrival tag 0x01 (doTableRead tag table first count) s

/-- TABLE_WRITE (R159, R174). A frame that no MGMT payload of at most 160 bytes holds is a BAD_FRAME (R16). -/
def execTableWrite (tag table : Byte) (entry : Half) (contents : List Byte) (s : State) : Result :=
  if contents.length ≤ 155 then requestArrival tag 0x02 (doTableWrite tag table entry contents) s
  else frameArrival (passFrame (count .badFrame)) s

/-- LAYOUT_HEADER_WRITE (R31). -/
def execLayoutHeaderWrite (tag : Byte) (border undocked : Half) (s : State) : Result :=
  requestArrival tag 0x02 (doHeaderWrite tag border undocked) s

/-- LAYOUT_REGION_WRITE (R30). -/
def execLayoutRegionWrite (tag : Byte) (region : Fin 8) (enabled : Bool) (ox oy rw rh background : Half) (s : State) : Result :=
  requestArrival tag 0x02 (doRegionWrite tag region enabled ox oy rw rh background) s

/-- STREAM_WRITE (R36). -/
def execStreamWrite (tag : Byte) (stream : Fin 8) (stale : Bool) (s : State) : Result :=
  requestArrival tag 0x02 (doStreamWrite tag stream stale) s

/-- KEYMAP_WRITE (R148). -/
def execKeymapWrite (tag : Byte) (entry : Half) (cls value : Byte) (s : State) : Result :=
  requestArrival tag 0x02 (doKeymapWrite tag entry cls value) s

/-- SETTINGS_WRITE (R160). -/
def execSettingsWrite (tag lossLimit holdTime : Byte) (scanPeriod : Half)
    (depth faultTimeout retryLimit shedThreshold enables : Byte) (s : State) : Result :=
  requestArrival tag 0x02
    (doSettingsWrite tag
      (settingsOf lossLimit holdTime scanPeriod depth faultTimeout retryLimit shedThreshold enables)) s

/-- PANEL_WRITE (R136). -/
def execPanelWrite (tag width height level : Byte) (s : State) : Result :=
  requestArrival tag 0x02 (doPanelWrite tag width height level) s

/-- STREAM_OPEN (R42). -/
def execStreamOpen (tag stream : Byte) (start : Half) (s : State) : Result :=
  requestArrival tag 0x03 (doStreamOpen tag stream start) s

/-- STREAM_CLOSE (R44). -/
def execStreamClose (tag stream : Byte) (s : State) : Result := requestArrival tag 0x04 (doStreamClose tag stream) s

/-- QUIESCE (R61). -/
def execQuiesce (tag : Byte) (s : State) : Result := requestArrival tag 0x05 (doQuiesce tag) s

/-- RESUME (R64, R66). -/
def execResume (tag : Byte) (s : State) : Result := requestArrival tag 0x06 (doResume tag) s

/-- TILE_FLUSH (R86). -/
def execTileFlush (tag : Byte) (s : State) : Result := requestArrival tag 0x07 (doTileFlush tag) s

/-- TILE_PIN (R84). -/
def execTilePin (tag : Byte) (key : Word) (s : State) : Result := requestArrival tag 0x08 (doTilePin tag key) s

/-- TILE_UNPIN (R85). -/
def execTileUnpin (tag : Byte) (key : Word) (s : State) : Result := requestArrival tag 0x09 (doTileUnpin tag key) s

/-- PANEL_RESTART (R132). -/
def execPanelRestart (tag : Byte) (s : State) : Result := requestArrival tag 0x0A (doPanelRestart tag) s

/-- DOCK_RESET (R161). -/
def execDockReset (tag : Byte) (s : State) : Result := requestArrival tag 0x0B (doDockReset tag) s

/-- STORE_ERASE (R165, R166). -/
def execStoreErase (tag page : Byte) (s : State) : Result := requestArrival tag 0x0C (doStoreErase tag page) s

/-- STORE_WRITE (R165, R167). A frame that no MGMT payload of at most 160 bytes holds is a BAD_FRAME (R16). -/
def execStoreWrite (tag : Byte) (offset : Half) (data : List Byte) (s : State) : Result :=
  if data.length ≤ 156 then requestArrival tag 0x0D (doStoreWrite tag offset data) s
  else frameArrival (passFrame (count .badFrame)) s

/-- STORE_READ (R165). -/
def execStoreRead (tag : Byte) (offset : Half) (count : Byte) (s : State) : Result :=
  requestArrival tag 0x0E (doStoreRead tag offset count) s

/-- MONITOR_SET (R170). -/
def execMonitorSet (tag entry mode group : Byte) (unitMask : Word) (condition : Byte) (s : State) : Result :=
  requestArrival tag 0x0F (doMonitorSet tag entry mode group unitMask condition) s

end Sys2Proof.Machine
end

