-- ==== Sys2Proof/Machine/PowerOn.lean ====
section
/-! DEFINITION. Power-on reset (R7, R8, R21, R38, R40, R90, R106, R125, R137, R154, R168 to R170): the load of the settings image,
the power-on values of every block, and the first selection of the Panel Updater. -/

namespace Sys2Proof.Machine

/-! ### The items of the settings image (section 11.10) -/

/-- The items the power-on load sets up (R169). -/
structure Loaded where
  width : Nat
  height : Nat
  border : Half
  undocked : Half
  regions : Vector Region 8
  level : Nat
  keymap : Vector KeyEntry 384
  settings : Settings
  deriving DecidableEq, Repr

/-- The defaults of an invalid image (R169). -/
def Loaded.default : Loaded :=
  ⟨defaultWidth, defaultHeight, defaultBorder, defaultUndocked, defaultRegions defaultWidth defaultHeight, defaultLevel,
    defaultKeymap, Settings.default⟩

/-- A stored region loaded enabled only if it is valid on the panel and overlaps none of the regions loaded enabled before it
(R28). -/
def loadRegion (width height : Nat) (before : List Region) (r : Region) : Region :=
  { r with enabled := r.enabled && regionFits width height r.ox r.oy r.rw r.rh &&
      before.all fun b => !(b.enabled && rectsOverlap r.ox r.oy r.rw r.rh b.ox b.oy b.rw b.rh) }

/-- The stored regions taken in order from 0 to 7 (R28). -/
def loadRegions (width height : Nat) (stored : List Region) : List Region :=
  stored.foldl (fun acc r => acc ++ [loadRegion width height acc r]) []

/-- The items of a valid image, each brought into range by its owner's rule (R23, R28, R133, R144, R160). Offsets are from the
start of the contents, 8 below those of section 11.10. -/
def loadImage (bs : List Byte) : Loaded :=
  let width := clamp 20 120 (byteAt bs 0).toNat
  let height := clamp 12 75 (byteAt bs 1).toNat
  let regions := loadRegions width height ((List.range 8).map fun r => regionOfEntry (bs.drop (6 + 11 * r)))
  { width := width
    height := height
    border := halfAt bs 2
    undocked := halfAt bs 4
    regions := Vector.ofFn fun r => regions.getD r.val ⟨false, 0, 0, 0, 0, 0, true, true⟩
    level := min (byteAt bs 94).toNat Config.maxLevel
    keymap := Vector.ofFn fun i => (keyEntryOf (byteAt bs (95 + 2 * i.val)) (byteAt bs (96 + 2 * i.val))).getD .none
    settings := settingsOfEntry (bs.drop 863) }

/-! ### The power-on state -/

/-- Every block at the power-on values of its table, with the loaded items, the power-on fill made (R38), and before the first
selection: in the words of the tables, scan pointer 0, no block in flight, every block dirty. -/
def powerOnState (flash : List Host.Cell) (used : Bool) (x : Loaded) (free : Nat) (pending : List Instr) : State where
  lc :=
    { link := .down, alignCount := 0, framingCount := 0, failureCount := 0, lossCount := 0, assembly := none
      attachment := .unattached, attachNumber := 0, holdTimer := none, holdCause := none, holdStart := none
      attachCounter := 1, lastCause := none, lastDuration := 0, greet := none, greetRenewed := false
      keys := [], replies := [], tx := none, laneOut := [] }
  lu :=
    { width := x.width, height := x.height, border := x.border, undocked := x.undocked, headerChanged := true
      regions := x.regions, apply := none, fillColour := none, imageUsed := used }
  sq := { streams := Vector.replicate 8 Stream.initial, queueA := [], queueB := [], quiesce := .running }
  de := { engineA := none, engineB := none }
  tc := { dir := emptyDir, store := [], sweep := 64 }
  tf := { recA := FaultRecord.idle, recB := FaultRecord.idle }
  fs := { image := imageUniform x.undocked, holder := none, waiting := [], began := 0 }
  pu :=
    { dirty := List.replicate (x.width * x.height) true, scan := 0, inFlight := none, number := 0, streak := 0
      halted := false, port := none, level := x.level, drivenLevel := x.level, periodTimer := Config.backlightPeriod }
  ks :=
    { positions := Vector.replicate 128 KeyPosition.released, latched := [], report := Report.empty
      keymap := x.keymap, scanTimer := x.settings.scanPeriod, scans := 0 }
  me := { inProgress := none, events := Vector.replicate 6 EventSlot.clear }
  settings := x.settings
  flash := flash
  mn := Monitor.initial
  tick := 0
  msTimer := Config.ticksPerMs
  free := free
  pending := pending

/-- The machine after a power-on reset that finds the given flash: the load (R169), STORE_DEFAULTED raised when the image is
invalid, and the first selection (R125, R127). -/
def powerOn (flash : List Host.Cell) (free : Nat) (pending : List Instr) : State :=
  selectBlock
    (if imageValid flash then powerOnState flash true (loadImage (imageBytes flash)) free pending
     else raiseEvent .storeDefaulted 0 (powerOnState flash false Loaded.default free pending))

/-- POWER_ON_RESET (R21, R169). The flash is kept, but for an operation the reset ends (R164); the time base starts anew. The
waiting commands, which are outside the part, stay. -/
def execPowerOnReset (s : State) : Result := .next (powerOn (cutFlash s) (s.free + 1) s.pending)

end Sys2Proof.Machine
end

