-- ==== Sys2Proof/Machine/Time.lean ====
section
/-! DEFINITION. The time base (section 0.6.4): what one tick advances, and the expiries that fall on it. DESIGN CHOICE: a tick
passes when no command waits. -/

namespace Sys2Proof.Machine

/-- One tick off the timer of an ACTIVE record; it stands still unless the attachment is ATTACHED (R100). -/
def tickRecord (s : State) (r : FaultRecord) : FaultRecord :=
  if s.lc.attachment = .attached ∧ r.active = true then { r with timer := r.timer.map fun n => n - 1 } else r

/-- One tick (section 0.6.4): the loss detector counts up outside DOWN (R1); the hold timer (R11), the fault timers (R100), the
timer of the in-flight block (R128), the scan timer (R138), the millisecond (R171) and the period of the backlight
output (R133) run down. -/
def advance (s : State) : State :=
  { s with
    tick := s.tick + 1
    lc.lossCount := if s.lc.link = .down then s.lc.lossCount else s.lc.lossCount + 1
    lc.holdTimer := s.lc.holdTimer.map fun n => n - 1
    tf := ⟨tickRecord s s.tf.recA, tickRecord s s.tf.recB⟩
    pu.inFlight := s.pu.inFlight.map fun f => { f with timer := f.timer - 1 }
    pu.periodTimer := s.pu.periodTimer - 1
    ks.scanTimer := s.ks.scanTimer - 1
    msTimer := s.msTimer - 1 }

/-- Whether a command is an expiry that falls now. A scan is not among them: it brings the reading of the matrix, which comes
from outside. -/
def fallsNow (s : State) : Instr → Bool
  | .lossDetectorExpiry => lossExpired s
  | .holdTimerExpiry => s.lc.holdTimer == some 0
  | .faultTimerExpiry side => faultExpires side s
  | .blockTimeout => s.pu.inFlight.any fun f => f.timer == 0
  | .millisecondTick => s.msTimer == 0
  | .backlightPeriod => s.pu.periodTimer == 0
  | _ => false

/-- The expiries that fall now. -/
def due (s : State) : List Instr :=
  [Instr.lossDetectorExpiry, .holdTimerExpiry, .faultTimerExpiry .a, .faultTimerExpiry .b, .blockTimeout, .millisecondTick,
    .backlightPeriod].filter (fallsNow s)

/-- The arrangement of a list that a number names: each number names one, and each arrangement has a number. -/
def arrange : Nat → List Instr → List Instr
  | _, [] => []
  | k, c :: rest => (arrange (k / (rest.length + 1)) rest).insertIdx (k % (rest.length + 1)) c

/-- The order in which expiries that fall together are taken: a free value when there are two or more (R14, R105). -/
def inSomeOrder (tick : Nat) : List Instr → List Instr
  | [] => []
  | [c] => [c]
  | c :: d :: rest => arrange (Config.dueOrder tick) (c :: d :: rest)

/-- A tick: the time base advances, and the expiries that fall on it wait to be taken. -/
def passTick (s : State) : State :=
  let t := advance s
  { t with pending := s.pending ++ inSomeOrder t.tick (due t) }

end Sys2Proof.Machine
end

