-- ==== Sys2Proof/Machine/Dispatch.lean ====
section
/-! DEFINITION. The meaning of every command: one arm per constructor of Instr. -/

namespace Sys2Proof.Machine

/-- The effect of a command on the bridge. -/
def exec (i : Instr) (s : State) : Host.Outcome State Fault Refusal :=
  match i with
  | .powerOnReset => Sys2Proof.Machine.execPowerOnReset s
  | .symbolGroup g => Sys2Proof.Machine.execSymbolGroup g s
  | .lossDetectorExpiry => Sys2Proof.Machine.execLossDetectorExpiry s
  | .checkFail => Sys2Proof.Machine.execCheckFail s
  | .idle => Sys2Proof.Machine.execIdle s
  | .badFrame => Sys2Proof.Machine.execBadFrame s
  | .hello number => Sys2Proof.Machine.execHello number s
  | .holdTimerExpiry => Sys2Proof.Machine.execHoldTimerExpiry s
  | .draw stream seq commands => Sys2Proof.Machine.execDraw stream seq commands s
  | .executionEnd side => Sys2Proof.Machine.execExecutionEnd side s
  | .tile key sector data => Sys2Proof.Machine.execTile key sector data s
  | .faultTimerExpiry side => Sys2Proof.Machine.execFaultTimerExpiry side s
  | .transmissionComplete => Sys2Proof.Machine.execTransmissionComplete s
  | .badRequest tag kind => Sys2Proof.Machine.execBadRequest tag kind s
  | .tableRead tag table first count => Sys2Proof.Machine.execTableRead tag table first count s
  | .tableWrite tag table entry contents => Sys2Proof.Machine.execTableWrite tag table entry contents s
  | .layoutHeaderWrite tag border undocked => Sys2Proof.Machine.execLayoutHeaderWrite tag border undocked s
  | .layoutRegionWrite tag region enabled ox oy rw rh background => Sys2Proof.Machine.execLayoutRegionWrite tag region enabled ox oy rw rh background s
  | .streamWrite tag stream stale => Sys2Proof.Machine.execStreamWrite tag stream stale s
  | .keymapWrite tag entry cls value => Sys2Proof.Machine.execKeymapWrite tag entry cls value s
  | .settingsWrite tag lossLimit holdTime scanPeriod depth faultTimeout retryLimit shedThreshold enables => Sys2Proof.Machine.execSettingsWrite tag lossLimit holdTime scanPeriod depth faultTimeout retryLimit shedThreshold enables s
  | .panelWrite tag width height level => Sys2Proof.Machine.execPanelWrite tag width height level s
  | .streamOpen tag stream start => Sys2Proof.Machine.execStreamOpen tag stream start s
  | .streamClose tag stream => Sys2Proof.Machine.execStreamClose tag stream s
  | .quiesce tag => Sys2Proof.Machine.execQuiesce tag s
  | .resume tag => Sys2Proof.Machine.execResume tag s
  | .layoutApplyEnd => Sys2Proof.Machine.execLayoutApplyEnd s
  | .teardownFillEnd => Sys2Proof.Machine.execTeardownFillEnd s
  | .tileFlush tag => Sys2Proof.Machine.execTileFlush tag s
  | .sweepStep => Sys2Proof.Machine.execSweepStep s
  | .tilePin tag key => Sys2Proof.Machine.execTilePin tag key s
  | .tileUnpin tag key => Sys2Proof.Machine.execTileUnpin tag key s
  | .panelRestart tag => Sys2Proof.Machine.execPanelRestart tag s
  | .dockReset tag => Sys2Proof.Machine.execDockReset tag s
  | .storeErase tag page => Sys2Proof.Machine.execStoreErase tag page s
  | .storeWrite tag offset data => Sys2Proof.Machine.execStoreWrite tag offset data s
  | .storeRead tag offset count => Sys2Proof.Machine.execStoreRead tag offset count s
  | .monitorSet tag entry mode group unitMask condition => Sys2Proof.Machine.execMonitorSet tag entry mode group unitMask condition s
  | .eraseDone => Sys2Proof.Machine.execEraseDone s
  | .programDone => Sys2Proof.Machine.execProgramDone s
  | .acknowledgement echo => Sys2Proof.Machine.execAcknowledgement echo s
  | .blockTimeout => Sys2Proof.Machine.execBlockTimeout s
  | .scan contacts => Sys2Proof.Machine.execScan contacts s
  | .millisecondTick => Sys2Proof.Machine.execMillisecondTick s
  | .backlightPeriod => Sys2Proof.Machine.execBacklightPeriod s

end Sys2Proof.Machine
end

