-- ==== Sys2Proof/Machine/Spelling.lean ====
section
/-! DEFINITION. How the dock spells a command on the downstream lane (sections 11.2, 11.3, 11.6 and 11.7): the kind and payload of
its frame, and the tag and kind byte of a request. Bits that an entry layout leaves without meaning are written 0. -/

namespace Sys2Proof.Machine

/-- The tag and the kind byte of a management request (section 11.6). -/
def requestOf : Instr → Option (Byte × Byte)
  | .badRequest tag kind => some (tag, kind)
  | .tableRead tag _ _ _ => some (tag, 0x01)
  | .tableWrite tag _ _ _ => some (tag, 0x02)
  | .layoutHeaderWrite tag _ _ => some (tag, 0x02)
  | .layoutRegionWrite tag _ _ _ _ _ _ _ => some (tag, 0x02)
  | .streamWrite tag _ _ => some (tag, 0x02)
  | .keymapWrite tag _ _ _ => some (tag, 0x02)
  | .settingsWrite tag _ _ _ _ _ _ _ _ => some (tag, 0x02)
  | .panelWrite tag _ _ _ => some (tag, 0x02)
  | .streamOpen tag _ _ => some (tag, 0x03)
  | .streamClose tag _ => some (tag, 0x04)
  | .quiesce tag => some (tag, 0x05)
  | .resume tag => some (tag, 0x06)
  | .tileFlush tag => some (tag, 0x07)
  | .tilePin tag _ => some (tag, 0x08)
  | .tileUnpin tag _ => some (tag, 0x09)
  | .panelRestart tag => some (tag, 0x0A)
  | .dockReset tag => some (tag, 0x0B)
  | .storeErase tag _ => some (tag, 0x0C)
  | .storeWrite tag _ _ => some (tag, 0x0D)
  | .storeRead tag _ _ => some (tag, 0x0E)
  | .monitorSet tag _ _ _ _ _ => some (tag, 0x0F)
  | .powerOnReset => none
  | .symbolGroup _ => none
  | .lossDetectorExpiry => none
  | .checkFail => none
  | .idle => none
  | .badFrame => none
  | .hello _ => none
  | .holdTimerExpiry => none
  | .draw _ _ _ => none
  | .executionEnd _ => none
  | .tile _ _ _ => none
  | .faultTimerExpiry _ => none
  | .transmissionComplete => none
  | .layoutApplyEnd => none
  | .teardownFillEnd => none
  | .sweepStep => none
  | .eraseDone => none
  | .programDone => none
  | .acknowledgement _ => none
  | .blockTimeout => none
  | .scan _ => none
  | .millisecondTick => none
  | .backlightPeriod => none

/-- The arguments of a TABLE_WRITE (section 11.6): table, entry, contents. -/
def writeArgs (table : Byte) (entry : Half) (contents : List Byte) : List Byte := table :: le16 entry ++ contents

/-- The arguments of a management request (section 11.6), its entries laid out as in section 11.7. A BAD_REQUEST has none of its
own: many argument forms make one. -/
def argsOf : Instr → Option (List Byte)
  | .tableRead _ table first count => some (table :: le16 first ++ [count])
  | .tableWrite _ table entry contents => some (writeArgs table entry contents)
  | .layoutHeaderWrite _ border undocked =>
    some (writeArgs 1 0 ((0 : Byte) :: le16 border ++ le16 undocked ++ List.replicate 6 0))
  | .layoutRegionWrite _ region enabled ox oy rw rh background =>
    some (writeArgs 1 (BitVec.ofNat 16 (region.val + 1))
      (flagBit enabled 0 :: le16 ox ++ le16 oy ++ le16 rw ++ le16 rh ++ le16 background))
  | .streamWrite _ stream stale =>
    some (writeArgs 2 (BitVec.ofNat 16 (stream.val + 1)) (List.replicate 10 0 ++ [flagBit stale 0]))
  | .keymapWrite _ entry cls value => some (writeArgs 5 entry [cls, value])
  | .settingsWrite _ lossLimit holdTime scanPeriod depth faultTimeout retryLimit shedThreshold enables =>
    some (writeArgs 6 0
      ([lossLimit, holdTime] ++ le16 scanPeriod ++ [depth, faultTimeout, retryLimit, shedThreshold, enables, 0]))
  | .panelWrite _ width height level => some (writeArgs 7 0 [width, height, level, 0, 0, 0, 0])
  | .streamOpen _ stream start => some (stream :: le16 start)
  | .streamClose _ stream => some [stream]
  | .quiesce _ => some []
  | .resume _ => some []
  | .tileFlush _ => some []
  | .tilePin _ key => some (le32 key)
  | .tileUnpin _ key => some (le32 key)
  | .panelRestart _ => some []
  | .dockReset _ => some []
  | .storeErase _ page => some [page]
  | .storeWrite _ offset data => some (le16 offset ++ data)
  | .storeRead _ offset count => some (le16 offset ++ [count])
  | .monitorSet _ entry mode group unitMask condition => some ([entry, mode, group] ++ le32 unitMask ++ [condition])
  | .badRequest _ _ => none
  | .powerOnReset => none
  | .symbolGroup _ => none
  | .lossDetectorExpiry => none
  | .checkFail => none
  | .idle => none
  | .badFrame => none
  | .hello _ => none
  | .holdTimerExpiry => none
  | .draw _ _ _ => none
  | .executionEnd _ => none
  | .tile _ _ _ => none
  | .faultTimerExpiry _ => none
  | .transmissionComplete => none
  | .layoutApplyEnd => none
  | .teardownFillEnd => none
  | .sweepStep => none
  | .eraseDone => none
  | .programDone => none
  | .acknowledgement _ => none
  | .blockTimeout => none
  | .scan _ => none
  | .millisecondTick => none
  | .backlightPeriod => none

/-- The frame kind and the payload that spell a command (sections 11.2 and 11.3). Only frame commands are spelled. -/
def payloadOf (c : Instr) : Option (Byte × List Byte) :=
  match c with
  | .hello number => some (0x01, le32 number)
  | .idle => some (0x02, [])
  | .draw stream seq commands => some (0x03, stream :: le16 seq ++ commands)
  | .tile key sector data => some (0x04, le32 key ++ sector :: data)
  | _ =>
    match requestOf c, argsOf c with
    | some (tag, kind), some args => some (0x05, tag :: kind :: args)
    | _, _ => none

/-- The frame that spells a command, from its kind byte to its check (section 11.1). -/
def spelled (c : Instr) : Option (List Byte) := (payloadOf c).map fun p => buildFrame p.1 p.2

/-- Whether a command is the arrival of a passing frame. -/
def isFrame (c : Instr) : Bool := c == .badFrame || (payloadOf c).isSome || (requestOf c).isSome

end Sys2Proof.Machine
end

