-- ==== Sys2Proof/Safety.lean ====
section
/-! DEFINITION. What a state the bridge can be in looks like: the laws that the manual states of its blocks, each as a predicate on
State; and what a command that is not about them leaves alone. -/

namespace Sys2Proof.Machine

/-! ### Laws of the blocks -/

/-- R8: the attach number is 0 exactly while UNATTACHED, the hold timer runs exactly while HELD, and the attach counter is never
0. -/
abbrev attachmentLegal (s : State) : Prop :=
  (s.lc.attachNumber = 0 ↔ s.lc.attachment = .unattached) ∧ (s.lc.holdTimer.isSome = true ↔ s.lc.attachment = .held) ∧
    s.lc.attachCounter ≠ 0

/-- R155, R151: the REPLY queue with the owed slot holds at most 4, the KEYS queue at most 8. -/
abbrev upstreamWithinLimits (s : State) : Prop :=
  s.lc.replies.length + owed s ≤ 4 ∧ s.lc.keys.length ≤ 8

/-- R46: a side queue holds at most 24 entries. -/
abbrev sideQueuesWithinLimits (s : State) : Prop :=
  s.sq.queueA.length ≤ 24 ∧ s.sq.queueB.length ≤ 24

/-- R7: the ranges of the counts of the downstream receive state: below the number that ends a state while in it. No frame is
open outside FRAMING and UP. -/
abbrev receiveLegal (s : State) : Prop :=
  s.lc.alignCount ≤ 64 ∧ (s.lc.link = .aligning → s.lc.alignCount < 64) ∧ s.lc.framingCount ≤ 4 ∧
    (s.lc.link = .framing → s.lc.framingCount < 4) ∧ s.lc.failureCount < 4 ∧
    (s.lc.assembly.isSome = true → s.lc.link = .framing ∨ s.lc.link = .up)

/-- R137: the first scans come before the link leaves DOWN; they are counted as two (log entry 34). -/
abbrev scansFirst (s : State) : Prop := s.lc.link ≠ .down → 2 ≤ s.ks.scans

/-- R18, R19: a transmission is in progress only while the link is UP and the attachment ATTACHED, and the lane is not free
while the arbiter could take something. -/
abbrev laneLegal (s : State) : Prop :=
  (s.lc.tx.isSome = true → s.lc.link = .up ∧ s.lc.attachment = .attached) ∧
    (s.lc.link = .up → s.lc.attachment = .attached → s.lc.tx = none → nextItem s = none)

/-- R23, R125: the geometry in its range, one dirty flag per block, and the scan pointer and the in-flight block among the
blocks. -/
abbrev panelShape (s : State) : Prop :=
  (20 ≤ s.lu.width ∧ s.lu.width ≤ 120) ∧ (12 ≤ s.lu.height ∧ s.lu.height ≤ 75) ∧
    s.pu.dirty.length = blockCount s ∧ s.pu.scan < blockCount s ∧ (∀ f ∈ s.pu.inFlight, f.block < blockCount s)

/-- R125, R131: level and streak in range; the panel is halted exactly at streak 3, and then no block is in flight. R128: the block
write on the port holds 256 pixels, and a block in flight is the one that it names, with its write number. -/
abbrev panelLegal (s : State) : Prop :=
  s.pu.level ≤ 15 ∧ s.pu.streak ≤ 3 ∧ (s.pu.halted = true ↔ s.pu.streak = 3) ∧
    (s.pu.halted = true → s.pu.inFlight = none) ∧
    (∀ w ∈ s.pu.port, w.pixels.length = 256 ∧ w.read ≤ 256) ∧
    (s.pu.inFlight.all fun f => s.pu.port.any fun w => w.block == f.block && w.number == f.number) = true

/-- R126, R127: with no block in flight and the panel not halted, no block is dirty. -/
abbrev panelServed (s : State) : Prop :=
  s.pu.inFlight = none → s.pu.halted = false → ∀ d ∈ s.pu.dirty, d = false

/-- R25: no writer waits for a frame store that no writer holds. -/
abbrev storeServed (s : State) : Prop := s.fs.holder = none → s.fs.waiting = []

/-- R160: the items of the settings record in their ranges. -/
abbrev settingsLegal (r : Settings) : Prop :=
  (1 ≤ r.lossLimit ∧ r.lossLimit ≤ 15) ∧ (1 ≤ r.holdTime ∧ r.holdTime ≤ 255) ∧
    (500 ≤ r.scanPeriod ∧ r.scanPeriod ≤ 4000 ∧ r.scanPeriod % 250 = 0) ∧ (1 ≤ r.depth ∧ r.depth ≤ 15) ∧
    (1 ≤ r.faultTimeout ∧ r.faultTimeout ≤ 255) ∧ r.retryLimit ≤ 7 ∧ (2 ≤ r.shedThreshold ∧ r.shedThreshold ≤ 16)

/-- R72: the four ways of a set hold the ages 0, 1, 2 and 3, once each. -/
abbrev agesLegal (ways : TileSet) : Prop := ∀ a : Fin 4, ∃ w : Fin 4, ways[w].age = a.val

/-- R83: no set holds more than three pinned entries, and a pinned entry is valid with all four sectors and not pending. -/
abbrev pinsLegal (ways : TileSet) : Prop :=
  pinnedWays ways ≤ 3 ∧
    ∀ w : Fin 4, ways[w].pinned = true → ways[w].valid = true ∧ ways[w].sectors = 15 ∧ ways[w].pending = false

/-- R71: what an invalid entry holds, and that a valid entry's key is not 0 and lies in its own set, in one way. -/
abbrev waysLegal (n : Fin 64) (ways : TileSet) : Prop :=
  (∀ w : Fin 4, ways[w].valid = false → ways[w] = DirEntry.invalid ways[w].age) ∧
    (∀ w : Fin 4, ways[w].valid = true → ways[w].key ≠ 0 ∧ setIndex ways[w].key = n) ∧
    (∀ w v : Fin 4, ways[w].valid = true → ways[v].valid = true → ways[w].key = ways[v].key → w = v)

/-- R137, R139: a debounce count is at most the depth, a withheld position is pressed, and a pressed one is withheld or has a
record in the latched key table, not both. -/
abbrev keysLegal (s : State) : Prop :=
  (∀ p : Pos, (keyAt p s).count ≤ s.settings.depth) ∧
    (∀ p : Pos, (keyAt p s).withheld = true → (keyAt p s).pressed = true) ∧
    (∀ p : Pos, (s.ks.latched.any fun r => r.pos == p.val) = ((keyAt p s).pressed && !(keyAt p s).withheld)) ∧
    (s.ks.latched.map Latched.pos).Nodup

/-- R27, R41: an enabled region fits the panel and overlaps no other enabled region, and the region of an open stream is
enabled. -/
abbrev layoutLegal (s : State) : Prop :=
  (∀ i : Fin 8, (regionOf i s).enabled = true →
    regionFits s.lu.width s.lu.height (regionOf i s).ox (regionOf i s).oy (regionOf i s).rw (regionOf i s).rh = true) ∧
    (∀ i j : Fin 8, i ≠ j → (regionOf i s).enabled = true → (regionOf j s).enabled = true →
      rectsOverlap (regionOf i s).ox (regionOf i s).oy (regionOf i s).rw (regionOf i s).rh
        (regionOf j s).ox (regionOf j s).oy (regionOf j s).rw (regionOf j s).rh = false) ∧
    (∀ i : Fin 8, isOpen i s = true → (regionOf i s).enabled = true)

/-- R40, R41, R44: a CLOSED stream has no side, no rewind and no reservation; an open one has a side; an entry in a side queue
is of an open stream of that side. -/
abbrev streamsLegal (s : State) : Prop :=
  (∀ i : Fin 8, isOpen i s = (streamOf i s).side.isSome) ∧
    (∀ i : Fin 8, isOpen i s = false → (streamOf i s).rewind = none ∧ (streamOf i s).reservation = none) ∧
    (∀ e ∈ s.sq.queueA, (streamOf e.stream s).side = some .a) ∧ (∀ e ∈ s.sq.queueB, (streamOf e.stream s).side = some .b)

/-- The oldest entry of a stream in the queue of its side. -/
def oldestEntry (i : Fin 8) (s : State) : Option Entry :=
  match (streamOf i s).side with
  | some side => (queueOf side s).find? fun e => e.stream == i
  | none => none

/-- Whether a command is a PLACE. -/
def DrawCommand.isPlace : DrawCommand → Bool
  | .place _ _ _ _ => true
  | .fill _ _ _ _ _ => false
  | .scroll _ _ => false

/-- The number of streams whose reservation names a key. -/
def reservers (key : Word) (s : State) : Nat :=
  (List.finRange 8).countP fun i => (streamOf i s).reservation == some key

/-- R81: the reserve count of every valid entry is the number of streams whose reservation names its key, and every
reservation names a key that is present; a reserved entry holds a sector. -/
abbrev reservesLegal (s : State) : Prop :=
  (∀ n : Fin 64, ∀ w : Fin 4, s.tc.dir[n][w].reserve ≠ 0 → s.tc.dir[n][w].sectors ≠ 0) ∧
  (∀ n : Fin 64, ∀ w : Fin 4, s.tc.dir[n][w].valid = true → s.tc.dir[n][w].reserve = reservers s.tc.dir[n][w].key s) ∧
    (∀ i : Fin 8, ((streamOf i s).reservation.all fun k => (findWay k (tileSet k s)).isSome) = true)

/-- R92, R93: what an IDLE record holds; an ACTIVE record's key, needed and waiting sets are not empty and its timer runs; no
key has two active faults; an entry is pending exactly when an active fault names its key; a stream is in a waiting set
exactly in WAIT_TILE, and in one only. -/
abbrev faultsLegal (s : State) : Prop :=
  (∀ r ∈ [s.tf.recA, s.tf.recB], r.active = false → r = FaultRecord.idle) ∧
    (∀ r ∈ [s.tf.recA, s.tf.recB], r.active = true →
      r.key ≠ 0 ∧ r.needed ≠ 0 ∧ r.waiting ≠ 0 ∧ r.tries ≤ 7 ∧ r.timer.isSome = true ∧
        (findWay r.key (tileSet r.key s)).isSome = true) ∧
    (s.tf.recA.active = true → s.tf.recB.active = true → s.tf.recA.key ≠ s.tf.recB.key) ∧
    (∀ n : Fin 64, ∀ w : Fin 4, s.tc.dir[n][w].pending = (s.tc.dir[n][w].valid && (faultOn s.tc.dir[n][w].key s).isSome)) ∧
    s.tf.recA.waiting &&& s.tf.recB.waiting = 0 ∧
    (∀ i : Fin 8, ((streamOf i s).state = .waitTile ↔ (s.tf.recA.waiting ||| s.tf.recB.waiting).getLsbD i.val = true))

/-- R62: nothing is left to drain: both side queues are empty, both engines FREE, both fault records IDLE. -/
abbrev nothingLeft (s : State) : Prop :=
  s.sq.queueA = [] ∧ s.sq.queueB = [] ∧ s.de.engineA = none ∧ s.de.engineB = none ∧ s.tf.recA.active = false ∧
    s.tf.recB.active = false

/-- R61, R62: QUIESCING lasts exactly while a QUIESCE is the request in progress, its reply still owed, and never with nothing
left to drain. -/
abbrev quiescingLegal (s : State) : Prop :=
  decide (s.sq.quiesce = .quiescing) = (s.me.inProgress.any fun r => r.op == .quiesce && !r.silent) ∧
    (s.sq.quiesce = .quiescing → ¬ nothingLeft s)

/-- R63: while QUIESCED, both side queues are empty, both engines free, both records IDLE, every open stream READY, and no
stream holds a reservation. -/
abbrev quiescedLegal (s : State) : Prop :=
  s.sq.quiesce = .quiesced → nothingLeft s ∧
    ∀ i : Fin 8, ((streamOf i s).state = .ready ∨ (streamOf i s).state = .closed) ∧ (streamOf i s).reservation = none

/-- R49, R82, R97: a waiting stream holds no reservation, and its oldest entry is the PLACE it waits on, not under execution;
so it is of a READY stream that holds a reservation. -/
abbrev waitsLegal (s : State) : Prop :=
  ∀ i : Fin 8, (streamOf i s).state.waits = true ∨ (streamOf i s).reservation.isSome = true →
    ((streamOf i s).reservation.isSome = true → (streamOf i s).state = .ready) ∧
      ((oldestEntry i s).any fun e => e.command.isPlace && !e.executing) = true

/-- R47, R119, R120: a side queue holds one executing entry while the side's engine is busy with an entry that is not removed, and
else none; it is the entry that the engine's record names, of a READY stream that holds no reservation. -/
abbrev executingLegal (s : State) : Prop :=
  ∀ side : Side,
    ((queueOf side s).countP Entry.executing =
      if ((engineOf side s).any fun r => !r.removed) = true then 1 else 0) ∧
    ∀ r, engineOf side s = some r → r.removed = false →
      (((queueOf side s).find? r.names).any Entry.executing) = true ∧ (streamOf r.stream s).state = .ready ∧
        (streamOf r.stream s).reservation = none

/-- R33, R64, R86, R89: a layout apply is under way exactly while a RESUME is the request in progress, and a flush sweep exactly
while a TILE_FLUSH is; both only in QUIESCED. -/
abbrev requestsLegal (s : State) : Prop :=
  s.lu.apply.isSome = (s.me.inProgress.any fun r => r.op == .resume) ∧
    decide (s.tc.sweep < 64) = (s.me.inProgress.any fun r => r.op == .tileFlush) ∧
    (s.lu.apply.isSome = true ∨ s.tc.sweep < 64 → s.sq.quiesce = .quiesced)

/-- The laws of the Stream Sequencer, the Tile Cache and the Tile Fault Unit, which hold one another up: a stream waits for a fault,
a fault for an entry of the directory, an entry for the streams that reserve it. -/
abbrev sessionLegal (s : State) : Prop :=
  settingsLegal s.settings ∧ streamsLegal s ∧ waitsLegal s ∧ executingLegal s ∧ reservesLegal s ∧ faultsLegal s ∧
    quiescedLegal s ∧ quiescingLegal s ∧ requestsLegal s ∧
    ∀ n : Fin 64, agesLegal s.tc.dir[n] ∧ waysLegal n s.tc.dir[n] ∧ pinsLegal s.tc.dir[n]

/-- R170, R172: the counters and the tracker's counts at most their maximum. -/
abbrev monitorLegal (s : State) : Prop :=
  (∀ n : Fin 4, s.mn.counters[n].value ≤ 4294967295) ∧ s.mn.tracker.last ≤ 4294967295 ∧
    s.mn.tracker.max ≤ 4294967295 ∧ s.mn.tracker.completed ≤ 4294967295 ∧ s.mn.tracker.lost ≤ 4294967295

/-- The settings store and the tile store in their canonical form, and the picture in its own. -/
abbrev memoriesLegal (s : State) : Prop :=
  cellsWf 255 s.flash ∧ cellsWf 0 s.tc.store ∧ imageWf (panelPixels s) s.fs.image

/-- The frame store is held by a writer with work: an engine that is busy, a layout apply, a teardown fill; and an engine that
is busy holds it or waits for it, once (R25, R108). -/
abbrev writersLegal (s : State) : Prop :=
  (s.fs.holder.toList ++ s.fs.waiting).Nodup ∧
    (∀ side : Side, (.engine side ∈ s.fs.holder.toList ++ s.fs.waiting ↔ (engineOf side s).isSome = true)) ∧
    (.layoutApply ∈ s.fs.holder.toList ++ s.fs.waiting ↔ s.lu.apply.isSome = true) ∧
    (s.fs.holder = some .teardownFill ↔ s.lu.fillColour.isSome = true)

/-! ### What a command leaves alone -/

/-- R170: the four counters keep their selections. -/
abbrev selectionsKept (s t : State) : Prop :=
  ∀ n : Fin 4, t.mn.counters[n].mode = s.mn.counters[n].mode ∧ t.mn.counters[n].group = s.mn.counters[n].group ∧
    t.mn.counters[n].mask = s.mn.counters[n].mask ∧ t.mn.counters[n].condition = s.mn.counters[n].condition

/-- R163: from s to t an EVENT transmission of a kind has started on a lane that was free. -/
abbrev eventStarts (k : EventKind) (s t : State) : Prop :=
  s.lc.tx = none ∧ (t.lc.tx.any fun x => x.item == .event k) = true

/-- R162, R163: every kind but MONITOR_SATURATED keeps its pending flag, its detail, its renewed mark and its renewal mask, but
that the renewal mask is emptied when the kind's own EVENT transmission starts. -/
abbrev eventsKept (s t : State) : Prop :=
  ∀ k : EventKind, k ≠ .monitorSaturated → (eventSlot k t).pending = (eventSlot k s).pending ∧
    (eventSlot k t).detail = (eventSlot k s).detail ∧ (eventSlot k t).renewed = (eventSlot k s).renewed ∧
    (eventSlot k t).renewal = if eventStarts k s t then 0 else (eventSlot k s).renewal

/-- The bookkeeping of every event, beside a command's own effect: counters add to their values, MONITOR_SATURATED may be
raised, and the arbiter may start a transmission when the lane is free, which empties the renewal mask of an event kind that
it sends. Nothing else of the Monitor, the pending set or the upstream lane changes. -/
def bookkeepingOnly (s t : State) : Prop :=
  selectionsKept s t ∧ t.mn.tracker = s.mn.tracker ∧ eventsKept s t ∧ (s.lc.tx.isSome = true → t.lc.tx = s.lc.tx)

/-- R171: a counter's value after n additions of 1, saturating. -/
def addedTo (value n : Nat) : Nat := if n = 0 then value else min (value + n) 4294967295

/-- R171: how many counters come to the maximum from s to t. -/
def saturatedIn (s t : State) : Nat :=
  (List.finRange 4).countP fun n =>
    decide (s.mn.counters[n].value < 4294967295) && decide (4294967295 ≤ t.mn.counters[n].value)

/-- R163, R171: from s to t the sub-events us occurred, each as often as it stands in the list, and with the enable of
MONITOR_SATURATED as given, each counter that came to the maximum raised it, which is one EVENT_RAISED more. A counter in
OCCURRENCE mode adds one for each sub-event that it selects, up to the maximum, and keeps its value when it selects none; a
counter in CONDITION_TIME mode keeps its value; one in CONDITION_EDGE mode does not fall (MillisecondsAndBacklightPeriods says
what it adds). -/
def countedUnder (enable : Bool) (us : List SubEvent) (s t : State) : Prop :=
  ∀ n : Fin 4,
    (s.mn.counters[n].mode = .occurrence → t.mn.counters[n].value = addedTo s.mn.counters[n].value
      (us.countP (fun u => s.mn.counters[n].selects u) +
        if enable = true ∧ s.mn.counters[n].selects .eventRaised = true then saturatedIn s t else 0)) ∧
    (s.mn.counters[n].mode = .conditionTime → t.mn.counters[n].value = s.mn.counters[n].value) ∧
    min s.mn.counters[n].value 4294967295 ≤ t.mn.counters[n].value

/-- R163, R171: from s to t the sub-events us occurred, with the enables that the settings hold in s. -/
def countedAs (us : List SubEvent) (s t : State) : Prop := countedUnder (s.settings.enables.getLsbD 4) us s t

/-- A command whose own effect is the state u, and which counts the sub-events us with the enable of MONITOR_SATURATED as given,
ends in t: t is u in every field, but for the bookkeeping of the event. u holds the counters as they stood before the event. -/
def endsUnder (enable : Bool) (u : State) (us : List SubEvent) (t : State) : Prop :=
  t = { u with mn.counters := t.mn.counters, me.events := t.me.events, lc.tx := t.lc.tx } ∧
    bookkeepingOnly u t ∧ countedUnder enable us u t

/-- The same for a command that leaves the enables alone, as all do but a write of the settings. -/
def endsAs (u : State) (us : List SubEvent) (t : State) : Prop := endsUnder (u.settings.enables.getLsbD 4) u us t

/-- What drawing, fills and the sequencer's choices can change: the streams, side queues and quiesce state, the engines, the
directory, the fault records, the picture and its writers, the panel's block writes, the request in progress with its
reply, the latency tracker, the bookkeeping. Everything else of t is as in s: the link and the attachment, GREET and KEYS, the layout, the
tile store, the Key Scanner, the settings, the settings store, time. -/
def drawingOnly (s t : State) : Prop :=
  t = { s with
    sq := t.sq, de := t.de, tc.dir := t.tc.dir, tf := t.tf, fs := t.fs, pu := t.pu, lu.fillColour := t.lu.fillColour
    lc.replies := t.lc.replies, lc.tx := t.lc.tx, me := t.me, mn := t.mn, free := t.free } ∧
  selectionsKept s t ∧ eventsKept s t ∧ (s.lc.tx.isSome = true → t.lc.tx = s.lc.tx)

/-- Both draw engines are busy: the sequencer has no choice to make (R47) and the drain condition does not hold (R62). -/
abbrev enginesBusy (s : State) : Prop := s.de.engineA.isSome = true ∧ s.de.engineB.isSome = true

/-! ### The upstream lane and the panel port -/

/-- A whole frame on the upstream lane (R3, section 11.1): a start delimiter, its bytes, an end delimiter. -/
abbrev wholeOnLane (frame : List Byte) : List SymbolGroup := .startDelimiter :: frame.map .data ++ [.endDelimiter]

/-- R19, R173: what a cut leaves of a frame on the lane: some of its bytes, not all, with their check inverted, and an end
delimiter. -/
abbrev cutOnLane (frame : List Byte) (lane : List SymbolGroup) : Prop :=
  ∃ n : Nat, lane = wholeOnLane (frame.take n ++ le16 (~~~ frameCheck (frame.take n))) ∧
    (0 < frame.length → n < frame.length)

/-- R25: the write going on in s goes on in t, and a pixel once written stays written. -/
abbrev writeGoesOn (s t : State) : Prop :=
  t.fs = s.fs ∧ writtenImage t = writtenImage s ∧ ∀ a : Nat, isWritten s a = true → isWritten t a = true

/-- R24, R25, R128: a block write of block i, selected between s and t in the course of a write, none of it read yet for good. Each
pixel is what the picture holds or what the write gives it; one that the write had written by s is as written, and one that
it has not written by t is as the picture holds it. -/
abbrev blockRead (s t : State) (i : Nat) (w : BlockWrite) : Prop :=
  w.block = i ∧ w.read = 0 ∧ w.pixels.length = 256 ∧ writeGoesOn s t ∧ ∀ p : Nat, p < 256 →
    (w.pixels.getD p 0 = imageRead s.fs.image (blockPixel s i p) ∨
      w.pixels.getD p 0 = imageRead (writtenImage s) (blockPixel s i p)) ∧
    (isWritten s (blockPixel s i p) = true → w.pixels.getD p 0 = imageRead (writtenImage s) (blockPixel s i p)) ∧
    (isWritten t (blockPixel s i p) = false → w.pixels.getD p 0 = imageRead s.fs.image (blockPixel s i p))

/-- R25, R121, R128: a write that leaves img has ended between s and t, and the panel port has read on, in the order of the
pixels. With a block in flight, the pixels that it had read before are as they were, the further ones that it has read by the
end of the write are as they were or as img holds them, and those that it reads later are as img holds them. With none in
flight the port is as it was. -/
abbrev readOn (img : Image) (s t : State) : Prop :=
  (s.pu.inFlight = none → t.pu.port = s.pu.port) ∧ (s.pu.port = none → t.pu.port = none) ∧
    ∀ w, s.pu.port = some w → s.pu.inFlight.isSome = true → ∃ v, t.pu.port = some v ∧ v.block = w.block ∧
      v.number = w.number ∧ w.read ≤ v.read ∧ (w.read ≤ 256 → v.read ≤ 256) ∧ v.pixels.length = w.pixels.length ∧
      ∀ p : Nat, p < w.pixels.length →
        (p < w.read → v.pixels.getD p 0 = w.pixels.getD p 0) ∧
        (p < v.read →
          v.pixels.getD p 0 = w.pixels.getD p 0 ∨ v.pixels.getD p 0 = imageRead img (blockPixel s w.block p)) ∧
        (v.read ≤ p → v.pixels.getD p 0 = imageRead img (blockPixel s w.block p))

/-- R25, R128: the panel port has read the block in flight whole by t. While a write goes on, each pixel that it had not read
before is as it was, or as the write gives it when the write has come to it by t; a pixel that it had read is as it was. With no
writer the port is as it was. -/
abbrev readOnWriting (s t : State) : Prop :=
  writeGoesOn s t ∧ (s.pu.port = none → t.pu.port = none) ∧
    (s.fs.holder = none → t.pu.port = s.pu.port ∧ t.free = s.free) ∧
    ∀ w, s.pu.port = some w → ∃ v, t.pu.port = some v ∧ v.block = w.block ∧ v.number = w.number ∧
      (s.fs.holder ≠ none → v.read = 256) ∧ v.pixels.length = w.pixels.length ∧
      ∀ p : Nat, p < w.pixels.length →
        (p < w.read → v.pixels.getD p 0 = w.pixels.getD p 0) ∧
        (v.pixels.getD p 0 = w.pixels.getD p 0 ∨ v.pixels.getD p 0 = imageRead (writtenImage s) (blockPixel s w.block p)) ∧
        (isWritten t (blockPixel s w.block p) = false → v.pixels.getD p 0 = w.pixels.getD p 0)

/-- R127: block b is the one that a selection takes on a panel of n blocks: the lowest dirty one at or after the scan pointer,
else the lowest below it. -/
abbrev isNext (n scan : Nat) (dirty : Nat → Bool) (b : Nat) : Prop :=
  b < n ∧ dirty b = true ∧
    ((scan ≤ b ∧ ∀ j : Nat, scan ≤ j → j < b → dirty j = false) ∨
      (b < scan ∧ (∀ j : Nat, j < b → dirty j = false) ∧ ∀ j : Nat, scan ≤ j → j < n → dirty j = false))

/-- R128: the state after the send of block b, its count left to the bookkeeping, with the pixels its write carries. -/
def sent (b : Nat) (pixels : List Half) (s : State) : State :=
  { s with
    pu.dirty := s.pu.dirty.set b false
    pu.number := s.pu.number + 1
    pu.inFlight := some ⟨b, s.pu.number + 1, 10000⟩
    pu.scan := if b + 1 = blockCount s then 0 else b + 1
    pu.port := some ⟨b, s.pu.number + 1, pixels, 0⟩ }

/-- R73: a lookup of a key finds it in way w of set n: the key's set, and the lowest valid way there that holds the key. -/
abbrev foundAt (key : Word) (n : Fin 64) (w : Fin 4) (s : State) : Prop :=
  n.val = key.toNat % 64 ∧ s.tc.dir[n][w].valid = true ∧ s.tc.dir[n][w].key = key ∧
    ∀ v : Fin 4, v < w → s.tc.dir[n][v].valid = true → s.tc.dir[n][v].key ≠ key

/-- R47: the sequencer has handed over all it can: an engine that is FREE has only entries of streams that are not READY. -/
abbrev nothingToHand (s : State) : Prop :=
  ∀ side : Side, engineOf side s = none → ∀ e ∈ queueOf side s, (streamOf e.stream s).state ≠ .ready

/-- R47, R62: the sequencer has no choice to make and no drain to end. -/
abbrev settled (s : State) : Prop := nothingToHand s ∧ (s.sq.quiesce = .quiescing → ¬ nothingLeft s)

/-- R49, R102: a side queue without the oldest entry of each stream that p picks. -/
def withoutHeads (p : Fin 8 → Bool) : List Entry → List Entry
  | [] => []
  | e :: rest => if p e.stream then withoutHeads (fun i => p i && i != e.stream) rest else e :: withoutHeads p rest

/-- R97: the streams after a record of a side has gone IDLE: every WAIT_SLOT stream of the side and every WAIT_WAY stream is
READY. -/
def wokenByIdle (side : Side) (r : Stream) : Stream :=
  if r.state = .waitWay ∨ (r.state = .waitSlot ∧ r.side = some side) then { r with state := .ready } else r

/-- R71, R102, R103: an entry that is no longer pending; with no valid sector it is invalid and keeps its age. -/
def noLongerPending (e : DirEntry) : DirEntry :=
  if e.sectors = 0 then ⟨false, 0, 0, e.age, false, false, 0⟩ else { e with pending := false }

/-- R71, R102, R103: dir is the directory once a fault on a key has ended without completing: the entry that the lookup finds is
no longer pending; where none holds the key nothing changes. -/
abbrev pendingCleared (key : Word) (s : State) (dir : Vector TileSet 64) : Prop :=
  (∃ n w, foundAt key n w s ∧ dir = s.tc.dir.set n (s.tc.dir[n].set w (noLongerPending s.tc.dir[n][w]))) ∨
    ((∀ n w, ¬ foundAt key n w s) ∧ dir = s.tc.dir)

/-- R172: the tracker after the record of a side has completed at a tick: if it follows that record, it takes the latency, counts
the completion and disarms. -/
def afterCompletion (side : Side) (tick : Nat) (k : Tracker) : Tracker :=
  match k.armed with
  | some f =>
    if f.side = side then
      ⟨none, min (tick - f.start) 4294967295, max k.max (min (tick - f.start) 4294967295), min (k.completed + 1) 4294967295,
        k.lost⟩
    else k
  | none => k

/-- R172: the tracker after the record of a side was abandoned or cancelled: if it follows that record, it counts it lost and
disarms. -/
def afterLoss (side : Side) (k : Tracker) : Tracker :=
  if (k.armed.any fun f => f.side == side) = true then { k with armed := none, lost := min (k.lost + 1) 4294967295 } else k

/-- R82, R97: the state after stream i has given back its reservation, which way w of set n counts: the count is one less, and
when it was the last every WAIT_WAY stream is READY. -/
def released (i : Fin 8) (n : Fin 64) (w : Fin 4) (s : State) : State :=
  { s with
    tc.dir := s.tc.dir.set n (s.tc.dir[n].set w { s.tc.dir[n][w] with reserve := s.tc.dir[n][w].reserve - 1 })
    sq.streams := Vector.ofFn fun j : Fin 8 => { streamOf j s with
      reservation := if j = i then none else (streamOf j s).reservation
      state := if s.tc.dir[n][w].reserve = 1 ∧ (streamOf j s).state = .waitWay then .ready else (streamOf j s).state } }

/-- R162: the slot of a kind after a raise of it, while its own EVENT transmission is in progress or not. The flag is set.
LINK_RESUMED and BACKLIGHT take the raise's detail; PANEL_HALTED and STORE_DEFAULTED have none; REGION_STALE and
MONITOR_SATURATED add the raise's mask to the mask that a set flag holds, else take it. During the transmission the
renewed mark is set too, and a mask also joins the renewal mask. -/
def slotRaised (k : EventKind) (detail : BitVec 24) (own : Bool) (e : EventSlot) : EventSlot where
  pending := true
  detail :=
    if k = .linkResumed ∨ k = .backlight then detail
    else if k = .panelHalted ∨ k = .storeDefaulted then e.detail
    else if e.pending = true then e.detail ||| detail
    else detail
  renewed := e.renewed || own
  renewal := if own = true ∧ (k = .regionStale ∨ k = .monitorSaturated) then e.renewal ||| detail else e.renewal

/-- The state after a raise of an event kind (R162), its count left to the bookkeeping: with the kind's enable set its slot takes
the raise, else nothing changes. -/
def raised (k : EventKind) (detail : BitVec 24) (s : State) : State :=
  if s.settings.enables.getLsbD k.number.val then
    setEventSlot k (slotRaised k detail (s.lc.tx.any fun x => x.item == .event k) (eventSlot k s)) s
  else s

/-- R163: what a raise of an event kind counts: EVENT_RAISED, with the kind's enable set. -/
def raiseCounts (k : EventKind) (s : State) : List SubEvent :=
  if s.settings.enables.getLsbD k.number.val then [.eventRaised] else []

/-- R162, R163, R171: what the slot of MONITOR_SATURATED takes from s to t when the counters of a mask come to the maximum. With
its enable set and the mask not empty it is raised with the mask: the mask joins a detail that is pending and replaces any other;
while its own EVENT transmission is in progress the renewed mark is set and the mask joins the renewal mask. At the start of that
transmission the renewal mask is emptied. -/
abbrev saturationRaised (full : BitVec 24) (s t : State) : Prop :=
  ∀ raise own : Bool, raise = (s.settings.enables.getLsbD 4 && full != 0) →
    own = (s.lc.tx.any fun x => x.item == .event .monitorSaturated) →
    (eventSlot .monitorSaturated t).pending = ((eventSlot .monitorSaturated s).pending || raise) ∧
    (eventSlot .monitorSaturated t).detail =
      (if raise = true then
        if (eventSlot .monitorSaturated s).pending = true then (eventSlot .monitorSaturated s).detail ||| full else full
      else (eventSlot .monitorSaturated s).detail) ∧
    (s.lc.tx = none ∨ t.lc.tx = s.lc.tx →
      (eventSlot .monitorSaturated t).renewed = ((eventSlot .monitorSaturated s).renewed || (raise && own)) ∧
      (eventSlot .monitorSaturated t).renewal =
        if eventStarts .monitorSaturated s t then 0
        else if raise = true ∧ own = true then (eventSlot .monitorSaturated s).renewal ||| full
        else (eventSlot .monitorSaturated s).renewal)

/-- R118: exactly the blocks that were dirty and those marked are dirty in t, but for one that the selection that follows has
sent and that is in flight. A block that was in flight before and is marked is dirty again. -/
abbrev marksBlocks (mark : Nat → Nat → Prop) (s t : State) : Prop :=
  ∀ col row : Nat, col < s.lu.width → row < s.lu.height →
    ((t.pu.dirty.getD (row * s.lu.width + col) false = true ∨
        (s.pu.inFlight = none ∧ ∃ f, t.pu.inFlight = some f ∧ f.block = row * s.lu.width + col)) ↔
      (s.pu.dirty.getD (row * s.lu.width + col) false = true ∨ mark col row))

/-- R65: the side of a stream after the rebalancing. Of the side with more open streams, the highest-numbered go to the other side:
half the difference of the counts, rounded down. -/
def balancedSide (s : State) (i : Fin 8) : Option Side :=
  (streamOf i s).side.map fun side =>
    if isOpen i s && decide
        ((List.finRange 8).countP (fun j => decide (i < j) && isOpen j s && (streamOf j s).side == some side) <
          (openCount side s - openCount (otherSide side) s) / 2) then otherSide side
    else side

/-- R65: how many streams the rebalancing moves. -/
def movesToBalance (s : State) : Nat :=
  (openCount .a s - openCount .b s) / 2 + (openCount .b s - openCount .a s) / 2

/-- R142: a position meets the phantom condition against a set of pressed positions: in some other drive line a pressed position
shares its sense line, and another pressed position of that drive line shares its sense line with a pressed one of the
position's own drive line. -/
abbrev meetsPhantom (pressed : Fin 128 → Bool) (p : Fin 128) : Prop :=
  ∃ a b c : Fin 128, pressed a = true ∧ pressed b = true ∧ pressed c = true ∧ a.val / 16 ≠ p.val / 16 ∧
    a.val % 16 = p.val % 16 ∧ b.val / 16 = a.val / 16 ∧ b.val % 16 ≠ p.val % 16 ∧ c.val / 16 = p.val / 16 ∧
    c.val % 16 = b.val % 16

/-- R147: the LOCAL actions of the records latched, in their order. -/
def actionsOf (latched : List Latched) : List LocalAction :=
  latched.filterMap fun r =>
    match r.entry with
    | .localAction a => some a
    | .none => none
    | .ordinary _ => none
    | .modifier _ => none
    | .layer _ => none

/-- R134: the backlight level after a LOCAL action. -/
def levelAfter (level : Nat) : LocalAction → Nat
  | .backlightUp => min (level + 1) 15
  | .backlightDown => level - 1

/-- R134: how many of the LOCAL actions, one after another, change the level. -/
def levelChanges : Nat → List LocalAction → Nat
  | _, [] => 0
  | level, a :: rest => (if levelAfter level a = level then 0 else 1) + levelChanges (levelAfter level a) rest

/-- R145: the record that a resolution of position p latches in layer n: the layer's entry, or that of layer 0 when it is
NONE. -/
abbrev latchesIn (s : State) (n : Fin 3) (p : Fin 128) (r : Latched) : Prop :=
  ∀ i : Fin 384, i.val = n.val * 128 + p.val →
    r = if s.ks.keymap[i] = .none then ⟨p.val, s.ks.keymap[p.val], 0⟩ else ⟨p.val, s.ks.keymap[i], n⟩

/-- R145: the active layer of a latched key table is n: the highest among its LAYER entries, 0 when it holds none. -/
abbrev activeIs (latched : List Latched) (n : Fin 3) : Prop :=
  (∀ r ∈ latched, ∀ m : Fin 3, r.entry = .layer m → m ≤ n) ∧ (n = 0 ∨ ∃ r ∈ latched, r.entry = .layer n)

/-- R110: an engine's record keeps to the screen: its region lies on the panel, and its clip rectangle in the region. -/
abbrev recordFits (s : State) (r : ExecRecord) : Prop :=
  r.ox + r.rw ≤ panelW s ∧ r.oy + r.rh ≤ panelH s ∧ 0 ≤ r.cx0 ∧ r.cx0 ≤ r.cx1 ∧ r.cx1 < r.rw ∧ 0 ≤ r.cy0 ∧ r.cy0 ≤ r.cy1 ∧
    r.cy1 < r.rh

/-- R63, R110: while QUIESCED no entry is queued, under execution or waiting for a tile; and every engine's record keeps to the
screen. -/
abbrev drawsLegal (s : State) : Prop :=
  (s.sq.quiesce = .quiesced → nothingLeft s) ∧ ∀ side r, engineOf side s = some r → recordFits s r

/-! ### The encodings of section 11.4 -/

/-- A coordinate of a draw command: bits 0 to 11 of its field as two's complement. -/
def coordinate12 (v : Half) : Int :=
  if v.toNat % 4096 < 2048 then (v.toNat % 4096 : Nat) else (v.toNat % 4096 : Nat) - 4096

/-- Bytes that spell a draw command: its form byte, and its fields in their order. Sizes are held less 1, in bits 0 to 10; the other
bits of coordinates and sizes may hold anything (R175). -/
abbrev spellsDraw (c : DrawCommand) (bs : List Byte) : Prop :=
  (∃ (key : Word) (a b : Half), c = .place key (coordinate12 a) (coordinate12 b) none ∧
    bs = 1 :: le32 key ++ le16 a ++ le16 b) ∨
  (∃ (key : Word) (a b k : Half), c = .place key (coordinate12 a) (coordinate12 b) (some k) ∧
    bs = 2 :: le32 key ++ le16 a ++ le16 b ++ le16 k) ∨
  (∃ k a b w h : Half,
    c = .fill k (coordinate12 a) (coordinate12 b) (w.toNat % 2048 + 1) (h.toNat % 2048 + 1) ∧
    bs = 3 :: le16 k ++ le16 a ++ le16 b ++ le16 w ++ le16 h) ∨
  (∃ a b : Half, c = .scroll (coordinate12 a) (coordinate12 b) ∧ bs = 4 :: le16 a ++ le16 b)

/-! ### Requests -/

/-- R155: a MGMT frame that arrives in s is carried out: the link UP, the attachment ATTACHED, no request in progress, a reply
slot free. -/
abbrev takesRequest (s : State) : Prop :=
  s.lc.link = .up ∧ s.lc.attachment = .attached ∧ s.me.inProgress = none ∧ s.lc.replies.length < 4

/-- The state after a passing frame in UP (R5): the failure count is 0. -/
def passed (s : State) : State := { s with lc.failureCount := 0 }

/-- The state with the reply to a request at the tail of the REPLY queue (R156, R17), its frame having passed. -/
def replied (tag kind : Byte) (status : Status) (data : List Byte) (s : State) : State :=
  { passed s with lc.replies := s.lc.replies ++ [⟨tag, kind, status, data⟩] }

/-- The state with a long request in progress (R156), its frame having passed. -/
def started (tag kind : Byte) (op : LongOp) (s : State) : State :=
  { passed s with me.inProgress := some ⟨tag, kind, op, false⟩ }

end Sys2Proof.Machine
end

