-- ==== Sys2Proof/Certificates/Slice0/Obligations.lean ====
section
/-! DEFINITION. The statements for the provers. A command's own effect is written out as a state u, and the command is said to
answer a next state that ends as u, with the sub-events it counts (endsAs of Safety.lean: equal to u in every field but
for the bookkeeping of the event). Where an effect does not fit one such state, its fields are named one by one. -/

open Sys2Proof Sys2Proof.Machine

/-! ## The queue, the time base and reset -/

/-- THE MODEL'S CHOICE (log entry 22): the commands that wait stand in a queue of the model's own, first in first out; the manual
has arrivals and events taken one at a time and no queue of commands. A step with a command at the front of the queue is
exec of that command on the state with the queue's rest. -/
def Obligations.StepRunsTheFrontCommand : Prop :=
  ∀ (c : Instr) (rest : List Instr) (s : State), s.pending = c :: rest → step s = exec c { s with pending := rest }

/-- THE MODEL'S CHOICE (log entry 1): a step on an empty queue is one tick of the time base. The loss detector counts up
outside DOWN (R1); the hold timer (R11), the fault timers while ATTACHED (R100), the timer of the in-flight block
(R128), the scan timer (R138), the millisecond (R171) and the backlight period (R133) run down by one; the expiries
that fall on the tick wait, each once, in an order that is a free value (log entry 2); nothing else changes. -/
def Obligations.IdleStepPassesOneTick : Prop :=
  ∀ s : State, s.pending = [] → ∃ t, step s = .next t ∧
    (∃ a b ps, t = { s with
      tick := s.tick + 1
      lc.lossCount := if s.lc.link = .down then s.lc.lossCount else s.lc.lossCount + 1
      lc.holdTimer := s.lc.holdTimer.map fun n => n - 1
      tf := ⟨{ s.tf.recA with timer := a }, { s.tf.recB with timer := b }⟩
      pu.inFlight := s.pu.inFlight.map fun f => { f with timer := f.timer - 1 }
      pu.periodTimer := s.pu.periodTimer - 1
      ks.scanTimer := s.ks.scanTimer - 1
      msTimer := s.msTimer - 1
      pending := ps }) ∧
    (∀ side : Side, (recordOf side t).timer =
      if s.lc.attachment = .attached ∧ (recordOf side s).active = true then (recordOf side s).timer.map fun n => n - 1
      else (recordOf side s).timer) ∧
    t.pending.Nodup ∧
    (∀ c : Instr, c ∈ t.pending ↔
      (c = .lossDetectorExpiry ∧ t.lc.link ≠ .down ∧ t.settings.lossLimit * 16 ≤ t.lc.lossCount) ∨
      (c = .holdTimerExpiry ∧ t.lc.holdTimer = some 0) ∨
      (∃ side, c = .faultTimerExpiry side ∧ t.lc.attachment = .attached ∧ (recordOf side t).active = true ∧
        (recordOf side t).timer = some 0) ∨
      (c = .blockTimeout ∧ ∃ f, t.pu.inFlight = some f ∧ f.timer = 0) ∨
      (c = .millisecondTick ∧ t.msTimer = 0) ∨ (c = .backlightPeriod ∧ t.pu.periodTimer = 0))

/-- What the spec's state tables say of the machine right after reset. Its settings store is erased (log entry 16), so every
loaded item takes its default and STORE_DEFAULTED is pending (R169). The Panel Updater is as its first selection leaves
it, which the power-on column of section 7.1 stands before (log entry 18): block 0 is in flight with write number 1, the
scan pointer is 1, every other block is dirty, and the port carries a block of the undocked colour, none of it read yet. -/
def Obligations.ResetHoldsThePowerOnValues : Prop :=
  (State.reset.lc.link = .down ∧ State.reset.lc.alignCount = 0 ∧ State.reset.lc.framingCount = 0 ∧
    State.reset.lc.failureCount = 0 ∧ State.reset.lc.lossCount = 0 ∧ State.reset.lc.assembly = none ∧
    State.reset.lc.attachment = .unattached ∧ State.reset.lc.attachNumber = 0 ∧ State.reset.lc.holdTimer = none ∧
    State.reset.lc.holdCause = none ∧ State.reset.lc.holdStart = none ∧ State.reset.lc.attachCounter = 1 ∧
    State.reset.lc.greet = none ∧ State.reset.lc.greetRenewed = false ∧ State.reset.lc.lastCause = none ∧
    State.reset.lc.lastDuration = 0 ∧ State.reset.lc.keys = [] ∧ State.reset.lc.replies = [] ∧ State.reset.lc.tx = none) ∧
  (State.reset.lu.width = 80 ∧ State.reset.lu.height = 50 ∧ State.reset.lu.border = 0 ∧ State.reset.lu.undocked = 10565 ∧
    State.reset.lu.headerChanged = true ∧ State.reset.lu.imageUsed = false ∧ State.reset.lu.apply = none ∧
    regionOf 0 State.reset = ⟨true, 0, 0, 1280, 800, 0, true, true⟩ ∧
    (∀ i : Fin 8, i ≠ 0 → regionOf i State.reset = ⟨false, 0, 0, 0, 0, 0, true, true⟩)) ∧
  ((∀ i : Fin 8, streamOf i State.reset = ⟨.closed, none, 0, none, false, none⟩) ∧ State.reset.sq.queueA = [] ∧
    State.reset.sq.queueB = [] ∧ State.reset.sq.quiesce = .running) ∧
  (engineState .a State.reset = .free ∧ engineState .b State.reset = .free) ∧
  ((∀ n : Fin 64, ∀ w : Fin 4, State.reset.tc.dir[n][w] = ⟨false, 0, 0, w.val, false, false, 0⟩) ∧
    State.reset.tc.sweep = 64) ∧
  (State.reset.tf.recA = ⟨false, 0, 0, 0, 0, none, false, false⟩ ∧
    State.reset.tf.recB = ⟨false, 0, 0, 0, 0, none, false, false⟩) ∧
  ((∀ a : Nat, imageRead State.reset.fs.image a = 10565) ∧ State.reset.fs.holder = none ∧ State.reset.fs.waiting = []) ∧
  (State.reset.pu.streak = 0 ∧ State.reset.pu.halted = false ∧ State.reset.pu.level = 8) ∧
  (State.reset.pu.number = 1 ∧ State.reset.pu.scan = 1 ∧ State.reset.pu.inFlight = some ⟨0, 1, 10000⟩ ∧
    State.reset.pu.dirty = false :: List.replicate 3999 true ∧
    State.reset.pu.port = some ⟨0, 1, List.replicate 256 10565, 0⟩) ∧
  ((∀ p : Fin 128, keyAt p State.reset = ⟨false, 0, false, false⟩) ∧ State.reset.ks.latched = [] ∧
    State.reset.ks.report = ⟨0, [], false⟩ ∧ State.reset.ks.scanTimer = 1000 ∧ State.reset.ks.scans = 0 ∧
    (∀ i : Fin 384, State.reset.ks.keymap[i] =
      if i.val < 112 then .ordinary (BitVec.ofNat 8 (i.val + 1))
      else if i.val < 120 then .modifier (Fin.ofNat 8 (i.val - 112))
      else if i.val = 120 then .layer 1 else if i.val = 121 then .layer 2
      else if i.val = 122 then .localAction .backlightDown else if i.val = 123 then .localAction .backlightUp
      else .none)) ∧
  (State.reset.me.inProgress = none ∧
    ∀ k : EventKind, eventSlot k State.reset = ⟨k == .storeDefaulted, 0, false, 0⟩) ∧
  State.reset.settings = ⟨4, 150, 1000, 4, 40, 3, 6, 0x3F⟩ ∧
  (∀ n : Fin 4, State.reset.mn.counters[n] = ⟨0, .occurrence, .tileLookup, 0, .anyStreamWaiting⟩) ∧
  State.reset.mn.tracker = ⟨none, 0, 0, 0, 0⟩

/-- POWER_ON_RESET completes from every state: the blocks take their power-on values, the screen the undocked colour (R38), and the
panel's first selection, made within the reset (log entry 18), puts block 0 in flight with write number 1 and leaves every
other block dirty (R125 to R128). With an invalid settings image every loaded item is its default and STORE_DEFAULTED is
pending (R169). With a valid one they come from the image: geometry and level in their ranges, the eight regions as
stored, each enabled one only if it fits the panel and overlaps no region enabled before it (R28), the keymap with NONE
for an entry that no class allows (R144), the settings each brought into its range (R160). The settings store keeps its
bytes, but a byte under an erase or a program that the reset ends may hold either value (R164). THE MODEL'S CHOICE (log
entry 23): the commands that wait stay. What makes an
image valid (R168) is written out first. -/
def Obligations.PowerOnResetRestoresEveryBlock : Prop :=
  (∀ flash : List Host.Cell, imageValid flash = true ↔
    (cellRead 255 flash 0 = 0x21 ∧ cellRead 255 flash 1 = 0x4E ∧ cellRead 255 flash 2 = 0x3C ∧ cellRead 255 flash 3 = 0x5A) ∧
      ∃ n : Nat, n = (cellRead 255 flash 4).toNat + 256 * (cellRead 255 flash 5).toNat ∧ 873 ≤ n ∧ n ≤ 4088 ∧
        ((List.range n).map fun k => (cellRead 255 flash (8 + k)).toNat).sum % 65536 =
          (cellRead 255 flash 6).toNat + 256 * (cellRead 255 flash 7).toNat) ∧
  ∀ s : State, ∃ t, exec .powerOnReset s = .next t ∧ t.pending = s.pending ∧
    (t.lc.link = .down ∧ t.lc.alignCount = 0 ∧ t.lc.framingCount = 0 ∧ t.lc.failureCount = 0 ∧ t.lc.lossCount = 0 ∧
      t.lc.assembly = none ∧ t.lc.attachment = .unattached ∧ t.lc.attachNumber = 0 ∧ t.lc.holdTimer = none ∧
      t.lc.holdCause = none ∧ t.lc.holdStart = none ∧ t.lc.attachCounter = 1 ∧ t.lc.greet = none ∧ t.lc.greetRenewed = false ∧
      t.lc.lastCause = none ∧ t.lc.lastDuration = 0 ∧ t.lc.keys = [] ∧ t.lc.replies = [] ∧ t.lc.tx = none) ∧
    (∀ i : Fin 8, streamOf i t = ⟨.closed, none, 0, none, false, none⟩) ∧ t.sq.queueA = [] ∧ t.sq.queueB = [] ∧ t.sq.quiesce = .running ∧
    t.de.engineA = none ∧ t.de.engineB = none ∧
    (∀ n : Fin 64, ∀ w : Fin 4, t.tc.dir[n][w] = ⟨false, 0, 0, w.val, false, false, 0⟩) ∧ t.tc.sweep = 64 ∧
    t.tf = ⟨⟨false, 0, 0, 0, 0, none, false, false⟩, ⟨false, 0, 0, 0, 0, none, false, false⟩⟩ ∧
    (∀ a : Nat, imageRead t.fs.image a = t.lu.undocked) ∧ t.fs.holder = none ∧ t.fs.waiting = [] ∧
    t.lu.headerChanged = true ∧ (∀ i : Fin 8, (regionOf i t).changed = true ∧ (regionOf i t).stale = true) ∧
    t.lu.apply = none ∧ t.lu.fillColour = none ∧ t.lu.imageUsed = imageValid t.flash ∧
    (t.pu.inFlight = some ⟨0, 1, 10000⟩ ∧ t.pu.number = 1 ∧ t.pu.scan = 1 ∧
      t.pu.port = some ⟨0, 1, List.replicate 256 t.lu.undocked, 0⟩) ∧
    (t.pu.dirty.length = t.lu.width * t.lu.height ∧ t.pu.dirty.getD 0 true = false ∧
      ∀ i : Nat, 0 < i → i < t.lu.width * t.lu.height → t.pu.dirty.getD i false = true) ∧
    t.pu.streak = 0 ∧ t.pu.halted = false ∧ t.pu.drivenLevel = t.pu.level ∧
    (∀ p : Fin 128, keyAt p t = ⟨false, 0, false, false⟩) ∧ t.ks.latched = [] ∧ t.ks.report = ⟨0, [], false⟩ ∧
    t.ks.scanTimer = t.settings.scanPeriod ∧ t.ks.scans = 0 ∧ t.me.inProgress = none ∧
    (∀ k : EventKind, eventSlot k t = ⟨k == .storeDefaulted && !imageValid t.flash, 0, false, 0⟩) ∧
    (∀ n : Fin 4, t.mn.counters[n] = ⟨0, .occurrence, .tileLookup, 0, .anyStreamWaiting⟩) ∧ t.mn.tracker = ⟨none, 0, 0, 0, 0⟩ ∧
    (imageValid t.flash = false → t.lu.width = 80 ∧ t.lu.height = 50 ∧ t.lu.border = 0 ∧ t.lu.undocked = 10565 ∧
      t.pu.level = 8 ∧ t.settings = ⟨4, 150, 1000, 4, 40, 3, 6, 0x3F⟩ ∧ t.ks.keymap = State.reset.ks.keymap ∧
      regionOf 0 t = ⟨true, 0, 0, 1280, 800, 0, true, true⟩ ∧
      ∀ i : Fin 8, i ≠ 0 → regionOf i t = ⟨false, 0, 0, 0, 0, 0, true, true⟩) ∧
    (imageValid t.flash = true →
      t.lu.width = min 120 (max 20 (cellRead 255 t.flash 8).toNat) ∧ t.lu.height = min 75 (max 12 (cellRead 255 t.flash 9).toNat) ∧
      t.lu.border = half (cellRead 255 t.flash 10) (cellRead 255 t.flash 11) ∧
      t.lu.undocked = half (cellRead 255 t.flash 12) (cellRead 255 t.flash 13) ∧
      t.pu.level = min (cellRead 255 t.flash 102).toNat 15) ∧
    (imageValid t.flash = true → ∀ field : Nat → Half,
      (∀ a : Nat, field a = half (cellRead 255 t.flash a) (cellRead 255 t.flash (a + 1))) →
      (∀ i : Fin 8, (regionOf i t).ox = field (15 + 11 * i.val) ∧ (regionOf i t).oy = field (17 + 11 * i.val) ∧
        (regionOf i t).rw = field (19 + 11 * i.val) ∧ (regionOf i t).rh = field (21 + 11 * i.val) ∧
        (regionOf i t).background = field (23 + 11 * i.val) ∧
        ((regionOf i t).enabled = true ↔
          (cellRead 255 t.flash (14 + 11 * i.val)).getLsbD 0 = true ∧
          16 ≤ (regionOf i t).rw.toNat ∧ 16 ≤ (regionOf i t).rh.toNat ∧
          (regionOf i t).ox.toNat + (regionOf i t).rw.toNat ≤ 16 * t.lu.width ∧
          (regionOf i t).oy.toNat + (regionOf i t).rh.toNat ≤ 16 * t.lu.height ∧
          ∀ j : Fin 8, j < i → (regionOf j t).enabled = true →
            rectsOverlap (regionOf i t).ox (regionOf i t).oy (regionOf i t).rw (regionOf i t).rh
              (regionOf j t).ox (regionOf j t).oy (regionOf j t).rw (regionOf j t).rh = false)) ∧
      (∀ (i : Fin 384) (cls value : Byte), cls = cellRead 255 t.flash (103 + 2 * i.val) →
        value = cellRead 255 t.flash (104 + 2 * i.val) → t.ks.keymap[i] =
          if cls = 1 ∧ value ≠ 0 then .ordinary value
          else if cls = 2 ∧ value.toNat < 8 then .modifier (Fin.ofNat 8 value.toNat)
          else if cls = 3 ∧ value = 1 then .layer 1
          else if cls = 3 ∧ value = 2 then .layer 2
          else if cls = 4 ∧ value = 1 then .localAction .backlightUp
          else if cls = 4 ∧ value = 2 then .localAction .backlightDown
          else .none) ∧
      (∀ at' : Nat → Nat, (∀ a : Nat, at' a = (cellRead 255 t.flash a).toNat) → t.settings =
        { lossLimit := min 15 (max 1 (at' 871)), holdTime := max 1 (at' 872)
          scanPeriod := min 4000 (max 500 ((field 873).toNat - (field 873).toNat % 250))
          depth := min 15 (max 1 (at' 875)), faultTimeout := max 1 (at' 876), retryLimit := min 7 (at' 877)
          shedThreshold := min 16 (max 2 (at' 878)), enables := (cellRead 255 t.flash 879).setWidth 6 })) ∧
    settingsLegal t.settings ∧
    (∀ r, s.me.inProgress = some r →
      (∀ page, r.op = .erase page → ∀ a : Nat,
        (1024 * page ≤ a ∧ a < 1024 * page + 1024 →
          cellRead 255 t.flash a = cellRead 255 s.flash a ∨ cellRead 255 t.flash a = 255) ∧
        (a < 1024 * page ∨ 1024 * page + 1024 ≤ a → cellRead 255 t.flash a = cellRead 255 s.flash a)) ∧
      (∀ offset data, r.op = .program offset data → ∀ a : Nat,
        (∀ i : Nat, i < data.length → a = offset + i →
          cellRead 255 t.flash a = cellRead 255 s.flash a ∨
            cellRead 255 t.flash a = cellRead 255 s.flash a &&& byteAt data i) ∧
        (a < offset ∨ offset + data.length ≤ a → cellRead 255 t.flash a = cellRead 255 s.flash a)) ∧
      ((r.op = .quiesce ∨ r.op = .resume ∨ r.op = .tileFlush) → t.flash = s.flash)) ∧
    (s.me.inProgress = none → t.flash = s.flash)

/-! ## The downstream lane (R1 to R6) -/

/-- Symbol groups in DOWN and ALIGNING (R2), with the count of the loss detector (R1). R137 says that the first scans take place
before the link can leave DOWN: THE MODEL'S CHOICE (log entry 34), this is about when groups come, for R2 has any valid group
move the link, and the first scans are two. So the last part: as long as no valid group comes in DOWN before two scans, the link
is out of DOWN only after them, whatever else comes. -/
def Obligations.GroupsAlignTheLink : Prop :=
  (∀ (g : SymbolGroup) (s : State),
    (s.lc.link = .down → g = .invalid → ∃ t, exec (.symbolGroup g) s = .next t ∧ endsAs s [] t) ∧
    (s.lc.link = .down → g ≠ .invalid → ∃ t, exec (.symbolGroup g) s = .next t ∧
      endsAs { s with lc.link := .aligning, lc.alignCount := 1, lc.lossCount := 0 } [] t) ∧
    (s.lc.link = .aligning → g = .invalid → ∃ t, exec (.symbolGroup g) s = .next t ∧
      endsAs { s with lc.alignCount := 0 } [] t) ∧
    (s.lc.link = .aligning → g ≠ .invalid → s.lc.alignCount + 1 < 64 → ∃ t, exec (.symbolGroup g) s = .next t ∧
      endsAs { s with lc.alignCount := s.lc.alignCount + 1, lc.lossCount := 0 } [] t) ∧
    (s.lc.link = .aligning → g ≠ .invalid → 64 ≤ s.lc.alignCount + 1 → ∃ t, exec (.symbolGroup g) s = .next t ∧
      endsAs { s with
        lc.link := .framing, lc.alignCount := s.lc.alignCount + 1, lc.framingCount := 0, lc.assembly := none
        lc.lossCount := 0 } [] t)) ∧
  (∀ (c : Instr) (s : State), scansFirst s →
    (s.lc.link = .down → ∀ g, c = .symbolGroup g → g ≠ .invalid → 2 ≤ s.ks.scans) → ∃ t, exec c s = .next t ∧ scansFirst t)

/-- Symbol groups in FRAMING and UP (R3): a start delimiter opens a frame, a data group appends its byte, an open frame fails at
an invalid group, at a start delimiter, past 164 bytes, and at an end delimiter that finds it wrong. A failure is the
arrival of a failing frame (R4, R5). Filler in an open frame has no effect (log entry 5). And the frame check (R3): which
frames pass. -/
def Obligations.GroupsAssembleFrames : Prop :=
  (∀ bs : List Byte, framePasses bs = true ↔ ∃ (head payload : List Byte) (kind : Byte),
    head = [kind, BitVec.ofNat 8 payload.length] ∧ payload.length ≤ 160 ∧
      bs = head ++ payload ++ le16 (frameCheck (head ++ payload))) ∧
  ∀ (s : State), s.lc.link = .framing ∨ s.lc.link = .up →
    (s.lc.assembly = none →
      (∃ t, exec (.symbolGroup .startDelimiter) s = .next t ∧
        endsAs { s with lc.assembly := some [], lc.lossCount := 0 } [] t) ∧
      (∃ t, exec (.symbolGroup .invalid) s = .next t ∧ endsAs s [] t) ∧
      (∃ t, exec (.symbolGroup .endDelimiter) s = .next t ∧ endsAs { s with lc.lossCount := 0 } [] t) ∧
      (∀ b : Byte, ∃ t, exec (.symbolGroup (.data b)) s = .next t ∧ endsAs { s with lc.lossCount := 0 } [] t)) ∧
    (∃ t, exec (.symbolGroup .filler) s = .next t ∧ endsAs { s with lc.lossCount := 0 } [] t) ∧
    (∀ bs, s.lc.assembly = some bs →
      (∀ b : Byte, bs.length < 164 → ∃ t, exec (.symbolGroup (.data b)) s = .next t ∧
        endsAs { s with lc.assembly := some (bs ++ [b]), lc.lossCount := 0 } [] t) ∧
      (∀ b : Byte, 164 ≤ bs.length →
        exec (.symbolGroup (.data b)) s = exec .checkFail { s with lc.assembly := none, lc.lossCount := 0 }) ∧
      exec (.symbolGroup .invalid) s = exec .checkFail { s with lc.assembly := none } ∧
      (framePasses bs = false →
        exec (.symbolGroup .endDelimiter) s = exec .checkFail { s with lc.assembly := none, lc.lossCount := 0 }) ∧
      (s.lc.link = .framing → ∃ t, exec (.symbolGroup .startDelimiter) s = .next t ∧
        endsAs { s with lc.framingCount := 0, lc.assembly := some [], lc.lossCount := 0 } [.checkFail] t) ∧
      (s.lc.link = .up → s.lc.failureCount + 1 < 4 → ∃ t, exec (.symbolGroup .startDelimiter) s = .next t ∧
        endsAs { s with lc.failureCount := s.lc.failureCount + 1, lc.assembly := some [], lc.lossCount := 0 } [.checkFail] t) ∧
      (s.lc.link = .up → 4 ≤ s.lc.failureCount + 1 →
        exec (.symbolGroup .startDelimiter) s = exec .checkFail { s with lc.assembly := none, lc.lossCount := 0 }))

/-- The bytes of a frame, its check included, make the command they spell: when an end delimiter closes a frame whose bytes are
those that spell a well-formed command (Machine/Spelling.lean, from sections 11.1 to 11.7), the machine does just what
it does with the command. It covers HELLO, IDLE, DRAW, TILE and every management request but BAD_REQUEST. Of the other
frames that pass the check, those of an unknown kind or a length their kind does not allow are BAD_FRAME (R16), those of
IDLE are IDLE whatever their payload (R175), and MGMT frames of an unknown request kind or a wrong form are BAD_REQUEST
(R156, R174). That a frame command stands for the arrival of its frame is the model's choice (log entry 4). How each
command is spelled is written out first (sections 11.2, 11.3, 11.6, 11.7). -/
def Obligations.SpelledFramesRunTheirCommands : Prop :=
  (∀ lo hi : Byte, (half lo hi).toNat = lo.toNat + 256 * hi.toNat) ∧
  (∀ (spells : Instr → Byte → List Byte → Prop), (∀ c kind payload, spells c kind payload ↔ ∃ head : List Byte,
      head = [kind, BitVec.ofNat 8 payload.length] ∧
        spelled c = some (head ++ payload ++ le16 (frameCheck (head ++ payload)))) →
    (∀ n, spells (.hello n) 1 (le32 n)) ∧ spells .idle 2 [] ∧
    (∀ stream seq commands, spells (.draw stream seq commands) 3 (stream :: le16 seq ++ commands)) ∧
    (∀ key sector data, spells (.tile key sector data) 4 (le32 key ++ sector :: data)) ∧
    ∀ tag : Byte,
      (∀ table first count, spells (.tableRead tag table first count) 5 ([tag, 1, table] ++ le16 first ++ [count])) ∧
      (∀ table entry contents, spells (.tableWrite tag table entry contents) 5 ([tag, 2, table] ++ le16 entry ++ contents)) ∧
      (∀ border undocked, spells (.layoutHeaderWrite tag border undocked) 5
        ([tag, 2, 1, 0, 0, 0] ++ le16 border ++ le16 undocked ++ [0, 0, 0, 0, 0, 0])) ∧
      (∀ (i : Fin 8) enabled ox oy rw rh background, spells (.layoutRegionWrite tag i enabled ox oy rw rh background) 5
        ([tag, 2, 1, BitVec.ofNat 8 (i.val + 1), 0, if enabled then 1 else 0] ++ le16 ox ++ le16 oy ++ le16 rw ++ le16 rh ++
          le16 background)) ∧
      (∀ (i : Fin 8) stale, spells (.streamWrite tag i stale) 5
        ([tag, 2, 2, BitVec.ofNat 8 (i.val + 1), 0] ++ List.replicate 10 0 ++ [if stale then 1 else 0])) ∧
      (∀ entry cls value, spells (.keymapWrite tag entry cls value) 5 ([tag, 2, 5] ++ le16 entry ++ [cls, value])) ∧
      (∀ loss hold scan depth fault retry shed enables,
        spells (.settingsWrite tag loss hold scan depth fault retry shed enables) 5
          ([tag, 2, 6, 0, 0, loss, hold] ++ le16 scan ++ [depth, fault, retry, shed, enables, 0])) ∧
      (∀ width height level, spells (.panelWrite tag width height level) 5
        [tag, 2, 7, 0, 0, width, height, level, 0, 0, 0, 0]) ∧
      (∀ stream start, spells (.streamOpen tag stream start) 5 ([tag, 3, stream] ++ le16 start)) ∧
      (∀ stream, spells (.streamClose tag stream) 5 [tag, 4, stream]) ∧ spells (.quiesce tag) 5 [tag, 5] ∧
      spells (.resume tag) 5 [tag, 6] ∧ spells (.tileFlush tag) 5 [tag, 7] ∧
      (∀ key, spells (.tilePin tag key) 5 ([tag, 8] ++ le32 key)) ∧
      (∀ key, spells (.tileUnpin tag key) 5 ([tag, 9] ++ le32 key)) ∧ spells (.panelRestart tag) 5 [tag, 10] ∧
      spells (.dockReset tag) 5 [tag, 11] ∧ (∀ page, spells (.storeErase tag page) 5 [tag, 12, page]) ∧
      (∀ offset data, spells (.storeWrite tag offset data) 5 ([tag, 13] ++ le16 offset ++ data)) ∧
      (∀ offset count, spells (.storeRead tag offset count) 5 ([tag, 14] ++ le16 offset ++ [count])) ∧
      (∀ entry mode group mask condition, spells (.monitorSet tag entry mode group mask condition) 5
        ([tag, 15, entry, mode, group] ++ le32 mask ++ [condition]))) ∧
  (∀ (c : Instr) (bs : List Byte) (s : State), spelled c = some bs → c.wf = true →
    s.lc.link = .framing ∨ s.lc.link = .up → s.lc.assembly = some bs →
    exec (.symbolGroup .endDelimiter) s = exec c { s with lc.assembly := none, lc.lossCount := 0 }) ∧
  (∀ (bs : List Byte) (s u : State) (kind n : Nat), s.lc.link = .framing ∨ s.lc.link = .up → s.lc.assembly = some bs →
    framePasses bs = true → u = { s with lc.assembly := none, lc.lossCount := 0 } → kind = (byteAt bs 0).toNat →
    n + 4 = bs.length →
    (kind = 0 ∨ 5 < kind ∨ (kind = 1 ∧ n ≠ 4) ∨ (kind = 3 ∧ n < 4) ∨ (kind = 4 ∧ n ≠ 133) ∨ (kind = 5 ∧ n < 2) →
      exec (.symbolGroup .endDelimiter) s = exec .badFrame u) ∧
    (kind = 2 → exec (.symbolGroup .endDelimiter) s = exec .idle u) ∧
    (∀ request m : Nat, kind = 5 → n = m + 2 → request = (byteAt bs 3).toNat →
      request = 0 ∨ 15 < request ∨ (request = 1 ∧ m ≠ 4) ∨ (request = 2 ∧ m < 3) ∨
          (∃ tb, request = 2 ∧ 3 ≤ m ∧ tableOfCode (byteAt bs 4) = some tb ∧ m ≠ 3 + tb.size) ∨ (request = 3 ∧ m ≠ 3) ∨
          (request = 4 ∧ m ≠ 1) ∨ (5 ≤ request ∧ request ≤ 7 ∧ m ≠ 0) ∨ (8 ≤ request ∧ request ≤ 9 ∧ m ≠ 4) ∨
          (10 ≤ request ∧ request ≤ 11 ∧ m ≠ 0) ∨ (request = 12 ∧ m ≠ 1) ∨ (request = 13 ∧ m < 2) ∨
          (request = 14 ∧ m ≠ 3) ∨ (request = 15 ∧ m ≠ 8) →
      exec (.symbolGroup .endDelimiter) s = exec (.badRequest (byteAt bs 2) (byteAt bs 3)) u))

/-- Expiry of the loss detector (R1, R6, R11): in ALIGNING and FRAMING the link goes DOWN and a frame in assembly is cut; in UP
it is a departure with cause LOSS_DETECTOR, which an ATTACHED attachment meets with a hold. With no transmission to
cut (DeparturesCutTheTransmission has the other case). Before the limit is reached nothing happens (log entry 3). THE
MODEL'S CHOICE: the expiry acts as soon as the count is at or above the limit, also before the next tick after a write
that lowers it (log entry 27), and the alignment and framing counts are kept on the way to DOWN from ALIGNING and
FRAMING (log entry 19). -/
def Obligations.LossDetectorExpiryTakesTheLinkDown : Prop :=
  ∀ s : State,
    (s.lc.link = .down ∨ s.lc.lossCount < s.settings.lossLimit * 16 → exec .lossDetectorExpiry s = .next s) ∧
    (s.settings.lossLimit * 16 ≤ s.lc.lossCount → s.lc.tx = none →
      (s.lc.link = .aligning ∨ s.lc.link = .framing → ∃ t, exec .lossDetectorExpiry s = .next t ∧
        endsAs { s with lc.link := .down, lc.lossCount := 0, lc.assembly := none }
          ((if s.lc.assembly.isSome then [.frameCut] else []) ++ [.linkDown]) t) ∧
      (s.lc.link = .up → s.lc.attachment ≠ .attached → ∃ t, exec .lossDetectorExpiry s = .next t ∧
        endsAs { s with
          lc.link := .down, lc.lossCount := 0, lc.assembly := none, lc.failureCount := 0, lc.framingCount := 0 }
          ((if s.lc.assembly.isSome then [.frameCut] else []) ++ [.linkDown]) t) ∧
      (s.lc.link = .up → s.lc.attachment = .attached → ∃ t, exec .lossDetectorExpiry s = .next t ∧
        endsAs { s with
          lc.link := .down, lc.lossCount := 0, lc.assembly := none, lc.failureCount := 0, lc.framingCount := 0
          lc.attachment := .held, lc.holdCause := some .lossDetector, lc.holdStart := some s.tick
          lc.holdTimer := some (s.settings.holdTime * 10000) }
          ((if s.lc.assembly.isSome then [.frameCut] else []) ++ [.holdStart, .linkDown]) t))

/-- A failing frame (R4, R5, R6, R11): in FRAMING the framing count is 0; in UP the failure count rises, and the fourth failure in
a row is a departure with cause FRAME_ERRORS, here with no transmission to cut (DeparturesCutTheTransmission has the other
case). In DOWN and ALIGNING no frame is closed (log entry 4). -/
def Obligations.FailingFramesLoseTheLink : Prop :=
  ∀ s : State,
    (s.lc.link = .down ∨ s.lc.link = .aligning → exec .checkFail s = .next s) ∧
    (s.lc.link = .framing → ∃ t, exec .checkFail s = .next t ∧ endsAs { s with lc.framingCount := 0 } [.checkFail] t) ∧
    (s.lc.link = .up → s.lc.failureCount + 1 < 4 → ∃ t, exec .checkFail s = .next t ∧
      endsAs { s with lc.failureCount := s.lc.failureCount + 1 } [.checkFail] t) ∧
    (s.lc.link = .up → 4 ≤ s.lc.failureCount + 1 → s.lc.tx = none → s.lc.attachment ≠ .attached →
      ∃ t, exec .checkFail s = .next t ∧
        endsAs { s with
          lc.link := .aligning, lc.alignCount := 0, lc.assembly := none, lc.failureCount := 0, lc.framingCount := 0 }
          ([.checkFail, .linkRealign] ++ if s.lc.assembly.isSome then [.frameCut] else []) t) ∧
    (s.lc.link = .up → 4 ≤ s.lc.failureCount + 1 → s.lc.tx = none → s.lc.attachment = .attached →
      ∃ t, exec .checkFail s = .next t ∧
        endsAs { s with
          lc.link := .aligning, lc.alignCount := 0, lc.assembly := none, lc.failureCount := 0, lc.framingCount := 0
          lc.attachment := .held, lc.holdCause := some .frameErrors, lc.holdStart := some s.tick
          lc.holdTimer := some (s.settings.holdTime * 10000) }
          ([.checkFail, .linkRealign, .holdStart] ++ if s.lc.assembly.isSome then [.frameCut] else []) t)

/-- A departure from UP with a transmission in progress (R6, R11, R19, R173): the frame is cut, so that the bytes sent so far, how
many being a free value (log entry 13), leave with their check inverted and an end delimiter; the item stays where it was;
TX_CUT is counted. The rest is as without a transmission: the link DOWN or ALIGNING, the counts 0, the frame in assembly
gone, an ATTACHED attachment HELD with the cause, the tick and the hold time, any other attachment as it was. THE
MODEL'S CHOICE (log entry 7): the renewed mark of a FAULT or REWIND item that is cut stays, that of GREET and of an event
kind is cleared. -/
def Obligations.DeparturesCutTheTransmission : Prop :=
  ∀ (c : Instr) (s : State) (x : Transmission), s.lc.link = .up → s.lc.tx = some x →
    (c = .lossDetectorExpiry ∧ s.settings.lossLimit * 16 ≤ s.lc.lossCount) ∨
      (c = .checkFail ∧ 4 ≤ s.lc.failureCount + 1) →
    ∃ t, exec c s = .next t ∧ t.lc.tx = none ∧ cutOnLane x.frame t.lc.laneOut ∧
      (t.lc.link = (if c = .checkFail then .aligning else .down) ∧
        t.lc.alignCount = (if c = .checkFail then 0 else s.lc.alignCount) ∧ t.lc.framingCount = 0 ∧
        t.lc.failureCount = 0 ∧ t.lc.lossCount = (if c = .checkFail then s.lc.lossCount else 0) ∧ t.lc.assembly = none) ∧
      (s.lc.attachment = .attached → t.lc.attachment = .held ∧
        t.lc.holdCause = some (if c = .checkFail then .frameErrors else .lossDetector) ∧ t.lc.holdStart = some s.tick ∧
        t.lc.holdTimer = some (s.settings.holdTime * 10000)) ∧
      (s.lc.attachment ≠ .attached → t.lc.attachment = s.lc.attachment ∧ t.lc.holdCause = s.lc.holdCause ∧
        t.lc.holdStart = s.lc.holdStart ∧ t.lc.holdTimer = s.lc.holdTimer) ∧
      (t.lc.attachNumber = s.lc.attachNumber ∧ t.lc.attachCounter = s.lc.attachCounter ∧
        t.lc.lastCause = s.lc.lastCause ∧ t.lc.lastDuration = s.lc.lastDuration) ∧
      (t.tick = s.tick ∧ t.msTimer = s.msTimer ∧ t.pending = s.pending) ∧
      t.lc.keys = s.lc.keys ∧ t.lc.replies = s.lc.replies ∧ t.lc.greet = s.lc.greet ∧
      t.lc.greetRenewed = (s.lc.greetRenewed && x.item != .greet) ∧
      (∀ k : EventKind, k ≠ .monitorSaturated → (eventSlot k t).pending = (eventSlot k s).pending ∧
        (eventSlot k t).detail = (eventSlot k s).detail ∧
        (eventSlot k t).renewed = ((eventSlot k s).renewed && x.item != .event k) ∧
        (eventSlot k t).renewal = (eventSlot k s).renewal) ∧
      t.sq = s.sq ∧ t.tf = s.tf ∧ t.lu = s.lu ∧ t.de = s.de ∧ t.tc = s.tc ∧ t.fs = s.fs ∧ t.pu = s.pu ∧ t.ks = s.ks ∧
      t.me.inProgress = s.me.inProgress ∧ t.settings = s.settings ∧ t.flash = s.flash ∧ t.mn.tracker = s.mn.tracker ∧
      countedAs
        ((if s.lc.attachment = .attached then [.holdStart] else []) ++ (if s.lc.assembly.isSome then [.frameCut] else []) ++
          .txCut :: (if c = .checkFail then [.checkFail, .linkRealign] else [.linkDown])) s t

/-- Passing frames outside UP, whatever their kind: in FRAMING they count toward framing and are dropped, and the fourth moves the
link to UP (R4); in DOWN and ALIGNING no frame is closed and nothing happens (log entry 4). -/
def Obligations.PassingFramesReachUp : Prop :=
  (∀ c : Instr, isFrame c = true ↔ c = .badFrame ∨ (∃ tag kind, c = .badRequest tag kind) ∨ (spelled c).isSome = true) ∧
  ∀ (c : Instr) (s : State), isFrame c = true →
    (s.lc.link = .down ∨ s.lc.link = .aligning → exec c s = .next s) ∧
    (s.lc.link = .framing → s.lc.framingCount + 1 < 4 → ∃ t, exec c s = .next t ∧
      endsAs { s with lc.framingCount := s.lc.framingCount + 1 } [] t) ∧
    (s.lc.link = .framing → 4 ≤ s.lc.framingCount + 1 → ∃ t, exec c s = .next t ∧
      endsAs { s with lc.link := .up, lc.framingCount := s.lc.framingCount + 1, lc.failureCount := 0 } [.linkUp] t)

/-! ## Dispatch and attachment (R8 to R16) -/

/-- In UP an IDLE frame resets the failure count and does nothing else (R5, R16); a BAD_FRAME does so too, is discarded and is
counted; so is a command whose arguments no payload of its kind can hold (section 11.2; log entry 4). A DRAW, TILE or MGMT
frame taken while the attachment is not ATTACHED is discarded and counted as NOT_ATTACHED (R16). -/
def Obligations.FramesWithoutAnEffect : Prop :=
  (∀ c : Instr, c.wf = false ↔
    (∃ stream seq commands, c = .draw stream seq commands ∧ (commands = [] ∨ 157 < commands.length)) ∨
    (∃ key sector data, c = .tile key sector data ∧ data.length ≠ 128) ∨
    (∃ tag table entry contents, c = .tableWrite tag table entry contents ∧ 155 < contents.length) ∨
    (∃ tag offset data, c = .storeWrite tag offset data ∧ 156 < data.length)) ∧
  (∀ s : State, s.lc.link = .up →
    (∃ t, exec .idle s = .next t ∧ endsAs (passed s) [] t) ∧
    (∃ t, exec .badFrame s = .next t ∧ endsAs (passed s) [.badFrame] t) ∧
    (∀ c : Instr, c.wf = false → ∃ t, exec c s = .next t ∧ endsAs (passed s) [.badFrame] t)) ∧
  (∀ (c : Instr) (s : State), s.lc.link = .up → s.lc.attachment ≠ .attached → c.wf = true →
    ((requestOf c).isSome = true ∨ (∃ stream seq commands, c = .draw stream seq commands) ∨
      ∃ key sector data, c = .tile key sector data) →
    ∃ t, exec c s = .next t ∧ endsAs (passed s) [.notAttached] t)

/-- R155, for every management request: with no reply slot free the frame is discarded; with one free and a request in progress
it is answered BUSY with its tag and kind, and nothing else of it is looked at. Its tag and kind are the first
two bytes of its payload. -/
def Obligations.RequestsThatAreNotTaken : Prop :=
  (∀ (c : Instr) (tag kind : Byte), requestOf c = some (tag, kind) ↔ c = .badRequest tag kind ∨
    ∃ bs, spelled c = some bs ∧ byteAt bs 0 = 5 ∧ byteAt bs 2 = tag ∧ byteAt bs 3 = kind) ∧
  ∀ (c : Instr) (tag kind : Byte) (s : State), requestOf c = some (tag, kind) → c.wf = true → s.lc.link = .up →
    s.lc.attachment = .attached →
    (4 ≤ s.lc.replies.length + (if s.me.inProgress.isSome then 1 else 0) → ∃ t, exec c s = .next t ∧
      endsAs (passed s) [.reqDiscarded] t) ∧
    (s.me.inProgress.isSome = true → s.lc.replies.length + 1 < 4 → ∃ t, exec c s = .next t ∧
      endsAs (replied tag kind .busy [] s) [.reqBusy] t)

/-- HELLO with a fresh attach (R9, the number issued as R8 gives), and HELLO from the tablet already attached (R10). -/
def Obligations.HelloAttachesOrRepeats : Prop :=
  ∀ (number : Word) (s : State), s.lc.link = .up →
    (s.lc.attachment = .unattached → number ≠ 0 → ∃ t, exec (.hello number) s = .next t ∧
      endsAs { passed s with
        lc.attachment := .attached, lc.attachNumber := number, lc.greet := some .newSession
        lc.greetRenewed := s.lc.greetRenewed || s.lc.tx.any fun x => x.item == .greet } [] t) ∧
    (s.lc.attachment = .unattached → number = 0 → ∃ t, exec (.hello number) s = .next t ∧
      endsAs { passed s with
        lc.attachment := .attached, lc.attachNumber := s.lc.attachCounter
        lc.attachCounter := if s.lc.attachCounter = 0xFFFFFFFF then 1 else s.lc.attachCounter + 1
        lc.greet := some .newSession
        lc.greetRenewed := s.lc.greetRenewed || s.lc.tx.any fun x => x.item == .greet } [] t) ∧
    (s.lc.attachment = .attached → number = s.lc.attachNumber → ∃ t, exec (.hello number) s = .next t ∧
      endsAs { passed s with lc.greet := if s.lc.greet.isSome then s.lc.greet else some .repeated } [] t)

/-- A reattach (R12): steps 1 to 7, and what waited through the hold is kept. The snapshot is queued as R151 gives. -/
def Obligations.HelloReattachesAHeldSession : Prop :=
  ∀ s : State, s.lc.link = .up → s.lc.attachment = .held → s.lc.tx = none →
    ∃ t, exec (.hello s.lc.attachNumber) s = .next t ∧
      t.lc.attachment = .attached ∧ t.lc.attachNumber = s.lc.attachNumber ∧ t.lc.holdTimer = none ∧
      t.lc.attachCounter = s.lc.attachCounter ∧ t.lc.lastCause = s.lc.holdCause ∧
      (∀ b, s.lc.holdStart = some b → t.lc.lastDuration = (s.tick - b) / 1000) ∧
      t.lc.greet = some .resumed ∧ t.lc.replies = s.lc.replies ∧
      t.lc.keys = (if s.lc.keys.length < 8 then s.lc.keys ++ [s.ks.report] else s.lc.keys.dropLast ++ [s.ks.report]) ∧
      (∀ i : Fin 8, streamOf i t =
        if isOpen i s = true then { streamOf i s with rewind := some .reattach } else streamOf i s) ∧
      (∀ side : Side, recordOf side t =
        if (recordOf side s).active = true then
          { recordOf side s with send := true, timer := some (s.settings.faultTimeout * 1000) }
        else recordOf side s) ∧
      (s.settings.enables.getLsbD 0 = true → (eventSlot .linkResumed t).pending = true ∧
        ∀ b cause, s.lc.holdStart = some b → s.lc.holdCause = some cause →
          (eventSlot .linkResumed t).detail =
            (if cause = .lossDetector then 1 else 2 : Byte) ++ BitVec.ofNat 16 ((s.tick - b) / 1000)) ∧
      (s.settings.enables.getLsbD 0 = false → (eventSlot .linkResumed t).pending = (eventSlot .linkResumed s).pending ∧
        (eventSlot .linkResumed t).detail = (eventSlot .linkResumed s).detail) ∧
      (∀ k : EventKind, k ≠ .linkResumed → k ≠ .monitorSaturated → (eventSlot k t).pending = (eventSlot k s).pending ∧
        (eventSlot k t).detail = (eventSlot k s).detail) ∧
      (∀ k : EventKind, k ≠ .monitorSaturated → (eventSlot k t).renewed = (eventSlot k s).renewed ∧
        (eventSlot k t).renewal = (eventSlot k s).renewal) ∧
      t.sq.queueA = s.sq.queueA ∧ t.sq.queueB = s.sq.queueB ∧ t.sq.quiesce = s.sq.quiesce ∧ t.lu = s.lu ∧ t.de = s.de ∧
      t.tc = s.tc ∧ t.fs = s.fs ∧ t.pu = s.pu ∧ t.ks = s.ks ∧ t.me.inProgress = s.me.inProgress ∧
      t.settings = s.settings ∧ t.flash = s.flash ∧ t.mn.tracker = s.mn.tracker ∧ t.lc.failureCount = 0 ∧
      t.lc.link = .up ∧ t.tick = s.tick ∧ t.pending = s.pending ∧
      countedAs ([.reattach, .reattachSnapshot] ++ (if s.lc.keys.length < 8 then [.reportQueued] else [.reportCoalesced]) ++
        (if s.tf.recA.active then [.represented] else []) ++ (if s.tf.recB.active then [.represented] else []) ++
        raiseCounts .linkResumed s) s t

/-- Teardown, by the expiry of the hold timer (R14) and by a HELLO that presents another number than the one held (R10, R13): the
session is gone from every block (R15, R37, R67, R90, R106, R157, R172). What teardown keeps is kept. A transmission in progress
is cut (R19). With a fill of the Layout Unit at the frame store, that fill stops where it is (R34, R37): each pixel holds
what it held or what the fill gives it, a pixel that the fill had written by then the latter (log entry 9), and the port reads on
(log entry 10). The GREET slot and the pending set are emptied with their details and marks (R17, R163); a HELLO then flags GREET
anew, and REGION_STALE is raised anew. The hold timer expires only when it has run down to 0 (log
entry 3). THE MODEL'S CHOICE: TEARDOWN_FILL is counted, and the fill's colour taken, when the fill is given the frame store (log
entry 12), and at a second teardown the fill waits behind every draw write that then waits (log entry 11). -/
def Obligations.TeardownEndsTheSession : Prop :=
  (∀ (c : Instr) (s : State),
    (c = .holdTimerExpiry ∧ s.lc.holdTimer = some 0) ∨
      (∃ n, c = .hello n ∧ s.lc.link = .up ∧ s.lc.attachment ≠ .unattached ∧ n ≠ s.lc.attachNumber) →
    ∃ t, exec c s = .next t ∧
      (c = .holdTimerExpiry → t.lc.attachment = .unattached ∧ t.lc.tx = none ∧ t.lc.attachNumber = 0 ∧ t.lc.greet = none ∧
        t.lc.attachCounter = s.lc.attachCounter ∧ t.lc.failureCount = s.lc.failureCount) ∧
      (∀ n, c = .hello n → t.lc.attachment = .attached ∧ t.lc.greet = some .newSession ∧ t.lc.failureCount = 0 ∧
        (n ≠ 0 → t.lc.attachNumber = n ∧ t.lc.attachCounter = s.lc.attachCounter) ∧
        (n = 0 → t.lc.attachNumber = s.lc.attachCounter ∧
          t.lc.attachCounter = if s.lc.attachCounter = 0xFFFFFFFF then 1 else s.lc.attachCounter + 1)) ∧
      t.lc.holdTimer = none ∧ t.lc.holdCause = none ∧ t.lc.holdStart = none ∧ t.lc.keys = [] ∧ t.lc.replies = [] ∧
      t.lc.greetRenewed = false ∧ t.lc.link = s.lc.link ∧ t.lc.alignCount = s.lc.alignCount ∧ t.lc.framingCount = s.lc.framingCount ∧
      t.lc.assembly = s.lc.assembly ∧ t.lc.lossCount = s.lc.lossCount ∧ t.lc.lastCause = s.lc.lastCause ∧
      t.lc.lastDuration = s.lc.lastDuration ∧
      (∀ i : Fin 8, streamOf i t = ⟨.closed, none, (streamOf i s).expected, none, false, none⟩) ∧
      t.sq.queueA = [] ∧ t.sq.queueB = [] ∧ t.sq.quiesce = .running ∧
      (∀ side : Side, engineOf side t = (engineOf side s).map fun r => { r with removed := true }) ∧
      (∀ n : Fin 64, ∀ w : Fin 4, t.tc.dir[n][w] = ⟨false, 0, 0, w.val, false, false, 0⟩) ∧ t.tc.sweep = 64 ∧ t.tc.store = s.tc.store ∧
      t.tf = ⟨⟨false, 0, 0, 0, 0, none, false, false⟩, ⟨false, 0, 0, 0, 0, none, false, false⟩⟩ ∧
      t.lu.headerChanged = true ∧
      (∀ i : Fin 8, regionOf i t = { regionOf i s with changed := true, stale := true }) ∧ t.lu.apply = none ∧
      (t.lu.width = s.lu.width ∧ t.lu.height = s.lu.height ∧ t.lu.border = s.lu.border ∧ t.lu.undocked = s.lu.undocked ∧
        t.lu.imageUsed = s.lu.imageUsed) ∧
      t.lu.fillColour = (if t.fs.holder = some .teardownFill then some s.lu.undocked else none) ∧
      ((s.fs.holder.any Writer.isLayout) = false → t.fs.image = s.fs.image ∧ t.pu = s.pu ∧ t.free = s.free +
        if s.lc.tx.isSome then 1 else 0) ∧
      (∀ a : Nat, a < panelPixels s → imageRead t.fs.image a = imageRead s.fs.image a ∨
        imageRead t.fs.image a = imageRead (writtenImage s) a) ∧
      (s.fs.holder.any Writer.isLayout = true → ∀ a : Nat, a < panelPixels s → isWritten s a = true →
        imageRead t.fs.image a = imageRead (writtenImage s) a) ∧
      (s.fs.holder.any Writer.isLayout = true → readOn t.fs.image s t) ∧ t.pu = { s.pu with port := t.pu.port } ∧
      (t.fs.holder = some .teardownFill ∨ .teardownFill ∈ t.fs.waiting) ∧
      (∀ side : Side, s.fs.holder = some (.engine side) → t.fs.holder = some (.engine side) ∧
        t.fs.waiting = (s.fs.waiting.filter fun w => !w.isLayout) ++ [.teardownFill]) ∧
      (∀ x, s.lc.tx = some x → cutOnLane x.frame t.lc.laneOut) ∧
      eventSlot .regionStale t = (if s.settings.enables.getLsbD 1 = true then ⟨true, 0xFF, false, 0⟩ else ⟨false, 0, false, 0⟩) ∧
      (∀ k : EventKind, k ≠ .regionStale → k ≠ .monitorSaturated → eventSlot k t = ⟨false, 0, false, 0⟩) ∧
      (∀ r, s.me.inProgress = some r →
        ((∃ page, r.op = .erase page) ∨ (∃ offset data, r.op = .program offset data) →
          t.me.inProgress = some { r with silent := true }) ∧
        (r.op = .quiesce ∨ r.op = .resume ∨ r.op = .tileFlush → t.me.inProgress = none)) ∧
      (s.me.inProgress = none → t.me.inProgress = none) ∧
      t.mn.tracker.armed = none ∧
      t.mn.tracker.lost = (if s.mn.tracker.armed.isSome then min (s.mn.tracker.lost + 1) 4294967295 else s.mn.tracker.lost) ∧
      t.mn.tracker.last = s.mn.tracker.last ∧ t.mn.tracker.max = s.mn.tracker.max ∧
      t.mn.tracker.completed = s.mn.tracker.completed ∧
      t.ks = s.ks ∧ t.settings = s.settings ∧ t.flash = s.flash ∧ t.tick = s.tick ∧ t.msTimer = s.msTimer ∧
      t.pending = s.pending ∧
      countedAs ([.teardown] ++ (if s.lc.tx.isSome then [.txCut] else []) ++
        (if t.fs.holder = some .teardownFill then [.teardownFill] else []) ++ raiseCounts .regionStale s) s t) ∧
  (∀ s : State, s.lc.holdTimer ≠ some 0 → exec .holdTimerExpiry s = .next s)

/-! ## The upstream lane (R17 to R19) -/

/-- TRANSMISSION_COMPLETE (R19): the frame has left whole, between a start and an end delimiter, and its item is removed, or kept
when it was renewed after the transmission had started; an item of another class is untouched. A pending kind of event stays,
when renewed, with the detail its renewal gives, and EVENT_SENT is counted (R163). With none in progress nothing happens (log
entry 3). Between frames the lane carries filler and nothing else, in every link state (R173). -/
def Obligations.TransmissionCompleteRemovesItsItem : Prop :=
  (∀ s : State,
    (s.lc.tx = none → exec .transmissionComplete s = .next s) ∧
    (∀ f, s.lc.tx = some ⟨.greet, f⟩ → ∃ t, exec .transmissionComplete s = .next t ∧
      endsAs { s with
        lc.tx := none, lc.laneOut := wholeOnLane f, lc.greetRenewed := false
        lc.greet := if s.lc.greetRenewed then s.lc.greet else none } [] t) ∧
    (∀ f, s.lc.tx = some ⟨.keys, f⟩ → ∃ t, exec .transmissionComplete s = .next t ∧
      endsAs { s with lc.tx := none, lc.laneOut := wholeOnLane f, lc.keys := s.lc.keys.tail } [] t) ∧
    (∀ f side, s.lc.tx = some ⟨.fault side, f⟩ → ∃ t, exec .transmissionComplete s = .next t ∧
      endsAs (setRecord side { recordOf side s with
        renewed := false, send := (recordOf side s).renewed && (recordOf side s).send }
        { s with lc.tx := none, lc.laneOut := wholeOnLane f }) [] t) ∧
    (∀ f i, s.lc.tx = some ⟨.rewind i, f⟩ → ∃ t, exec .transmissionComplete s = .next t ∧
      endsAs (setStream i { streamOf i s with
        renewed := false, rewind := if (streamOf i s).renewed then (streamOf i s).rewind else none }
        { s with lc.tx := none, lc.laneOut := wholeOnLane f }) [] t) ∧
    (∀ f, s.lc.tx = some ⟨.reply, f⟩ → ∃ t, exec .transmissionComplete s = .next t ∧
      endsAs { s with lc.tx := none, lc.laneOut := wholeOnLane f, lc.replies := s.lc.replies.tail } [] t)) ∧
  (∀ (s : State) (k : EventKind) (f : List Byte), s.lc.tx = some ⟨.event k, f⟩ →
    (k = .monitorSaturated → ∀ n : Fin 4, s.mn.counters[n].selects .eventSent = false) →
    ∃ t, exec .transmissionComplete s = .next t ∧ t.lc.laneOut = wholeOnLane f ∧
      (eventSlot k t).pending = ((eventSlot k s).renewed && (eventSlot k s).pending) ∧
      (eventSlot k t).renewed = false ∧
      ((eventSlot k s).renewed = true → (eventSlot k t).detail =
        if k = .regionStale ∨ k = .monitorSaturated then (eventSlot k s).renewal else (eventSlot k s).detail) ∧
      ((eventSlot k s).renewed = false → (eventSlot k t).detail = 0) ∧
      (∀ j : EventKind, j ≠ k → j ≠ .monitorSaturated → (eventSlot j t).pending = (eventSlot j s).pending ∧
        (eventSlot j t).detail = (eventSlot j s).detail ∧ (eventSlot j t).renewed = (eventSlot j s).renewed) ∧
      (∀ j : EventKind, j = k ∨ j ≠ .monitorSaturated → (eventSlot j t).renewal =
        if (t.lc.tx.any fun x => x.item == .event j) = true then 0 else (eventSlot j s).renewal) ∧
      countedAs [.eventSent] s t ∧ t.me.inProgress = s.me.inProgress ∧ t.mn.tracker = s.mn.tracker ∧
      { t with lc.tx := s.lc.tx, lc.laneOut := s.lc.laneOut, me.events := s.me.events, mn := s.mn } = s) ∧
  (∀ (s : State) (g : SymbolGroup), s.lc.tx = none → (laneCarries s g = true ↔ g = .filler))

/-- R17, R18, R20: whenever a command ends with a transmission in progress that it did not find, one that a HELLO of another tablet
(R15) or a DOCK_RESET (R20) starts after cutting another among them, the link is UP, the attachment ATTACHED, and the
transmission is of the first class with something waiting: GREET, KEYS, FAULT of side A, of side B, REWIND of the lowest
flagged stream, REPLY, EVENT of the lowest pending kind. Its frame is the item's kind, the payload's length, the payload with
what the item then holds, and the check (sections 11.1, 11.5, 11.9): of GREET the outcome, the attach number and the part identity;
of KEYS the oldest report, its codes filled up with 0; of FAULT side, key, needed and tries; of REWIND stream, expected (R59) and
reason; of REPLY the oldest reply with its status code; of EVENT the kind's number and its detail, low byte first. And the check
itself (R173): from 65535, each byte is exclusive-ORed into the upper 8 bits, then eight shifts. THE MODEL'S CHOICE (log entry 6): the selection is made at the end of the event, from what then waits. -/
def Obligations.TheArbiterServesTheFirstClass : Prop :=
  (∀ (c : Instr) (s t : State) (x : Transmission) (b : Nat → Byte), (∀ k : Nat, b k = BitVec.ofNat 8 k) →
    exec c s = .next t → t.lc.tx = some x →
    s.lc.tx ≠ some x ∨ c = .transmissionComplete ∨
        (∃ n, c = .hello n ∧ s.lc.link = .up ∧ s.lc.attachment ≠ .unattached ∧ n ≠ s.lc.attachNumber) ∨
        (∃ tag, c = .dockReset tag ∧ takesRequest s ∧ ∀ y, s.lc.tx = some y → y.item ≠ .greet) →
    t.lc.link = .up ∧ t.lc.attachment = .attached ∧
      (∃ (kind : Byte) (payload : List Byte), x.frame = (kind :: b payload.length :: payload) ++
          le16 (frameCheck (kind :: b payload.length :: payload)) ∧
        (x.item = .greet → kind = 0x11 ∧ ∀ o, t.lc.greet = some o → payload =
          (if o = .newSession then 1 else if o = .resumed then 2 else 3) :: le32 t.lc.attachNumber ++ le16 0x0A47 ++
            le16 4120 ++ [1, b t.lu.width, b t.lu.height, if t.lu.imageUsed = true then 1 else 0]) ∧
        (x.item = .keys → kind = 0x12 ∧ ∀ r rest, t.lc.keys = r :: rest → payload =
          [r.mods, if r.overflow = true then 1 else 0, b r.codes.length] ++ r.codes ++
            List.replicate (8 - r.codes.length) 0) ∧
        (∀ (side : Side) (r : FaultRecord), x.item = .fault side → r = recordOf side t → kind = 0x13 ∧ payload =
          (if side = .a then 0 else 1) :: le32 r.key ++ [r.needed.setWidth 8, b r.tries]) ∧
        (∀ (i : Fin 8) (r : Stream), x.item = .rewind i → r = streamOf i t → kind = 0x14 ∧ payload =
          b i.val :: le16 r.expected ++
            [if r.rewind = some .gap then 1 else if r.rewind = some .shed then 2
             else if r.rewind = some .quiesceEnd then 3 else 4]) ∧
        (x.item = .reply → kind = 0x15 ∧ ∀ r rest, t.lc.replies = r :: rest → ∃ n : Fin 15,
          [Status.ok, .busy, .badRequest, .badTable, .badIndex, .badValue, .readOnly, .notQuiesced, .streamIsOpen,
            .streamClosed, .regionDisabled, .overlap, .notPresent, .pinLimit, .storeMismatch][n.val]? = some r.status ∧
          payload = [r.tag, r.kind, b n.val] ++ r.data) ∧
        (∀ (k : EventKind) (d : BitVec 24), x.item = .event k → d = (eventSlot k t).detail → kind = 0x16 ∧ ∃ n : Fin 6,
          [EventKind.linkResumed, .regionStale, .backlight, .panelHalted, .monitorSaturated, .storeDefaulted][n.val]? = some k ∧
          payload = [b n.val, d.setWidth 8, (d >>> 8).setWidth 8, (d >>> 16).setWidth 8])) ∧
      (t.lc.greet.isSome = true → x.item = .greet) ∧
      (t.lc.greet = none → t.lc.keys ≠ [] → x.item = .keys) ∧
      (t.lc.greet = none → t.lc.keys = [] →
        (t.tf.recA.send = true → x.item = .fault .a) ∧
        (t.tf.recA.send = false → t.tf.recB.send = true → x.item = .fault .b) ∧
        (t.tf.recA.send = false → t.tf.recB.send = false →
          (∀ i : Fin 8, (streamOf i t).rewind.isSome = true → (∀ j : Fin 8, j < i → (streamOf j t).rewind = none) →
            x.item = .rewind i) ∧
          ((∀ i : Fin 8, (streamOf i t).rewind = none) →
            (t.lc.replies ≠ [] → x.item = .reply) ∧
            (t.lc.replies = [] → ∃ k, x.item = .event k ∧ (eventSlot k t).pending = true ∧
              ∀ j : EventKind, j.number < k.number → (eventSlot j t).pending = false))))) ∧
  frameCheck [] = 0xFFFF ∧
  ∀ (bs : List Byte) (b : Byte), frameCheck (bs ++ [b]) = (List.range 8).foldl
    (fun (r : Half) _ => if r.getLsbD 15 = true then (r <<< 1) ^^^ 0x1021 else r <<< 1) (frameCheck bs ^^^ (b.setWidth 16 <<< 8))

/-! ## DRAW frames and the side queues (chapter 3) -/

/-- DRAW frames that are not in order (R50, R51, R52, R54, R55): each is discarded and counted, and only a frame ahead of expected
on a stream with no rewind flagged changes anything, by flagging GAP. -/
def Obligations.DrawFramesOutOfPlace : Prop :=
  ∀ (stream : Byte) (seq : Half) (commands : List Byte) (s : State),
    s.lc.link = .up → s.lc.attachment = .attached → 1 ≤ commands.length → commands.length ≤ 157 →
    (8 ≤ stream.toNat ∨ parseDraw commands = none → ∃ t, exec (.draw stream seq commands) s = .next t ∧
      endsAs (passed s) [.malformed] t) ∧
    (∀ (i : Fin 8) (cs : List DrawCommand), stream.toNat = i.val → parseDraw commands = some cs →
      (isOpen i s = false → ∃ t, exec (.draw stream seq commands) s = .next t ∧ endsAs (passed s) [.closedStream] t) ∧
      (isOpen i s = true → (streamOf i s).side.isSome = true → s.sq.quiesce ≠ .running →
        ∃ t, exec (.draw stream seq commands) s = .next t ∧ endsAs (passed s) [.heldOff] t) ∧
      (isOpen i s = true → (streamOf i s).side.isSome = true → s.sq.quiesce = .running →
        (0 < (seq - (streamOf i s).expected).toNat → (seq - (streamOf i s).expected).toNat < 32768 →
          (streamOf i s).rewind = none → ∃ t, exec (.draw stream seq commands) s = .next t ∧
            endsAs (setStream i { streamOf i s with
              rewind := some .gap
              renewed := (streamOf i s).renewed || s.lc.tx.any fun x => x.item == .rewind i } (passed s)) [.gap] t) ∧
        (0 < (seq - (streamOf i s).expected).toNat → (seq - (streamOf i s).expected).toNat < 32768 →
          (streamOf i s).rewind ≠ none → ∃ t, exec (.draw stream seq commands) s = .next t ∧
            endsAs (passed s) [.gap] t) ∧
        (32768 ≤ (seq - (streamOf i s).expected).toNat → ∃ t, exec (.draw stream seq commands) s = .next t ∧
          endsAs (passed s) [.duplicate] t)))

/-- An in-order DRAW frame that has room (R46, R53): its commands join the tail of the side queue, expected advances, a GAP or SHED
flag is cleared. Where the sequencer then has no choice to make nothing follows; else the handovers of R47 do, which leave every
expected number and the rest of the machine alone. And the
commands that a payload spells (section 11.4): one to eight, one after another, filling it exactly. -/
def Obligations.DrawFramesInOrderAreTaken : Prop :=
  (∀ (bs : List Byte) (cs : List DrawCommand), parseDraw bs = some cs ↔ 1 ≤ cs.length ∧ cs.length ≤ 8 ∧
    ∃ parts : List (List Byte), parts.flatten = bs ∧ parts.length = cs.length ∧
      ∀ (k : Nat) (c : DrawCommand) (part : List Byte), cs[k]? = some c → parts[k]? = some part → spellsDraw c part) ∧
  ∀ (stream : Byte) (seq : Half) (commands : List Byte) (s : State) (i : Fin 8) (cs : List DrawCommand) (side : Side),
    s.lc.link = .up → s.lc.attachment = .attached → 1 ≤ commands.length → commands.length ≤ 157 →
    stream.toNat = i.val → parseDraw commands = some cs → isOpen i s = true → (streamOf i s).side = some side →
    s.sq.quiesce = .running → seq = (streamOf i s).expected → (queueOf side s).length + cs.length ≤ 24 →
    (∀ u : State,
      u = setStream i { streamOf i s with
          expected := seq + 1
          rewind := if (streamOf i s).rewind = some .gap ∨ (streamOf i s).rewind = some .shed then none
            else (streamOf i s).rewind
          renewed := if (streamOf i s).rewind = some .gap ∨ (streamOf i s).rewind = some .shed then false
            else (streamOf i s).renewed }
          (setQueue side (queueOf side s ++ cs.zipIdx.map fun c => ⟨i, seq, c.2, c.1, false⟩) (passed s)) →
      settled u → ∃ t, exec (.draw stream seq commands) s = .next t ∧ endsAs u [.accepted] t) ∧
    (∃ t, exec (.draw stream seq commands) s = .next t ∧ drawingOnly (passed s) t ∧
      (streamOf i t).expected = seq + 1 ∧
      (∀ j : Fin 8, j ≠ i → (streamOf j t).expected = (streamOf j s).expected ∧
        (streamOf j t).rewind = (streamOf j s).rewind) ∧
      (∀ j : Fin 8, (streamOf j t).side = (streamOf j s).side ∧ isOpen j t = isOpen j s) ∧
      t.sq.quiesce = .running ∧ t.fs.image = s.fs.image ∧ t.pu = s.pu ∧ t.lc.replies = s.lc.replies ∧
      t.me.inProgress = s.me.inProgress)

/-- The shed rule (R56, R57), for an in-order frame without room; whole where a frame that is then taken leaves the sequencer no
choice to make. A candidate is a stream of the side in a wait state that has more entries in the queue than the shed threshold,
one of them of another frame, so a younger one, than its oldest entry. The victim is the candidate with the most entries, the
lowest number among equals; it keeps the frame of its oldest entry; the frame that arrived is then taken, or discarded with NO_ROOM. -/
def Obligations.AFrameWithoutRoomSheds : Prop :=
  ∀ (stream : Byte) (seq : Half) (commands : List Byte) (s : State) (i : Fin 8) (cs : List DrawCommand) (side : Side),
    s.lc.link = .up → s.lc.attachment = .attached → 1 ≤ commands.length → commands.length ≤ 157 →
    stream.toNat = i.val → parseDraw commands = some cs → isOpen i s = true → (streamOf i s).side = some side →
    s.sq.quiesce = .running → seq = (streamOf i s).expected → 24 < (queueOf side s).length + cs.length →
    ∀ (held : Fin 8 → Nat) (cand : Fin 8 → Bool),
    (∀ j : Fin 8, held j = ((queueOf side s).filter fun e => e.stream == j).length) →
    (∀ j : Fin 8, cand j = true ↔
      (streamOf j s).side = some side ∧
      ((streamOf j s).state = .waitTile ∨ (streamOf j s).state = .waitSlot ∨ (streamOf j s).state = .waitWay) ∧
      s.settings.shedThreshold < held j ∧
      ∃ old, ((queueOf side s).find? fun e => e.stream == j) = some old ∧
        ∃ e ∈ queueOf side s, e.stream = j ∧ e.seq ≠ old.seq) →
    ((∀ j : Fin 8, cand j = false) → ∃ t, exec (.draw stream seq commands) s = .next t ∧
      endsAs (setStream i { streamOf i s with
        rewind := some .gap
        renewed := (streamOf i s).renewed || s.lc.tx.any fun x => x.item == .rewind i } (passed s)) [.shedNone, .noRoom] t) ∧
    (∀ v : Fin 8, cand v = true →
      (∀ j : Fin 8, cand j = true → held j < held v ∨ (held j = held v ∧ v ≤ j)) →
      ∀ (old : Entry) (kept gone : List Entry), ((queueOf side s).find? fun e => e.stream == v) = some old →
        kept = (queueOf side s).filter (fun e => e.stream != v || e.seq == old.seq) →
        gone = (queueOf side s).filter (fun e => e.stream == v && e.seq != old.seq) →
      (v ≠ i → kept.length + cs.length ≤ 24 →
        nothingToHand (setQueue side (kept ++ cs.zipIdx.map fun c => ⟨i, seq, c.2, c.1, false⟩) s)) →
      ∃ t, exec (.draw stream seq commands) s = .next t ∧ drawingOnly (passed s) t ∧
        (streamOf v t).rewind = some .shed ∧ (streamOf v t).state = (streamOf v s).state ∧
        gone.head?.map Entry.seq = some (streamOf v t).expected ∧
        (v = i ∨ 24 < kept.length + cs.length → queueOf side t = kept ∧
          (v ≠ i → (streamOf i t).rewind = some .gap ∧ (streamOf i t).expected = seq) ∧
          countedAs ([.shedRun, .noRoom] ++ List.replicate gone.length .commandsShed) s t) ∧
        (v ≠ i → kept.length + cs.length ≤ 24 →
          queueOf side t = kept ++ (cs.zipIdx.map fun c => ⟨i, seq, c.2, c.1, false⟩) ∧ (streamOf i t).expected = seq + 1 ∧
          countedAs ([.shedRun, .accepted] ++ List.replicate gone.length .commandsShed) s t) ∧
        queueOf (otherSide side) t = queueOf (otherSide side) s ∧
        (∀ j : Fin 8, j ≠ v → j ≠ i → streamOf j t = streamOf j s) ∧ t.de = s.de ∧ t.tc = s.tc ∧ t.tf = s.tf ∧ t.fs = s.fs ∧
        t.pu = s.pu ∧ t.me.inProgress = s.me.inProgress ∧ t.lc.replies = s.lc.replies)

/-! ## Handover and drawing (chapters 3 to 6) -/

/-- A draw command in a DRAW frame whose stream is READY and whose engine is FREE is handed over at once (R47, R108 to R111, R113,
R114). First a FILL that finds the side queues empty: with a clip rectangle in the region the engine takes it, with the
region's geometry as it stands, and takes the frame store or waits for it; with none it is clipped away. Then, behind
whatever entries of streams that wait: a SCROLL takes its whole region, and one by nothing is clipped away; a PLACE of key 0
or with no clip rectangle completes at once, and no lookup is made. THE MODEL'S CHOICE: began is the model's own note of the
moment at which a writer is given the frame store (log entry 9). -/
def Obligations.AFillIsHandedOver : Prop :=
  (∀ (stream : Byte) (seq : Half) (commands : List Byte) (s : State) (i : Fin 8) (side : Side) (c : Half) (x y : Int)
    (w h : Nat) (cx0 cx1 cy0 cy1 : Int),
    s.lc.link = .up → s.lc.attachment = .attached → 1 ≤ commands.length → commands.length ≤ 157 →
    stream.toNat = i.val → parseDraw commands = some [.fill c x y w h] → (streamOf i s).state = .ready →
    (streamOf i s).side = some side → (streamOf i s).rewind = none → s.sq.quiesce = .running →
    seq = (streamOf i s).expected → s.sq.queueA = [] → s.sq.queueB = [] → engineOf side s = none →
    cx0 = max x 0 → cx1 = min (x + w - 1) ((regionOf i s).rw.toNat - 1) →
    cy0 = max y 0 → cy1 = min (y + h - 1) ((regionOf i s).rh.toNat - 1) →
    (cx0 ≤ cx1 ∧ cy0 ≤ cy1 → (s.fs.holder = none → s.fs.waiting = []) → ∃ t, exec (.draw stream seq commands) s = .next t ∧
      endsAs
        { setEngine side (some
            { stream := i, seq := seq, pos := 0, command := .fill c x y w h
              ox := (regionOf i s).ox.toNat, oy := (regionOf i s).oy.toNat, rw := (regionOf i s).rw.toNat
              rh := (regionOf i s).rh.toNat, background := (regionOf i s).background
              cx0 := cx0, cx1 := cx1, cy0 := cy0, cy1 := cy1, firstSector := 0, tile := [], removed := false })
            (setQueue side [⟨i, seq, 0, .fill c x y w h, true⟩]
              (setStream i { streamOf i s with expected := seq + 1 } (passed s))) with
          fs.holder := if s.fs.holder = none then some (.engine side) else s.fs.holder
          fs.began := if s.fs.holder = none then s.free else s.fs.began
          fs.waiting := if s.fs.holder = none then [] else s.fs.waiting ++ [.engine side] } [.accepted] t) ∧
    (cx1 < cx0 ∨ cy1 < cy0 → ∃ t, exec (.draw stream seq commands) s = .next t ∧
      endsAs (setStream i { streamOf i s with expected := seq + 1 } (passed s)) [.accepted, .clipped] t)) ∧
  (∀ (stream : Byte) (seq : Half) (commands : List Byte) (s u : State) (i : Fin 8) (side : Side) (cmd : DrawCommand),
    s.lc.link = .up → s.lc.attachment = .attached → 1 ≤ commands.length → commands.length ≤ 157 →
    stream.toNat = i.val → parseDraw commands = some [cmd] → (streamOf i s).state = .ready →
    (streamOf i s).side = some side → (streamOf i s).rewind = none → (streamOf i s).reservation = none →
    s.sq.quiesce = .running → seq = (streamOf i s).expected → nothingToHand s → (queueOf side s).length < 24 →
    engineOf side s = none → u = setStream i { streamOf i s with expected := seq + 1 } (passed s) →
    (∀ dx dy : Int, cmd = .scroll dx dy →
      (dx = 0 ∧ dy = 0 → ∃ t, exec (.draw stream seq commands) s = .next t ∧ endsAs u [.accepted, .clipped] t) ∧
      (dx ≠ 0 ∨ dy ≠ 0 → (s.fs.holder = none → s.fs.waiting = []) → ∃ t, exec (.draw stream seq commands) s = .next t ∧
        endsAs
          { setEngine side (some
              { stream := i, seq := seq, pos := 0, command := cmd
                ox := (regionOf i s).ox.toNat, oy := (regionOf i s).oy.toNat, rw := (regionOf i s).rw.toNat
                rh := (regionOf i s).rh.toNat, background := (regionOf i s).background
                cx0 := 0, cx1 := (regionOf i s).rw.toNat - 1, cy0 := 0, cy1 := (regionOf i s).rh.toNat - 1
                firstSector := 0, tile := [], removed := false })
              (setQueue side (queueOf side s ++ [⟨i, seq, 0, cmd, true⟩]) u) with
            fs.holder := if s.fs.holder = none then some (.engine side) else s.fs.holder
            fs.began := if s.fs.holder = none then s.free else s.fs.began
            fs.waiting := if s.fs.holder = none then [] else s.fs.waiting ++ [.engine side] } [.accepted] t)) ∧
    (∀ (key : Word) (x y cx1 cy1 : Int) (keyColour : Option Half), cmd = .place key x y keyColour →
      cx1 = min (x + 15) ((regionOf i s).rw.toNat - 1) → cy1 = min (y + 15) ((regionOf i s).rh.toNat - 1) →
      (key = 0 → ∃ t, exec (.draw stream seq commands) s = .next t ∧ endsAs u [.accepted, .keyZero] t) ∧
      (key ≠ 0 → cx1 < max x 0 ∨ cy1 < max y 0 → ∃ t, exec (.draw stream seq commands) s = .next t ∧
        endsAs u [.accepted, .clipped] t)))

/-- The same for a PLACE with a clip rectangle in its region (R109, R112, R113): the needed sectors are those of the visible tile
rows. With the side queues empty: with every one of them valid in the directory the lookup hits, the entry becomes most recent
and the engine takes the tile contents; with the key absent, no fault on it, the side's record IDLE and an invalid way in
its set, the fault is raised. Then every miss, behind whatever entries of streams that wait (R73, R94 to R96): the stream
joins the fault on its key and widens it by the sectors it lacks; else, with the side's record ACTIVE, it waits for that;
else a fault is raised, on the entry that is there, or on the way that allocation takes; with none to take it waits for a
way. Last an EXECUTION_END that hands over a PLACE whose stream holds a reservation (R82): at the hit the reservation is
given back, and with the last one on the entry every WAIT_WAY stream is READY. -/
def Obligations.APlaceIsLookedUp : Prop :=
  (∀ (key : Word) (s : State) (side : Side), faultOn key s = some side ↔
    (recordOf side s).active = true ∧ (recordOf side s).key = key ∧
      (side = .b → ¬ (s.tf.recA.active = true ∧ s.tf.recA.key = key))) ∧
  (∀ (stream : Byte) (seq : Half) (commands : List Byte) (s : State) (i : Fin 8) (side : Side) (key : Word) (x y : Int)
    (keyColour : Option Half) (cx0 cx1 cy0 cy1 : Int) (n : Fin 64) (lo hi : Nat),
    s.lc.link = .up → s.lc.attachment = .attached → 1 ≤ commands.length → commands.length ≤ 157 →
    stream.toNat = i.val → parseDraw commands = some [.place key x y keyColour] → (streamOf i s).state = .ready →
    (streamOf i s).side = some side → (streamOf i s).rewind = none → (streamOf i s).reservation = none →
    s.sq.quiesce = .running → seq = (streamOf i s).expected → s.sq.queueA = [] → s.sq.queueB = [] →
    engineOf side s = none → key ≠ 0 → n.val = key.toNat % 64 →
    cx0 = max x 0 → cx1 = min (x + 15) ((regionOf i s).rw.toNat - 1) →
    cy0 = max y 0 → cy1 = min (y + 15) ((regionOf i s).rh.toNat - 1) → cx0 ≤ cx1 → cy0 ≤ cy1 →
    (lo : Int) = (cy0 - y) / 4 → (hi : Int) = (cy1 - y) / 4 →
    (∀ w : Fin 4, s.tc.dir[n][w].valid = true → s.tc.dir[n][w].key = key → (s.fs.holder = none → s.fs.waiting = []) →
      (∀ v : Fin 4, v < w → s.tc.dir[n][v].valid = true → s.tc.dir[n][v].key ≠ key) →
      (∀ k : Nat, lo ≤ k → k ≤ hi → s.tc.dir[n][w].sectors.getLsbD k = true) → ∃ t, exec (.draw stream seq commands) s = .next t ∧
        drawingOnly (passed s) t ∧
        (∃ r, engineOf side t = some r ∧ r.stream = i ∧ r.command = .place key x y keyColour ∧
          r.cx0 = cx0 ∧ r.cx1 = cx1 ∧ r.cy0 = cy0 ∧ r.cy1 = cy1 ∧ r.firstSector = lo ∧ r.removed = false ∧
          (∀ p : Nat, p < (hi + 1 - lo) * 64 → r.tile[p]? =
            some (half (cellRead 0 s.tc.store ((n.val * 4 + w.val) * 512 + lo * 128 + 2 * p))
              (cellRead 0 s.tc.store ((n.val * 4 + w.val) * 512 + lo * 128 + 2 * p + 1))))) ∧
        (∀ v : Fin 4, t.tc.dir[n][v] =
          if v = w then { s.tc.dir[n][v] with age := 0 }
          else if s.tc.dir[n][v].age < s.tc.dir[n][w].age then { s.tc.dir[n][v] with age := s.tc.dir[n][v].age + 1 }
          else s.tc.dir[n][v]) ∧
        (∀ m : Fin 64, m ≠ n → t.tc.dir[m] = s.tc.dir[m]) ∧
        streamOf i t = { streamOf i s with expected := seq + 1 } ∧ t.tf = s.tf ∧ countedAs [.accepted, .hit] s t) ∧
    ((∀ w : Fin 4, s.tc.dir[n][w].valid = true → s.tc.dir[n][w].key ≠ key) →
      (s.tf.recA.active = true → s.tf.recA.key ≠ key) → (s.tf.recB.active = true → s.tf.recB.key ≠ key) →
      (recordOf side s).active = false →
      ∀ w : Fin 4, s.tc.dir[n][w].valid = false → (∀ v : Fin 4, v < w → s.tc.dir[n][v].valid = true) →
        ∃ t, exec (.draw stream seq commands) s = .next t ∧ drawingOnly (passed s) t ∧
          (∃ m : BitVec 4, (∀ k : Nat, k < 4 → m.getLsbD k = decide (lo ≤ k ∧ k ≤ hi)) ∧
            recordOf side t =
              { active := true, key := key, needed := m, waiting := BitVec.ofNat 8 (2 ^ i.val), tries := 0
                timer := some (s.settings.faultTimeout * 1000), send := true
                renewed := s.lc.tx.any fun f => f.item == .fault side }) ∧
          recordOf (otherSide side) t = recordOf (otherSide side) s ∧
          (∀ v : Fin 4, t.tc.dir[n][v] =
            if v = w then ⟨true, key, 0, 0, false, true, 0⟩
            else if s.tc.dir[n][v].age < s.tc.dir[n][w].age then { s.tc.dir[n][v] with age := s.tc.dir[n][v].age + 1 }
            else s.tc.dir[n][v]) ∧
          (∀ m : Fin 64, m ≠ n → t.tc.dir[m] = s.tc.dir[m]) ∧
          streamOf i t = { streamOf i s with expected := seq + 1, state := .waitTile } ∧
          queueOf side t = [⟨i, seq, 0, .place key x y keyColour, false⟩] ∧ t.de = s.de ∧ t.fs = s.fs ∧
          t.mn.tracker.armed = s.mn.tracker.armed.or (some ⟨side, key, s.tick⟩) ∧
          countedAs [.accepted, .absent, .raised] s t)) ∧
  (∀ (stream : Byte) (seq : Half) (commands : List Byte) (s : State) (i : Fin 8) (side : Side) (key : Word) (x y : Int)
    (keyColour : Option Half) (cy0 cy1 : Int) (n : Fin 64) (lo hi : Nat) (m : BitVec 4) (miss : SubEvent)
    (u : StreamState → State),
    s.lc.link = .up → s.lc.attachment = .attached → 1 ≤ commands.length → commands.length ≤ 157 →
    stream.toNat = i.val → parseDraw commands = some [.place key x y keyColour] → (streamOf i s).state = .ready →
    (streamOf i s).side = some side → (streamOf i s).rewind = none → (streamOf i s).reservation = none →
    s.sq.quiesce = .running → seq = (streamOf i s).expected → nothingToHand s → (queueOf side s).length < 24 →
    engineOf side s = none → key ≠ 0 → n.val = key.toNat % 64 →
    max x 0 ≤ min (x + 15) ((regionOf i s).rw.toNat - 1) →
    cy0 = max y 0 → cy1 = min (y + 15) ((regionOf i s).rh.toNat - 1) → cy0 ≤ cy1 →
    (lo : Int) = (cy0 - y) / 4 → (hi : Int) = (cy1 - y) / 4 →
    (∀ k : Nat, k < 4 → m.getLsbD k = decide (lo ≤ k ∧ k ≤ hi)) →
    ((∃ w : Fin 4, foundAt key n w s ∧ m &&& ~~~ s.tc.dir[n][w].sectors ≠ 0 ∧ miss = .sectorMiss) ∨
      ((∀ w : Fin 4, s.tc.dir[n][w].valid = true → s.tc.dir[n][w].key ≠ key) ∧ miss = .absent)) →
    (∀ st : StreamState, u st = setStream i { streamOf i s with expected := seq + 1, state := st }
      (setQueue side (queueOf side s ++ [⟨i, seq, 0, .place key x y keyColour, false⟩]) (passed s))) →
    (∀ x' : Side, faultOn key s = some x' →
      (m &&& ~~~ (recordOf x' s).needed = 0 → ∃ t, exec (.draw stream seq commands) s = .next t ∧
        endsAs (setRecord x' { recordOf x' s with
          waiting := (recordOf x' s).waiting ||| BitVec.ofNat 8 (2 ^ i.val) } (u .waitTile)) [.accepted, miss, .joined] t) ∧
      (m &&& ~~~ (recordOf x' s).needed ≠ 0 → ∃ t, exec (.draw stream seq commands) s = .next t ∧
        endsAs (setRecord x' { recordOf x' s with
          waiting := (recordOf x' s).waiting ||| BitVec.ofNat 8 (2 ^ i.val), needed := (recordOf x' s).needed ||| m
          timer := some (s.settings.faultTimeout * 1000), send := true
          renewed := (recordOf x' s).renewed || s.lc.tx.any fun f => f.item == .fault x' } (u .waitTile))
          [.accepted, miss, .joined, .widened] t)) ∧
    (faultOn key s = none → (recordOf side s).active = true → ∃ t, exec (.draw stream seq commands) s = .next t ∧
      endsAs (u .waitSlot) [.accepted, miss, .slotWait] t) ∧
    (faultOn key s = none → (recordOf side s).active = false →
      (miss = .absent → (∀ w : Fin 4, s.tc.dir[n][w].valid = true ∧
          (s.tc.dir[n][w].pending = true ∨ s.tc.dir[n][w].pinned = true ∨ s.tc.dir[n][w].reserve ≠ 0)) →
        ∃ t, exec (.draw stream seq commands) s = .next t ∧ endsAs (u .waitWay) [.accepted, .absent, .wayWait] t) ∧
      (∀ (w : Fin 4) (ways : TileSet),
        (miss = .sectorMiss ∧ foundAt key n w s ∧ ways = s.tc.dir[n].set w { s.tc.dir[n][w] with pending := true }) ∨
          (miss = .absent ∧
            ((s.tc.dir[n][w].valid = false ∧ ∀ v : Fin 4, v < w → s.tc.dir[n][v].valid = true) ∨
              ((∀ v : Fin 4, s.tc.dir[n][v].valid = true) ∧ s.tc.dir[n][w].candidate = true ∧
                ∀ v : Fin 4, v ≠ w → s.tc.dir[n][v].candidate = true → s.tc.dir[n][v].age < s.tc.dir[n][w].age)) ∧
            ways = Vector.ofFn fun v : Fin 4 =>
              if v = w then ⟨true, key, 0, 0, false, true, 0⟩
              else if s.tc.dir[n][v].age < s.tc.dir[n][w].age then { s.tc.dir[n][v] with age := s.tc.dir[n][v].age + 1 }
              else s.tc.dir[n][v]) →
        ∃ t, exec (.draw stream seq commands) s = .next t ∧
          endsAs
            { setRecord side
                { active := true, key := key, needed := m, waiting := BitVec.ofNat 8 (2 ^ i.val), tries := 0
                  timer := some (s.settings.faultTimeout * 1000), send := true
                  renewed := s.lc.tx.any fun f => f.item == .fault side } (u .waitTile) with
              tc.dir := s.tc.dir.set n ways
              mn.tracker.armed := s.mn.tracker.armed.or (some ⟨side, key, s.tick⟩) }
            ([.accepted, miss, .raised] ++
              if miss = .absent ∧ s.tc.dir[n][w].valid = true then [.evict] else []) t))) ∧
  (∀ (side : Side) (s : State) (r : ExecRecord) (e f : Entry) (key : Word) (x y : Int) (keyColour : Option Half)
    (cy0 cy1 : Int) (n : Fin 64) (w : Fin 4) (lo hi : Nat),
    engineOf side s = some r → s.fs.holder = some (.engine side) → r.removed = false → queueOf side s = [e, f] →
    e.stream = r.stream → e.seq = r.seq → e.pos = r.pos → f.command = .place key x y keyColour → f.executing = false →
    (streamOf f.stream s).state = .ready → (streamOf f.stream s).reservation = some key →
    (engineOf (otherSide side) s).isSome = true → key ≠ 0 → foundAt key n w s →
    max x 0 ≤ min (x + 15) ((regionOf f.stream s).rw.toNat - 1) →
    cy0 = max y 0 → cy1 = min (y + 15) ((regionOf f.stream s).rh.toNat - 1) → cy0 ≤ cy1 →
    (lo : Int) = (cy0 - y) / 4 → (hi : Int) = (cy1 - y) / 4 →
    (∀ k : Nat, lo ≤ k → k ≤ hi → s.tc.dir[n][w].sectors.getLsbD k = true) →
    ∃ t, exec (.executionEnd side) s = .next t ∧ drawingOnly s t ∧
      (∀ j : Fin 8, streamOf j t = streamOf j (released f.stream n w s)) ∧
      (∀ v : Fin 4, t.tc.dir[n][v] =
        if v = w then { s.tc.dir[n][v] with age := 0, reserve := s.tc.dir[n][v].reserve - 1 }
        else if s.tc.dir[n][v].age < s.tc.dir[n][w].age then { s.tc.dir[n][v] with age := s.tc.dir[n][v].age + 1 }
        else s.tc.dir[n][v]) ∧
      (∀ k : Fin 64, k ≠ n → t.tc.dir[k] = s.tc.dir[k]) ∧ t.tf = s.tf ∧
      queueOf side t = [{ f with executing := true }] ∧ queueOf (otherSide side) t = queueOf (otherSide side) s ∧
      (∃ q, engineOf side t = some q ∧ q.stream = f.stream ∧ q.seq = f.seq ∧ q.pos = f.pos ∧ q.command = f.command ∧
        q.cy0 = cy0 ∧ q.cy1 = cy1 ∧ q.firstSector = lo ∧ q.removed = false) ∧
      (.engine side ∈ t.fs.holder.toList ++ t.fs.waiting) ∧ t.sq.quiesce = s.sq.quiesce)

/-- The end of an execution (R119, R120), whole where it leaves the sequencer no choice to make and no drain to end: the command's
pixels are written, its entry leaves unless it was removed, its stream stays, the blocks that its rectangle or region touches are
marked (R118), the engine is FREE and the frame store passes to the writer that waits next, a teardown fill among them (R37). With a block in flight, or the panel
halted, no block is sent; else the selection of R126 and R127 sends the next dirty one. Where entries of READY streams wait in its
queue, the sequencer's choice (R47), stated with the other side having none to hand: the OLDEST such entry is handed to the
engine and becomes executing, entries of waiting streams before it are passed over and keep their places, younger ones stay;
stated for an entry that the engine takes (a FILL or PLACE with a clip rectangle, the PLACE hitting in the cache and its stream
with no reservation; a SCROLL by something), which then holds the frame store or waits for it behind the writers that wait. In
every case the pixels are the command's, and no stream's number, rewind or side changes. An engine that is not WRITING has nothing to end (log entry 3).
THE MODEL'S CHOICE: a teardown fill that waits is counted as TEARDOWN_FILL, and takes the undocked colour, when it is given the
frame store (log entry 12); the pixels are written whole at this event, on the picture as it then stands (log entry 9), and a
block in flight may be read before or after (log entry 10); began is the model's own note of the moment at which the next
writer begins (log entry 9). -/
def Obligations.ExecutionEndFreesTheEngine : Prop :=
  (∀ c : DrawCommand,
    ((∃ key x y keyColour, c = .place key x y keyColour) → drawnEvent c = .placeDrawn) ∧
    ((∃ colour x y w h, c = .fill colour x y w h) → drawnEvent c = .fillDrawn) ∧
    ((∃ dx dy, c = .scroll dx dy) → drawnEvent c = .scrollDrawn)) ∧
  (∀ s : State,
    (s.fs.holder = none → writtenImage s = s.fs.image) ∧
    (∀ side r, s.fs.holder = some (.engine side) → engineOf side s = some r →
      writtenImage s = writeCommand (panelW s) (panelPixels s) r s.fs.image)) ∧
  ∀ (side : Side) (s : State),
    (engineOf side s = none ∨ s.fs.holder ≠ some (.engine side) → exec (.executionEnd side) s = .next s) ∧
    (∀ (r : ExecRecord) (q : List Entry) (img : Image) (u : State) (granted : List SubEvent) (mark : Nat → Bool)
      (x0 x1 y0 y1 : Nat), engineOf side s = some r → s.fs.holder = some (.engine side) →
      ((∃ dx dy : Int, r.command = .scroll dx dy) → x0 = r.ox ∧ x1 = r.ox + r.rw - 1 ∧ y0 = r.oy ∧ y1 = r.oy + r.rh - 1) →
      ((∀ dx dy : Int, r.command ≠ .scroll dx dy) → x0 = (r.ox + r.cx0).toNat ∧ x1 = (r.ox + r.cx1).toNat ∧
        y0 = (r.oy + r.cy0).toNat ∧ y1 = (r.oy + r.cy1).toNat) →
      (∀ k : Nat, mark k = true ↔ x0 / 16 ≤ k % s.lu.width ∧ k % s.lu.width ≤ x1 / 16 ∧ y0 / 16 ≤ k / s.lu.width ∧
        k / s.lu.width ≤ y1 / 16) →
      ((r.removed = false ∧ ∃ front e back, queueOf side s = front ++ e :: back ∧ q = front ++ back ∧
          (e.stream = r.stream ∧ e.seq = r.seq ∧ e.pos = r.pos) ∧
          ∀ d ∈ front, ¬ (d.stream = r.stream ∧ d.seq = r.seq ∧ d.pos = r.pos)) ∨
        (r.removed = true ∧ q = queueOf side s)) →
      img = writeCommand (panelW s) (panelPixels s) r s.fs.image →
      u = { setEngine side none (setQueue side q s) with
        fs.image := img, fs.holder := s.fs.waiting.head?, fs.waiting := s.fs.waiting.tail
        fs.began := if s.fs.waiting = [] then s.fs.began else s.free
        lu.fillColour := if s.fs.waiting.head? = some .teardownFill then some s.lu.undocked else s.lu.fillColour
        pu.dirty := s.pu.dirty.mapIdx fun b d => d || mark b } → settled u →
      granted = (if s.fs.waiting.head? = some .teardownFill then [.teardownFill] else []) →
      (s.pu.inFlight.isSome = true ∨ s.pu.halted = true → ∃ t, exec (.executionEnd side) s = .next t ∧
        endsAs { u with
          pu.port := t.pu.port, free := t.free, fs.began := if s.fs.waiting = [] then s.fs.began else t.free }
          (drawnEvent r.command :: granted) t ∧ readOn img s t) ∧
      (∀ b : Nat, s.pu.inFlight = none → s.pu.halted = false →
        isNext (blockCount s) s.pu.scan (fun k => u.pu.dirty.getD k false) b → ∃ t, exec (.executionEnd side) s = .next t ∧
          endsAs (sent b ((List.range 256).map fun p => imageRead img (blockPixel s b p)) u)
            (drawnEvent r.command :: .blockSent :: granted) t)) ∧
    (∀ (r : ExecRecord) (e : Entry) (front back : List Entry) (hits granted : List SubEvent),
      engineOf side s = some r → s.fs.holder = some (.engine side) →
      ((r.removed = false ∧ ∃ before d after, queueOf side s = before ++ d :: after ∧ front ++ e :: back = before ++ after ∧
          (d.stream = r.stream ∧ d.seq = r.seq ∧ d.pos = r.pos) ∧
          ∀ b ∈ before, ¬ (b.stream = r.stream ∧ b.seq = r.seq ∧ b.pos = r.pos)) ∨
        (r.removed = true ∧ front ++ e :: back = queueOf side s)) →
      (∀ d ∈ front, (streamOf d.stream s).state ≠ .ready) → (streamOf e.stream s).state = .ready → e.executing = false →
      ((engineOf (otherSide side) s).isSome = true ∨
        ∀ d ∈ queueOf (otherSide side) s, (streamOf d.stream s).state ≠ .ready) →
      ((∃ (c : Half) (x y : Int) (w h : Nat), e.command = .fill c x y w h ∧ hits = [] ∧
          max x 0 ≤ min (x + w - 1) ((regionOf e.stream s).rw.toNat - 1) ∧
          max y 0 ≤ min (y + h - 1) ((regionOf e.stream s).rh.toNat - 1)) ∨
        (∃ dx dy : Int, e.command = .scroll dx dy ∧ hits = [] ∧ (dx ≠ 0 ∨ dy ≠ 0)) ∨
        (∃ (key : Word) (x y : Int) (keyColour : Option Half) (n : Fin 64) (w : Fin 4),
          e.command = .place key x y keyColour ∧ hits = [.hit] ∧ key ≠ 0 ∧
          (streamOf e.stream s).reservation = none ∧ foundAt key n w s ∧
          (∀ k : Nat, (max y 0 - y) / 4 ≤ (k : Int) → (k : Int) ≤ (min (y + 15) ((regionOf e.stream s).rh.toNat - 1) - y) / 4 →
            s.tc.dir[n][w].sectors.getLsbD k = true) ∧
          max x 0 ≤ min (x + 15) ((regionOf e.stream s).rw.toNat - 1) ∧
          max y 0 ≤ min (y + 15) ((regionOf e.stream s).rh.toNat - 1))) →
      granted = (if s.fs.waiting.head? = some .teardownFill then [.teardownFill] else []) →
      ∃ t, exec (.executionEnd side) s = .next t ∧ drawingOnly s t ∧
        queueOf side t = front ++ { e with executing := true } :: back ∧
        queueOf (otherSide side) t = queueOf (otherSide side) s ∧
        (∃ x, engineOf side t = some x ∧ x.stream = e.stream ∧ x.seq = e.seq ∧ x.pos = e.pos ∧ x.command = e.command ∧
          x.ox = (regionOf e.stream s).ox.toNat ∧ x.oy = (regionOf e.stream s).oy.toNat ∧
          x.rw = (regionOf e.stream s).rw.toNat ∧ x.rh = (regionOf e.stream s).rh.toNat ∧
          x.background = (regionOf e.stream s).background ∧ x.removed = false) ∧
        engineOf (otherSide side) t = engineOf (otherSide side) s ∧ t.sq.streams = s.sq.streams ∧
        t.sq.quiesce = s.sq.quiesce ∧ t.tf = s.tf ∧ t.me.inProgress = s.me.inProgress ∧ t.lc.replies = s.lc.replies ∧
        (hits = [] → t.tc = s.tc) ∧ t.fs.image = writeCommand (panelW s) (panelPixels s) r s.fs.image ∧
        t.fs.holder = (s.fs.waiting ++ [Writer.engine side]).head? ∧
        t.fs.waiting = (s.fs.waiting ++ [Writer.engine side]).tail ∧
        countedAs (drawnEvent r.command :: hits ++ granted ++ if t.pu.number = s.pu.number then [] else [.blockSent]) s t) ∧
    (∀ r, engineOf side s = some r → s.fs.holder = some (.engine side) → ∃ t, exec (.executionEnd side) s = .next t ∧
      drawingOnly s t ∧ t.fs.image = writeCommand (panelW s) (panelPixels s) r s.fs.image ∧
      ∀ i : Fin 8, (streamOf i t).expected = (streamOf i s).expected ∧ (streamOf i t).rewind = (streamOf i s).rewind ∧
        (streamOf i t).side = (streamOf i s).side)

/-- R116: a FILL in WRITING gives its colour to every screen position of its clip rectangle, and to no other, whatever stands
there and whatever the sequencer does next. The blocks that the rectangle touches, and no others beside those that were dirty, are
dirty, or in flight when the selection that follows has sent one (R118). It speaks of the picture at the end of the execution, and so holds however the
pixels come to be written before it. -/
def Obligations.AFillWritesEveryVisiblePixel : Prop :=
  ∀ (side : Side) (s : State) (r : ExecRecord) (c : Half) (x y : Int) (w h : Nat),
    engineOf side s = some r → s.fs.holder = some (.engine side) → r.command = .fill c x y w h → recordFits s r →
    imageWf (panelPixels s) s.fs.image →
    ∃ t, exec (.executionEnd side) s = .next t ∧ drawingOnly s t ∧
      (panelShape s → marksBlocks (fun col row => ((r.ox : Int) + r.cx0) / 16 ≤ col ∧ (col : Int) ≤ ((r.ox : Int) + r.cx1) / 16 ∧
        ((r.oy : Int) + r.cy0) / 16 ≤ row ∧ (row : Int) ≤ ((r.oy : Int) + r.cy1) / 16) s t) ∧
      ∀ px py : Nat, px < panelW s → py < panelH s →
        imageRead t.fs.image (py * panelW s + px) =
          if (r.ox : Int) + r.cx0 ≤ px ∧ (px : Int) ≤ r.ox + r.cx1 ∧ (r.oy : Int) + r.cy0 ≤ py ∧ (py : Int) ≤ r.oy + r.cy1 then c
          else imageRead s.fs.image (py * panelW s + px)

/-- R115: a PLACE in WRITING writes each visible pixel from the sector contents its engine holds (rows of 16 pixels, from the
first needed sector on), but for those equal to its key colour; no other pixel changes. Every block of the clip rectangle is
marked, also where the key colour left all its pixels unwritten (R118). All of it is written at the one event
(log entry 9). -/
def Obligations.APlaceWritesFromItsTile : Prop :=
  ∀ (side : Side) (s : State) (r : ExecRecord) (key : Word) (x y : Int) (keyColour : Option Half),
    engineOf side s = some r → s.fs.holder = some (.engine side) → r.command = .place key x y keyColour →
    recordFits s r → imageWf (panelPixels s) s.fs.image →
    ∃ t, exec (.executionEnd side) s = .next t ∧ drawingOnly s t ∧
      (panelShape s → marksBlocks (fun col row => ((r.ox : Int) + r.cx0) / 16 ≤ col ∧ (col : Int) ≤ ((r.ox : Int) + r.cx1) / 16 ∧
        ((r.oy : Int) + r.cy0) / 16 ≤ row ∧ (row : Int) ≤ ((r.oy : Int) + r.cy1) / 16) s t) ∧
      ∀ px py : Nat, px < panelW s → py < panelH s →
        imageRead t.fs.image (py * panelW s + px) =
          if (r.ox : Int) + r.cx0 ≤ px ∧ (px : Int) ≤ r.ox + r.cx1 ∧ (r.oy : Int) + r.cy0 ≤ py ∧
              (py : Int) ≤ r.oy + r.cy1 ∧
              keyColour ≠ some (r.tile.getD ((py - r.oy - y - 4 * r.firstSector) * 16 + (px - r.ox - x)).toNat 0) then
            r.tile.getD ((py - r.oy - y - 4 * r.firstSector) * 16 + (px - r.ox - x)).toNat 0
          else imageRead s.fs.image (py * panelW s + px)

/-- R117: a SCROLL in WRITING gives each pixel of its region what the pixel dx columns and dy rows before it held, when that lies
in the region, else the background; no pixel outside the region changes. Every block of the region is marked (R118). THE MODEL'S CHOICE (log entry 9): the write is made
whole at EXECUTION_END, so the pixels moved are those that stood just before it; as the engine has held the frame store since
it took it, they are those that stood then (R25). -/
def Obligations.AScrollMovesItsRegion : Prop :=
  ∀ (side : Side) (s : State) (r : ExecRecord) (dx dy : Int),
    engineOf side s = some r → s.fs.holder = some (.engine side) → r.command = .scroll dx dy →
    recordFits s r → imageWf (panelPixels s) s.fs.image →
    ∃ t, exec (.executionEnd side) s = .next t ∧ drawingOnly s t ∧
      (panelShape s → marksBlocks (fun col row => r.ox / 16 ≤ col ∧ col ≤ (r.ox + r.rw - 1) / 16 ∧ r.oy / 16 ≤ row ∧
        row ≤ (r.oy + r.rh - 1) / 16) s t) ∧
      ∀ px py : Nat, px < panelW s → py < panelH s →
        imageRead t.fs.image (py * panelW s + px) =
          if r.ox ≤ px ∧ px < r.ox + r.rw ∧ r.oy ≤ py ∧ py < r.oy + r.rh then
            if (r.ox : Int) ≤ px - dx ∧ (px : Int) - dx < r.ox + r.rw ∧ (r.oy : Int) ≤ py - dy ∧ (py : Int) - dy < r.oy + r.rh
            then imageRead s.fs.image (((py : Int) - dy).toNat * panelW s + ((px : Int) - dx).toNat)
            else r.background
          else imageRead s.fs.image (py * panelW s + px)

/-! ## TILE frames and tile faults (chapters 4 and 5) -/

/-- TILE frames that find no valid way with their key (R77, R79, R88): bad ones and those of a set that the flush sweep has not
reached are discarded; else the fill takes the lowest invalid way of its set, or with none invalid the oldest entry
that is not pending, pinned or reserved; with no such entry it is discarded. -/
def Obligations.TileFramesOfAnAbsentKey : Prop :=
  (∀ e : DirEntry, e.candidate = true ↔
    e.valid = false ∨ (e.pending = false ∧ e.pinned = false ∧ e.reserve = 0)) ∧
  ∀ (key : Word) (sector : Byte) (data : List Byte) (s : State) (n : Fin 64),
    s.lc.link = .up → s.lc.attachment = .attached → data.length = 128 → n.val = key.toNat % 64 →
    (key = 0 ∨ 3 < sector.toNat → ∃ t, exec (.tile key sector data) s = .next t ∧ endsAs (passed s) [.fillBad] t) ∧
    (key ≠ 0 → sector.toNat ≤ 3 → s.tc.sweep ≤ n.val → ∃ t, exec (.tile key sector data) s = .next t ∧
      endsAs (passed s) [.fillFlushed] t) ∧
    (key ≠ 0 → sector.toNat ≤ 3 → n.val < s.tc.sweep →
      (∀ w : Fin 4, s.tc.dir[n][w].valid = true → s.tc.dir[n][w].key ≠ key) →
      ((∀ w : Fin 4, s.tc.dir[n][w].valid = true ∧
          (s.tc.dir[n][w].pending = true ∨ s.tc.dir[n][w].pinned = true ∨ s.tc.dir[n][w].reserve ≠ 0)) →
        ∃ t, exec (.tile key sector data) s = .next t ∧ endsAs (passed s) [.fillNoWay] t) ∧
      (∀ w : Fin 4,
        (s.tc.dir[n][w].valid = false ∧ ∀ v : Fin 4, v < w → s.tc.dir[n][v].valid = true) ∨
          ((∀ v : Fin 4, s.tc.dir[n][v].valid = true) ∧ s.tc.dir[n][w].candidate = true ∧
            ∀ v : Fin 4, v ≠ w → s.tc.dir[n][v].candidate = true → s.tc.dir[n][v].age < s.tc.dir[n][w].age) →
        ∃ t, exec (.tile key sector data) s = .next t ∧
          endsAs { passed s with
            tc.store := cellWrite 0 s.tc.store ((n.val * 4 + w.val) * 512 + sector.toNat * 128) data
            tc.dir := s.tc.dir.set n (Vector.ofFn fun v : Fin 4 =>
              if v = w then ⟨true, key, BitVec.ofNat 4 (2 ^ sector.toNat), 0, false, false, 0⟩
              else if s.tc.dir[n][v].age < s.tc.dir[n][w].age then { s.tc.dir[n][v] with age := s.tc.dir[n][v].age + 1 }
              else s.tc.dir[n][v]) }
            ([.fillAllocated] ++ if s.tc.dir[n][w].valid then [.evict] else []) t))

/-- A TILE frame of a key that a valid way holds (R78, R99): the sector's bytes stand in the slot, whatever the sequencer does
next. Where the sequencer then has no choice to make and no drain to end, this is whole: the sector's flag is set and nothing
else changes, when the entry is not pending or its fault still needs another sector; when the fault then has all it needs it
completes: its record is IDLE, the entry is no longer pending and is reserved once for each waiting stream, and these, the
side's WAIT_SLOT streams and all WAIT_WAY streams are READY; the tracker records the latency of a fault that it follows
(R172). -/
def Obligations.TileFramesOfAPresentKey : Prop :=
  ∀ (key : Word) (sector : Byte) (data : List Byte) (s : State) (n : Fin 64) (w : Fin 4),
    s.lc.link = .up → s.lc.attachment = .attached → data.length = 128 → n.val = key.toNat % 64 → key ≠ 0 →
    sector.toNat ≤ 3 → n.val < s.tc.sweep → s.tc.dir[n][w].valid = true → s.tc.dir[n][w].key = key →
    (∀ v : Fin 4, v < w → s.tc.dir[n][v].valid = true → s.tc.dir[n][v].key ≠ key) →
    (∃ t, exec (.tile key sector data) s = .next t ∧
      drawingOnly { passed s with
        tc.store := cellWrite 0 s.tc.store ((n.val * 4 + w.val) * 512 + sector.toNat * 128) data } t ∧
      (∀ b : Nat, b < 128 →
        cellRead 0 t.tc.store ((n.val * 4 + w.val) * 512 + sector.toNat * 128 + b) = byteAt data b)) ∧
    (∀ u : State, u = { passed s with
        tc.store := cellWrite 0 s.tc.store ((n.val * 4 + w.val) * 512 + sector.toNat * 128) data
        tc.dir := s.tc.dir.set n (s.tc.dir[n].set w
          { s.tc.dir[n][w] with sectors := s.tc.dir[n][w].sectors ||| BitVec.ofNat 4 (2 ^ sector.toNat) }) } →
      settled u →
      (s.tc.dir[n][w].pending = false ∨ faultOn key s = none ∨
          ∃ side, faultOn key s = some side ∧
            (recordOf side s).needed &&& ~~~ (s.tc.dir[n][w].sectors ||| BitVec.ofNat 4 (2 ^ sector.toNat)) ≠ 0) →
      ∃ t, exec (.tile key sector data) s = .next t ∧ endsAs u [.fillPresent] t) ∧
    (∀ (side : Side) (u : State), s.tc.dir[n][w].pending = true → faultOn key s = some side →
      (recordOf side s).needed &&& ~~~ (s.tc.dir[n][w].sectors ||| BitVec.ofNat 4 (2 ^ sector.toNat)) = 0 →
      u = { setRecord side ⟨false, 0, 0, 0, 0, none, false, false⟩ (passed s) with
        tc.store := cellWrite 0 s.tc.store ((n.val * 4 + w.val) * 512 + sector.toNat * 128) data
        tc.dir := s.tc.dir.set n (s.tc.dir[n].set w { s.tc.dir[n][w] with
          sectors := s.tc.dir[n][w].sectors ||| BitVec.ofNat 4 (2 ^ sector.toNat), pending := false
          reserve := s.tc.dir[n][w].reserve +
            (List.finRange 8).countP fun i => (recordOf side s).waiting.getLsbD i.val })
        sq.streams := Vector.ofFn fun i : Fin 8 =>
          if (recordOf side s).waiting.getLsbD i.val = true then
            { streamOf i s with state := .ready, reservation := some key }
          else wokenByIdle side (streamOf i s)
        mn.tracker := afterCompletion side s.tick s.mn.tracker } →
      settled u → ∃ t, exec (.tile key sector data) s = .next t ∧ endsAs u [.fillPresent, .completed] t)

/-- The expiry of a fault timer (R100 to R102, R104, R105): below the retry limit the fault is sent again with a fresh timer. At
the limit it is abandoned: each waiting stream loses its oldest entry and is READY, its region is stale, the entry is no
longer pending and, holding no sector, is invalid; the record is IDLE with its wake-ups, and a fault that the tracker follows
is counted lost (R172). That is stated with every waiting stream on a side, and whole where the sequencer then has no choice
to make and no drain to end. Before the timer has run down nothing happens (log entry 3), and in a hold nothing does: the
record keeps all its items (R104), also one whose timer had run down when the hold began (log entry 29). -/
def Obligations.FaultTimersRetryOrAbandon : Prop :=
  ∀ (side : Side) (s : State),
    (s.lc.attachment ≠ .attached ∨ (recordOf side s).active = false ∨ (recordOf side s).timer ≠ some 0 →
      exec (.faultTimerExpiry side) s = .next s) ∧
    (s.lc.attachment = .attached → (recordOf side s).active = true → (recordOf side s).timer = some 0 →
      (recordOf side s).tries < s.settings.retryLimit →
      ∃ t, exec (.faultTimerExpiry side) s = .next t ∧
        endsAs (setRecord side { recordOf side s with
          tries := (recordOf side s).tries + 1, timer := some (s.settings.faultTimeout * 1000), send := true
          renewed := (recordOf side s).renewed || s.lc.tx.any fun x => x.item == .fault side } s) [.retried] t) ∧
    (∀ (dir : Vector TileSet 64) (u : State), s.lc.attachment = .attached → (recordOf side s).active = true →
      (recordOf side s).timer = some 0 → s.settings.retryLimit ≤ (recordOf side s).tries →
      (∀ i : Fin 8, (recordOf side s).waiting.getLsbD i.val = true → (streamOf i s).side.isSome = true) →
      pendingCleared (recordOf side s).key s dir →
      u = { setRecord side ⟨false, 0, 0, 0, 0, none, false, false⟩ s with
        sq.queueA := withoutHeads (fun i => (recordOf side s).waiting.getLsbD i.val && (streamOf i s).side == some .a) s.sq.queueA
        sq.queueB := withoutHeads (fun i => (recordOf side s).waiting.getLsbD i.val && (streamOf i s).side == some .b) s.sq.queueB
        sq.streams := Vector.ofFn fun i : Fin 8 =>
          if (recordOf side s).waiting.getLsbD i.val = true then { streamOf i s with state := .ready }
          else wokenByIdle side (streamOf i s)
        lu.regions := Vector.ofFn fun i : Fin 8 => { regionOf i s with
          stale := (regionOf i s).stale || (recordOf side s).waiting.getLsbD i.val }
        tc.dir := dir
        mn.tracker := afterLoss side s.mn.tracker } →
      settled u → ∃ t, exec (.faultTimerExpiry side) s = .next t ∧
        endsAs (raised .regionStale ((recordOf side s).waiting.setWidth 24) u)
          (.abandoned :: List.replicate
            ((List.finRange 8).countP fun i => (recordOf side s).waiting.getLsbD i.val) .commandSkipped ++
            raiseCounts .regionStale s) t)

/-! ## Management requests: tables (chapters 2, 3, 7, 8, 9) -/

/-- BAD_REQUEST (R156), and TABLE_READ (R158) in the order of its checks: the reply holds as many entries as are asked for, are
left in the table, and fit in 153 bytes, each as it stands in that event; THE MODEL'S CHOICE (log entry 32): REQ_TAKEN has
been counted by then, which a counter of the MONITOR table may show. And the entries of the ten tables, byte by byte as section 11.7 lays them out, fields of more bytes with the low byte first (R22, R39, R69,
R91, R107, R135, R148, R160, R172). A number wider than its field is cut to its low bits (log entry 28). -/
def Obligations.TableReadAnswersItsEntries : Prop :=
  (∀ (code : Byte) (tb : Table), tableOfCode code = some tb ↔
    [(Table.ident, 1, 8), (.layout, 9, 11), (.stream, 9, 11), (.tileDir, 256, 8), (.fault, 2, 10), (.keymap, 384, 2),
      (.settings, 1, 10), (.panel, 1, 7), (.link, 1, 16), (.monitor, 5, 26)][code.toNat]? = some (tb, tb.entries, tb.size)) ∧
  (∀ (tag table kind : Byte) (first : Half) (count : Byte) (s : State), takesRequest s →
    (∃ t, exec (.badRequest tag kind) s = .next t ∧ endsAs (replied tag kind .badRequest [] s) [.reqTaken] t) ∧
    (10 ≤ table.toNat → ∃ t, exec (.tableRead tag table first count) s = .next t ∧
      endsAs (replied tag 0x01 .badTable [] s) [.reqTaken] t) ∧
    (∀ tb : Table, tableOfCode table = some tb →
      (tb.entries ≤ first.toNat → ∃ t, exec (.tableRead tag table first count) s = .next t ∧
        endsAs (replied tag 0x01 .badIndex [] s) [.reqTaken] t) ∧
      (first.toNat < tb.entries → count = 0 → ∃ t, exec (.tableRead tag table first count) s = .next t ∧
        endsAs (replied tag 0x01 .badValue [] s) [.reqTaken] t) ∧
      (first.toNat < tb.entries → count ≠ 0 → ∀ n : Nat,
        n = min count.toNat (min (tb.entries - first.toNat) (153 / tb.size)) →
        ∃ t, exec (.tableRead tag table first count) s = .next t ∧
          endsAs (replied tag 0x01 .ok
            ([table, first.extractLsb' 0 8, first.extractLsb' 8 8, BitVec.ofNat 8 n] ++
              (List.range n).flatMap fun k => entryBytes tb (first.toNat + k) (Machine.count .reqTaken s)) s) [.reqTaken] t ∧
          (tb ≠ .monitor → ∀ k : Nat, entryBytes tb k (Machine.count .reqTaken s) = entryBytes tb k s)))) ∧
  (∀ h : Half, le16 h = [h.setWidth 8, (h >>> 8).setWidth 8]) ∧
  (∀ w : Word, le32 w = [w.setWidth 8, (w >>> 8).setWidth 8, (w >>> 16).setWidth 8, (w >>> 24).setWidth 8]) ∧
  (∀ (s : State) (b : Nat → Byte) (bit : Bool → Nat → Nat),
    (∀ k : Nat, b k = BitVec.ofNat 8 k) → (∀ x k, bit x k = if x then 2 ^ k else 0) →
    entryBytes .ident 0 s = le16 0x0A47 ++ le16 4120 ++ [1, b s.lu.width, b s.lu.height, b (bit s.lu.imageUsed 0)] ∧
    entryBytes .layout 0 s =
      b (bit s.lu.headerChanged 1) :: le16 s.lu.border ++ le16 s.lu.undocked ++ [0, 0, 0, 0, 0, 0] ∧
    (∀ (i : Fin 8) (r : Region), regionOf i s = r → entryBytes .layout (i.val + 1) s =
      b (bit r.enabled 0 + bit r.changed 1 + bit r.stale 2) :: le16 r.ox ++ le16 r.oy ++ le16 r.rw ++ le16 r.rh ++
        le16 r.background) ∧
    entryBytes .stream 0 s =
      (if s.sq.quiesce = .running then 0 else if s.sq.quiesce = .quiescing then 1 else 2) :: List.replicate 10 0 ∧
    (∀ (i : Fin 8) (r : Stream), streamOf i s = r → entryBytes .stream (i.val + 1) s =
      [if r.state = .closed then 0 else if r.state = .ready then 1 else if r.state = .waitTile then 2
        else if r.state = .waitSlot then 3 else 4,
       if r.side = some .a then 0 else if r.side = some .b then 1 else 255] ++ le16 r.expected ++
      [if r.rewind = none then 0 else if r.rewind = some .gap then 1 else if r.rewind = some .shed then 2
        else if r.rewind = some .quiesceEnd then 3 else 4,
       b (if r.side = none then 0 else ((if r.side = some .a then s.sq.queueA else s.sq.queueB).filter
        fun e => e.stream == i).length)] ++
      le32 (r.reservation.getD 0) ++ [b (bit (regionOf i s).stale 0)]) ∧
    (∀ (n : Fin 64) (w : Fin 4) (e : DirEntry), s.tc.dir[n][w] = e → entryBytes .tileDir (4 * n.val + w.val) s =
      b (bit e.valid 0 + bit e.pinned 1 + bit e.pending 2) :: le32 e.key ++ [b e.sectors.toNat, b e.age, b e.reserve]) ∧
    (∀ (n : Nat) (r : FaultRecord), (n = 0 ∧ s.tf.recA = r) ∨ (n = 1 ∧ s.tf.recB = r) → entryBytes .fault n s =
      b (bit r.active 0) :: le32 r.key ++
        [b r.needed.toNat, r.waiting, b r.tries, b ((r.timer.getD 0 + 999) / 1000), b (bit r.send 0)]) ∧
    (∀ (i : Fin 384) (k : KeyEntry), s.ks.keymap[i] = k →
      (k = .none → entryBytes .keymap i.val s = [0, 0]) ∧
      (∀ c : Byte, k = .ordinary c → entryBytes .keymap i.val s = [1, c]) ∧
      (∀ m : Fin 8, k = .modifier m → entryBytes .keymap i.val s = [2, b m.val]) ∧
      (∀ m : Fin 3, k = .layer m → entryBytes .keymap i.val s = [3, b m.val]) ∧
      (k = .localAction .backlightUp → entryBytes .keymap i.val s = [4, 1]) ∧
      (k = .localAction .backlightDown → entryBytes .keymap i.val s = [4, 2])) ∧
    entryBytes .settings 0 s =
      [b s.settings.lossLimit, b s.settings.holdTime] ++ le16 (BitVec.ofNat 16 s.settings.scanPeriod) ++
        [b s.settings.depth, b s.settings.faultTimeout, b s.settings.retryLimit, b s.settings.shedThreshold,
         b s.settings.enables.toNat, 0] ∧
    entryBytes .panel 0 s =
      [b s.lu.width, b s.lu.height, b s.pu.level, b (bit s.pu.halted 0 + bit s.pu.inFlight.isSome 1), b s.pu.streak] ++
        le16 (BitVec.ofNat 16 (s.pu.dirty.filter id).length) ∧
    entryBytes .link 0 s =
      [if s.lc.link = .down then 0 else if s.lc.link = .aligning then 1 else if s.lc.link = .framing then 2 else 3,
       if s.lc.attachment = .unattached then 0 else if s.lc.attachment = .attached then 1 else 2] ++
        le32 s.lc.attachNumber ++ le32 s.lc.attachCounter ++
        [if s.lc.lastCause = none then 0 else if s.lc.lastCause = some .lossDetector then 1 else 2] ++
        le16 (BitVec.ofNat 16 s.lc.lastDuration) ++
        [b s.lc.keys.length, b s.lc.replies.length,
         if s.lc.greet = none then 0 else if s.lc.greet = some .newSession then 1
         else if s.lc.greet = some .resumed then 2 else 3] ∧
    (∀ (n : Fin 4) (c : Counter), s.mn.counters[n] = c → entryBytes .monitor n.val s =
      le32 (BitVec.ofNat 32 c.value) ++ [modeCode c.mode, groupCode c.group] ++ le32 c.mask ++ [conditionCode c.condition] ++
        List.replicate 15 0) ∧
    (∀ x : Tracked, s.mn.tracker.armed = some x → (entryBytes .monitor 4 s).take 10 =
      [1, if x.side = .a then 0 else 1] ++ le32 x.key ++ le32 (BitVec.ofNat 32 x.start)) ∧
    (s.mn.tracker.armed = none → (entryBytes .monitor 4 s).take 10 = List.replicate 10 0) ∧
    (entryBytes .monitor 4 s).drop 10 = le32 (BitVec.ofNat 32 s.mn.tracker.last) ++ le32 (BitVec.ofNat 32 s.mn.tracker.max) ++
      le32 (BitVec.ofNat 32 s.mn.tracker.completed) ++ le32 (BitVec.ofNat 32 s.mn.tracker.lost))

/-- TABLE_WRITE where the table has no write rule of its own (R159, R174): no such table, contents of another size, no such
entry, a read-only entry. Where a table has one, the write is the command of that table: LAYOUT entries, STREAM entries,
KEYMAP, SETTINGS and PANEL, their fields laid out as in section 11.7. Every write that is carried out completes, and is answered
in its event; and each table's accepted write does what that table's rules say: in QUIESCED the header (R31) and a region that
fits and overlaps none, or is disabled with its stream closed (R29, R30); the stale flag of a stream's region (R36); a keymap
entry that its class allows (R148); the settings, each in its range (R160); the backlight level (R136, R134). -/
def Obligations.TableWriteGoesToItsTable : Prop :=
  ∀ (tag table : Byte) (entry : Half) (contents : List Byte) (s : State), contents.length ≤ 155 →
    (takesRequest s → ∃ t, exec (.tableWrite tag table entry contents) s = .next t ∧
      ∃ status, t.lc.replies = s.lc.replies ++ [⟨tag, 0x02, status, []⟩]) ∧
    (takesRequest s → table = 1 → contents.length = 11 → entry = 0 → s.sq.quiesce = .quiesced →
      ∃ t, exec (.tableWrite tag table entry contents) s = .next t ∧
        endsAs (replied tag 0x02 .ok [] { s with
          lu.border := half (byteAt contents 1) (byteAt contents 2)
          lu.undocked := half (byteAt contents 3) (byteAt contents 4), lu.headerChanged := true }) [.reqTaken] t) ∧
    (∀ (i : Fin 8) (r : Region), takesRequest s → table = 1 → contents.length = 11 → entry.toNat = i.val + 1 →
      s.sq.quiesce = .quiesced →
      r = ⟨(byteAt contents 0).getLsbD 0, half (byteAt contents 1) (byteAt contents 2),
        half (byteAt contents 3) (byteAt contents 4), half (byteAt contents 5) (byteAt contents 6),
        half (byteAt contents 7) (byteAt contents 8), half (byteAt contents 9) (byteAt contents 10), true,
        (regionOf i s).stale⟩ →
      (r.enabled = true ∧ 16 ≤ r.rw.toNat ∧ 16 ≤ r.rh.toNat ∧ r.ox.toNat + r.rw.toNat ≤ 16 * s.lu.width ∧
          r.oy.toNat + r.rh.toNat ≤ 16 * s.lu.height ∧ ∀ j : Fin 8, j ≠ i → (regionOf j s).enabled = true →
            rectsOverlap r.ox r.oy r.rw r.rh (regionOf j s).ox (regionOf j s).oy (regionOf j s).rw (regionOf j s).rh = false) ∨
        (r.enabled = false ∧ isOpen i s = false) →
      ∃ t, exec (.tableWrite tag table entry contents) s = .next t ∧
        endsAs (replied tag 0x02 .ok [] (setRegion i r s)) [.reqTaken] t) ∧
    (∀ i : Fin 8, takesRequest s → table = 2 → contents.length = 11 → entry.toNat = i.val + 1 →
      ∃ t, exec (.tableWrite tag table entry contents) s = .next t ∧
        endsAs (replied tag 0x02 .ok [] (setRegion i { regionOf i s with
          stale := (regionOf i s).stale && (byteAt contents 10).getLsbD 0 } s)) [.reqTaken] t) ∧
    (∀ e : KeyEntry, takesRequest s → table = 5 → contents.length = 2 → entry.toNat < 384 →
      (byteAt contents 0 = 0 ∧ e = .none) ∨ (byteAt contents 0 = 1 ∧ byteAt contents 1 ≠ 0 ∧ e = .ordinary (byteAt contents 1)) ∨
        (byteAt contents 0 = 2 ∧ ∃ m : Fin 8, (byteAt contents 1).toNat = m.val ∧ e = .modifier m) ∨
        (byteAt contents 0 = 3 ∧ ((byteAt contents 1 = 1 ∧ e = .layer 1) ∨ (byteAt contents 1 = 2 ∧ e = .layer 2))) ∨
        (byteAt contents 0 = 4 ∧ ((byteAt contents 1 = 1 ∧ e = .localAction .backlightUp) ∨
          (byteAt contents 1 = 2 ∧ e = .localAction .backlightDown))) →
      ∃ t, exec (.tableWrite tag table entry contents) s = .next t ∧
        endsAs (replied tag 0x02 .ok [] { s with
          ks.keymap := Vector.ofFn fun j : Fin 384 => if j.val = entry.toNat then e else s.ks.keymap[j] }) [.reqTaken] t) ∧
    (∀ b : Nat → Nat, takesRequest s → table = 6 → contents.length = 10 → entry = 0 →
      (∀ k : Nat, b k = (byteAt contents k).toNat) →
      ∃ t, exec (.tableWrite tag table entry contents) s = .next t ∧
        endsUnder (s.settings.enables.getLsbD 4) (replied tag 0x02 .ok [] { s with
          settings :=
            { lossLimit := min 15 (max 1 (b 0)), holdTime := max 1 (b 1)
              scanPeriod := min 4000 (max 500 (b 2 + 256 * b 3 - (b 2 + 256 * b 3) % 250)), depth := min 15 (max 1 (b 4))
              faultTimeout := max 1 (b 5), retryLimit := min 7 (b 6), shedThreshold := min 16 (max 2 (b 7))
              enables := (byteAt contents 8).setWidth 6 }
          ks.positions := Vector.ofFn fun p : Fin 128 => { s.ks.positions[p] with
            count := min s.ks.positions[p].count (min 15 (max 1 (b 4))) } }) [.reqTaken] t) ∧
    (∀ level : Nat, takesRequest s → table = 7 → contents.length = 7 → entry = 0 →
      (byteAt contents 0).toNat = s.lu.width → (byteAt contents 1).toNat = s.lu.height →
      level = min (byteAt contents 2).toNat 15 →
      ∃ t, exec (.tableWrite tag table entry contents) s = .next t ∧
        (level = s.pu.level → endsAs (replied tag 0x02 .ok [] s) [.reqTaken] t) ∧
        (level ≠ s.pu.level → endsAs (raised .backlight (BitVec.ofNat 24 level)
          (replied tag 0x02 .ok [] { s with pu.level := level }))
          ([.reqTaken, .backlightChange] ++ raiseCounts .backlight s) t)) ∧
    (takesRequest s →
      (10 ≤ table.toNat → ∃ t, exec (.tableWrite tag table entry contents) s = .next t ∧
        endsAs (replied tag 0x02 .badTable [] s) [.reqTaken] t) ∧
      (∀ tb : Table, tableOfCode table = some tb →
        (contents.length ≠ tb.size → ∃ t, exec (.tableWrite tag table entry contents) s = .next t ∧
          endsAs (replied tag 0x02 .badRequest [] s) [.reqTaken] t) ∧
        (contents.length = tb.size → tb.entries ≤ entry.toNat →
          ∃ t, exec (.tableWrite tag table entry contents) s = .next t ∧
            endsAs (replied tag 0x02 .badIndex [] s) [.reqTaken] t) ∧
        (contents.length = tb.size → entry.toNat < tb.entries →
          tb = .ident ∨ tb = .tileDir ∨ tb = .fault ∨ tb = .link ∨ tb = .monitor ∨ (tb = .stream ∧ entry = 0) →
          ∃ t, exec (.tableWrite tag table entry contents) s = .next t ∧
            endsAs (replied tag 0x02 .readOnly [] s) [.reqTaken] t))) ∧
    (table = 1 → contents.length = 11 → entry = 0 →
      exec (.tableWrite tag table entry contents) s =
        exec (.layoutHeaderWrite tag (half (byteAt contents 1) (byteAt contents 2)) (half (byteAt contents 3) (byteAt contents 4))) s) ∧
    (∀ i : Fin 8, contents.length = 11 → entry.toNat = i.val + 1 →
      (table = 1 → exec (.tableWrite tag table entry contents) s =
        exec (.layoutRegionWrite tag i ((byteAt contents 0).getLsbD 0) (half (byteAt contents 1) (byteAt contents 2)) (half (byteAt contents 3) (byteAt contents 4))
          (half (byteAt contents 5) (byteAt contents 6)) (half (byteAt contents 7) (byteAt contents 8)) (half (byteAt contents 9) (byteAt contents 10))) s) ∧
      (table = 2 → exec (.tableWrite tag table entry contents) s =
        exec (.streamWrite tag i ((byteAt contents 10).getLsbD 0)) s)) ∧
    (table = 5 → contents.length = 2 →
      exec (.tableWrite tag table entry contents) s = exec (.keymapWrite tag entry (byteAt contents 0) (byteAt contents 1)) s) ∧
    (table = 6 → contents.length = 10 → entry = 0 →
      exec (.tableWrite tag table entry contents) s =
        exec (.settingsWrite tag (byteAt contents 0) (byteAt contents 1) (half (byteAt contents 2) (byteAt contents 3)) (byteAt contents 4)
          (byteAt contents 5) (byteAt contents 6) (byteAt contents 7) (byteAt contents 8)) s) ∧
    (table = 7 → contents.length = 7 → entry = 0 →
      exec (.tableWrite tag table entry contents) s =
        exec (.panelWrite tag (byteAt contents 0) (byteAt contents 1) (byteAt contents 2)) s)

/-- Layout writes (R29 to R31), in the order of R30's checks. Two regions overlap where
they share a pixel (R27). -/
def Obligations.LayoutWritesNeedAQuiescedScreen : Prop :=
  (∀ ox oy rw rh ox' oy' rw' rh' : Half, 1 ≤ rw.toNat → 1 ≤ rh.toNat → 1 ≤ rw'.toNat → 1 ≤ rh'.toNat →
    (rectsOverlap ox oy rw rh ox' oy' rw' rh' = true ↔ ∃ px py : Nat,
      (ox.toNat ≤ px ∧ px < ox.toNat + rw.toNat ∧ oy.toNat ≤ py ∧ py < oy.toNat + rh.toNat) ∧
      (ox'.toNat ≤ px ∧ px < ox'.toNat + rw'.toNat ∧ oy'.toNat ≤ py ∧ py < oy'.toNat + rh'.toNat))) ∧
  ∀ (tag : Byte) (s : State), takesRequest s →
    (∀ border undocked : Half,
      (s.sq.quiesce = .quiesced → ∃ t, exec (.layoutHeaderWrite tag border undocked) s = .next t ∧
        endsAs (replied tag 0x02 .ok []
          { s with lu.border := border, lu.undocked := undocked, lu.headerChanged := true }) [.reqTaken] t) ∧
      (s.sq.quiesce ≠ .quiesced → ∃ t, exec (.layoutHeaderWrite tag border undocked) s = .next t ∧
        endsAs (replied tag 0x02 .notQuiesced [] s) [.reqTaken, .layoutRefused] t)) ∧
    (∀ (i : Fin 8) (enabled : Bool) (ox oy rw rh background : Half) (fits free : Prop),
      (fits ↔ 16 ≤ rw.toNat ∧ 16 ≤ rh.toNat ∧ ox.toNat + rw.toNat ≤ 16 * s.lu.width ∧
        oy.toNat + rh.toNat ≤ 16 * s.lu.height) →
      (free ↔ ∀ j : Fin 8, j ≠ i → (regionOf j s).enabled = true →
        rectsOverlap ox oy rw rh (regionOf j s).ox (regionOf j s).oy (regionOf j s).rw (regionOf j s).rh = false) →
      (s.sq.quiesce ≠ .quiesced → ∃ t, exec (.layoutRegionWrite tag i enabled ox oy rw rh background) s = .next t ∧
        endsAs (replied tag 0x02 .notQuiesced [] s) [.reqTaken, .layoutRefused] t) ∧
      (s.sq.quiesce = .quiesced → enabled = true → ¬ fits →
        ∃ t, exec (.layoutRegionWrite tag i enabled ox oy rw rh background) s = .next t ∧
          endsAs (replied tag 0x02 .badValue [] s) [.reqTaken, .layoutRefused] t) ∧
      (s.sq.quiesce = .quiesced → enabled = true → fits → ¬ free →
        ∃ t, exec (.layoutRegionWrite tag i enabled ox oy rw rh background) s = .next t ∧
          endsAs (replied tag 0x02 .overlap [] s) [.reqTaken, .layoutRefused] t) ∧
      (s.sq.quiesce = .quiesced → enabled = false → isOpen i s = true →
        ∃ t, exec (.layoutRegionWrite tag i enabled ox oy rw rh background) s = .next t ∧
          endsAs (replied tag 0x02 .streamIsOpen [] s) [.reqTaken, .layoutRefused] t) ∧
      (s.sq.quiesce = .quiesced → (enabled = true ∧ fits ∧ free) ∨ (enabled = false ∧ isOpen i s = false) →
        ∃ t, exec (.layoutRegionWrite tag i enabled ox oy rw rh background) s = .next t ∧
          endsAs (replied tag 0x02 .ok []
            (setRegion i ⟨enabled, ox, oy, rw, rh, background, true, (regionOf i s).stale⟩ s)) [.reqTaken] t))

/-- Writes of STREAM entries 1 to 8 (R36), of KEYMAP entries (R148), and of the settings record (R160): each of its items is
brought into its range, and the debounce depth acts on the counts at once (R140). -/
def Obligations.StreamKeymapAndSettingsWrites : Prop :=
  (∀ (tag : Byte) (s : State), takesRequest s →
    (∀ (i : Fin 8) (stale : Bool), ∃ t, exec (.streamWrite tag i stale) s = .next t ∧
      endsAs (replied tag 0x02 .ok []
        (setRegion i { regionOf i s with stale := (regionOf i s).stale && stale } s)) [.reqTaken] t) ∧
    (∀ (entry : Half) (cls value : Byte),
      (384 ≤ entry.toNat → ∃ t, exec (.keymapWrite tag entry cls value) s = .next t ∧
        endsAs (replied tag 0x02 .badIndex [] s) [.reqTaken] t) ∧
      (entry.toNat < 384 →
        (4 < cls.toNat ∨ (cls = 1 ∧ value = 0) ∨ (cls = 2 ∧ 7 < value.toNat) ∨ (cls = 3 ∧ value ≠ 1 ∧ value ≠ 2) ∨
            (cls = 4 ∧ value ≠ 1 ∧ value ≠ 2) → ∃ t, exec (.keymapWrite tag entry cls value) s = .next t ∧
          endsAs (replied tag 0x02 .badValue [] s) [.reqTaken] t) ∧
        (∀ e : KeyEntry,
          (cls = 0 ∧ e = .none) ∨ (cls = 1 ∧ value ≠ 0 ∧ e = .ordinary value) ∨
              (cls = 2 ∧ ∃ m : Fin 8, value.toNat = m.val ∧ e = .modifier m) ∨
              (cls = 3 ∧ ((value = 1 ∧ e = .layer 1) ∨ (value = 2 ∧ e = .layer 2))) ∨
              (cls = 4 ∧ ((value = 1 ∧ e = .localAction .backlightUp) ∨ (value = 2 ∧ e = .localAction .backlightDown))) →
          ∃ t, exec (.keymapWrite tag entry cls value) s = .next t ∧
            endsAs (replied tag 0x02 .ok [] { s with
              ks.keymap := Vector.ofFn fun j : Fin 384 => if j.val = entry.toNat then e else s.ks.keymap[j] })
              [.reqTaken] t)))) ∧
  (∀ (tag lossLimit holdTime : Byte) (scanPeriod : Half) (depth faultTimeout retryLimit shedThreshold enables : Byte)
    (s : State), takesRequest s →
    ∃ t, exec (.settingsWrite tag lossLimit holdTime scanPeriod depth faultTimeout retryLimit shedThreshold enables) s = .next t ∧
      endsUnder (s.settings.enables.getLsbD 4) (replied tag 0x02 .ok [] { s with
        settings :=
          { lossLimit := min 15 (max 1 lossLimit.toNat), holdTime := max 1 holdTime.toNat
            scanPeriod := min 4000 (max 500 (scanPeriod.toNat - scanPeriod.toNat % 250))
            depth := min 15 (max 1 depth.toNat), faultTimeout := max 1 faultTimeout.toNat
            retryLimit := min 7 retryLimit.toNat, shedThreshold := min 16 (max 2 shedThreshold.toNat)
            enables := enables.setWidth 6 }
        ks.positions := Vector.ofFn fun p : Fin 128 => { s.ks.positions[p] with
          count := min s.ks.positions[p].count (min 15 (max 1 depth.toNat)) } }) [.reqTaken] t)

/-- PANEL writes (R136, R134) and PANEL_RESTART (R132): the level is set, its change counted and its event raised; a restart clears
the halt and the streak and marks every block, and with no block in flight the block at the scan pointer is sent. THE MODEL'S
CHOICE (log entry 10): the pixels that the panel port carries are those of the picture at the selection, and while a writer
holds the frame store each pixel holds either what the picture holds or what that write gives it; one that the write has
written once is read as written from then on (R24, R25). -/
def Obligations.PanelWritesAndRestart : Prop :=
  ∀ (tag : Byte) (s : State), takesRequest s →
    (∀ width height level : Byte,
      (width.toNat ≠ s.lu.width ∨ height.toNat ≠ s.lu.height → ∃ t, exec (.panelWrite tag width height level) s = .next t ∧
        endsAs (replied tag 0x02 .readOnly [] s) [.reqTaken] t) ∧
      (width.toNat = s.lu.width → height.toNat = s.lu.height → min level.toNat 15 = s.pu.level →
        ∃ t, exec (.panelWrite tag width height level) s = .next t ∧ endsAs (replied tag 0x02 .ok [] s) [.reqTaken] t) ∧
      (width.toNat = s.lu.width → height.toNat = s.lu.height → min level.toNat 15 ≠ s.pu.level →
        ∃ t, exec (.panelWrite tag width height level) s = .next t ∧
          endsAs (raised .backlight (BitVec.ofNat 24 (min level.toNat 15))
            (replied tag 0x02 .ok [] { s with pu.level := min level.toNat 15 }))
            ([.reqTaken, .backlightChange] ++ raiseCounts .backlight s) t)) ∧
    (s.pu.inFlight.isSome = true → ∃ t, exec (.panelRestart tag) s = .next t ∧
      endsAs (replied tag 0x0A .ok [] { s with
        pu.halted := false, pu.streak := 0, pu.dirty := List.replicate s.pu.dirty.length true }) [.reqTaken, .restarted] t) ∧
    (s.pu.inFlight = none → s.pu.dirty.length = blockCount s → s.pu.scan < blockCount s → s.fs.holder = none →
      ∃ t, exec (.panelRestart tag) s = .next t ∧
        endsAs (replied tag 0x0A .ok [] { s with
          pu.halted := false, pu.streak := 0
          pu.dirty := (List.replicate s.pu.dirty.length true).set s.pu.scan false
          pu.number := s.pu.number + 1
          pu.inFlight := some ⟨s.pu.scan, s.pu.number + 1, 10000⟩
          pu.scan := if s.pu.scan + 1 = blockCount s then 0 else s.pu.scan + 1
          pu.port := some ⟨s.pu.scan, s.pu.number + 1,
            (List.range 256).map fun p => imageRead s.fs.image (blockPixel s s.pu.scan p), 0⟩ })
          [.reqTaken, .restarted, .blockSent] t) ∧
    (s.pu.inFlight = none → s.pu.dirty.length = blockCount s → s.pu.scan < blockCount s → s.fs.holder ≠ none →
      ∃ t, exec (.panelRestart tag) s = .next t ∧
        (∃ w, t.pu.port = some w ∧ blockRead s t s.pu.scan w ∧
          endsAs (replied tag 0x0A .ok [] (sent s.pu.scan w.pixels { s with
            pu.halted := false, pu.streak := 0, pu.dirty := List.replicate s.pu.dirty.length true, free := t.free }))
            [.reqTaken, .restarted, .blockSent] t))

/-! ## Management requests: streams, quiesce, layout apply (chapters 2, 3) -/

/-- STREAM_OPEN (R42, R43), in the order of its checks. -/
def Obligations.StreamsOpenOnTheLighterSide : Prop :=
  ∀ (tag stream : Byte) (start : Half) (s : State), takesRequest s →
    (8 ≤ stream.toNat → ∃ t, exec (.streamOpen tag stream start) s = .next t ∧
      endsAs (replied tag 0x03 .badIndex [] s) [.reqTaken] t) ∧
    (∀ i : Fin 8, stream.toNat = i.val →
      ((regionOf i s).enabled = false → ∃ t, exec (.streamOpen tag stream start) s = .next t ∧
        endsAs (replied tag 0x03 .regionDisabled [] s) [.reqTaken] t) ∧
      ((regionOf i s).enabled = true → (streamOf i s).state ≠ .closed →
        ∃ t, exec (.streamOpen tag stream start) s = .next t ∧
          endsAs (replied tag 0x03 .streamIsOpen [] s) [.reqTaken] t) ∧
      ((regionOf i s).enabled = true → (streamOf i s).state = .closed → ∀ onA onB : Nat,
        onA = ((List.finRange 8).countP fun j => (streamOf j s).state != .closed && (streamOf j s).side == some .a) →
        onB = ((List.finRange 8).countP fun j => (streamOf j s).state != .closed && (streamOf j s).side == some .b) →
        ∃ t, exec (.streamOpen tag stream start) s = .next t ∧
          endsAs (replied tag 0x03 .ok []
            (setRegion i { regionOf i s with stale := false }
              (setStream i ⟨.ready, some (if onB < onA then .b else .a), start, none, false, none⟩ s))) [.reqTaken] t))

/-- STREAM_CLOSE (R44, R45): refusals; the close itself, with the stream's record, its entries and the one under execution, which
goes on as removed. And, whole where the sequencer then has no choice to make and no drain to end: the close of a stream
that waits for no fault and holds no reservation; of one in the waiting set of a fault, which is left, or cancelled when no
other stream is in it (R103), with the wake-ups of R97 and the tracker's lost count (R172); and of one that holds a
reservation, which is given back, the last on an entry waking every WAIT_WAY stream (R82, R97). -/
def Obligations.StreamsCloseWhereTheyStand : Prop :=
  ∀ (tag stream : Byte) (s : State), takesRequest s →
    (8 ≤ stream.toNat → ∃ t, exec (.streamClose tag stream) s = .next t ∧
      endsAs (replied tag 0x04 .badIndex [] s) [.reqTaken] t) ∧
    (∀ i : Fin 8, stream.toNat = i.val →
      ((streamOf i s).state = .closed → ∃ t, exec (.streamClose tag stream) s = .next t ∧
        endsAs (replied tag 0x04 .streamClosed [] s) [.reqTaken] t) ∧
      ((streamOf i s).state ≠ .closed → ∃ t, exec (.streamClose tag stream) s = .next t ∧
        drawingOnly (passed s) t ∧ t.lc.replies = s.lc.replies ++ [⟨tag, 0x04, .ok, []⟩] ∧ t.me.inProgress = none ∧
        streamOf i t = ⟨.closed, none, (streamOf i s).expected, none, false, none⟩ ∧
        (∀ side, (streamOf i s).side = some side → (∀ e ∈ queueOf side t, e.stream ≠ i) ∧
          ∀ r, engineOf side s = some r → r.stream = i → engineOf side t = some { r with removed := true }) ∧
        (∀ j : Fin 8, j ≠ i → (streamOf j t).expected = (streamOf j s).expected ∧
          (streamOf j t).rewind = (streamOf j s).rewind ∧ (streamOf j t).side = (streamOf j s).side) ∧
        (s.sq.quiesce ≠ .quiescing → t.sq.quiesce = s.sq.quiesce) ∧ t.fs.image = s.fs.image ∧ t.pu = s.pu) ∧
      (∀ (side : Side) (u v : State), (streamOf i s).state ≠ .closed → (streamOf i s).side = some side →
        v = setEngine side ((engineOf side s).map fun r => if r.stream = i then { r with removed := true } else r)
          (setQueue side ((queueOf side s).filter fun e => e.stream != i) s) →
        ((s.tf.recA.active = false ∨ s.tf.recA.waiting.getLsbD i.val = false) →
          (s.tf.recB.active = false ∨ s.tf.recB.waiting.getLsbD i.val = false) →
          ((streamOf i s).reservation = none →
            u = setStream i ⟨.closed, none, (streamOf i s).expected, none, false, none⟩ v → settled u →
            ∃ t, exec (.streamClose tag stream) s = .next t ∧ endsAs (replied tag 0x04 .ok [] u) [.reqTaken] t) ∧
          (∀ (key : Word) (n : Fin 64) (w : Fin 4), (streamOf i s).reservation = some key → foundAt key n w s →
            u = setStream i ⟨.closed, none, (streamOf i s).expected, none, false, none⟩ (released i n w v) → settled u →
            ∃ t, exec (.streamClose tag stream) s = .next t ∧ endsAs (replied tag 0x04 .ok [] u) [.reqTaken] t)) ∧
        (∀ x : Side, s.tf.recA.waiting &&& s.tf.recB.waiting = 0 → (streamOf i s).reservation = none →
          (recordOf x s).active = true → (recordOf x s).waiting.getLsbD i.val = true →
          ((recordOf x s).waiting ≠ BitVec.ofNat 8 (2 ^ i.val) →
            u = setStream i ⟨.closed, none, (streamOf i s).expected, none, false, none⟩ (setRecord x { recordOf x s with
              waiting := (recordOf x s).waiting &&& ~~~ BitVec.ofNat 8 (2 ^ i.val) } v) → settled u →
            ∃ t, exec (.streamClose tag stream) s = .next t ∧ endsAs (replied tag 0x04 .ok [] u) [.reqTaken] t) ∧
          (∀ dir : Vector TileSet 64, (recordOf x s).waiting = BitVec.ofNat 8 (2 ^ i.val) →
            pendingCleared (recordOf x s).key s dir →
            u = { setRecord x ⟨false, 0, 0, 0, 0, none, false, false⟩ v with
              tc.dir := dir
              sq.streams := Vector.ofFn fun j : Fin 8 =>
                if j = i then ⟨.closed, none, (streamOf i s).expected, none, false, none⟩ else wokenByIdle x (streamOf j s)
              mn.tracker := afterLoss x s.mn.tracker } → settled u →
            ∃ t, exec (.streamClose tag stream) s = .next t ∧
              endsAs (replied tag 0x04 .ok [] u) [.reqTaken, .cancelled] t))))

/-- QUIESCE (R61, R62): from QUIESCED, and with nothing to drain, it is answered at once; else it stays in progress. And the end
of the drain: in QUIESCING an end of an execution, a fault timer's expiry or a TILE frame that leaves nothing to drain makes
the state QUIESCED, ends the request and queues its OK; one that leaves something changes none of these. The end of the last
execution, with all else drained, is such an event. (A STREAM_CLOSE that comes while the QUIESCE is in progress is answered
BUSY; that no event at all leaves QUIESCING standing with nothing to drain is among the laws that every step keeps.) -/
def Obligations.QuiesceWaitsForTheDrain : Prop :=
  (∀ (tag : Byte) (s : State), takesRequest s →
    (s.sq.quiesce = .quiesced → ∃ t, exec (.quiesce tag) s = .next t ∧
      endsAs (replied tag 0x05 .ok [] s) [.reqTaken] t) ∧
    (s.sq.quiesce = .running → nothingLeft s → ∃ t, exec (.quiesce tag) s = .next t ∧
      endsAs (replied tag 0x05 .ok [] { s with sq.quiesce := .quiesced }) [.reqTaken] t) ∧
    (s.sq.quiesce = .running → ¬ nothingLeft s → ∃ t, exec (.quiesce tag) s = .next t ∧
      endsAs (started tag 0x05 .quiesce { s with sq.quiesce := .quiescing }) [.reqTaken] t)) ∧
  (∀ (c : Instr) (side : Side) (tag kind : Byte) (s : State), s.sq.quiesce = .quiescing →
    s.me.inProgress = some ⟨tag, kind, .quiesce, false⟩ → ¬ nothingLeft s →
    (c = .executionEnd side ∨ c = .faultTimerExpiry side ∨ ∃ key sector data, c = .tile key sector data) →
    ∃ t, exec c s = .next t ∧
      (nothingLeft t → t.sq.quiesce = .quiesced ∧ t.me.inProgress = none ∧
        t.lc.replies = s.lc.replies ++ [⟨tag, kind, .ok, []⟩]) ∧
      (¬ nothingLeft t → t.sq.quiesce = .quiescing ∧ t.me.inProgress = s.me.inProgress ∧ t.lc.replies = s.lc.replies)) ∧
  (∀ (side : Side) (tag kind : Byte) (s : State) (r : ExecRecord), s.sq.quiesce = .quiescing →
    s.me.inProgress = some ⟨tag, kind, .quiesce, false⟩ → engineOf side s = some r → s.fs.holder = some (.engine side) →
    (r.removed = true ∧ queueOf side s = [] ∨
      r.removed = false ∧ ∃ e, queueOf side s = [e] ∧ e.stream = r.stream ∧ e.seq = r.seq ∧ e.pos = r.pos) →
    queueOf (otherSide side) s = [] → engineOf (otherSide side) s = none → s.tf.recA.active = false →
    s.tf.recB.active = false → ∃ t, exec (.executionEnd side) s = .next t ∧ nothingLeft t ∧ t.sq.quiesce = .quiesced ∧
      t.me.inProgress = none ∧ t.lc.replies = s.lc.replies ++ [⟨tag, kind, .ok, []⟩])

/-- RESUME (R33, R64 to R66): refused outside QUIESCED. With a changed flag set the layout apply begins: the regions both enabled
and changed are noted and stale, every changed flag is clear, the request stays in progress; it takes the frame store, or
waits for it behind the others when a writer holds it, as a teardown fill may (R25, R37). THE MODEL'S CHOICE: LAYOUT_APPLY is
counted at this event in both cases (log entry 12), and began is the model's own note of the moment at which a writer is given
the frame store (log entry 9). With no changed flag set the steps 2 to
4 follow at once: the sides are rebalanced, the highest-numbered streams of the fuller side moving until the sides differ
by at most 1, each move counted; every open stream has a QUIESCE_END rewind, the state is RUNNING, the reply is queued. -/
def Obligations.ResumeAppliesTheLayout : Prop :=
  ∀ (tag : Byte) (s : State), takesRequest s →
    (s.sq.quiesce ≠ .quiesced → ∃ t, exec (.resume tag) s = .next t ∧
      endsAs (replied tag 0x06 .notQuiesced [] s) [.reqTaken] t) ∧
    (∀ mask : BitVec 8, s.sq.quiesce = .quiesced →
      s.lu.headerChanged = true ∨ (∃ i : Fin 8, (regionOf i s).changed = true) →
      (∀ i : Fin 8, mask.getLsbD i.val = ((regionOf i s).enabled && (regionOf i s).changed)) →
      (s.fs.holder = none → s.fs.waiting = []) → ∀ u : State,
      u = { started tag 0x06 .resume s with
        lu.apply := some mask, lu.headerChanged := false
        lu.regions := Vector.ofFn fun i : Fin 8 => { regionOf i s with
          changed := false, stale := (regionOf i s).stale || mask.getLsbD i.val }
        fs.holder := if s.fs.holder = none then some .layoutApply else s.fs.holder
        fs.began := if s.fs.holder = none then s.free else s.fs.began
        fs.waiting := if s.fs.holder = none then [] else s.fs.waiting ++ [.layoutApply] } →
      ∃ t, exec (.resume tag) s = .next t ∧
        endsAs (if mask = 0 then u else raised .regionStale (mask.setWidth 24) u)
          ([.reqTaken, .layoutApply] ++ if mask = 0 then [] else raiseCounts .regionStale s) t) ∧
    (s.sq.quiesce = .quiesced → s.lu.headerChanged = false → (∀ i : Fin 8, (regionOf i s).changed = false) →
      ∃ t, exec (.resume tag) s = .next t ∧ drawingOnly (passed s) t ∧ t.sq.quiesce = .running ∧
        t.lc.replies = s.lc.replies ++ [⟨tag, 0x06, .ok, []⟩] ∧ t.me.inProgress = none ∧
        (openCount .a t ≤ openCount .b t + 1 ∧ openCount .b t ≤ openCount .a t + 1) ∧
        (∀ i : Fin 8, (streamOf i s).state = .closed → streamOf i t = streamOf i s) ∧
        (∀ i : Fin 8, (streamOf i s).state ≠ .closed → (streamOf i t).state = (streamOf i s).state ∧
          (streamOf i t).rewind = some .quiesceEnd ∧ (streamOf i t).expected = (streamOf i s).expected ∧
          (streamOf i t).reservation = (streamOf i s).reservation) ∧
        (openCount .a s ≤ openCount .b s + 1 → openCount .b s ≤ openCount .a s + 1 →
          ∀ i : Fin 8, (streamOf i t).side = (streamOf i s).side) ∧
        (∀ i : Fin 8, (streamOf i t).side = balancedSide s i) ∧
        countedAs (.reqTaken :: List.replicate (movesToBalance s) .rebalanceMove) s t ∧
        t.sq.queueA = s.sq.queueA ∧ t.sq.queueB = s.sq.queueB ∧ t.de = s.de ∧ t.tc = s.tc ∧ t.tf = s.tf ∧ t.fs = s.fs ∧
        t.pu = s.pu ∧ t.lu = s.lu)

/-- The end of the layout apply (R33, R34, R64): each pixel holds the background of the noted region it lies in, what it held if it
lies in another enabled region, else the border; exactly the blocks that were dirty and those with a pixel written are dirty, or
sent by the selection that follows; the RESUME goes on to its end: the sides are rebalanced (R65), each move counted. With no apply writing nothing
happens (log entry 3). THE MODEL'S CHOICE: the fill is written whole at this event (log entry 9), and a block in flight may
be read before or after (log entry 10). -/
def Obligations.LayoutApplyPaintsTheScreen : Prop :=
  (∀ (r : Region) (px py : Nat), inRegion r px py = true ↔
    r.ox.toNat ≤ px ∧ px < r.ox.toNat + r.rw.toNat ∧ r.oy.toNat ≤ py ∧ py < r.oy.toNat + r.rh.toNat) ∧
  ∀ (s : State),
    (s.lu.apply = none ∨ s.fs.holder ≠ some .layoutApply → exec .layoutApplyEnd s = .next s) ∧
    (∀ mask : BitVec 8, s.lu.apply = some mask → s.fs.holder = some .layoutApply → layoutLegal s → panelShape s →
      imageWf (panelPixels s) s.fs.image → ∃ t, exec .layoutApplyEnd s = .next t ∧ t.fs.image = writtenImage s ∧
        marksBlocks (fun col row => ∃ px py : Nat, px / 16 = col ∧ py / 16 = row ∧
          ((∃ i : Fin 8, (regionOf i s).enabled = true ∧ mask.getLsbD i.val = true ∧ inRegion (regionOf i s) px py = true) ∨
            ∀ i : Fin 8, (regionOf i s).enabled = true → inRegion (regionOf i s) px py = false)) s t ∧
        (∀ px py : Nat, px < panelW s → py < panelH s →
          (∀ i : Fin 8, (regionOf i s).enabled = true → inRegion (regionOf i s) px py = true →
            imageRead t.fs.image (py * panelW s + px) =
              if mask.getLsbD i.val = true then (regionOf i s).background
              else imageRead s.fs.image (py * panelW s + px)) ∧
          ((∀ i : Fin 8, (regionOf i s).enabled = true → inRegion (regionOf i s) px py = false) →
            imageRead t.fs.image (py * panelW s + px) = s.lu.border)) ∧
        t.lu.apply = none ∧ t.sq.quiesce = .running ∧ t.fs.holder = s.fs.waiting.head? ∧
        (∀ i : Fin 8, (streamOf i s).state ≠ .closed → (streamOf i t).rewind = some .quiesceEnd ∧
          (streamOf i t).expected = (streamOf i s).expected ∧ (streamOf i t).state = (streamOf i s).state) ∧
        (∀ tag kind, s.me.inProgress = some ⟨tag, kind, .resume, false⟩ → t.me.inProgress = none ∧
          t.lc.replies = s.lc.replies ++ [⟨tag, kind, .ok, []⟩]) ∧
        (∀ i : Fin 8, (streamOf i t).side = balancedSide s i) ∧
        (s.pu.inFlight.isSome = true → readOn t.fs.image s t ∧
          (s.fs.waiting.head? ≠ some .teardownFill →
            countedAs (List.replicate (movesToBalance s) .rebalanceMove) s t)) ∧
        drawingOnly { s with lu.apply := none } t ∧ t.tc = s.tc ∧ t.tf = s.tf ∧ t.de = s.de)

/-- The end of the teardown fill (R37): every pixel holds the colour the fill began with, every block is dirty, and the frame store
passes on. With a block in flight or the panel halted no block is sent; else the one at the scan pointer is. With no fill
running nothing happens (log entry 3). THE MODEL'S CHOICE: the fill is written whole at this event (log entry 9), and a
block in flight may be read before or after (log entry 10). -/
def Obligations.TeardownFillClearsTheScreen : Prop :=
  ∀ (s : State),
    (s.lu.fillColour = none ∨ s.fs.holder ≠ some .teardownFill → exec .teardownFillEnd s = .next s) ∧
    (∀ (c : Half) (u : State), s.lu.fillColour = some c → s.fs.holder = some .teardownFill → .teardownFill ∉ s.fs.waiting →
      u = { s with
        fs.image := [(0, c)], fs.holder := s.fs.waiting.head?, fs.waiting := s.fs.waiting.tail, lu.fillColour := none
        fs.began := if s.fs.waiting = [] then s.fs.began else s.free
        pu.dirty := List.replicate s.pu.dirty.length true } →
      writtenImage s = [(0, c)] ∧
      (s.pu.inFlight.isSome = true ∨ s.pu.halted = true → ∃ t, exec .teardownFillEnd s = .next t ∧
        (∀ a : Nat, imageRead t.fs.image a = c) ∧
        endsAs { u with
          pu.port := t.pu.port, free := t.free, fs.began := if s.fs.waiting = [] then s.fs.began else t.free } [] t ∧
        readOn [(0, c)] s t) ∧
      (s.pu.inFlight = none → s.pu.halted = false → s.pu.dirty.length = blockCount s → s.pu.scan < blockCount s →
        ∃ t, exec .teardownFillEnd s = .next t ∧
          endsAs (sent s.pu.scan (List.replicate 256 c) u) [.blockSent] t))

/-! ## Management requests: tiles, DOCK_RESET, store, monitor (chapters 4, 9, 10) -/

/-- TILE_FLUSH and the steps of its sweep (R86, R87, R89): each step leaves the set at the pointer as reset does and moves the
pointer on; the step of set 63 ends the sweep and queues the reply. With no sweep running no step falls (log entry 3). -/
def Obligations.TheFlushSweepEmptiesTheDirectory : Prop :=
  (∀ (tag : Byte) (s : State), takesRequest s →
    (s.sq.quiesce ≠ .quiesced → ∃ t, exec (.tileFlush tag) s = .next t ∧
      endsAs (replied tag 0x07 .notQuiesced [] s) [.reqTaken] t) ∧
    (s.sq.quiesce = .quiesced → ∃ t, exec (.tileFlush tag) s = .next t ∧
      endsAs (started tag 0x07 .tileFlush { s with tc.sweep := 0 }) [.reqTaken] t)) ∧
  (∀ s : State, 64 ≤ s.tc.sweep → exec .sweepStep s = .next s) ∧
  (∀ (s : State) (n : Fin 64), s.tc.sweep = n.val → ∀ u : State,
    u = { s with
      tc.sweep := n.val + 1
      tc.dir := s.tc.dir.set n (Vector.ofFn fun w : Fin 4 => ⟨false, 0, 0, w.val, false, false, 0⟩) } →
    (n.val < 63 → ∃ t, exec .sweepStep s = .next t ∧ endsAs u [] t) ∧
    (∀ tag kind, n.val = 63 → s.me.inProgress = some ⟨tag, kind, .tileFlush, false⟩ →
      ∃ t, exec .sweepStep s = .next t ∧
        endsAs { u with me.inProgress := none, lc.replies := s.lc.replies ++ [⟨tag, kind, .ok, []⟩] } [] t) ∧
    (n.val = 63 → s.me.inProgress = none → ∃ t, exec .sweepStep s = .next t ∧ endsAs u [] t))

/-- TILE_PIN (R84), in the order of its checks, and TILE_UNPIN (R85), whole where the sequencer then has no choice to make and no
drain to end; else the handovers of R47 follow. In every case the reply to an unpin is OK for a key that is present, which
then has no pin, and NOT_PRESENT for any other. -/
def Obligations.PinsProtectAtMostThreeWays : Prop :=
  ∀ (tag : Byte) (key : Word) (s : State) (n : Fin 64), takesRequest s → n.val = key.toNat % 64 →
    (key = 0 ∨ (∀ w : Fin 4, s.tc.dir[n][w].valid = true → s.tc.dir[n][w].key ≠ key) →
      (∃ t, exec (.tilePin tag key) s = .next t ∧ endsAs (replied tag 0x08 .notPresent [] s) [.reqTaken] t) ∧
      (settled s → ∃ t, exec (.tileUnpin tag key) s = .next t ∧
        endsAs (replied tag 0x09 .notPresent [] s) [.reqTaken] t)) ∧
    (∀ w : Fin 4, key ≠ 0 → s.tc.dir[n][w].valid = true → s.tc.dir[n][w].key = key →
      (∀ v : Fin 4, v < w → s.tc.dir[n][v].valid = true → s.tc.dir[n][v].key ≠ key) →
      (s.tc.dir[n][w].sectors ≠ 15 ∨ s.tc.dir[n][w].pending = true → ∃ t, exec (.tilePin tag key) s = .next t ∧
        endsAs (replied tag 0x08 .notPresent [] s) [.reqTaken] t) ∧
      (s.tc.dir[n][w].sectors = 15 → s.tc.dir[n][w].pending = false →
        (s.tc.dir[n][w].pinned = true → ∃ t, exec (.tilePin tag key) s = .next t ∧
          endsAs (replied tag 0x08 .ok [] s) [.reqTaken] t) ∧
        (s.tc.dir[n][w].pinned = false → 3 ≤ ((List.finRange 4).countP fun v => s.tc.dir[n][v].pinned) →
          ∃ t, exec (.tilePin tag key) s = .next t ∧ endsAs (replied tag 0x08 .pinLimit [] s) [.reqTaken] t) ∧
        (s.tc.dir[n][w].pinned = false → ((List.finRange 4).countP fun v => s.tc.dir[n][v].pinned) < 3 →
          ∃ t, exec (.tilePin tag key) s = .next t ∧
            endsAs (replied tag 0x08 .ok [] { s with
              tc.dir := s.tc.dir.set n (s.tc.dir[n].set w { s.tc.dir[n][w] with pinned := true }) }) [.reqTaken] t)) ∧
      (settled s → s.tc.dir[n][w].pinned = false → ∃ t, exec (.tileUnpin tag key) s = .next t ∧
        endsAs (replied tag 0x09 .ok [] s) [.reqTaken] t) ∧
      (∀ u : State, s.tc.dir[n][w].pinned = true → u = { s with
          tc.dir := s.tc.dir.set n (s.tc.dir[n].set w { s.tc.dir[n][w] with pinned := false })
          sq.streams := Vector.ofFn fun i : Fin 8 =>
            if (streamOf i s).state = .waitWay then { streamOf i s with state := .ready } else streamOf i s } →
        settled u → ∃ t, exec (.tileUnpin tag key) s = .next t ∧ endsAs (replied tag 0x09 .ok [] u) [.reqTaken] t)) ∧
    (∃ t, exec (.tileUnpin tag key) s = .next t ∧ drawingOnly (passed s) t ∧
      (key = 0 ∨ (∀ w : Fin 4, s.tc.dir[n][w].valid = true → s.tc.dir[n][w].key ≠ key) →
        t.lc.replies = s.lc.replies ++ [⟨tag, 0x09, .notPresent, []⟩]) ∧
      (∀ w : Fin 4, key ≠ 0 → s.tc.dir[n][w].valid = true → s.tc.dir[n][w].key = key →
        (∀ v : Fin 4, v < w → s.tc.dir[n][v].valid = true → s.tc.dir[n][v].key ≠ key) →
        t.lc.replies = s.lc.replies ++ [⟨tag, 0x09, .ok, []⟩] ∧ t.tc.dir[n][w].pinned = false) ∧
      t.fs.image = s.fs.image ∧ t.pu = s.pu ∧
      ∀ i : Fin 8, (streamOf i t).expected = (streamOf i s).expected)

/-- DOCK_RESET (R20, R68, R90, R106, R161, R163, R170): the link, the attachment, GREET, the layout, the picture, the panel, the
keys, the settings and the store are kept; the rest is as after a reset; the OK is the only reply. A GREET transmission goes
on; any other is cut (R19), how many of its bytes had left being a free value (log entry 13). What counts up to the reset of
the Monitor is gone with it, TX_CUT and REQ_TAKEN among them (log entry 32). -/
def Obligations.DockResetKeepsTheSession : Prop :=
  ∀ (tag : Byte) (s u : State), takesRequest s →
    u = { passed s with
      lc.keys := [], lc.replies := [⟨tag, 0x0B, .ok, []⟩]
      sq.streams := Vector.ofFn fun i : Fin 8 => ⟨.closed, none, (streamOf i s).expected, none, false, none⟩
      sq.queueA := [], sq.queueB := [], sq.quiesce := .running
      de.engineA := s.de.engineA.map fun r => { r with removed := true }
      de.engineB := s.de.engineB.map fun r => { r with removed := true }
      tc.dir := State.reset.tc.dir, tc.sweep := 64
      tf := ⟨⟨false, 0, 0, 0, 0, none, false, false⟩, ⟨false, 0, 0, 0, 0, none, false, false⟩⟩
      me.events := Vector.replicate 6 ⟨false, 0, false, 0⟩
      mn := ⟨Vector.replicate 4 ⟨0, .occurrence, .tileLookup, 0, .anyStreamWaiting⟩, ⟨none, 0, 0, 0, 0⟩⟩ } →
    ((∀ x, s.lc.tx = some x → x.item = .greet) → ∃ t, exec (.dockReset tag) s = .next t ∧ endsAs u [] t) ∧
    (∀ x, s.lc.tx = some x → x.item ≠ .greet → ∃ t, exec (.dockReset tag) s = .next t ∧
      endsAs { u with lc.tx := none, lc.laneOut := t.lc.laneOut, free := s.free + 1 } [] t ∧
      cutOnLane x.frame t.lc.laneOut)

/-- The store requests (R165): the checks, the begin of an erase and of a program, and the bytes a read returns. -/
def Obligations.StoreRequestsAreChecked : Prop :=
  ∀ (tag : Byte) (s : State), takesRequest s →
    (∀ page : Byte,
      (3 < page.toNat → ∃ t, exec (.storeErase tag page) s = .next t ∧
        endsAs (replied tag 0x0C .badValue [] s) [.reqTaken] t) ∧
      (page.toNat ≤ 3 → ∃ t, exec (.storeErase tag page) s = .next t ∧
        endsAs (started tag 0x0C (.erase page.toNat) s) [.reqTaken] t)) ∧
    (∀ (offset : Half) (data : List Byte) (good : Prop),
      (good ↔ 1 ≤ data.length ∧ data.length ≤ 64 ∧ offset.toNat + data.length ≤ 4096 ∧
        offset.toNat / 1024 = (offset.toNat + data.length - 1) / 1024) →
      (¬ good → data.length ≤ 156 → ∃ t, exec (.storeWrite tag offset data) s = .next t ∧
        endsAs (replied tag 0x0D .badValue [] s) [.reqTaken] t) ∧
      (good → ∃ t, exec (.storeWrite tag offset data) s = .next t ∧
        endsAs (started tag 0x0D (.program offset.toNat data) s) [.reqTaken] t)) ∧
    (∀ (offset : Half) (count : Byte) (good : Prop),
      (good ↔ 1 ≤ count.toNat ∧ count.toNat ≤ 128 ∧ offset.toNat + count.toNat ≤ 4096) →
      (¬ good → ∃ t, exec (.storeRead tag offset count) s = .next t ∧
        endsAs (replied tag 0x0E .badValue [] s) [.reqTaken] t) ∧
      (good → ∃ t, exec (.storeRead tag offset count) s = .next t ∧
        endsAs (replied tag 0x0E .ok
          ((List.range count.toNat).map fun k => cellRead 255 s.flash (offset.toNat + k)) s) [.reqTaken] t))

/-- The ends of an erase (R166) and of a program (R167, which can clear bits and cannot set them): what every byte of the store
then holds, the reply unless a teardown has taken it (R157), and the counts. THE MODEL'S CHOICE (log entry 35): a program that
leaves a byte different is counted as PROGRAM_MISMATCH also when its reply is taken. With no such operation in progress
nothing happens (log entry 3). -/
def Obligations.EraseAndProgramEnds : Prop :=
  ∀ (s : State) (tag kind : Byte) (silent : Bool),
    (∀ page : Nat, s.me.inProgress = some ⟨tag, kind, .erase page, silent⟩ →
      exec .programDone s = .next s ∧
      ∃ t, exec .eraseDone s = .next t ∧
        endsAs { s with
          flash := t.flash, me.inProgress := none
          lc.replies := if silent then s.lc.replies else s.lc.replies ++ [⟨tag, kind, .ok, []⟩] } [.eraseDone] t ∧
        ∀ a : Nat, cellRead 255 t.flash a =
          if 1024 * page ≤ a ∧ a < 1024 * page + 1024 then 255 else cellRead 255 s.flash a) ∧
    (∀ (offset : Nat) (data : List Byte), s.me.inProgress = some ⟨tag, kind, .program offset data, silent⟩ →
      exec .eraseDone s = .next s ∧
      ∀ good : Prop, (good ↔ ∀ i : Nat, i < data.length →
          cellRead 255 s.flash (offset + i) &&& byteAt data i = byteAt data i) →
        ∃ t, exec .programDone s = .next t ∧
          (good → endsAs { s with
            flash := t.flash, me.inProgress := none
            lc.replies := if silent then s.lc.replies else s.lc.replies ++ [⟨tag, kind, .ok, []⟩] } [.programDone] t) ∧
          (¬ good → endsAs { s with
            flash := t.flash, me.inProgress := none
            lc.replies := if silent then s.lc.replies else s.lc.replies ++ [⟨tag, kind, .storeMismatch, []⟩] }
            [.programDone, .programMismatch] t) ∧
          (∀ i : Nat, i < data.length →
            cellRead 255 t.flash (offset + i) = cellRead 255 s.flash (offset + i) &&& byteAt data i) ∧
          (∀ a : Nat, a < offset ∨ offset + data.length ≤ a → cellRead 255 t.flash a = cellRead 255 s.flash a)) ∧
    (s.me.inProgress = none → exec .eraseDone s = .next s ∧ exec .programDone s = .next s)

/-- MONITOR_SET (R170, R172), in the order of its checks. THE MODEL'S CHOICE (log entry 31): the results that a MONITOR_SET of
entry 4 clears are the last and the largest latency and the counts of completed and lost faults. A counter whose selection is
replaced reads 0 also when it had selected REQ_TAKEN, which is counted before (log entry 32). The other counters are as the
count of REQ_TAKEN alone leaves them, w below: each that comes to the maximum by it, or by a raise that follows, raises
MONITOR_SATURATED with the mask of its number when that is enabled, and each such raise is an EVENT_RAISED (R162, R163, R171);
nothing else of the Monitor or the pending set changes. The codes, and the
bit of each sub-event in its group, are those of section 11.8. -/
def Obligations.MonitorSetReplacesASelection : Prop :=
  (∀ (c : Counter) (u : SubEvent), c.selects u = true ↔
      c.mode = .occurrence ∧ c.group = u.group ∧ c.mask.getLsbD u.bit = true) ∧
  (∀ (b : Byte) (m : CounterMode), modeCode m = b ↔ [CounterMode.occurrence, .conditionTime, .conditionEdge][b.toNat]? = some m) ∧
  (∀ (b : Byte) (k : Condition), conditionCode k = b ↔
    [Condition.anyStreamWaiting, .sideQueueFull, .quiesceNotRunning, .engineBusy, .attachmentHeld][b.toNat]? = some k) ∧
  (∀ (b : Byte) (g : Group), groupCode g = b ↔
    [Group.tileLookup, .tileFill, .fault, .drawFrame, .shed, .link, .panel, .keys][b.toNat]? = some g) ∧
  (∀ (b : Byte) (g : Group), groupOfCode b = some g ↔ groupCode g = b) ∧
  (∀ (g : Group) (us : List SubEvent),
    [[.hit, .sectorMiss, .absent, .evict], [.fillPresent, .fillAllocated, .fillNoWay, .fillBad, .fillFlushed],
      [.raised, .joined, .widened, .slotWait, .wayWait, .completed, .retried, .abandoned, .cancelled, .represented],
      [.accepted, .malformed, .closedStream, .heldOff, .gap, .duplicate, .noRoom, .commandSkipped, .placeDrawn, .fillDrawn,
        .scrollDrawn, .clipped, .keyZero], [.shedRun, .commandsShed, .shedNone, .rebalanceMove],
      [.checkFail, .frameCut, .badFrame, .notAttached, .linkDown, .linkRealign, .linkUp, .holdStart, .reattach, .teardown,
        .txCut, .reqTaken, .reqBusy, .reqDiscarded, .eventRaised, .eventSent, .eraseDone, .programDone, .programMismatch],
      [.layoutRefused, .layoutApply, .teardownFill, .blockSent, .blockDone, .lateAck, .blockTimeout, .panelHalt, .restarted,
        .backlightChange],
      [.scan, .chatter, .pressAccepted, .releaseAccepted, .ghostWithheld, .ghostResolved, .localAction, .reportBuilt,
        .reportQueued, .reportCoalesced, .reattachSnapshot]][(groupCode g).toNat]? = some us →
    groupSize g = us.length ∧ ∀ (n : Nat) (u : SubEvent), us[n]? = some u → u.group = g ∧ u.bit = n) ∧
  ∀ (tag entry mode group condition : Byte) (unitMask : Word) (s : State), takesRequest s →
    (4 < entry.toNat → ∃ t, exec (.monitorSet tag entry mode group unitMask condition) s = .next t ∧
      endsAs (replied tag 0x0F .badIndex [] s) [.reqTaken] t) ∧
    (entry = 4 → ∃ t, exec (.monitorSet tag entry mode group unitMask condition) s = .next t ∧
      endsAs (replied tag 0x0F .ok [] { s with mn.tracker := ⟨s.mn.tracker.armed, 0, 0, 0, 0⟩ }) [.reqTaken] t) ∧
    (∀ n : Fin 4, entry.toNat = n.val →
      (2 < mode.toNat ∨ 7 < group.toNat ∨ 4 < condition.toNat ∨
          (∃ g, groupOfCode group = some g ∧ 2 ^ groupSize g ≤ unitMask.toNat) →
        ∃ t, exec (.monitorSet tag entry mode group unitMask condition) s = .next t ∧
          endsAs (replied tag 0x0F .badValue [] s) [.reqTaken] t) ∧
      (∀ m g k, modeCode m = mode → groupCode g = group → conditionCode k = condition → unitMask.toNat < 2 ^ groupSize g →
        ∃ t, exec (.monitorSet tag entry mode group unitMask condition) s = .next t ∧
          t = { replied tag 0x0F .ok [] s with
            mn.counters := t.mn.counters, me.events := t.me.events, lc.tx := t.lc.tx } ∧
          t.mn.tracker = s.mn.tracker ∧ eventsKept s t ∧ (s.lc.tx.isSome = true → t.lc.tx = s.lc.tx) ∧
          t.mn.counters[n] = ⟨0, m, g, unitMask, k⟩ ∧
          ∃ w : State, selectionsKept s w ∧ countedAs [.reqTaken] s w ∧
            (∀ j : Fin 4, s.mn.counters[j].mode = .conditionEdge → w.mn.counters[j].value = s.mn.counters[j].value) ∧
            (∀ j : Fin 4, j ≠ n → t.mn.counters[j] = w.mn.counters[j]) ∧
            ∀ full : BitVec 24, (∀ b : Nat, full.getLsbD b = true ↔
              ∃ j : Fin 4, j.val = b ∧ s.mn.counters[j].value < 4294967295 ∧ w.mn.counters[j].value = 4294967295) →
            saturationRaised full s t))

/-! ## The panel, the keys, the time base (chapters 7, 8, 10) -/

/-- Acknowledgements (R129): one that echoes the number in flight completes the write, and the selection that follows sends the
next dirty block (R127, R128); any other is late and counted, no more. THE MODEL'S CHOICE (log entry 10): the pixels that the
panel port carries are those of the picture at the selection, and while a writer holds the frame store each pixel holds
either what the picture holds or what that write gives it, the latter from the moment on at which it has been written (R24,
R25); so it is of the pixels of the block write that completes that had still to be read, up to its end. Each pixel goes out as
two bytes, the low one first (section 11.3). -/
def Obligations.AcknowledgementsCompleteTheirWrite : Prop :=
  (∀ s : State, panelW s = 16 * s.lu.width ∧ panelH s = 16 * s.lu.height ∧ panelPixels s = panelW s * panelH s ∧
    blockCount s = s.lu.width * s.lu.height ∧
    ∀ col row p : Nat, col < s.lu.width →
      blockPixel s (row * s.lu.width + col) p = (16 * row + p / 16) * (16 * s.lu.width) + 16 * col + p % 16) ∧
  (∀ (w : BlockWrite) (p : Nat), p < w.pixels.length →
    (portBytes w)[2 * p]? = some ((w.pixels.getD p 0).setWidth 8) ∧
      (portBytes w)[2 * p + 1]? = some ((w.pixels.getD p 0 >>> 8).setWidth 8)) ∧
  ∀ (echo : Byte) (s : State),
    (s.pu.inFlight = none → ∃ t, exec (.acknowledgement echo) s = .next t ∧ endsAs s [.lateAck] t) ∧
    (∀ f, s.pu.inFlight = some f →
      (f.number ≠ echo → ∃ t, exec (.acknowledgement echo) s = .next t ∧ endsAs s [.lateAck] t) ∧
      (f.number = echo → s.pu.halted = true ∨ (∀ b : Nat, b < blockCount s → s.pu.dirty.getD b false = false) →
        s.pu.scan ≤ blockCount s → ∃ t, exec (.acknowledgement echo) s = .next t ∧
          endsAs { s with pu.inFlight := none, pu.streak := 0, pu.port := t.pu.port, free := t.free } [.blockDone] t ∧
          readOnWriting s t) ∧
      (∀ b : Nat, f.number = echo → s.pu.halted = false → s.fs.holder = none → b < blockCount s →
        s.pu.dirty.getD b false = true →
        (s.pu.scan ≤ b ∧ (∀ j : Nat, s.pu.scan ≤ j → j < b → s.pu.dirty.getD j false = false)) ∨
          (b < s.pu.scan ∧ (∀ j : Nat, j < b → s.pu.dirty.getD j false = false) ∧
            ∀ j : Nat, s.pu.scan ≤ j → j < blockCount s → s.pu.dirty.getD j false = false) →
        ∃ t, exec (.acknowledgement echo) s = .next t ∧
          endsAs { s with
            pu.dirty := s.pu.dirty.set b false, pu.number := s.pu.number + 1
            pu.inFlight := some ⟨b, s.pu.number + 1, 10000⟩, pu.streak := 0
            pu.scan := if b + 1 = blockCount s then 0 else b + 1
            pu.port := some ⟨b, s.pu.number + 1,
              (List.range 256).map fun p => imageRead s.fs.image (blockPixel s b p), 0⟩ } [.blockDone, .blockSent] t) ∧
      (∀ b : Nat, f.number = echo → s.pu.halted = false → s.fs.holder ≠ none →
        isNext (blockCount s) s.pu.scan (fun k => s.pu.dirty.getD k false) b → ∃ t, exec (.acknowledgement echo) s = .next t ∧
          (∃ w, t.pu.port = some w ∧ blockRead s t b w ∧
            endsAs (sent b w.pixels { s with pu.streak := 0, free := t.free }) [.blockDone, .blockSent] t)))

/-- The timeout of a block write (R130): its block is dirty again, and the third timeout in a row halts the panel; below three the
selection sends a block: the next dirty one in the order of R127, the block that timed out among them. While the timer runs
nothing falls (log entry 3). What the port carries while a writer holds the frame store is as at an acknowledgement (log
entry 10): a block sent again in the course of a write shows every pixel that the write had written before as written. -/
def Obligations.ThreeTimeoutsHaltThePanel : Prop :=
  ∀ s : State,
    (s.pu.inFlight = none → exec .blockTimeout s = .next s) ∧
    (∀ f, s.pu.inFlight = some f →
      (f.timer ≠ 0 → exec .blockTimeout s = .next s) ∧
      (f.timer = 0 → 3 ≤ s.pu.streak + 1 → ∃ t, exec .blockTimeout s = .next t ∧
        endsAs (raised .panelHalted 0 { s with
          pu.dirty := s.pu.dirty.set f.block true, pu.inFlight := none, pu.streak := s.pu.streak + 1, pu.halted := true
          pu.port := t.pu.port, free := t.free }) ([.blockTimeout, .panelHalt] ++ raiseCounts .panelHalted s) t ∧
        readOnWriting s t) ∧
      (∀ b : Nat, f.timer = 0 → s.pu.streak + 1 < 3 → s.pu.halted = false →
        isNext (blockCount s) s.pu.scan (fun k => (s.pu.dirty.set f.block true).getD k false) b →
        ∃ t, exec .blockTimeout s = .next t ∧
          (∃ w, t.pu.port = some w ∧ blockRead s t b w ∧ (s.fs.holder = none → t.free = s.free) ∧
            endsAs (sent b w.pixels { s with
              pu.dirty := s.pu.dirty.set f.block true, pu.streak := s.pu.streak + 1, free := t.free })
              [.blockTimeout, .blockSent] t)) ∧
      (f.timer = 0 → s.pu.streak + 1 < 3 → s.pu.halted = false → f.block < blockCount s →
        s.pu.dirty.length = blockCount s → ∃ t, exec .blockTimeout s = .next t ∧
          drawingOnly s t ∧ t.pu.streak = s.pu.streak + 1 ∧ t.pu.halted = false ∧ t.pu.level = s.pu.level ∧
          t.sq = s.sq ∧ t.de = s.de ∧ t.tc = s.tc ∧ t.tf = s.tf ∧ t.fs = s.fs ∧ t.lu = s.lu ∧
          (∃ g, t.pu.inFlight = some g ∧ g.number = s.pu.number + 1 ∧ g.timer = 10000 ∧ t.pu.number = g.number ∧
            ∀ b : Nat, b < blockCount s → t.pu.dirty.getD b false =
              ((s.pu.dirty.getD b false || b == f.block) && b != g.block)) ∧
          countedAs [.blockTimeout, .blockSent] s t))

/-- A scan (R138, R139, R141 to R143): every raw contact, count and debounced state takes its new value at once. A position newly
pressed is withheld when it meets the phantom condition against the positions that stay pressed and the new presses below
it; a withheld one stays so until it is released, or until another release leaves it meeting the condition no longer. The
latched keys are those before, less the released ones, then the withheld positions resolved and then the presses not
withheld, each in ascending order. The report is the reported state of the latched keys (R149, R150) and is queued when it
has changed (R151). Each LOCAL action among the keys newly latched acts on the backlight level in turn (R134, R147; log entry
30), and BACKLIGHT is raised with the level it comes to when one has changed it. What the scan counts is listed; nothing
outside the Key Scanner changes but the KEYS queue, the level, that event and the bookkeeping. Before the scan timer has run
down no scan takes place (log entries 3 and 25). The count of the first scans is the model's own (R137, log entry 34). -/
def Obligations.AScanDebouncesEveryPosition : Prop :=
  (∀ (latched : List Latched) (r : Report) (codes : List Byte), r = reportedState latched →
    codes = (latched.filterMap fun l => match l.entry with | .ordinary c => some c | _ => none).eraseDups →
    r.codes = codes.take 8 ∧ (r.overflow = true ↔ 8 < codes.length) ∧
      ∀ m : Fin 8, r.mods.getLsbD m.val = true ↔ ∃ l ∈ latched, l.entry = .modifier m) ∧
  ∀ (contacts : BitVec 128) (s : State),
    (s.ks.scanTimer ≠ 0 → exec (.scan contacts) s = .next s) ∧
    (s.ks.scanTimer = 0 → ∃ t, exec (.scan contacts) s = .next t ∧
      (∀ (p : Fin 128) (closed : Bool) (count : Nat), closed = contacts.getLsbD p.val →
        count = (if closed then min ((keyAt p s).count + 1) s.settings.depth else (keyAt p s).count - 1) →
        (keyAt p t).raw = closed ∧ (keyAt p t).count = count ∧
        (keyAt p t).pressed = if (keyAt p s).pressed then count != 0 else count == s.settings.depth) ∧
      t.ks.scanTimer = s.settings.scanPeriod ∧ t.ks.scans = min (s.ks.scans + 1) 2 ∧ t.ks.keymap = s.ks.keymap ∧
      t.ks.report = reportedState t.ks.latched ∧
      (t.ks.report = s.ks.report ∨ s.lc.attachment = .unattached → t.lc.keys = s.lc.keys) ∧
      (t.ks.report ≠ s.ks.report → s.lc.attachment ≠ .unattached →
        t.lc.keys = if s.lc.keys.length < 8 then s.lc.keys ++ [t.ks.report] else s.lc.keys.dropLast ++ [t.ks.report]) ∧
      (∀ kept fresh : Fin 128 → Bool, (∀ p : Fin 128, (keyAt p s).withheld = true → (keyAt p s).pressed = true) →
        (∀ p, kept p = ((keyAt p s).pressed && (keyAt p t).pressed)) →
        (∀ p, fresh p = (!(keyAt p s).pressed && (keyAt p t).pressed)) →
        (∀ p : Fin 128, (keyAt p t).withheld = true ↔
          (kept p = true ∧ (keyAt p s).withheld = true ∧
            ((∀ q : Fin 128, (keyAt q s).pressed = true → kept q = true) ∨ meetsPhantom kept p)) ∨
          (fresh p = true ∧ meetsPhantom (fun q => kept q || (fresh q && decide (q < p))) p)) ∧
        (∃ added, t.ks.latched = (s.ks.latched.filter fun r => (List.finRange 128).all fun p =>
            p.val != r.pos || !(keyAt p s).pressed || kept p) ++ added ∧
          added.map Latched.pos =
            (((List.finRange 128).filter fun p => kept p && (keyAt p s).withheld && !(keyAt p t).withheld) ++
              (List.finRange 128).filter fun p => fresh p && !(keyAt p t).withheld).map (fun p => p.val) ∧
          t.pu.level = (actionsOf added).foldl levelAfter s.pu.level ∧
          bookkeepingOnly (if levelChanges s.pu.level (actionsOf added) = 0 then s
            else raised .backlight (BitVec.ofNat 24 t.pu.level) s) t ∧
          countedAs
            ([.scan] ++
              List.replicate ((List.finRange 128).countP fun p =>
                contacts.getLsbD p.val != (keyAt p s).pressed && (keyAt p t).pressed == (keyAt p s).pressed) .chatter ++
              List.replicate ((List.finRange 128).countP fun p => (keyAt p s).pressed && !(keyAt p t).pressed)
                .releaseAccepted ++
              List.replicate ((List.finRange 128).countP fun p => kept p && (keyAt p s).withheld && !(keyAt p t).withheld)
                .ghostResolved ++
              List.replicate ((List.finRange 128).countP fresh) .pressAccepted ++
              List.replicate ((List.finRange 128).countP fun p => fresh p && (keyAt p t).withheld) .ghostWithheld ++
              List.replicate (actionsOf added).length .localAction ++
              List.replicate (levelChanges s.pu.level (actionsOf added)) .backlightChange ++
              List.flatten (List.replicate (levelChanges s.pu.level (actionsOf added)) (raiseCounts .backlight s)) ++
              if t.ks.report = s.ks.report then []
              else .reportBuilt ::
                if s.lc.attachment = .unattached then []
                else if s.lc.keys.length < 8 then [.reportQueued] else [.reportCoalesced]) s t)) ∧
      t = { s with
        ks := t.ks, lc.keys := t.lc.keys, lc.tx := t.lc.tx, pu.level := t.pu.level, me.events := t.me.events, mn := t.mn })

/-- R145 and R146, in every scan: the records that it adds to the latched keys are each resolved in the layer then active, the
highest that a LAYER key latched before it holds down, and where that layer has NONE, in layer 0; the records that stay are
as they were. And one key alone pressed or released on a keyboard at rest (R142, R147, R149): the first press is no
phantom, takes its entry of layer 0 and latches it, and its report holds the entry's code or modifier; its release takes
it out of the latched keys and the report. -/
def Obligations.AKeyIsLatchedFromPressToRelease : Prop :=
  (∀ (contacts : BitVec 128) (s : State), s.ks.scanTimer = 0 → ∃ t, exec (.scan contacts) s = .next t ∧
    ∃ stay, stay = (s.ks.latched.filter fun r => (List.finRange 128).all fun p =>
        p.val != r.pos || !(keyAt p s).pressed || (keyAt p t).pressed) ∧
      t.ks.latched.take stay.length = stay ∧
      ∀ (k : Nat) (r : Latched) (p : Fin 128) (n : Fin 3), stay.length ≤ k → t.ks.latched[k]? = some r → r.pos = p.val →
        activeIs (t.ks.latched.take k) n → latchesIn s n p r) ∧
  (∀ (contacts : BitVec 128) (s : State) (p : Fin 128), s.ks.scanTimer = 0 → 1 ≤ s.settings.depth →
    (∀ q : Fin 128, q ≠ p → contacts.getLsbD q.val = false ∧ keyAt q s = ⟨false, 0, false, false⟩) →
    (contacts.getLsbD p.val = true → (keyAt p s).pressed = false → (keyAt p s).withheld = false →
      (keyAt p s).count + 1 = s.settings.depth → s.ks.latched = [] → ∃ t, exec (.scan contacts) s = .next t ∧
        t.ks.latched = [⟨p.val, s.ks.keymap[p.val], 0⟩] ∧ (keyAt p t).withheld = false ∧
        (∀ code, s.ks.keymap[p.val] = .ordinary code → t.ks.report = ⟨0, [code], false⟩ ∧ t.pu.level = s.pu.level) ∧
        (∀ m : Fin 8, s.ks.keymap[p.val] = .modifier m → t.ks.report = ⟨BitVec.ofNat 8 (2 ^ m.val), [], false⟩) ∧
        (s.ks.keymap[p.val] = .localAction .backlightUp → t.pu.level = min (s.pu.level + 1) 15) ∧
        (s.ks.keymap[p.val] = .localAction .backlightDown → t.pu.level = s.pu.level - 1)) ∧
    (∀ r : Latched, contacts.getLsbD p.val = false → (keyAt p s).pressed = true → (keyAt p s).withheld = false →
      (keyAt p s).count = 1 → s.ks.latched = [r] → r.pos = p.val → ∃ t, exec (.scan contacts) s = .next t ∧
        t.ks.latched = [] ∧ t.ks.report = ⟨0, [], false⟩ ∧ t.pu.level = s.pu.level))

/-- The millisecond of the time base (R171): each counter in CONDITION_TIME mode whose condition holds adds one, saturating; the
other counters keep their values, but that one which selects EVENT_RAISED adds one for each counter that comes to the maximum,
when MONITOR_SATURATED is enabled (R163); and nothing else changes. The period of the backlight output
(R133): the level then held is the one driven, for 100 ticks per level from the start of the period, so for level x 100 of its
1500 ticks. Before their moment nothing happens (log entry 3). And the Monitor in every event but a power-on reset, a DOCK_RESET, a
MONITOR_SET and the end delimiter that may bring one of them: a counter in CONDITION_EDGE mode adds one, saturating, when its
condition passes from not holding to holding, else it keeps its value (R171); THE MODEL'S CHOICE (log entry 6): the passing is
judged by the state before the event and the state after it, so an edge inside an event is not counted. In these events, a teardown and the end of
MONITOR_SATURATED's own transmission set aside too, the counters that come to the maximum raise MONITOR_SATURATED with the mask
of their numbers when it is enabled: the mask joins a detail that is pending and replaces any other, and during its own EVENT
transmission joins the renewal mask too (R162, R171). -/
def Obligations.MillisecondsAndBacklightPeriods : Prop :=
  (∀ s : State,
    (holds s .anyStreamWaiting = true ↔ ∃ i : Fin 8,
      (streamOf i s).state = .waitTile ∨ (streamOf i s).state = .waitSlot ∨ (streamOf i s).state = .waitWay) ∧
    (holds s .sideQueueFull = true ↔ s.sq.queueA.length = 24 ∨ s.sq.queueB.length = 24) ∧
    (holds s .quiesceNotRunning = true ↔ s.sq.quiesce ≠ .running) ∧
    (holds s .engineBusy = true ↔ s.de.engineA ≠ none ∨ s.de.engineB ≠ none) ∧
    (holds s .attachmentHeld = true ↔ s.lc.attachment = .held)) ∧
  (∀ (k : EventKind) (n : Fin 6), k.number = n ↔
    [EventKind.linkResumed, .regionStale, .backlight, .panelHalted, .monitorSaturated, .storeDefaulted][n.val]? = some k) ∧
  (∀ s : State,
    (s.msTimer ≠ 0 → exec .millisecondTick s = .next s) ∧
    (s.msTimer = 0 → ∃ t, exec .millisecondTick s = .next t ∧
      t = { s with msTimer := 1000, mn.counters := t.mn.counters, me.events := t.me.events, lc.tx := t.lc.tx } ∧
      bookkeepingOnly s t ∧
      (∀ n : Fin 4, s.mn.counters[n].mode = .conditionTime → t.mn.counters[n].value =
        if holds s s.mn.counters[n].condition = true then min (s.mn.counters[n].value + 1) 4294967295
        else s.mn.counters[n].value) ∧
      (∀ n : Fin 4, s.mn.counters[n].mode ≠ .conditionTime → t.mn.counters[n].value = addedTo s.mn.counters[n].value
        (if s.settings.enables.getLsbD 4 = true ∧ s.mn.counters[n].selects .eventRaised = true then saturatedIn s t else 0))) ∧
    (s.pu.periodTimer ≠ 0 → exec .backlightPeriod s = .next s) ∧
    (s.pu.periodTimer = 0 → ∃ t, exec .backlightPeriod s = .next t ∧
      endsAs { s with pu.drivenLevel := s.pu.level, pu.periodTimer := 1500 } [] t) ∧
    (∀ k : Nat, k < 1500 →
      backlightDriven { s with pu.periodTimer := 1500 - k } = decide (k < 100 * s.pu.drivenLevel)) ∧
    (s.pu.drivenLevel ≤ 15 → ((List.range 1500).countP fun k => backlightDriven { s with pu.periodTimer := 1500 - k }) =
      100 * s.pu.drivenLevel)) ∧
  (∀ (c : Instr) (s : State), c ≠ .powerOnReset → (∀ tag, c ≠ .dockReset tag) →
    (∀ tag entry mode group mask condition, c ≠ .monitorSet tag entry mode group mask condition) →
    c ≠ .symbolGroup .endDelimiter → ∃ t, exec c s = .next t ∧
      (∀ n : Fin 4, s.mn.counters[n].mode = .conditionEdge → t.mn.counters[n].value =
        if holds s s.mn.counters[n].condition = false ∧ holds t s.mn.counters[n].condition = true then
          min (s.mn.counters[n].value + 1) 4294967295
        else s.mn.counters[n].value) ∧
      ((∀ number, c = .hello number → s.lc.attachment = .unattached ∨ number = s.lc.attachNumber) → c ≠ .holdTimerExpiry →
        (c = .transmissionComplete → ∀ x, s.lc.tx = some x → x.item ≠ .event .monitorSaturated) →
        t.settings.enables = s.settings.enables → ∀ full : BitVec 24,
        (∀ k : Nat, full.getLsbD k = true ↔
          ∃ n : Fin 4, n.val = k ∧ s.mn.counters[n].value < 4294967295 ∧ t.mn.counters[n].value = 4294967295) →
        saturationRaised full s t))

/-! ## Laws that every step keeps -/

/-- The machine right after reset meets every law of Safety.lean that the statements below say is kept. -/
def Obligations.ResetMeetsTheLaws : Prop :=
  (attachmentLegal State.reset ∧ receiveLegal State.reset ∧ laneLegal State.reset) ∧
  (upstreamWithinLimits State.reset ∧ sideQueuesWithinLimits State.reset) ∧
  (∀ n : Fin 64, agesLegal State.reset.tc.dir[n] ∧ waysLegal n State.reset.tc.dir[n] ∧ pinsLegal State.reset.tc.dir[n]) ∧
  (panelShape State.reset ∧ panelLegal State.reset ∧ panelServed State.reset) ∧
  (layoutLegal State.reset ∧ drawsLegal State.reset ∧ storeServed State.reset) ∧
  (settingsLegal State.reset.settings ∧ keysLegal State.reset) ∧ memoriesLegal State.reset ∧ monitorLegal State.reset ∧
  (sessionLegal State.reset ∧ nothingToHand State.reset ∧ writersLegal State.reset)

/-- R7, R8, R18, R19: the attachment record agrees with itself, the counts of the receive state stay below the numbers that end
their states, frames are open only in FRAMING and UP, transmissions run only while UP and ATTACHED, and the upstream
lane is never left free while something waits. -/
def Obligations.LinkAndAttachmentStayLegal : Prop :=
  ∀ s t : State, attachmentLegal s ∧ receiveLegal s ∧ laneLegal s → step s = .next t →
    attachmentLegal t ∧ receiveLegal t ∧ laneLegal t

/-- R46, R151, R155: a side queue never holds more than 24 entries, KEYS never more than 8 reports, and REPLY with the owed slot
never more than 4. And the laws that the streams, the tile directory and the fault records keep for one another (R40, R41,
R44, R47, R49, R61 to R64, R81, R86, R92, R93, R97, R120): sides, reservations and waits go with the state of a stream; an
executing entry goes with the engine that has it; reserve counts are the numbers of reserving streams; pending entries and
waiting streams are those of an active fault; in QUIESCED nothing is left; QUIESCING goes with a QUIESCE in progress and never
stands with nothing left to drain (R61, R62); a RESUME or TILE_FLUSH in progress goes with its apply or sweep. No step leaves
a FREE engine with an entry of a READY stream in its queue: whatever frees an engine, queues an entry or wakes a stream (by a
completed, abandoned or cancelled fault, an unpin, a reservation given back) is followed by its handovers (R47, R49). And the frame
store (R25, R108): each engine that is busy, and each apply under way, holds it or waits for it once. -/
def Obligations.QueuesStayWithinTheirDepths : Prop :=
  (∀ s t : State, upstreamWithinLimits s ∧ sideQueuesWithinLimits s → step s = .next t →
    upstreamWithinLimits t ∧ sideQueuesWithinLimits t) ∧
  (∀ s t : State, sessionLegal s → step s = .next t → sessionLegal t) ∧
  (∀ s t : State, sessionLegal s ∧ nothingToHand s → step s = .next t → nothingToHand t) ∧
  (∀ s t : State, writersLegal s ∧ s.lu.apply.isSome = (s.me.inProgress.any fun r => r.op == .resume) → step s = .next t →
    writersLegal t ∧ t.lu.apply.isSome = (t.me.inProgress.any fun r => r.op == .resume))

/-- R71, R72, R83: in every set the ages are 0 to 3, once each; a valid entry's key is not 0, lies in its set and in no other way
of it; an invalid entry holds nothing; at most three entries are pinned, each whole and not pending. -/
def Obligations.TheTileDirectoryStaysLegal : Prop :=
  ∀ s t : State, (∀ n : Fin 64, agesLegal s.tc.dir[n] ∧ waysLegal n s.tc.dir[n] ∧ pinsLegal s.tc.dir[n]) →
    step s = .next t → ∀ n : Fin 64, agesLegal t.tc.dir[n] ∧ waysLegal n t.tc.dir[n] ∧ pinsLegal t.tc.dir[n]

/-- R23, R125 to R131: the panel keeps its geometry in range, one dirty flag per block, its pointer on the panel; it is halted
exactly at streak 3; the port's block write holds 256 pixels, and a block in flight is the one on the port; and while it is neither halted nor sending, no block is dirty. -/
def Obligations.ThePanelStaysServed : Prop :=
  ∀ s t : State, panelShape s ∧ panelLegal s ∧ panelServed s → step s = .next t →
    panelShape t ∧ panelLegal t ∧ panelServed t

/-- R25, R27, R63, R110: enabled regions lie on the panel and do not overlap, open streams have enabled regions, in QUIESCED
nothing is queued, drawn or awaited, every draw keeps to its region on the screen, and no writer waits for a frame store
that is free. -/
def Obligations.LayoutAndDrawsStayOnTheScreen : Prop :=
  ∀ s t : State, layoutLegal s ∧ drawsLegal s ∧ storeServed s → step s = .next t →
    layoutLegal t ∧ drawsLegal t ∧ storeServed t

/-- R137, R139, R142, R160: settings stay in range, debounce counts within the depth, and each pressed position is either withheld
or latched once. -/
def Obligations.KeysAndSettingsStayLegal : Prop :=
  ∀ s t : State, settingsLegal s.settings ∧ keysLegal s → step s = .next t → settingsLegal t.settings ∧ keysLegal t

/-- THE MODEL'S OWN (log entries 15, 16, 26): the tile store, the settings store and the picture keep their canonical forms, so that
equal contents are equal data; and the Monitor's counts keep within their range (R170, R172). -/
def Obligations.MemoriesAndCountersStayCanonical : Prop :=
  ∀ s t : State, panelShape s ∧ memoriesLegal s ∧ monitorLegal s → step s = .next t →
    panelShape t ∧ memoriesLegal t ∧ monitorLegal t
end

