-- ==== Sys2Proof/Laws/State.lean ====
section
/-! SUPPORT. What each named update of State leaves alone, one lemma per field, and what it does to the part it changes. -/

namespace Sys2Proof.Machine

/-! `setStream` -/

@[simp] theorem setStream_lc (i : Fin 8) (r : Stream) (s : State) : (setStream i r s).lc = s.lc := rfl
@[simp] theorem setStream_lu (i : Fin 8) (r : Stream) (s : State) : (setStream i r s).lu = s.lu := rfl
@[simp] theorem setStream_de (i : Fin 8) (r : Stream) (s : State) : (setStream i r s).de = s.de := rfl
@[simp] theorem setStream_tc (i : Fin 8) (r : Stream) (s : State) : (setStream i r s).tc = s.tc := rfl
@[simp] theorem setStream_tf (i : Fin 8) (r : Stream) (s : State) : (setStream i r s).tf = s.tf := rfl
@[simp] theorem setStream_fs (i : Fin 8) (r : Stream) (s : State) : (setStream i r s).fs = s.fs := rfl
@[simp] theorem setStream_pu (i : Fin 8) (r : Stream) (s : State) : (setStream i r s).pu = s.pu := rfl
@[simp] theorem setStream_ks (i : Fin 8) (r : Stream) (s : State) : (setStream i r s).ks = s.ks := rfl
@[simp] theorem setStream_me (i : Fin 8) (r : Stream) (s : State) : (setStream i r s).me = s.me := rfl
@[simp] theorem setStream_settings (i : Fin 8) (r : Stream) (s : State) : (setStream i r s).settings = s.settings := rfl
@[simp] theorem setStream_flash (i : Fin 8) (r : Stream) (s : State) : (setStream i r s).flash = s.flash := rfl
@[simp] theorem setStream_mn (i : Fin 8) (r : Stream) (s : State) : (setStream i r s).mn = s.mn := rfl
@[simp] theorem setStream_tick (i : Fin 8) (r : Stream) (s : State) : (setStream i r s).tick = s.tick := rfl
@[simp] theorem setStream_msTimer (i : Fin 8) (r : Stream) (s : State) : (setStream i r s).msTimer = s.msTimer := rfl
@[simp] theorem setStream_free (i : Fin 8) (r : Stream) (s : State) : (setStream i r s).free = s.free := rfl
@[simp] theorem setStream_pending (i : Fin 8) (r : Stream) (s : State) : (setStream i r s).pending = s.pending := rfl

/-! `mapStreams` -/

@[simp] theorem mapStreams_lc (f : Fin 8 → Stream → Stream) (s : State) : (mapStreams f s).lc = s.lc := rfl
@[simp] theorem mapStreams_lu (f : Fin 8 → Stream → Stream) (s : State) : (mapStreams f s).lu = s.lu := rfl
@[simp] theorem mapStreams_de (f : Fin 8 → Stream → Stream) (s : State) : (mapStreams f s).de = s.de := rfl
@[simp] theorem mapStreams_tc (f : Fin 8 → Stream → Stream) (s : State) : (mapStreams f s).tc = s.tc := rfl
@[simp] theorem mapStreams_tf (f : Fin 8 → Stream → Stream) (s : State) : (mapStreams f s).tf = s.tf := rfl
@[simp] theorem mapStreams_fs (f : Fin 8 → Stream → Stream) (s : State) : (mapStreams f s).fs = s.fs := rfl
@[simp] theorem mapStreams_pu (f : Fin 8 → Stream → Stream) (s : State) : (mapStreams f s).pu = s.pu := rfl
@[simp] theorem mapStreams_ks (f : Fin 8 → Stream → Stream) (s : State) : (mapStreams f s).ks = s.ks := rfl
@[simp] theorem mapStreams_me (f : Fin 8 → Stream → Stream) (s : State) : (mapStreams f s).me = s.me := rfl
@[simp] theorem mapStreams_settings (f : Fin 8 → Stream → Stream) (s : State) : (mapStreams f s).settings = s.settings := rfl
@[simp] theorem mapStreams_flash (f : Fin 8 → Stream → Stream) (s : State) : (mapStreams f s).flash = s.flash := rfl
@[simp] theorem mapStreams_mn (f : Fin 8 → Stream → Stream) (s : State) : (mapStreams f s).mn = s.mn := rfl
@[simp] theorem mapStreams_tick (f : Fin 8 → Stream → Stream) (s : State) : (mapStreams f s).tick = s.tick := rfl
@[simp] theorem mapStreams_msTimer (f : Fin 8 → Stream → Stream) (s : State) : (mapStreams f s).msTimer = s.msTimer := rfl
@[simp] theorem mapStreams_free (f : Fin 8 → Stream → Stream) (s : State) : (mapStreams f s).free = s.free := rfl
@[simp] theorem mapStreams_pending (f : Fin 8 → Stream → Stream) (s : State) : (mapStreams f s).pending = s.pending := rfl

/-! `setRegion` -/

@[simp] theorem setRegion_lc (i : Fin 8) (r : Region) (s : State) : (setRegion i r s).lc = s.lc := rfl
@[simp] theorem setRegion_sq (i : Fin 8) (r : Region) (s : State) : (setRegion i r s).sq = s.sq := rfl
@[simp] theorem setRegion_de (i : Fin 8) (r : Region) (s : State) : (setRegion i r s).de = s.de := rfl
@[simp] theorem setRegion_tc (i : Fin 8) (r : Region) (s : State) : (setRegion i r s).tc = s.tc := rfl
@[simp] theorem setRegion_tf (i : Fin 8) (r : Region) (s : State) : (setRegion i r s).tf = s.tf := rfl
@[simp] theorem setRegion_fs (i : Fin 8) (r : Region) (s : State) : (setRegion i r s).fs = s.fs := rfl
@[simp] theorem setRegion_pu (i : Fin 8) (r : Region) (s : State) : (setRegion i r s).pu = s.pu := rfl
@[simp] theorem setRegion_ks (i : Fin 8) (r : Region) (s : State) : (setRegion i r s).ks = s.ks := rfl
@[simp] theorem setRegion_me (i : Fin 8) (r : Region) (s : State) : (setRegion i r s).me = s.me := rfl
@[simp] theorem setRegion_settings (i : Fin 8) (r : Region) (s : State) : (setRegion i r s).settings = s.settings := rfl
@[simp] theorem setRegion_flash (i : Fin 8) (r : Region) (s : State) : (setRegion i r s).flash = s.flash := rfl
@[simp] theorem setRegion_mn (i : Fin 8) (r : Region) (s : State) : (setRegion i r s).mn = s.mn := rfl
@[simp] theorem setRegion_tick (i : Fin 8) (r : Region) (s : State) : (setRegion i r s).tick = s.tick := rfl
@[simp] theorem setRegion_msTimer (i : Fin 8) (r : Region) (s : State) : (setRegion i r s).msTimer = s.msTimer := rfl
@[simp] theorem setRegion_free (i : Fin 8) (r : Region) (s : State) : (setRegion i r s).free = s.free := rfl
@[simp] theorem setRegion_pending (i : Fin 8) (r : Region) (s : State) : (setRegion i r s).pending = s.pending := rfl

/-! `mapRegions` -/

@[simp] theorem mapRegions_lc (f : Fin 8 → Region → Region) (s : State) : (mapRegions f s).lc = s.lc := rfl
@[simp] theorem mapRegions_sq (f : Fin 8 → Region → Region) (s : State) : (mapRegions f s).sq = s.sq := rfl
@[simp] theorem mapRegions_de (f : Fin 8 → Region → Region) (s : State) : (mapRegions f s).de = s.de := rfl
@[simp] theorem mapRegions_tc (f : Fin 8 → Region → Region) (s : State) : (mapRegions f s).tc = s.tc := rfl
@[simp] theorem mapRegions_tf (f : Fin 8 → Region → Region) (s : State) : (mapRegions f s).tf = s.tf := rfl
@[simp] theorem mapRegions_fs (f : Fin 8 → Region → Region) (s : State) : (mapRegions f s).fs = s.fs := rfl
@[simp] theorem mapRegions_pu (f : Fin 8 → Region → Region) (s : State) : (mapRegions f s).pu = s.pu := rfl
@[simp] theorem mapRegions_ks (f : Fin 8 → Region → Region) (s : State) : (mapRegions f s).ks = s.ks := rfl
@[simp] theorem mapRegions_me (f : Fin 8 → Region → Region) (s : State) : (mapRegions f s).me = s.me := rfl
@[simp] theorem mapRegions_settings (f : Fin 8 → Region → Region) (s : State) : (mapRegions f s).settings = s.settings := rfl
@[simp] theorem mapRegions_flash (f : Fin 8 → Region → Region) (s : State) : (mapRegions f s).flash = s.flash := rfl
@[simp] theorem mapRegions_mn (f : Fin 8 → Region → Region) (s : State) : (mapRegions f s).mn = s.mn := rfl
@[simp] theorem mapRegions_tick (f : Fin 8 → Region → Region) (s : State) : (mapRegions f s).tick = s.tick := rfl
@[simp] theorem mapRegions_msTimer (f : Fin 8 → Region → Region) (s : State) : (mapRegions f s).msTimer = s.msTimer := rfl
@[simp] theorem mapRegions_free (f : Fin 8 → Region → Region) (s : State) : (mapRegions f s).free = s.free := rfl
@[simp] theorem mapRegions_pending (f : Fin 8 → Region → Region) (s : State) : (mapRegions f s).pending = s.pending := rfl

/-! `setEventSlot` -/

@[simp] theorem setEventSlot_lc (k : EventKind) (e : EventSlot) (s : State) : (setEventSlot k e s).lc = s.lc := rfl
@[simp] theorem setEventSlot_lu (k : EventKind) (e : EventSlot) (s : State) : (setEventSlot k e s).lu = s.lu := rfl
@[simp] theorem setEventSlot_sq (k : EventKind) (e : EventSlot) (s : State) : (setEventSlot k e s).sq = s.sq := rfl
@[simp] theorem setEventSlot_de (k : EventKind) (e : EventSlot) (s : State) : (setEventSlot k e s).de = s.de := rfl
@[simp] theorem setEventSlot_tc (k : EventKind) (e : EventSlot) (s : State) : (setEventSlot k e s).tc = s.tc := rfl
@[simp] theorem setEventSlot_tf (k : EventKind) (e : EventSlot) (s : State) : (setEventSlot k e s).tf = s.tf := rfl
@[simp] theorem setEventSlot_fs (k : EventKind) (e : EventSlot) (s : State) : (setEventSlot k e s).fs = s.fs := rfl
@[simp] theorem setEventSlot_pu (k : EventKind) (e : EventSlot) (s : State) : (setEventSlot k e s).pu = s.pu := rfl
@[simp] theorem setEventSlot_ks (k : EventKind) (e : EventSlot) (s : State) : (setEventSlot k e s).ks = s.ks := rfl
@[simp] theorem setEventSlot_settings (k : EventKind) (e : EventSlot) (s : State) : (setEventSlot k e s).settings = s.settings := rfl
@[simp] theorem setEventSlot_flash (k : EventKind) (e : EventSlot) (s : State) : (setEventSlot k e s).flash = s.flash := rfl
@[simp] theorem setEventSlot_mn (k : EventKind) (e : EventSlot) (s : State) : (setEventSlot k e s).mn = s.mn := rfl
@[simp] theorem setEventSlot_tick (k : EventKind) (e : EventSlot) (s : State) : (setEventSlot k e s).tick = s.tick := rfl
@[simp] theorem setEventSlot_msTimer (k : EventKind) (e : EventSlot) (s : State) : (setEventSlot k e s).msTimer = s.msTimer := rfl
@[simp] theorem setEventSlot_free (k : EventKind) (e : EventSlot) (s : State) : (setEventSlot k e s).free = s.free := rfl
@[simp] theorem setEventSlot_pending (k : EventKind) (e : EventSlot) (s : State) : (setEventSlot k e s).pending = s.pending := rfl

/-! `setTileSet` -/

@[simp] theorem setTileSet_lc (key : Word) (ways : TileSet) (s : State) : (setTileSet key ways s).lc = s.lc := by simp only [setTileSet]
@[simp] theorem setTileSet_lu (key : Word) (ways : TileSet) (s : State) : (setTileSet key ways s).lu = s.lu := by simp only [setTileSet]
@[simp] theorem setTileSet_sq (key : Word) (ways : TileSet) (s : State) : (setTileSet key ways s).sq = s.sq := by simp only [setTileSet]
@[simp] theorem setTileSet_de (key : Word) (ways : TileSet) (s : State) : (setTileSet key ways s).de = s.de := by simp only [setTileSet]
@[simp] theorem setTileSet_tf (key : Word) (ways : TileSet) (s : State) : (setTileSet key ways s).tf = s.tf := by simp only [setTileSet]
@[simp] theorem setTileSet_fs (key : Word) (ways : TileSet) (s : State) : (setTileSet key ways s).fs = s.fs := by simp only [setTileSet]
@[simp] theorem setTileSet_pu (key : Word) (ways : TileSet) (s : State) : (setTileSet key ways s).pu = s.pu := by simp only [setTileSet]
@[simp] theorem setTileSet_ks (key : Word) (ways : TileSet) (s : State) : (setTileSet key ways s).ks = s.ks := by simp only [setTileSet]
@[simp] theorem setTileSet_me (key : Word) (ways : TileSet) (s : State) : (setTileSet key ways s).me = s.me := by simp only [setTileSet]
@[simp] theorem setTileSet_settings (key : Word) (ways : TileSet) (s : State) : (setTileSet key ways s).settings = s.settings := by simp only [setTileSet]
@[simp] theorem setTileSet_flash (key : Word) (ways : TileSet) (s : State) : (setTileSet key ways s).flash = s.flash := by simp only [setTileSet]
@[simp] theorem setTileSet_mn (key : Word) (ways : TileSet) (s : State) : (setTileSet key ways s).mn = s.mn := by simp only [setTileSet]
@[simp] theorem setTileSet_tick (key : Word) (ways : TileSet) (s : State) : (setTileSet key ways s).tick = s.tick := by simp only [setTileSet]
@[simp] theorem setTileSet_msTimer (key : Word) (ways : TileSet) (s : State) : (setTileSet key ways s).msTimer = s.msTimer := by simp only [setTileSet]
@[simp] theorem setTileSet_free (key : Word) (ways : TileSet) (s : State) : (setTileSet key ways s).free = s.free := by simp only [setTileSet]
@[simp] theorem setTileSet_pending (key : Word) (ways : TileSet) (s : State) : (setTileSet key ways s).pending = s.pending := by simp only [setTileSet]

/-! `setKey` -/

@[simp] theorem setKey_lc (p : Pos) (k : KeyPosition) (s : State) : (setKey p k s).lc = s.lc := rfl
@[simp] theorem setKey_lu (p : Pos) (k : KeyPosition) (s : State) : (setKey p k s).lu = s.lu := rfl
@[simp] theorem setKey_sq (p : Pos) (k : KeyPosition) (s : State) : (setKey p k s).sq = s.sq := rfl
@[simp] theorem setKey_de (p : Pos) (k : KeyPosition) (s : State) : (setKey p k s).de = s.de := rfl
@[simp] theorem setKey_tc (p : Pos) (k : KeyPosition) (s : State) : (setKey p k s).tc = s.tc := rfl
@[simp] theorem setKey_tf (p : Pos) (k : KeyPosition) (s : State) : (setKey p k s).tf = s.tf := rfl
@[simp] theorem setKey_fs (p : Pos) (k : KeyPosition) (s : State) : (setKey p k s).fs = s.fs := rfl
@[simp] theorem setKey_pu (p : Pos) (k : KeyPosition) (s : State) : (setKey p k s).pu = s.pu := rfl
@[simp] theorem setKey_me (p : Pos) (k : KeyPosition) (s : State) : (setKey p k s).me = s.me := rfl
@[simp] theorem setKey_settings (p : Pos) (k : KeyPosition) (s : State) : (setKey p k s).settings = s.settings := rfl
@[simp] theorem setKey_flash (p : Pos) (k : KeyPosition) (s : State) : (setKey p k s).flash = s.flash := rfl
@[simp] theorem setKey_mn (p : Pos) (k : KeyPosition) (s : State) : (setKey p k s).mn = s.mn := rfl
@[simp] theorem setKey_tick (p : Pos) (k : KeyPosition) (s : State) : (setKey p k s).tick = s.tick := rfl
@[simp] theorem setKey_msTimer (p : Pos) (k : KeyPosition) (s : State) : (setKey p k s).msTimer = s.msTimer := rfl
@[simp] theorem setKey_free (p : Pos) (k : KeyPosition) (s : State) : (setKey p k s).free = s.free := rfl
@[simp] theorem setKey_pending (p : Pos) (k : KeyPosition) (s : State) : (setKey p k s).pending = s.pending := rfl

/-! `mapKeys` -/

@[simp] theorem mapKeys_lc (f : Pos → KeyPosition → KeyPosition) (s : State) : (mapKeys f s).lc = s.lc := by simp only [mapKeys]
@[simp] theorem mapKeys_lu (f : Pos → KeyPosition → KeyPosition) (s : State) : (mapKeys f s).lu = s.lu := by simp only [mapKeys]
@[simp] theorem mapKeys_sq (f : Pos → KeyPosition → KeyPosition) (s : State) : (mapKeys f s).sq = s.sq := by simp only [mapKeys]
@[simp] theorem mapKeys_de (f : Pos → KeyPosition → KeyPosition) (s : State) : (mapKeys f s).de = s.de := by simp only [mapKeys]
@[simp] theorem mapKeys_tc (f : Pos → KeyPosition → KeyPosition) (s : State) : (mapKeys f s).tc = s.tc := by simp only [mapKeys]
@[simp] theorem mapKeys_tf (f : Pos → KeyPosition → KeyPosition) (s : State) : (mapKeys f s).tf = s.tf := by simp only [mapKeys]
@[simp] theorem mapKeys_fs (f : Pos → KeyPosition → KeyPosition) (s : State) : (mapKeys f s).fs = s.fs := by simp only [mapKeys]
@[simp] theorem mapKeys_pu (f : Pos → KeyPosition → KeyPosition) (s : State) : (mapKeys f s).pu = s.pu := by simp only [mapKeys]
@[simp] theorem mapKeys_me (f : Pos → KeyPosition → KeyPosition) (s : State) : (mapKeys f s).me = s.me := by simp only [mapKeys]
@[simp] theorem mapKeys_settings (f : Pos → KeyPosition → KeyPosition) (s : State) : (mapKeys f s).settings = s.settings := by simp only [mapKeys]
@[simp] theorem mapKeys_flash (f : Pos → KeyPosition → KeyPosition) (s : State) : (mapKeys f s).flash = s.flash := by simp only [mapKeys]
@[simp] theorem mapKeys_mn (f : Pos → KeyPosition → KeyPosition) (s : State) : (mapKeys f s).mn = s.mn := by simp only [mapKeys]
@[simp] theorem mapKeys_tick (f : Pos → KeyPosition → KeyPosition) (s : State) : (mapKeys f s).tick = s.tick := by simp only [mapKeys]
@[simp] theorem mapKeys_msTimer (f : Pos → KeyPosition → KeyPosition) (s : State) : (mapKeys f s).msTimer = s.msTimer := by simp only [mapKeys]
@[simp] theorem mapKeys_free (f : Pos → KeyPosition → KeyPosition) (s : State) : (mapKeys f s).free = s.free := by simp only [mapKeys]
@[simp] theorem mapKeys_pending (f : Pos → KeyPosition → KeyPosition) (s : State) : (mapKeys f s).pending = s.pending := by simp only [mapKeys]

/-! `takeFree` -/

@[simp] theorem takeFree_lc (s : State) : (takeFree s).lc = s.lc := rfl
@[simp] theorem takeFree_lu (s : State) : (takeFree s).lu = s.lu := rfl
@[simp] theorem takeFree_sq (s : State) : (takeFree s).sq = s.sq := rfl
@[simp] theorem takeFree_de (s : State) : (takeFree s).de = s.de := rfl
@[simp] theorem takeFree_tc (s : State) : (takeFree s).tc = s.tc := rfl
@[simp] theorem takeFree_tf (s : State) : (takeFree s).tf = s.tf := rfl
@[simp] theorem takeFree_fs (s : State) : (takeFree s).fs = s.fs := rfl
@[simp] theorem takeFree_pu (s : State) : (takeFree s).pu = s.pu := rfl
@[simp] theorem takeFree_ks (s : State) : (takeFree s).ks = s.ks := rfl
@[simp] theorem takeFree_me (s : State) : (takeFree s).me = s.me := rfl
@[simp] theorem takeFree_settings (s : State) : (takeFree s).settings = s.settings := rfl
@[simp] theorem takeFree_flash (s : State) : (takeFree s).flash = s.flash := rfl
@[simp] theorem takeFree_mn (s : State) : (takeFree s).mn = s.mn := rfl
@[simp] theorem takeFree_tick (s : State) : (takeFree s).tick = s.tick := rfl
@[simp] theorem takeFree_msTimer (s : State) : (takeFree s).msTimer = s.msTimer := rfl
@[simp] theorem takeFree_pending (s : State) : (takeFree s).pending = s.pending := rfl

/-! `setQueue` -/

@[simp] theorem setQueue_lc (side : Side) (q : List Entry) (s : State) : (setQueue side q s).lc = s.lc := by cases side <;> rfl
@[simp] theorem setQueue_lu (side : Side) (q : List Entry) (s : State) : (setQueue side q s).lu = s.lu := by cases side <;> rfl
@[simp] theorem setQueue_de (side : Side) (q : List Entry) (s : State) : (setQueue side q s).de = s.de := by cases side <;> rfl
@[simp] theorem setQueue_tc (side : Side) (q : List Entry) (s : State) : (setQueue side q s).tc = s.tc := by cases side <;> rfl
@[simp] theorem setQueue_tf (side : Side) (q : List Entry) (s : State) : (setQueue side q s).tf = s.tf := by cases side <;> rfl
@[simp] theorem setQueue_fs (side : Side) (q : List Entry) (s : State) : (setQueue side q s).fs = s.fs := by cases side <;> rfl
@[simp] theorem setQueue_pu (side : Side) (q : List Entry) (s : State) : (setQueue side q s).pu = s.pu := by cases side <;> rfl
@[simp] theorem setQueue_ks (side : Side) (q : List Entry) (s : State) : (setQueue side q s).ks = s.ks := by cases side <;> rfl
@[simp] theorem setQueue_me (side : Side) (q : List Entry) (s : State) : (setQueue side q s).me = s.me := by cases side <;> rfl
@[simp] theorem setQueue_settings (side : Side) (q : List Entry) (s : State) : (setQueue side q s).settings = s.settings := by cases side <;> rfl
@[simp] theorem setQueue_flash (side : Side) (q : List Entry) (s : State) : (setQueue side q s).flash = s.flash := by cases side <;> rfl
@[simp] theorem setQueue_mn (side : Side) (q : List Entry) (s : State) : (setQueue side q s).mn = s.mn := by cases side <;> rfl
@[simp] theorem setQueue_tick (side : Side) (q : List Entry) (s : State) : (setQueue side q s).tick = s.tick := by cases side <;> rfl
@[simp] theorem setQueue_msTimer (side : Side) (q : List Entry) (s : State) : (setQueue side q s).msTimer = s.msTimer := by cases side <;> rfl
@[simp] theorem setQueue_free (side : Side) (q : List Entry) (s : State) : (setQueue side q s).free = s.free := by cases side <;> rfl
@[simp] theorem setQueue_pending (side : Side) (q : List Entry) (s : State) : (setQueue side q s).pending = s.pending := by cases side <;> rfl

/-! `setEngine` -/

@[simp] theorem setEngine_lc (side : Side) (r : Option ExecRecord) (s : State) : (setEngine side r s).lc = s.lc := by cases side <;> rfl
@[simp] theorem setEngine_lu (side : Side) (r : Option ExecRecord) (s : State) : (setEngine side r s).lu = s.lu := by cases side <;> rfl
@[simp] theorem setEngine_sq (side : Side) (r : Option ExecRecord) (s : State) : (setEngine side r s).sq = s.sq := by cases side <;> rfl
@[simp] theorem setEngine_tc (side : Side) (r : Option ExecRecord) (s : State) : (setEngine side r s).tc = s.tc := by cases side <;> rfl
@[simp] theorem setEngine_tf (side : Side) (r : Option ExecRecord) (s : State) : (setEngine side r s).tf = s.tf := by cases side <;> rfl
@[simp] theorem setEngine_fs (side : Side) (r : Option ExecRecord) (s : State) : (setEngine side r s).fs = s.fs := by cases side <;> rfl
@[simp] theorem setEngine_pu (side : Side) (r : Option ExecRecord) (s : State) : (setEngine side r s).pu = s.pu := by cases side <;> rfl
@[simp] theorem setEngine_ks (side : Side) (r : Option ExecRecord) (s : State) : (setEngine side r s).ks = s.ks := by cases side <;> rfl
@[simp] theorem setEngine_me (side : Side) (r : Option ExecRecord) (s : State) : (setEngine side r s).me = s.me := by cases side <;> rfl
@[simp] theorem setEngine_settings (side : Side) (r : Option ExecRecord) (s : State) : (setEngine side r s).settings = s.settings := by cases side <;> rfl
@[simp] theorem setEngine_flash (side : Side) (r : Option ExecRecord) (s : State) : (setEngine side r s).flash = s.flash := by cases side <;> rfl
@[simp] theorem setEngine_mn (side : Side) (r : Option ExecRecord) (s : State) : (setEngine side r s).mn = s.mn := by cases side <;> rfl
@[simp] theorem setEngine_tick (side : Side) (r : Option ExecRecord) (s : State) : (setEngine side r s).tick = s.tick := by cases side <;> rfl
@[simp] theorem setEngine_msTimer (side : Side) (r : Option ExecRecord) (s : State) : (setEngine side r s).msTimer = s.msTimer := by cases side <;> rfl
@[simp] theorem setEngine_free (side : Side) (r : Option ExecRecord) (s : State) : (setEngine side r s).free = s.free := by cases side <;> rfl
@[simp] theorem setEngine_pending (side : Side) (r : Option ExecRecord) (s : State) : (setEngine side r s).pending = s.pending := by cases side <;> rfl

/-! `setRecord` -/

@[simp] theorem setRecord_lc (side : Side) (r : FaultRecord) (s : State) : (setRecord side r s).lc = s.lc := by cases side <;> rfl
@[simp] theorem setRecord_lu (side : Side) (r : FaultRecord) (s : State) : (setRecord side r s).lu = s.lu := by cases side <;> rfl
@[simp] theorem setRecord_sq (side : Side) (r : FaultRecord) (s : State) : (setRecord side r s).sq = s.sq := by cases side <;> rfl
@[simp] theorem setRecord_de (side : Side) (r : FaultRecord) (s : State) : (setRecord side r s).de = s.de := by cases side <;> rfl
@[simp] theorem setRecord_tc (side : Side) (r : FaultRecord) (s : State) : (setRecord side r s).tc = s.tc := by cases side <;> rfl
@[simp] theorem setRecord_fs (side : Side) (r : FaultRecord) (s : State) : (setRecord side r s).fs = s.fs := by cases side <;> rfl
@[simp] theorem setRecord_pu (side : Side) (r : FaultRecord) (s : State) : (setRecord side r s).pu = s.pu := by cases side <;> rfl
@[simp] theorem setRecord_ks (side : Side) (r : FaultRecord) (s : State) : (setRecord side r s).ks = s.ks := by cases side <;> rfl
@[simp] theorem setRecord_me (side : Side) (r : FaultRecord) (s : State) : (setRecord side r s).me = s.me := by cases side <;> rfl
@[simp] theorem setRecord_settings (side : Side) (r : FaultRecord) (s : State) : (setRecord side r s).settings = s.settings := by cases side <;> rfl
@[simp] theorem setRecord_flash (side : Side) (r : FaultRecord) (s : State) : (setRecord side r s).flash = s.flash := by cases side <;> rfl
@[simp] theorem setRecord_mn (side : Side) (r : FaultRecord) (s : State) : (setRecord side r s).mn = s.mn := by cases side <;> rfl
@[simp] theorem setRecord_tick (side : Side) (r : FaultRecord) (s : State) : (setRecord side r s).tick = s.tick := by cases side <;> rfl
@[simp] theorem setRecord_msTimer (side : Side) (r : FaultRecord) (s : State) : (setRecord side r s).msTimer = s.msTimer := by cases side <;> rfl
@[simp] theorem setRecord_free (side : Side) (r : FaultRecord) (s : State) : (setRecord side r s).free = s.free := by cases side <;> rfl
@[simp] theorem setRecord_pending (side : Side) (r : FaultRecord) (s : State) : (setRecord side r s).pending = s.pending := by cases side <;> rfl

/-! `postReply` -/

@[simp] theorem postReply_lu (tag kind : Byte) (x : Status) (d : List Byte) (s : State) : (postReply tag kind x d s).lu = s.lu := rfl
@[simp] theorem postReply_sq (tag kind : Byte) (x : Status) (d : List Byte) (s : State) : (postReply tag kind x d s).sq = s.sq := rfl
@[simp] theorem postReply_de (tag kind : Byte) (x : Status) (d : List Byte) (s : State) : (postReply tag kind x d s).de = s.de := rfl
@[simp] theorem postReply_tc (tag kind : Byte) (x : Status) (d : List Byte) (s : State) : (postReply tag kind x d s).tc = s.tc := rfl
@[simp] theorem postReply_tf (tag kind : Byte) (x : Status) (d : List Byte) (s : State) : (postReply tag kind x d s).tf = s.tf := rfl
@[simp] theorem postReply_fs (tag kind : Byte) (x : Status) (d : List Byte) (s : State) : (postReply tag kind x d s).fs = s.fs := rfl
@[simp] theorem postReply_pu (tag kind : Byte) (x : Status) (d : List Byte) (s : State) : (postReply tag kind x d s).pu = s.pu := rfl
@[simp] theorem postReply_ks (tag kind : Byte) (x : Status) (d : List Byte) (s : State) : (postReply tag kind x d s).ks = s.ks := rfl
@[simp] theorem postReply_me (tag kind : Byte) (x : Status) (d : List Byte) (s : State) : (postReply tag kind x d s).me = s.me := rfl
@[simp] theorem postReply_settings (tag kind : Byte) (x : Status) (d : List Byte) (s : State) : (postReply tag kind x d s).settings = s.settings := rfl
@[simp] theorem postReply_flash (tag kind : Byte) (x : Status) (d : List Byte) (s : State) : (postReply tag kind x d s).flash = s.flash := rfl
@[simp] theorem postReply_mn (tag kind : Byte) (x : Status) (d : List Byte) (s : State) : (postReply tag kind x d s).mn = s.mn := rfl
@[simp] theorem postReply_tick (tag kind : Byte) (x : Status) (d : List Byte) (s : State) : (postReply tag kind x d s).tick = s.tick := rfl
@[simp] theorem postReply_msTimer (tag kind : Byte) (x : Status) (d : List Byte) (s : State) : (postReply tag kind x d s).msTimer = s.msTimer := rfl
@[simp] theorem postReply_free (tag kind : Byte) (x : Status) (d : List Byte) (s : State) : (postReply tag kind x d s).free = s.free := rfl
@[simp] theorem postReply_pending (tag kind : Byte) (x : Status) (d : List Byte) (s : State) : (postReply tag kind x d s).pending = s.pending := rfl

/-! `answer` -/

@[simp] theorem answer_lu (tag kind : Byte) (x : Status) (s : State) : (answer tag kind x s).lu = s.lu := rfl
@[simp] theorem answer_sq (tag kind : Byte) (x : Status) (s : State) : (answer tag kind x s).sq = s.sq := rfl
@[simp] theorem answer_de (tag kind : Byte) (x : Status) (s : State) : (answer tag kind x s).de = s.de := rfl
@[simp] theorem answer_tc (tag kind : Byte) (x : Status) (s : State) : (answer tag kind x s).tc = s.tc := rfl
@[simp] theorem answer_tf (tag kind : Byte) (x : Status) (s : State) : (answer tag kind x s).tf = s.tf := rfl
@[simp] theorem answer_fs (tag kind : Byte) (x : Status) (s : State) : (answer tag kind x s).fs = s.fs := rfl
@[simp] theorem answer_pu (tag kind : Byte) (x : Status) (s : State) : (answer tag kind x s).pu = s.pu := rfl
@[simp] theorem answer_ks (tag kind : Byte) (x : Status) (s : State) : (answer tag kind x s).ks = s.ks := rfl
@[simp] theorem answer_me (tag kind : Byte) (x : Status) (s : State) : (answer tag kind x s).me = s.me := rfl
@[simp] theorem answer_settings (tag kind : Byte) (x : Status) (s : State) : (answer tag kind x s).settings = s.settings := rfl
@[simp] theorem answer_flash (tag kind : Byte) (x : Status) (s : State) : (answer tag kind x s).flash = s.flash := rfl
@[simp] theorem answer_mn (tag kind : Byte) (x : Status) (s : State) : (answer tag kind x s).mn = s.mn := rfl
@[simp] theorem answer_tick (tag kind : Byte) (x : Status) (s : State) : (answer tag kind x s).tick = s.tick := rfl
@[simp] theorem answer_msTimer (tag kind : Byte) (x : Status) (s : State) : (answer tag kind x s).msTimer = s.msTimer := rfl
@[simp] theorem answer_free (tag kind : Byte) (x : Status) (s : State) : (answer tag kind x s).free = s.free := rfl
@[simp] theorem answer_pending (tag kind : Byte) (x : Status) (s : State) : (answer tag kind x s).pending = s.pending := rfl

/-! `beginLong` -/

@[simp] theorem beginLong_lc (tag kind : Byte) (op : LongOp) (s : State) : (beginLong tag kind op s).lc = s.lc := rfl
@[simp] theorem beginLong_lu (tag kind : Byte) (op : LongOp) (s : State) : (beginLong tag kind op s).lu = s.lu := rfl
@[simp] theorem beginLong_sq (tag kind : Byte) (op : LongOp) (s : State) : (beginLong tag kind op s).sq = s.sq := rfl
@[simp] theorem beginLong_de (tag kind : Byte) (op : LongOp) (s : State) : (beginLong tag kind op s).de = s.de := rfl
@[simp] theorem beginLong_tc (tag kind : Byte) (op : LongOp) (s : State) : (beginLong tag kind op s).tc = s.tc := rfl
@[simp] theorem beginLong_tf (tag kind : Byte) (op : LongOp) (s : State) : (beginLong tag kind op s).tf = s.tf := rfl
@[simp] theorem beginLong_fs (tag kind : Byte) (op : LongOp) (s : State) : (beginLong tag kind op s).fs = s.fs := rfl
@[simp] theorem beginLong_pu (tag kind : Byte) (op : LongOp) (s : State) : (beginLong tag kind op s).pu = s.pu := rfl
@[simp] theorem beginLong_ks (tag kind : Byte) (op : LongOp) (s : State) : (beginLong tag kind op s).ks = s.ks := rfl
@[simp] theorem beginLong_settings (tag kind : Byte) (op : LongOp) (s : State) : (beginLong tag kind op s).settings = s.settings := rfl
@[simp] theorem beginLong_flash (tag kind : Byte) (op : LongOp) (s : State) : (beginLong tag kind op s).flash = s.flash := rfl
@[simp] theorem beginLong_mn (tag kind : Byte) (op : LongOp) (s : State) : (beginLong tag kind op s).mn = s.mn := rfl
@[simp] theorem beginLong_tick (tag kind : Byte) (op : LongOp) (s : State) : (beginLong tag kind op s).tick = s.tick := rfl
@[simp] theorem beginLong_msTimer (tag kind : Byte) (op : LongOp) (s : State) : (beginLong tag kind op s).msTimer = s.msTimer := rfl
@[simp] theorem beginLong_free (tag kind : Byte) (op : LongOp) (s : State) : (beginLong tag kind op s).free = s.free := rfl
@[simp] theorem beginLong_pending (tag kind : Byte) (op : LongOp) (s : State) : (beginLong tag kind op s).pending = s.pending := rfl

/-! `addCounters` -/

@[simp] theorem addCounters_lc (p : Counter → Bool) (n : Nat) (s : State) : (addCounters p n s).lc = s.lc := rfl
@[simp] theorem addCounters_lu (p : Counter → Bool) (n : Nat) (s : State) : (addCounters p n s).lu = s.lu := rfl
@[simp] theorem addCounters_sq (p : Counter → Bool) (n : Nat) (s : State) : (addCounters p n s).sq = s.sq := rfl
@[simp] theorem addCounters_de (p : Counter → Bool) (n : Nat) (s : State) : (addCounters p n s).de = s.de := rfl
@[simp] theorem addCounters_tc (p : Counter → Bool) (n : Nat) (s : State) : (addCounters p n s).tc = s.tc := rfl
@[simp] theorem addCounters_tf (p : Counter → Bool) (n : Nat) (s : State) : (addCounters p n s).tf = s.tf := rfl
@[simp] theorem addCounters_fs (p : Counter → Bool) (n : Nat) (s : State) : (addCounters p n s).fs = s.fs := rfl
@[simp] theorem addCounters_pu (p : Counter → Bool) (n : Nat) (s : State) : (addCounters p n s).pu = s.pu := rfl
@[simp] theorem addCounters_ks (p : Counter → Bool) (n : Nat) (s : State) : (addCounters p n s).ks = s.ks := rfl
@[simp] theorem addCounters_me (p : Counter → Bool) (n : Nat) (s : State) : (addCounters p n s).me = s.me := rfl
@[simp] theorem addCounters_settings (p : Counter → Bool) (n : Nat) (s : State) : (addCounters p n s).settings = s.settings := rfl
@[simp] theorem addCounters_flash (p : Counter → Bool) (n : Nat) (s : State) : (addCounters p n s).flash = s.flash := rfl
@[simp] theorem addCounters_tick (p : Counter → Bool) (n : Nat) (s : State) : (addCounters p n s).tick = s.tick := rfl
@[simp] theorem addCounters_msTimer (p : Counter → Bool) (n : Nat) (s : State) : (addCounters p n s).msTimer = s.msTimer := rfl
@[simp] theorem addCounters_free (p : Counter → Bool) (n : Nat) (s : State) : (addCounters p n s).free = s.free := rfl
@[simp] theorem addCounters_pending (p : Counter → Bool) (n : Nat) (s : State) : (addCounters p n s).pending = s.pending := rfl

/-! What the updates do to the part they change. -/

@[simp] theorem streamOf_setStream_self (i : Fin 8) (r : Stream) (s : State) : streamOf i (setStream i r s) = r := by
  simp [streamOf, setStream]

theorem streamOf_setStream_ne {i j : Fin 8} (h : i ≠ j) (r : Stream) (s : State) :
    streamOf j (setStream i r s) = streamOf j s := by
  have : i.val ≠ j.val := fun e => h (Fin.ext e)
  simp [streamOf, setStream, this]

@[simp] theorem streamOf_mapStreams (f : Fin 8 → Stream → Stream) (i : Fin 8) (s : State) :
    streamOf i (mapStreams f s) = f i (streamOf i s) := by
  simp [streamOf, mapStreams]

@[simp] theorem regionOf_setRegion_self (i : Fin 8) (r : Region) (s : State) : regionOf i (setRegion i r s) = r := by
  simp [regionOf, setRegion]

theorem regionOf_setRegion_ne {i j : Fin 8} (h : i ≠ j) (r : Region) (s : State) :
    regionOf j (setRegion i r s) = regionOf j s := by
  have : i.val ≠ j.val := fun e => h (Fin.ext e)
  simp [regionOf, setRegion, this]

@[simp] theorem regionOf_mapRegions (f : Fin 8 → Region → Region) (i : Fin 8) (s : State) :
    regionOf i (mapRegions f s) = f i (regionOf i s) := by
  simp [regionOf, mapRegions]

@[simp] theorem eventSlot_setEventSlot_self (k : EventKind) (e : EventSlot) (s : State) :
    eventSlot k (setEventSlot k e s) = e := by
  simp [eventSlot, setEventSlot]

theorem eventSlot_setEventSlot_ne {k m : EventKind} (h : k ≠ m) (e : EventSlot) (s : State) :
    eventSlot m (setEventSlot k e s) = eventSlot m s := by
  cases k <;> cases m <;> first | exact absurd rfl h | (simp [eventSlot, setEventSlot, EventKind.number])

@[simp] theorem setEventSlot_inProgress (k : EventKind) (e : EventSlot) (s : State) :
    (setEventSlot k e s).me.inProgress = s.me.inProgress := rfl

@[simp] theorem keyAt_setKey_self (p : Pos) (k : KeyPosition) (s : State) : keyAt p (setKey p k s) = k := by
  simp [keyAt, setKey]

theorem keyAt_setKey_ne {p q : Pos} (h : p ≠ q) (k : KeyPosition) (s : State) : keyAt q (setKey p k s) = keyAt q s := by
  have : p.val ≠ q.val := fun e => h (Fin.ext e)
  simp [keyAt, setKey, this]

@[simp] theorem keyAt_mapKeys (f : Pos → KeyPosition → KeyPosition) (p : Pos) (s : State) :
    keyAt p (mapKeys f s) = f p (keyAt p s) := by
  simp [keyAt, mapKeys]

@[simp] theorem queueOf_setQueue_self (side : Side) (q : List Entry) (s : State) : queueOf side (setQueue side q s) = q := by
  cases side <;> rfl

@[simp] theorem queueOf_setQueue_other (side : Side) (q : List Entry) (s : State) :
    queueOf (otherSide side) (setQueue side q s) = queueOf (otherSide side) s := by
  cases side <;> rfl

@[simp] theorem streamOf_setQueue (side : Side) (q : List Entry) (i : Fin 8) (s : State) :
    streamOf i (setQueue side q s) = streamOf i s := by
  cases side <;> rfl

@[simp] theorem queueOf_setStream (side : Side) (i : Fin 8) (r : Stream) (s : State) :
    queueOf side (setStream i r s) = queueOf side s := by
  cases side <;> rfl

@[simp] theorem engineOf_setEngine_self (side : Side) (r : Option ExecRecord) (s : State) :
    engineOf side (setEngine side r s) = r := by
  cases side <;> rfl

@[simp] theorem engineOf_setEngine_other (side : Side) (r : Option ExecRecord) (s : State) :
    engineOf (otherSide side) (setEngine side r s) = engineOf (otherSide side) s := by
  cases side <;> rfl

@[simp] theorem recordOf_setRecord_self (side : Side) (r : FaultRecord) (s : State) :
    recordOf side (setRecord side r s) = r := by
  cases side <;> rfl

@[simp] theorem recordOf_setRecord_other (side : Side) (r : FaultRecord) (s : State) :
    recordOf (otherSide side) (setRecord side r s) = recordOf (otherSide side) s := by
  cases side <;> rfl

@[simp] theorem tileSet_setTileSet_self (key : Word) (ways : TileSet) (s : State) :
    tileSet key (setTileSet key ways s) = ways := by
  simp [tileSet, setTileSet]

theorem tileSet_setTileSet_ne {key k : Word} (h : setIndex key ≠ setIndex k) (ways : TileSet) (s : State) :
    tileSet k (setTileSet key ways s) = tileSet k s := by
  have : (setIndex key).val ≠ (setIndex k).val := fun e => h (Fin.ext e)
  simp [tileSet, setTileSet, this]

@[simp] theorem answer_lc (tag kind : Byte) (x : Status) (s : State) :
    (answer tag kind x s).lc = { s.lc with replies := s.lc.replies ++ [⟨tag, kind, x, []⟩] } := rfl

@[simp] theorem postReply_lc (tag kind : Byte) (x : Status) (d : List Byte) (s : State) :
    (postReply tag kind x d s).lc = { s.lc with replies := s.lc.replies ++ [⟨tag, kind, x, d⟩] } := rfl

@[simp] theorem beginLong_inProgress (tag kind : Byte) (op : LongOp) (s : State) :
    (beginLong tag kind op s).me.inProgress = some ⟨tag, kind, op, false⟩ := rfl

@[simp] theorem beginLong_events (tag kind : Byte) (op : LongOp) (s : State) :
    (beginLong tag kind op s).me.events = s.me.events := rfl

end Sys2Proof.Machine
end

