-- ==== Sys2Proof/Laws/Bookkeeping.lean ====
section
/-! SUPPORT. What counting, raising an event, the arbiter and the end of an event can do: everything else they leave alone. -/

namespace Sys2Proof.Machine

/-! ### Counting -/

/-- What counting can do to a state: counters take new values, and the MONITOR_SATURATED slot may change. -/
structure Counted (s t : State) : Prop where
  rest : t = { s with mn.counters := t.mn.counters, me.events := t.me.events }
  selections : ∀ n : Fin 4, t.mn.counters[n].mode = s.mn.counters[n].mode ∧ t.mn.counters[n].group = s.mn.counters[n].group ∧
    t.mn.counters[n].mask = s.mn.counters[n].mask ∧ t.mn.counters[n].condition = s.mn.counters[n].condition
  slots : ∀ k : EventKind, k ≠ .monitorSaturated → eventSlot k t = eventSlot k s

theorem Counted.refl (s : State) : Counted s s := ⟨rfl, fun _ => ⟨rfl, rfl, rfl, rfl⟩, fun _ _ => rfl⟩

theorem Counted.trans {s t u : State} (h : Counted s t) (g : Counted t u) : Counted s u where
  rest := by rw [g.rest, h.rest]
  selections n := by
    obtain ⟨a, b, c, d⟩ := h.selections n
    obtain ⟨a', b', c', d'⟩ := g.selections n
    exact ⟨a'.trans a, b'.trans b, c'.trans c, d'.trans d⟩
  slots k hk := (g.slots k hk).trans (h.slots k hk)

theorem Counted.same_lc {s t : State} (h : Counted s t) : t.lc = s.lc := by rw [h.rest]
theorem Counted.same_lu {s t : State} (h : Counted s t) : t.lu = s.lu := by rw [h.rest]
theorem Counted.same_sq {s t : State} (h : Counted s t) : t.sq = s.sq := by rw [h.rest]
theorem Counted.same_de {s t : State} (h : Counted s t) : t.de = s.de := by rw [h.rest]
theorem Counted.same_tc {s t : State} (h : Counted s t) : t.tc = s.tc := by rw [h.rest]
theorem Counted.same_tf {s t : State} (h : Counted s t) : t.tf = s.tf := by rw [h.rest]
theorem Counted.same_fs {s t : State} (h : Counted s t) : t.fs = s.fs := by rw [h.rest]
theorem Counted.same_pu {s t : State} (h : Counted s t) : t.pu = s.pu := by rw [h.rest]
theorem Counted.same_ks {s t : State} (h : Counted s t) : t.ks = s.ks := by rw [h.rest]
theorem Counted.same_settings {s t : State} (h : Counted s t) : t.settings = s.settings := by rw [h.rest]
theorem Counted.same_flash {s t : State} (h : Counted s t) : t.flash = s.flash := by rw [h.rest]
theorem Counted.same_tick {s t : State} (h : Counted s t) : t.tick = s.tick := by rw [h.rest]
theorem Counted.same_msTimer {s t : State} (h : Counted s t) : t.msTimer = s.msTimer := by rw [h.rest]
theorem Counted.same_free {s t : State} (h : Counted s t) : t.free = s.free := by rw [h.rest]
theorem Counted.same_pending {s t : State} (h : Counted s t) : t.pending = s.pending := by rw [h.rest]
theorem Counted.same_inProgress {s t : State} (h : Counted s t) : t.me.inProgress = s.me.inProgress := by rw [h.rest]
theorem Counted.same_tracker {s t : State} (h : Counted s t) : t.mn.tracker = s.mn.tracker := by rw [h.rest]

theorem addCounters_counted (p : Counter → Bool) (n : Nat) (s : State) : Counted s (addCounters p n s) where
  rest := rfl
  selections i := by simp only [addCounters, Fin.getElem_fin, Vector.getElem_ofFn]; split <;> simp [Counter.add]
  slots _ _ := rfl

theorem setSaturated_counted (e : EventSlot) (s : State) : Counted s (setEventSlot .monitorSaturated e s) where
  rest := rfl
  selections _ := ⟨rfl, rfl, rfl, rfl⟩
  slots _ hk := eventSlot_setEventSlot_ne (Ne.symm hk) e s

theorem foldl_counted {α : Type} (f : State → α → State) (h : ∀ t a, Counted t (f t a)) (l : List α) (s : State) :
    Counted s (l.foldl f s) := by
  induction l generalizing s with
  | nil => exact Counted.refl s
  | cons a l ih => exact (h s a).trans (ih (f s a))

/-- Counting does nothing but what `Counted` says. -/
theorem addWhere_counted (fuel : Nat) (p : Counter → Bool) (n : Nat) (s : State) : Counted s (addWhere fuel p n s) := by
  induction fuel generalizing p n s with
  | zero => exact Counted.refl s
  | succ fuel ih =>
    refine (addCounters_counted p n s).trans (foldl_counted _ (fun t i => ?_) _ _)
    split
    · exact (setSaturated_counted _ t).trans (ih _ _ _)
    · exact Counted.refl t

theorem countN_counted (u : SubEvent) (n : Nat) (s : State) : Counted s (countN u n s) := by
  unfold countN; split
  · exact Counted.refl s
  · exact addWhere_counted _ _ _ _

theorem count_counted (u : SubEvent) (s : State) : Counted s (count u s) := countN_counted u 1 s

theorem countEdges_counted (before s : State) : Counted s (countEdges before s) := addWhere_counted _ _ _ _

theorem countMillisecond_counted (s : State) : Counted s (countMillisecond s) := addWhere_counted _ _ _ _

theorem count_eventSlot (u : SubEvent) (s : State) {k : EventKind} (h : k ≠ .monitorSaturated) :
    eventSlot k (count u s) = eventSlot k s := (count_counted u s).slots k h

/-! ### The arbiter -/

/-- What a selection of the arbiter can do to a state: a transmission starts when none is in progress, and the renewal mask of
the kind whose EVENT transmission starts is emptied. -/
structure Selected (s t : State) : Prop where
  rest : t = { s with lc.tx := t.lc.tx, me.events := t.me.events }
  slots : ∀ k : EventKind, eventSlot k t =
    { eventSlot k s with renewal := if eventStarts k s t then 0 else (eventSlot k s).renewal }
  lane : s.lc.tx.isSome = true → t.lc.tx = s.lc.tx

/-- With the lane as it was, no transmission has started. -/
theorem not_eventStarts {s t : State} (h : t.lc.tx = s.lc.tx) (k : EventKind) : ¬ eventStarts k s t := by
  rintro ⟨a, b⟩; rw [h, a] at b; cases b

theorem Selected.same_lu {s t : State} (h : Selected s t) : t.lu = s.lu := by rw [h.rest]
theorem Selected.same_sq {s t : State} (h : Selected s t) : t.sq = s.sq := by rw [h.rest]
theorem Selected.same_de {s t : State} (h : Selected s t) : t.de = s.de := by rw [h.rest]
theorem Selected.same_tc {s t : State} (h : Selected s t) : t.tc = s.tc := by rw [h.rest]
theorem Selected.same_tf {s t : State} (h : Selected s t) : t.tf = s.tf := by rw [h.rest]
theorem Selected.same_fs {s t : State} (h : Selected s t) : t.fs = s.fs := by rw [h.rest]
theorem Selected.same_pu {s t : State} (h : Selected s t) : t.pu = s.pu := by rw [h.rest]
theorem Selected.same_ks {s t : State} (h : Selected s t) : t.ks = s.ks := by rw [h.rest]
theorem Selected.same_settings {s t : State} (h : Selected s t) : t.settings = s.settings := by rw [h.rest]
theorem Selected.same_flash {s t : State} (h : Selected s t) : t.flash = s.flash := by rw [h.rest]
theorem Selected.same_tick {s t : State} (h : Selected s t) : t.tick = s.tick := by rw [h.rest]
theorem Selected.same_msTimer {s t : State} (h : Selected s t) : t.msTimer = s.msTimer := by rw [h.rest]
theorem Selected.same_free {s t : State} (h : Selected s t) : t.free = s.free := by rw [h.rest]
theorem Selected.same_pending {s t : State} (h : Selected s t) : t.pending = s.pending := by rw [h.rest]
theorem Selected.same_mn {s t : State} (h : Selected s t) : t.mn = s.mn := by rw [h.rest]
theorem Selected.same_link {s t : State} (h : Selected s t) : t.lc.link = s.lc.link := by rw [h.rest]
theorem Selected.same_alignCount {s t : State} (h : Selected s t) : t.lc.alignCount = s.lc.alignCount := by rw [h.rest]
theorem Selected.same_framingCount {s t : State} (h : Selected s t) : t.lc.framingCount = s.lc.framingCount := by rw [h.rest]
theorem Selected.same_failureCount {s t : State} (h : Selected s t) : t.lc.failureCount = s.lc.failureCount := by rw [h.rest]
theorem Selected.same_lossCount {s t : State} (h : Selected s t) : t.lc.lossCount = s.lc.lossCount := by rw [h.rest]
theorem Selected.same_assembly {s t : State} (h : Selected s t) : t.lc.assembly = s.lc.assembly := by rw [h.rest]
theorem Selected.same_attachment {s t : State} (h : Selected s t) : t.lc.attachment = s.lc.attachment := by rw [h.rest]
theorem Selected.same_attachNumber {s t : State} (h : Selected s t) : t.lc.attachNumber = s.lc.attachNumber := by rw [h.rest]
theorem Selected.same_holdTimer {s t : State} (h : Selected s t) : t.lc.holdTimer = s.lc.holdTimer := by rw [h.rest]
theorem Selected.same_holdCause {s t : State} (h : Selected s t) : t.lc.holdCause = s.lc.holdCause := by rw [h.rest]
theorem Selected.same_holdStart {s t : State} (h : Selected s t) : t.lc.holdStart = s.lc.holdStart := by rw [h.rest]
theorem Selected.same_attachCounter {s t : State} (h : Selected s t) : t.lc.attachCounter = s.lc.attachCounter := by rw [h.rest]
theorem Selected.same_lastCause {s t : State} (h : Selected s t) : t.lc.lastCause = s.lc.lastCause := by rw [h.rest]
theorem Selected.same_lastDuration {s t : State} (h : Selected s t) : t.lc.lastDuration = s.lc.lastDuration := by rw [h.rest]
theorem Selected.same_greet {s t : State} (h : Selected s t) : t.lc.greet = s.lc.greet := by rw [h.rest]
theorem Selected.same_greetRenewed {s t : State} (h : Selected s t) : t.lc.greetRenewed = s.lc.greetRenewed := by rw [h.rest]
theorem Selected.same_keys {s t : State} (h : Selected s t) : t.lc.keys = s.lc.keys := by rw [h.rest]
theorem Selected.same_replies {s t : State} (h : Selected s t) : t.lc.replies = s.lc.replies := by rw [h.rest]
theorem Selected.same_laneOut {s t : State} (h : Selected s t) : t.lc.laneOut = s.lc.laneOut := by rw [h.rest]
theorem Selected.same_inProgress {s t : State} (h : Selected s t) : t.me.inProgress = s.me.inProgress := by rw [h.rest]

/-- The arbiter does nothing but what `Selected` says. -/
theorem arbitrate_selected (s : State) : Selected s (arbitrate s) := by
  have still : Selected s s := ⟨rfl, fun k => by rw [if_neg (not_eventStarts rfl k)], fun _ => rfl⟩
  unfold arbitrate
  split
  case isFalse => exact still
  case isTrue h =>
    have hidle : s.lc.tx = none := by
      simp only [mayTransmit, Bool.and_eq_true, Option.isNone_iff_eq_none] at h; exact h.1.1
    have busy : s.lc.tx.isSome = true → False := by rw [hidle]; simp
    split
    · rename_i item _
      cases item with
      | event k =>
        refine ⟨rfl, fun m => ?_, fun hs => (busy hs).elim⟩
        by_cases hm : k = m
        · subst hm; simp [emptyRenewal, eventSlot, setEventSlot, eventStarts, hidle]
        · have : ¬ eventStarts m s (emptyRenewal (.event k) { s with lc.tx := some ⟨.event k, frameOf (.event k) s⟩ }) := by
            rintro ⟨_, b⟩
            simp only [emptyRenewal, setEventSlot, Option.any_some, beq_iff_eq, TxItem.event.injEq] at b
            exact hm b
          rw [if_neg this]
          simp only [emptyRenewal]
          rw [eventSlot_setEventSlot_ne hm]; rfl
      | greet => exact ⟨rfl, fun k => by rw [if_neg (by rintro ⟨_, b⟩; cases b)]; rfl, fun hs => (busy hs).elim⟩
      | keys => exact ⟨rfl, fun k => by rw [if_neg (by rintro ⟨_, b⟩; cases b)]; rfl, fun hs => (busy hs).elim⟩
      | fault _ => exact ⟨rfl, fun k => by rw [if_neg (by rintro ⟨_, b⟩; cases b)]; rfl, fun hs => (busy hs).elim⟩
      | rewind _ => exact ⟨rfl, fun k => by rw [if_neg (by rintro ⟨_, b⟩; cases b)]; rfl, fun hs => (busy hs).elim⟩
      | reply => exact ⟨rfl, fun k => by rw [if_neg (by rintro ⟨_, b⟩; cases b)]; rfl, fun hs => (busy hs).elim⟩
    · exact still

/-! `addWhere` -/

@[simp] theorem addWhere_lc (fuel : Nat) (p : Counter → Bool) (n : Nat) (s : State) : (addWhere fuel p n s).lc = s.lc := (addWhere_counted fuel p n s).same_lc
@[simp] theorem addWhere_lu (fuel : Nat) (p : Counter → Bool) (n : Nat) (s : State) : (addWhere fuel p n s).lu = s.lu := (addWhere_counted fuel p n s).same_lu
@[simp] theorem addWhere_sq (fuel : Nat) (p : Counter → Bool) (n : Nat) (s : State) : (addWhere fuel p n s).sq = s.sq := (addWhere_counted fuel p n s).same_sq
@[simp] theorem addWhere_de (fuel : Nat) (p : Counter → Bool) (n : Nat) (s : State) : (addWhere fuel p n s).de = s.de := (addWhere_counted fuel p n s).same_de
@[simp] theorem addWhere_tc (fuel : Nat) (p : Counter → Bool) (n : Nat) (s : State) : (addWhere fuel p n s).tc = s.tc := (addWhere_counted fuel p n s).same_tc
@[simp] theorem addWhere_tf (fuel : Nat) (p : Counter → Bool) (n : Nat) (s : State) : (addWhere fuel p n s).tf = s.tf := (addWhere_counted fuel p n s).same_tf
@[simp] theorem addWhere_fs (fuel : Nat) (p : Counter → Bool) (n : Nat) (s : State) : (addWhere fuel p n s).fs = s.fs := (addWhere_counted fuel p n s).same_fs
@[simp] theorem addWhere_pu (fuel : Nat) (p : Counter → Bool) (n : Nat) (s : State) : (addWhere fuel p n s).pu = s.pu := (addWhere_counted fuel p n s).same_pu
@[simp] theorem addWhere_ks (fuel : Nat) (p : Counter → Bool) (n : Nat) (s : State) : (addWhere fuel p n s).ks = s.ks := (addWhere_counted fuel p n s).same_ks
@[simp] theorem addWhere_settings (fuel : Nat) (p : Counter → Bool) (n : Nat) (s : State) : (addWhere fuel p n s).settings = s.settings := (addWhere_counted fuel p n s).same_settings
@[simp] theorem addWhere_flash (fuel : Nat) (p : Counter → Bool) (n : Nat) (s : State) : (addWhere fuel p n s).flash = s.flash := (addWhere_counted fuel p n s).same_flash
@[simp] theorem addWhere_tick (fuel : Nat) (p : Counter → Bool) (n : Nat) (s : State) : (addWhere fuel p n s).tick = s.tick := (addWhere_counted fuel p n s).same_tick
@[simp] theorem addWhere_msTimer (fuel : Nat) (p : Counter → Bool) (n : Nat) (s : State) : (addWhere fuel p n s).msTimer = s.msTimer := (addWhere_counted fuel p n s).same_msTimer
@[simp] theorem addWhere_free (fuel : Nat) (p : Counter → Bool) (n : Nat) (s : State) : (addWhere fuel p n s).free = s.free := (addWhere_counted fuel p n s).same_free
@[simp] theorem addWhere_pending (fuel : Nat) (p : Counter → Bool) (n : Nat) (s : State) : (addWhere fuel p n s).pending = s.pending := (addWhere_counted fuel p n s).same_pending
@[simp] theorem addWhere_inProgress (fuel : Nat) (p : Counter → Bool) (n : Nat) (s : State) : (addWhere fuel p n s).me.inProgress = s.me.inProgress := (addWhere_counted fuel p n s).same_inProgress
@[simp] theorem addWhere_tracker (fuel : Nat) (p : Counter → Bool) (n : Nat) (s : State) : (addWhere fuel p n s).mn.tracker = s.mn.tracker := (addWhere_counted fuel p n s).same_tracker

/-! `countN` -/

@[simp] theorem countN_lc (u : SubEvent) (n : Nat) (s : State) : (countN u n s).lc = s.lc := (countN_counted u n s).same_lc
@[simp] theorem countN_lu (u : SubEvent) (n : Nat) (s : State) : (countN u n s).lu = s.lu := (countN_counted u n s).same_lu
@[simp] theorem countN_sq (u : SubEvent) (n : Nat) (s : State) : (countN u n s).sq = s.sq := (countN_counted u n s).same_sq
@[simp] theorem countN_de (u : SubEvent) (n : Nat) (s : State) : (countN u n s).de = s.de := (countN_counted u n s).same_de
@[simp] theorem countN_tc (u : SubEvent) (n : Nat) (s : State) : (countN u n s).tc = s.tc := (countN_counted u n s).same_tc
@[simp] theorem countN_tf (u : SubEvent) (n : Nat) (s : State) : (countN u n s).tf = s.tf := (countN_counted u n s).same_tf
@[simp] theorem countN_fs (u : SubEvent) (n : Nat) (s : State) : (countN u n s).fs = s.fs := (countN_counted u n s).same_fs
@[simp] theorem countN_pu (u : SubEvent) (n : Nat) (s : State) : (countN u n s).pu = s.pu := (countN_counted u n s).same_pu
@[simp] theorem countN_ks (u : SubEvent) (n : Nat) (s : State) : (countN u n s).ks = s.ks := (countN_counted u n s).same_ks
@[simp] theorem countN_settings (u : SubEvent) (n : Nat) (s : State) : (countN u n s).settings = s.settings := (countN_counted u n s).same_settings
@[simp] theorem countN_flash (u : SubEvent) (n : Nat) (s : State) : (countN u n s).flash = s.flash := (countN_counted u n s).same_flash
@[simp] theorem countN_tick (u : SubEvent) (n : Nat) (s : State) : (countN u n s).tick = s.tick := (countN_counted u n s).same_tick
@[simp] theorem countN_msTimer (u : SubEvent) (n : Nat) (s : State) : (countN u n s).msTimer = s.msTimer := (countN_counted u n s).same_msTimer
@[simp] theorem countN_free (u : SubEvent) (n : Nat) (s : State) : (countN u n s).free = s.free := (countN_counted u n s).same_free
@[simp] theorem countN_pending (u : SubEvent) (n : Nat) (s : State) : (countN u n s).pending = s.pending := (countN_counted u n s).same_pending
@[simp] theorem countN_inProgress (u : SubEvent) (n : Nat) (s : State) : (countN u n s).me.inProgress = s.me.inProgress := (countN_counted u n s).same_inProgress
@[simp] theorem countN_tracker (u : SubEvent) (n : Nat) (s : State) : (countN u n s).mn.tracker = s.mn.tracker := (countN_counted u n s).same_tracker

/-! `count` -/

@[simp] theorem count_lc (u : SubEvent) (s : State) : (count u s).lc = s.lc := (count_counted u s).same_lc
@[simp] theorem count_lu (u : SubEvent) (s : State) : (count u s).lu = s.lu := (count_counted u s).same_lu
@[simp] theorem count_sq (u : SubEvent) (s : State) : (count u s).sq = s.sq := (count_counted u s).same_sq
@[simp] theorem count_de (u : SubEvent) (s : State) : (count u s).de = s.de := (count_counted u s).same_de
@[simp] theorem count_tc (u : SubEvent) (s : State) : (count u s).tc = s.tc := (count_counted u s).same_tc
@[simp] theorem count_tf (u : SubEvent) (s : State) : (count u s).tf = s.tf := (count_counted u s).same_tf
@[simp] theorem count_fs (u : SubEvent) (s : State) : (count u s).fs = s.fs := (count_counted u s).same_fs
@[simp] theorem count_pu (u : SubEvent) (s : State) : (count u s).pu = s.pu := (count_counted u s).same_pu
@[simp] theorem count_ks (u : SubEvent) (s : State) : (count u s).ks = s.ks := (count_counted u s).same_ks
@[simp] theorem count_settings (u : SubEvent) (s : State) : (count u s).settings = s.settings := (count_counted u s).same_settings
@[simp] theorem count_flash (u : SubEvent) (s : State) : (count u s).flash = s.flash := (count_counted u s).same_flash
@[simp] theorem count_tick (u : SubEvent) (s : State) : (count u s).tick = s.tick := (count_counted u s).same_tick
@[simp] theorem count_msTimer (u : SubEvent) (s : State) : (count u s).msTimer = s.msTimer := (count_counted u s).same_msTimer
@[simp] theorem count_free (u : SubEvent) (s : State) : (count u s).free = s.free := (count_counted u s).same_free
@[simp] theorem count_pending (u : SubEvent) (s : State) : (count u s).pending = s.pending := (count_counted u s).same_pending
@[simp] theorem count_inProgress (u : SubEvent) (s : State) : (count u s).me.inProgress = s.me.inProgress := (count_counted u s).same_inProgress
@[simp] theorem count_tracker (u : SubEvent) (s : State) : (count u s).mn.tracker = s.mn.tracker := (count_counted u s).same_tracker

/-! `countMillisecond` -/

@[simp] theorem countMillisecond_lc (s : State) : (countMillisecond s).lc = s.lc := (countMillisecond_counted s).same_lc
@[simp] theorem countMillisecond_lu (s : State) : (countMillisecond s).lu = s.lu := (countMillisecond_counted s).same_lu
@[simp] theorem countMillisecond_sq (s : State) : (countMillisecond s).sq = s.sq := (countMillisecond_counted s).same_sq
@[simp] theorem countMillisecond_de (s : State) : (countMillisecond s).de = s.de := (countMillisecond_counted s).same_de
@[simp] theorem countMillisecond_tc (s : State) : (countMillisecond s).tc = s.tc := (countMillisecond_counted s).same_tc
@[simp] theorem countMillisecond_tf (s : State) : (countMillisecond s).tf = s.tf := (countMillisecond_counted s).same_tf
@[simp] theorem countMillisecond_fs (s : State) : (countMillisecond s).fs = s.fs := (countMillisecond_counted s).same_fs
@[simp] theorem countMillisecond_pu (s : State) : (countMillisecond s).pu = s.pu := (countMillisecond_counted s).same_pu
@[simp] theorem countMillisecond_ks (s : State) : (countMillisecond s).ks = s.ks := (countMillisecond_counted s).same_ks
@[simp] theorem countMillisecond_settings (s : State) : (countMillisecond s).settings = s.settings := (countMillisecond_counted s).same_settings
@[simp] theorem countMillisecond_flash (s : State) : (countMillisecond s).flash = s.flash := (countMillisecond_counted s).same_flash
@[simp] theorem countMillisecond_tick (s : State) : (countMillisecond s).tick = s.tick := (countMillisecond_counted s).same_tick
@[simp] theorem countMillisecond_msTimer (s : State) : (countMillisecond s).msTimer = s.msTimer := (countMillisecond_counted s).same_msTimer
@[simp] theorem countMillisecond_free (s : State) : (countMillisecond s).free = s.free := (countMillisecond_counted s).same_free
@[simp] theorem countMillisecond_pending (s : State) : (countMillisecond s).pending = s.pending := (countMillisecond_counted s).same_pending
@[simp] theorem countMillisecond_inProgress (s : State) : (countMillisecond s).me.inProgress = s.me.inProgress := (countMillisecond_counted s).same_inProgress
@[simp] theorem countMillisecond_tracker (s : State) : (countMillisecond s).mn.tracker = s.mn.tracker := (countMillisecond_counted s).same_tracker

/-! `countEdges` -/

@[simp] theorem countEdges_lc (b s : State) : (countEdges b s).lc = s.lc := (countEdges_counted b s).same_lc
@[simp] theorem countEdges_lu (b s : State) : (countEdges b s).lu = s.lu := (countEdges_counted b s).same_lu
@[simp] theorem countEdges_sq (b s : State) : (countEdges b s).sq = s.sq := (countEdges_counted b s).same_sq
@[simp] theorem countEdges_de (b s : State) : (countEdges b s).de = s.de := (countEdges_counted b s).same_de
@[simp] theorem countEdges_tc (b s : State) : (countEdges b s).tc = s.tc := (countEdges_counted b s).same_tc
@[simp] theorem countEdges_tf (b s : State) : (countEdges b s).tf = s.tf := (countEdges_counted b s).same_tf
@[simp] theorem countEdges_fs (b s : State) : (countEdges b s).fs = s.fs := (countEdges_counted b s).same_fs
@[simp] theorem countEdges_pu (b s : State) : (countEdges b s).pu = s.pu := (countEdges_counted b s).same_pu
@[simp] theorem countEdges_ks (b s : State) : (countEdges b s).ks = s.ks := (countEdges_counted b s).same_ks
@[simp] theorem countEdges_settings (b s : State) : (countEdges b s).settings = s.settings := (countEdges_counted b s).same_settings
@[simp] theorem countEdges_flash (b s : State) : (countEdges b s).flash = s.flash := (countEdges_counted b s).same_flash
@[simp] theorem countEdges_tick (b s : State) : (countEdges b s).tick = s.tick := (countEdges_counted b s).same_tick
@[simp] theorem countEdges_msTimer (b s : State) : (countEdges b s).msTimer = s.msTimer := (countEdges_counted b s).same_msTimer
@[simp] theorem countEdges_free (b s : State) : (countEdges b s).free = s.free := (countEdges_counted b s).same_free
@[simp] theorem countEdges_pending (b s : State) : (countEdges b s).pending = s.pending := (countEdges_counted b s).same_pending
@[simp] theorem countEdges_inProgress (b s : State) : (countEdges b s).me.inProgress = s.me.inProgress := (countEdges_counted b s).same_inProgress
@[simp] theorem countEdges_tracker (b s : State) : (countEdges b s).mn.tracker = s.mn.tracker := (countEdges_counted b s).same_tracker

/-! `raiseEvent` -/

@[simp] theorem raiseEvent_lc (k : EventKind) (d : BitVec 24) (s : State) : (raiseEvent k d s).lc = s.lc := by
  unfold raiseEvent; split <;> simp
@[simp] theorem raiseEvent_lu (k : EventKind) (d : BitVec 24) (s : State) : (raiseEvent k d s).lu = s.lu := by
  unfold raiseEvent; split <;> simp
@[simp] theorem raiseEvent_sq (k : EventKind) (d : BitVec 24) (s : State) : (raiseEvent k d s).sq = s.sq := by
  unfold raiseEvent; split <;> simp
@[simp] theorem raiseEvent_de (k : EventKind) (d : BitVec 24) (s : State) : (raiseEvent k d s).de = s.de := by
  unfold raiseEvent; split <;> simp
@[simp] theorem raiseEvent_tc (k : EventKind) (d : BitVec 24) (s : State) : (raiseEvent k d s).tc = s.tc := by
  unfold raiseEvent; split <;> simp
@[simp] theorem raiseEvent_tf (k : EventKind) (d : BitVec 24) (s : State) : (raiseEvent k d s).tf = s.tf := by
  unfold raiseEvent; split <;> simp
@[simp] theorem raiseEvent_fs (k : EventKind) (d : BitVec 24) (s : State) : (raiseEvent k d s).fs = s.fs := by
  unfold raiseEvent; split <;> simp
@[simp] theorem raiseEvent_pu (k : EventKind) (d : BitVec 24) (s : State) : (raiseEvent k d s).pu = s.pu := by
  unfold raiseEvent; split <;> simp
@[simp] theorem raiseEvent_ks (k : EventKind) (d : BitVec 24) (s : State) : (raiseEvent k d s).ks = s.ks := by
  unfold raiseEvent; split <;> simp
@[simp] theorem raiseEvent_settings (k : EventKind) (d : BitVec 24) (s : State) : (raiseEvent k d s).settings = s.settings := by
  unfold raiseEvent; split <;> simp
@[simp] theorem raiseEvent_flash (k : EventKind) (d : BitVec 24) (s : State) : (raiseEvent k d s).flash = s.flash := by
  unfold raiseEvent; split <;> simp
@[simp] theorem raiseEvent_tick (k : EventKind) (d : BitVec 24) (s : State) : (raiseEvent k d s).tick = s.tick := by
  unfold raiseEvent; split <;> simp
@[simp] theorem raiseEvent_msTimer (k : EventKind) (d : BitVec 24) (s : State) : (raiseEvent k d s).msTimer = s.msTimer := by
  unfold raiseEvent; split <;> simp
@[simp] theorem raiseEvent_free (k : EventKind) (d : BitVec 24) (s : State) : (raiseEvent k d s).free = s.free := by
  unfold raiseEvent; split <;> simp
@[simp] theorem raiseEvent_pending (k : EventKind) (d : BitVec 24) (s : State) : (raiseEvent k d s).pending = s.pending := by
  unfold raiseEvent; split <;> simp
@[simp] theorem raiseEvent_inProgress (k : EventKind) (d : BitVec 24) (s : State) : (raiseEvent k d s).me.inProgress = s.me.inProgress := by
  unfold raiseEvent; split <;> simp
@[simp] theorem raiseEvent_tracker (k : EventKind) (d : BitVec 24) (s : State) : (raiseEvent k d s).mn.tracker = s.mn.tracker := by
  unfold raiseEvent; split <;> simp

/-! `arbitrate` -/

@[simp] theorem arbitrate_lu (s : State) : (arbitrate s).lu = s.lu := (arbitrate_selected s).same_lu
@[simp] theorem arbitrate_sq (s : State) : (arbitrate s).sq = s.sq := (arbitrate_selected s).same_sq
@[simp] theorem arbitrate_de (s : State) : (arbitrate s).de = s.de := (arbitrate_selected s).same_de
@[simp] theorem arbitrate_tc (s : State) : (arbitrate s).tc = s.tc := (arbitrate_selected s).same_tc
@[simp] theorem arbitrate_tf (s : State) : (arbitrate s).tf = s.tf := (arbitrate_selected s).same_tf
@[simp] theorem arbitrate_fs (s : State) : (arbitrate s).fs = s.fs := (arbitrate_selected s).same_fs
@[simp] theorem arbitrate_pu (s : State) : (arbitrate s).pu = s.pu := (arbitrate_selected s).same_pu
@[simp] theorem arbitrate_ks (s : State) : (arbitrate s).ks = s.ks := (arbitrate_selected s).same_ks
@[simp] theorem arbitrate_settings (s : State) : (arbitrate s).settings = s.settings := (arbitrate_selected s).same_settings
@[simp] theorem arbitrate_flash (s : State) : (arbitrate s).flash = s.flash := (arbitrate_selected s).same_flash
@[simp] theorem arbitrate_tick (s : State) : (arbitrate s).tick = s.tick := (arbitrate_selected s).same_tick
@[simp] theorem arbitrate_msTimer (s : State) : (arbitrate s).msTimer = s.msTimer := (arbitrate_selected s).same_msTimer
@[simp] theorem arbitrate_free (s : State) : (arbitrate s).free = s.free := (arbitrate_selected s).same_free
@[simp] theorem arbitrate_pending (s : State) : (arbitrate s).pending = s.pending := (arbitrate_selected s).same_pending
@[simp] theorem arbitrate_mn (s : State) : (arbitrate s).mn = s.mn := (arbitrate_selected s).same_mn
@[simp] theorem arbitrate_link (s : State) : (arbitrate s).lc.link = s.lc.link := (arbitrate_selected s).same_link
@[simp] theorem arbitrate_alignCount (s : State) : (arbitrate s).lc.alignCount = s.lc.alignCount := (arbitrate_selected s).same_alignCount
@[simp] theorem arbitrate_framingCount (s : State) : (arbitrate s).lc.framingCount = s.lc.framingCount := (arbitrate_selected s).same_framingCount
@[simp] theorem arbitrate_failureCount (s : State) : (arbitrate s).lc.failureCount = s.lc.failureCount := (arbitrate_selected s).same_failureCount
@[simp] theorem arbitrate_lossCount (s : State) : (arbitrate s).lc.lossCount = s.lc.lossCount := (arbitrate_selected s).same_lossCount
@[simp] theorem arbitrate_assembly (s : State) : (arbitrate s).lc.assembly = s.lc.assembly := (arbitrate_selected s).same_assembly
@[simp] theorem arbitrate_attachment (s : State) : (arbitrate s).lc.attachment = s.lc.attachment := (arbitrate_selected s).same_attachment
@[simp] theorem arbitrate_attachNumber (s : State) : (arbitrate s).lc.attachNumber = s.lc.attachNumber := (arbitrate_selected s).same_attachNumber
@[simp] theorem arbitrate_holdTimer (s : State) : (arbitrate s).lc.holdTimer = s.lc.holdTimer := (arbitrate_selected s).same_holdTimer
@[simp] theorem arbitrate_holdCause (s : State) : (arbitrate s).lc.holdCause = s.lc.holdCause := (arbitrate_selected s).same_holdCause
@[simp] theorem arbitrate_holdStart (s : State) : (arbitrate s).lc.holdStart = s.lc.holdStart := (arbitrate_selected s).same_holdStart
@[simp] theorem arbitrate_attachCounter (s : State) : (arbitrate s).lc.attachCounter = s.lc.attachCounter := (arbitrate_selected s).same_attachCounter
@[simp] theorem arbitrate_lastCause (s : State) : (arbitrate s).lc.lastCause = s.lc.lastCause := (arbitrate_selected s).same_lastCause
@[simp] theorem arbitrate_lastDuration (s : State) : (arbitrate s).lc.lastDuration = s.lc.lastDuration := (arbitrate_selected s).same_lastDuration
@[simp] theorem arbitrate_greet (s : State) : (arbitrate s).lc.greet = s.lc.greet := (arbitrate_selected s).same_greet
@[simp] theorem arbitrate_greetRenewed (s : State) : (arbitrate s).lc.greetRenewed = s.lc.greetRenewed := (arbitrate_selected s).same_greetRenewed
@[simp] theorem arbitrate_keys (s : State) : (arbitrate s).lc.keys = s.lc.keys := (arbitrate_selected s).same_keys
@[simp] theorem arbitrate_replies (s : State) : (arbitrate s).lc.replies = s.lc.replies := (arbitrate_selected s).same_replies
@[simp] theorem arbitrate_laneOut (s : State) : (arbitrate s).lc.laneOut = s.lc.laneOut := (arbitrate_selected s).same_laneOut
@[simp] theorem arbitrate_inProgress (s : State) : (arbitrate s).me.inProgress = s.me.inProgress := (arbitrate_selected s).same_inProgress

/-! `conclude` -/

@[simp] theorem conclude_lu (b s : State) : (conclude b s).lu = s.lu := by simp [conclude]
@[simp] theorem conclude_sq (b s : State) : (conclude b s).sq = s.sq := by simp [conclude]
@[simp] theorem conclude_de (b s : State) : (conclude b s).de = s.de := by simp [conclude]
@[simp] theorem conclude_tc (b s : State) : (conclude b s).tc = s.tc := by simp [conclude]
@[simp] theorem conclude_tf (b s : State) : (conclude b s).tf = s.tf := by simp [conclude]
@[simp] theorem conclude_fs (b s : State) : (conclude b s).fs = s.fs := by simp [conclude]
@[simp] theorem conclude_pu (b s : State) : (conclude b s).pu = s.pu := by simp [conclude]
@[simp] theorem conclude_ks (b s : State) : (conclude b s).ks = s.ks := by simp [conclude]
@[simp] theorem conclude_settings (b s : State) : (conclude b s).settings = s.settings := by simp [conclude]
@[simp] theorem conclude_flash (b s : State) : (conclude b s).flash = s.flash := by simp [conclude]
@[simp] theorem conclude_tick (b s : State) : (conclude b s).tick = s.tick := by simp [conclude]
@[simp] theorem conclude_msTimer (b s : State) : (conclude b s).msTimer = s.msTimer := by simp [conclude]
@[simp] theorem conclude_free (b s : State) : (conclude b s).free = s.free := by simp [conclude]
@[simp] theorem conclude_pending (b s : State) : (conclude b s).pending = s.pending := by simp [conclude]
@[simp] theorem conclude_link (b s : State) : (conclude b s).lc.link = s.lc.link := by simp [conclude]
@[simp] theorem conclude_alignCount (b s : State) : (conclude b s).lc.alignCount = s.lc.alignCount := by simp [conclude]
@[simp] theorem conclude_framingCount (b s : State) : (conclude b s).lc.framingCount = s.lc.framingCount := by simp [conclude]
@[simp] theorem conclude_failureCount (b s : State) : (conclude b s).lc.failureCount = s.lc.failureCount := by simp [conclude]
@[simp] theorem conclude_lossCount (b s : State) : (conclude b s).lc.lossCount = s.lc.lossCount := by simp [conclude]
@[simp] theorem conclude_assembly (b s : State) : (conclude b s).lc.assembly = s.lc.assembly := by simp [conclude]
@[simp] theorem conclude_attachment (b s : State) : (conclude b s).lc.attachment = s.lc.attachment := by simp [conclude]
@[simp] theorem conclude_attachNumber (b s : State) : (conclude b s).lc.attachNumber = s.lc.attachNumber := by simp [conclude]
@[simp] theorem conclude_holdTimer (b s : State) : (conclude b s).lc.holdTimer = s.lc.holdTimer := by simp [conclude]
@[simp] theorem conclude_holdCause (b s : State) : (conclude b s).lc.holdCause = s.lc.holdCause := by simp [conclude]
@[simp] theorem conclude_holdStart (b s : State) : (conclude b s).lc.holdStart = s.lc.holdStart := by simp [conclude]
@[simp] theorem conclude_attachCounter (b s : State) : (conclude b s).lc.attachCounter = s.lc.attachCounter := by simp [conclude]
@[simp] theorem conclude_lastCause (b s : State) : (conclude b s).lc.lastCause = s.lc.lastCause := by simp [conclude]
@[simp] theorem conclude_lastDuration (b s : State) : (conclude b s).lc.lastDuration = s.lc.lastDuration := by simp [conclude]
@[simp] theorem conclude_greet (b s : State) : (conclude b s).lc.greet = s.lc.greet := by simp [conclude]
@[simp] theorem conclude_greetRenewed (b s : State) : (conclude b s).lc.greetRenewed = s.lc.greetRenewed := by simp [conclude]
@[simp] theorem conclude_keys (b s : State) : (conclude b s).lc.keys = s.lc.keys := by simp [conclude]
@[simp] theorem conclude_replies (b s : State) : (conclude b s).lc.replies = s.lc.replies := by simp [conclude]
@[simp] theorem conclude_laneOut (b s : State) : (conclude b s).lc.laneOut = s.lc.laneOut := by simp [conclude]
@[simp] theorem conclude_inProgress (b s : State) : (conclude b s).me.inProgress = s.me.inProgress := by simp [conclude]
@[simp] theorem conclude_tracker (b s : State) : (conclude b s).mn.tracker = s.mn.tracker := by simp [conclude]

/-! ### The end of an event -/

/-- The bookkeeping of counting alone. -/
theorem Counted.bookkeeping {s t : State} (h : Counted s t) : bookkeepingOnly s t := by
  refine ⟨h.selections, h.same_tracker, fun k hk => ?_, fun _ => by rw [h.same_lc]⟩
  rw [h.slots k hk, if_neg (not_eventStarts (by rw [h.same_lc]) k)]; exact ⟨rfl, rfl, rfl, rfl⟩

theorem Selected.bookkeeping {s t : State} (h : Selected s t) : bookkeepingOnly s t := by
  refine ⟨fun n => by rw [h.same_mn]; exact ⟨rfl, rfl, rfl, rfl⟩, by rw [h.same_mn], fun k _ => ?_, h.lane⟩
  rw [h.slots k]; exact ⟨rfl, rfl, rfl, rfl⟩

theorem bookkeepingOnly_refl (s : State) : bookkeepingOnly s s := (Counted.refl s).bookkeeping

theorem selectionsKept.trans {s t u : State} (h : selectionsKept s t) (g : selectionsKept t u) : selectionsKept s u := fun n => by
  obtain ⟨a, b, c, d⟩ := h n
  obtain ⟨a', b', c', d'⟩ := g n
  exact ⟨a'.trans a, b'.trans b, c'.trans c, d'.trans d⟩

/-- The slots are kept from s to u when they are from s to t and from t to u, and no transmission ends on the way. -/
theorem eventsKept.trans {s t u : State} (h : eventsKept s t) (g : eventsKept t u)
    (hs : s.lc.tx.isSome = true → t.lc.tx = s.lc.tx) (hu : t.lc.tx.isSome = true → u.lc.tx = t.lc.tx) : eventsKept s u := by
  intro k hk
  obtain ⟨a, b, c, d⟩ := h k hk
  obtain ⟨a', b', c', d'⟩ := g k hk
  refine ⟨a'.trans a, b'.trans b, c'.trans c, ?_⟩
  rw [d', d]
  unfold eventStarts
  rcases hx : s.lc.tx with _ | x
  · rcases hy : t.lc.tx with _ | y
    · simp
    · simp [hu (by rw [hy]; rfl), hy]
  · simp [hs (by rw [hx]; rfl), hx]

/-- Two changes of the bookkeeping make one. -/
theorem bookkeepingOnly.trans {s t u : State} (h : bookkeepingOnly s t) (g : bookkeepingOnly t u) : bookkeepingOnly s u := by
  obtain ⟨h1, h2, h3, h4⟩ := h
  obtain ⟨g1, g2, g3, g4⟩ := g
  exact ⟨h1.trans g1, g2.trans h2, h3.trans g3 h4 g4, fun hs => by rw [g4 (by rw [h4 hs]; exact hs), h4 hs]⟩

/-- The end of an event does the bookkeeping and nothing else. -/
theorem conclude_bookkeeping (before s : State) : bookkeepingOnly s (conclude before s) :=
  (countEdges_counted before s).bookkeeping.trans (arbitrate_selected _).bookkeeping

theorem conclude_tx (before s : State) (h : s.lc.tx.isSome = true) : (conclude before s).lc.tx = s.lc.tx :=
  (conclude_bookkeeping before s).2.2.2 h

end Sys2Proof.Machine
end

