-- ==== Sys2Proof/Laws/Own.lean ====
section
/-! SUPPORT. What drawing, fills, faults, the panel and the management requests leave alone: the Link Controller's own records, the
Key Scanner, the settings record, the settings store, the panel geometry, the time base and the queue of commands. One
lemma per operation. -/

namespace Sys2Proof.Machine

/-- The part of State that only the link, the Key Scanner, the settings, the store and time change. -/
structure Own where
  link : LinkState
  alignCount : Nat
  framingCount : Nat
  failureCount : Nat
  lossCount : Nat
  assembly : Option (List Byte)
  attachment : Attachment
  attachNumber : Word
  holdTimer : Option Nat
  holdCause : Option DepartCause
  holdStart : Option Nat
  attachCounter : Word
  lastCause : Option DepartCause
  lastDuration : Nat
  ks : KeyScanner
  settings : Settings
  flash : List Host.Cell
  width : Nat
  height : Nat
  imageUsed : Bool
  tick : Nat
  msTimer : Nat
  pending : List Instr

/-- See Own. -/
def own (s : State) : Own :=
  ⟨s.lc.link, s.lc.alignCount, s.lc.framingCount, s.lc.failureCount, s.lc.lossCount, s.lc.assembly, s.lc.attachment,
    s.lc.attachNumber, s.lc.holdTimer, s.lc.holdCause, s.lc.holdStart, s.lc.attachCounter, s.lc.lastCause, s.lc.lastDuration,
    s.ks, s.settings, s.flash, s.lu.width, s.lu.height, s.lu.imageUsed, s.tick, s.msTimer, s.pending⟩

theorem foldl_own {α : Type} (f : State → α → State) (h : ∀ t a, own (f t a) = own t) (l : List α) (s : State) :
    own (l.foldl f s) = own s := by
  induction l generalizing s with
  | nil => rfl
  | cons a l ih => exact (ih (f s a)).trans (h s a)

/-! ### Shared operations -/

theorem Counted.own_eq {s t : State} (h : Counted s t) : own t = own s := by rw [h.rest]; rfl
theorem Selected.own_eq {s t : State} (h : Selected s t) : own t = own s := by rw [h.rest]; rfl

@[simp] theorem addWhere_own (fuel : Nat) (p : Counter → Bool) (n : Nat) (s : State) : own (addWhere fuel p n s) = own s :=
  (addWhere_counted fuel p n s).own_eq
@[simp] theorem countN_own (u : SubEvent) (n : Nat) (s : State) : own (countN u n s) = own s := (countN_counted u n s).own_eq
@[simp] theorem count_own (u : SubEvent) (s : State) : own (count u s) = own s := (count_counted u s).own_eq
@[simp] theorem countEdges_own (b s : State) : own (countEdges b s) = own s := (countEdges_counted b s).own_eq
@[simp] theorem countMillisecond_own (s : State) : own (countMillisecond s) = own s := (countMillisecond_counted s).own_eq
@[simp] theorem arbitrate_own (s : State) : own (arbitrate s) = own s := (arbitrate_selected s).own_eq
@[simp] theorem conclude_own (b s : State) : own (conclude b s) = own s := (arbitrate_own _).trans (countEdges_own b s)
@[simp] theorem setStream_own (i : Fin 8) (r : Stream) (s : State) : own (setStream i r s) = own s := rfl
@[simp] theorem mapStreams_own (f : Fin 8 → Stream → Stream) (s : State) : own (mapStreams f s) = own s := by
  simp only [mapStreams, own]
@[simp] theorem setRegion_own (i : Fin 8) (r : Region) (s : State) : own (setRegion i r s) = own s := rfl
@[simp] theorem mapRegions_own (f : Fin 8 → Region → Region) (s : State) : own (mapRegions f s) = own s := by
  simp only [mapRegions, own]
@[simp] theorem setEventSlot_own (k : EventKind) (e : EventSlot) (s : State) : own (setEventSlot k e s) = own s := rfl
@[simp] theorem setTileSet_own (key : Word) (ways : TileSet) (s : State) : own (setTileSet key ways s) = own s := by
  simp only [setTileSet, own]
@[simp] theorem setQueue_own (side : Side) (q : List Entry) (s : State) : own (setQueue side q s) = own s := by cases side <;> rfl
@[simp] theorem setEngine_own (side : Side) (r : Option ExecRecord) (s : State) : own (setEngine side r s) = own s := by
  cases side <;> rfl
@[simp] theorem setRecord_own (side : Side) (r : FaultRecord) (s : State) : own (setRecord side r s) = own s := by
  cases side <;> rfl
@[simp] theorem takeFree_own (s : State) : own (takeFree s) = own s := rfl
@[simp] theorem postReply_own (tag kind : Byte) (x : Status) (d : List Byte) (s : State) :
    own (postReply tag kind x d s) = own s := rfl
@[simp] theorem answer_own (tag kind : Byte) (x : Status) (s : State) : own (answer tag kind x s) = own s := rfl
@[simp] theorem beginLong_own (tag kind : Byte) (op : LongOp) (s : State) : own (beginLong tag kind op s) = own s := rfl

@[simp] theorem raiseEvent_own (k : EventKind) (d : BitVec 24) (s : State) : own (raiseEvent k d s) = own s := by
  unfold raiseEvent; split
  · exact count_own _ _
  · rfl

@[simp] theorem endLong_own (x : Status) (s : State) : own (endLong x s) = own s := by
  unfold endLong; split
  · split <;> rfl
  · rfl

@[simp] theorem endOp_own (op : LongOp) (x : Status) (s : State) : own (endOp op x s) = own s := by
  unfold endOp; split
  · exact endLong_own x s
  · rfl

@[simp] theorem cutMark_own (item : TxItem) (s : State) : own (cutMark item s) = own s := by cases item <;> rfl

@[simp] theorem cutTx_own (s : State) : own (cutTx s) = own s := by
  unfold cutTx; split
  · exact (count_own _ _).trans (cutMark_own _ _)
  · rfl

@[simp] theorem completeItem_own (item : TxItem) (s : State) : own (completeItem item s) = own s := by
  cases item with
  | greet => simp only [completeItem]; split <;> rfl
  | keys => rfl
  | fault side => exact setRecord_own _ _ _
  | rewind i => rfl
  | reply => rfl
  | event k => exact count_own _ _

@[simp] theorem flagGreet_own (o : GreetOutcome) (s : State) : own (flagGreet o s) = own s := by
  simp only [flagGreet]; split
  · split <;> rfl
  · rfl

@[simp] theorem flagRewind_own (x : RewindReason) (i : Fin 8) (s : State) : own (flagRewind x i s) = own s := rfl

@[simp] theorem flagOpenRewinds_own (x : RewindReason) (s : State) : own (flagOpenRewinds x s) = own s := by
  refine foldl_own _ (fun t i => ?_) _ s
  split
  · exact flagRewind_own x i t
  · rfl

theorem takeRequest_own (tag kind : Byte) (run : State → State) (h : ∀ t, own (run t) = own t) (s : State) :
    own (takeRequest tag kind run s) = own s := by
  unfold takeRequest
  split
  · exact count_own _ _
  · split
    · exact count_own _ _
    · exact (h _).trans (count_own _ _)

/-! ### Panel -/

@[simp] theorem sendBlock_own (i : Nat) (s : State) : own (sendBlock i s) = own s := count_own _ _

@[simp] theorem selectBlock_own (s : State) : own (selectBlock s) = own s := by
  unfold selectBlock; split
  · split
    · exact sendBlock_own _ s
    · rfl
  · rfl

@[simp] theorem markBlocks_own (f : Nat → Bool) (s : State) : own (markBlocks f s) = own s := selectBlock_own _

@[simp] theorem applyLevel_own (n : Nat) (s : State) : own (applyLevel n s) = own s := by
  unfold applyLevel; split
  · rfl
  · exact (raiseEvent_own _ _ _).trans (count_own _ _)

/-- Reading on changes the block write on the port and the count of free values, nothing else. -/
theorem rereadPort_rest (upTo : Nat → Nat) (written : Nat → Bool) (img : Image) (s : State) :
    rereadPort upTo written img s =
      { s with pu.port := (rereadPort upTo written img s).pu.port, free := (rereadPort upTo written img s).free } := by
  unfold rereadPort; split <;> rfl

/-- See rereadPort_rest. -/
theorem readToEnd_rest (img : Image) (s : State) :
    readToEnd img s = { s with pu.port := (readToEnd img s).pu.port, free := (readToEnd img s).free } :=
  rereadPort_rest _ _ _ s

/-- See rereadPort_rest. -/
theorem endReading_rest (s : State) :
    endReading s = { s with pu.port := (endReading s).pu.port, free := (endReading s).free } := by
  unfold endReading; split
  · exact rereadPort_rest _ _ _ s
  · rfl

@[simp] theorem readToEnd_own (img : Image) (s : State) : own (readToEnd img s) = own s := by rw [readToEnd_rest]; rfl

/-- With the frame store free the block in flight has been read as it stands. -/
@[simp] theorem endReading_free {s : State} (h : s.fs.holder = none) : endReading s = s := by simp [endReading, h]

/-- With no block in flight nothing is being read. -/
@[simp] theorem readToEnd_idle (img : Image) {s : State} (h : s.pu.inFlight = none) : readToEnd img s = s := by
  simp [readToEnd, rereadPort, h]

@[simp] theorem completeBlock_own (s : State) : own (completeBlock s) = own s := by
  unfold completeBlock; rw [endReading_rest]; exact (selectBlock_own _).trans (count_own _ _)

@[simp] theorem timeOutBlock_own (f : InFlight) (s : State) : own (timeOutBlock f s) = own s := by
  simp only [timeOutBlock]; rw [endReading_rest]; split
  · exact (selectBlock_own _).trans (count_own _ _)
  · exact (raiseEvent_own _ _ _).trans ((count_own _ _).trans (count_own _ _))

@[simp] theorem restartPanel_own (s : State) : own (restartPanel s) = own s := (markBlocks_own _ _).trans (count_own _ _)

@[simp] theorem doPanelRestart_own (tag : Byte) (s : State) : own (doPanelRestart tag s) = own s := restartPanel_own s

@[simp] theorem doPanelWrite_own (tag w h l : Byte) (s : State) : own (doPanelWrite tag w h l s) = own s := by
  unfold doPanelWrite; split
  · exact applyLevel_own _ s
  · rfl

/-! ### Tile Cache -/

@[simp] theorem allocateWay_own (key : Word) (w : Fin 4) (s : State) : own (allocateWay key w s) = own s := by
  simp only [allocateWay]; split
  · exact (count_own _ _).trans (setTileSet_own _ _ _)
  · exact setTileSet_own _ _ _

@[simp] theorem mapEntry_own (key : Word) (f : DirEntry → DirEntry) (s : State) : own (mapEntry key f s) = own s := by
  unfold mapEntry; split
  · exact setTileSet_own _ _ _
  · rfl

@[simp] theorem writeSector_own (key : Word) (w : Fin 4) (n : Nat) (d : List Byte) (s : State) :
    own (writeSector key w n d s) = own s := setTileSet_own _ _ _

@[simp] theorem afterLookup_own (key : Word) (l : Lookup) (s : State) : own (afterLookup key l s) = own s := by
  cases l with
  | hit w => exact (count_own _ _).trans (setTileSet_own _ _ _)
  | sectorMiss w => exact count_own _ _
  | absent => exact count_own _ _

@[simp] theorem wakeWay_own (s : State) : own (wakeWay s) = own s := mapStreams_own _ s

@[simp] theorem releaseEntry_own (key : Word) (s : State) : own (releaseEntry key s) = own s := by
  unfold releaseEntry; split
  · dsimp only
    split
    · exact (wakeWay_own _).trans (setTileSet_own _ _ _)
    · exact setTileSet_own _ _ _
  · rfl

@[simp] theorem releaseReservation_own (i : Fin 8) (s : State) : own (releaseReservation i s) = own s := by
  unfold releaseReservation; split
  · exact releaseEntry_own _ _
  · rfl

@[simp] theorem doTilePin_own (tag : Byte) (key : Word) (s : State) : own (doTilePin tag key s) = own s := by
  simp only [doTilePin]
  repeat' split
  all_goals rfl

@[simp] theorem unpin_own (tag : Byte) (key : Word) (s : State) : own (unpin tag key s) = own s := by
  simp only [unpin]
  repeat' split
  all_goals rfl

@[simp] theorem doTileFlush_own (tag : Byte) (s : State) : own (doTileFlush tag s) = own s := by
  unfold doTileFlush; split <;> rfl

@[simp] theorem sweepSet_own (n : Fin 64) (s : State) : own (sweepSet n s) = own s := by
  simp only [sweepSet]; split
  · exact (endOp_own _ _ _).trans (by simp only [own])
  · simp only [own]

@[simp] theorem resetCache_own (s : State) : own (resetCache s) = own s := by simp only [resetCache, own]

/-! ### Tile Fault Unit -/

@[simp] theorem setWait_own (i : Fin 8) (w : StreamState) (s : State) : own (setWait i w s) = own s := rfl

@[simp] theorem joinFault_own (side : Side) (i : Fin 8) (m : BitVec 4) (s : State) : own (joinFault side i m s) = own s := by
  simp only [joinFault]; split
  · exact (setWait_own _ _ _).trans ((count_own _ _).trans (setRecord_own _ _ _))
  · exact (setWait_own _ _ _).trans ((count_own _ _).trans ((count_own _ _).trans (setRecord_own _ _ _)))

@[simp] theorem trackRaise_own (side : Side) (key : Word) (s : State) : own (trackRaise side key s) = own s := by
  unfold trackRaise; split <;> rfl

@[simp] theorem trackComplete_own (side : Side) (s : State) : own (trackComplete side s) = own s := by
  unfold trackComplete; split
  · dsimp only; split <;> rfl
  · rfl

@[simp] theorem trackLost_own (side : Side) (s : State) : own (trackLost side s) = own s := by
  unfold trackLost; split
  · split <;> rfl
  · rfl

@[simp] theorem trackTeardown_own (s : State) : own (trackTeardown s) = own s := (trackLost_own _ _).trans (trackLost_own _ _)

@[simp] theorem raiseFault_own (side : Side) (i : Fin 8) (key : Word) (m : BitVec 4) (s : State) :
    own (raiseFault side i key m s) = own s :=
  (setWait_own _ _ _).trans ((trackRaise_own _ _ _).trans ((count_own _ _).trans ((setRecord_own _ _ _).trans
    (mapEntry_own _ _ _))))

@[simp] theorem takeMiss_own (side : Side) (i : Fin 8) (key : Word) (m : BitVec 4) (p : Bool) (s : State) :
    own (takeMiss side i key m p s) = own s := by
  unfold takeMiss
  split
  · exact joinFault_own _ _ _ _
  · split
    · exact (setWait_own _ _ _).trans (count_own _ _)
    · split
      · exact raiseFault_own _ _ _ _ _
      · split
        · exact (raiseFault_own _ _ _ _ _).trans (allocateWay_own _ _ _)
        · exact (setWait_own _ _ _).trans (count_own _ _)

@[simp] theorem goIdle_own (side : Side) (s : State) : own (goIdle side s) = own s :=
  (wakeWay_own _).trans ((mapStreams_own _ _).trans (setRecord_own _ _ _))

@[simp] theorem completeFault_own (side : Side) (s : State) : own (completeFault side s) = own s :=
  (trackComplete_own _ _).trans ((count_own _ _).trans ((goIdle_own _ _).trans ((mapStreams_own _ _).trans (mapEntry_own _ _ _))))

@[simp] theorem fillPassed_own (key : Word) (w : Fin 4) (s : State) : own (fillPassed key w s) = own s := by
  unfold fillPassed; split
  · split
    · exact completeFault_own _ s
    · rfl
  · rfl

@[simp] theorem retryFault_own (side : Side) (s : State) : own (retryFault side s) = own s :=
  (count_own _ _).trans (setRecord_own _ _ _)

@[simp] theorem skipHead_own (s : State) (i : Fin 8) : own (skipHead s i) = own s := by
  unfold skipHead; split
  · exact (count_own _ _).trans ((setStream_own _ _ _).trans (setQueue_own _ _ _))
  · rfl

@[simp] theorem setStale_own (m : BitVec 8) (s : State) : own (setStale m s) = own s :=
  (raiseEvent_own _ _ _).trans (mapRegions_own _ _)

@[simp] theorem abandonFault_own (side : Side) (s : State) : own (abandonFault side s) = own s :=
  (trackLost_own _ _).trans ((count_own _ _).trans ((goIdle_own _ _).trans ((mapEntry_own _ _ _).trans
    ((setStale_own _ _).trans (foldl_own _ skipHead_own _ s)))))

@[simp] theorem cancelFault_own (side : Side) (s : State) : own (cancelFault side s) = own s :=
  (trackLost_own _ _).trans ((count_own _ _).trans ((goIdle_own _ _).trans (mapEntry_own _ _ _)))

@[simp] theorem leaveFault_own (side : Side) (i : Fin 8) (s : State) : own (leaveFault side i s) = own s := by
  simp only [leaveFault]; split
  · split
    · exact (cancelFault_own _ _).trans (setRecord_own _ _ _)
    · exact setRecord_own _ _ _
  · rfl

@[simp] theorem representFault_own (side : Side) (s : State) : own (representFault side s) = own s := by
  simp only [representFault]; split
  · exact (count_own _ _).trans (setRecord_own _ _ _)
  · rfl

@[simp] theorem resetFaults_own (s : State) : own (resetFaults s) = own s := rfl

/-! ### Drawing -/

@[simp] theorem grantStore_own (s : State) : own (grantStore s) = own s := by
  unfold grantStore; split
  · split
    · dsimp only
      split
      · exact count_own _ _
      · rfl
    · rfl
  · rfl

@[simp] theorem askStore_own (w : Writer) (s : State) : own (askStore w s) = own s := grantStore_own _
@[simp] theorem removeEntry_own (side : Side) (r : ExecRecord) (s : State) : own (removeEntry side r s) = own s :=
  setQueue_own _ _ _

@[simp] theorem beginExecution_own (side : Side) (r : ExecRecord) (s : State) : own (beginExecution side r s) = own s :=
  (askStore_own _ _).trans ((setEngine_own _ _ _).trans (setQueue_own _ _ _))

@[simp] theorem handPlace_own (side : Side) (r : ExecRecord) (key : Word) (y : Int) (s : State) :
    own (handPlace side r key y s) = own s := by
  simp only [handPlace]
  split
  · exact (beginExecution_own _ _ _).trans ((releaseReservation_own _ _).trans (afterLookup_own _ _ _))
  · exact (takeMiss_own _ _ _ _ _ _).trans ((releaseReservation_own _ _).trans (afterLookup_own _ _ _))
  · exact (takeMiss_own _ _ _ _ _ _).trans ((releaseReservation_own _ _).trans (afterLookup_own _ _ _))

@[simp] theorem handOver_own (side : Side) (e : Entry) (s : State) : own (handOver side e s) = own s := by
  simp only [handOver]
  split
  · split
    · exact (releaseReservation_own _ _).trans ((removeEntry_own _ _ _).trans (count_own _ _))
    · split
      · exact (releaseReservation_own _ _).trans ((removeEntry_own _ _ _).trans (count_own _ _))
      · exact handPlace_own _ _ _ _ _
  · split
    · exact (removeEntry_own _ _ _).trans (count_own _ _)
    · exact beginExecution_own _ _ _
  · split
    · exact (removeEntry_own _ _ _).trans (count_own _ _)
    · exact beginExecution_own _ _ _

@[simp] theorem handFuel_own (fuel : Nat) (s : State) : own (handFuel fuel s) = own s := by
  induction fuel generalizing s with
  | zero => rfl
  | succ fuel ih =>
    unfold handFuel
    split
    · rfl
    · exact (ih _).trans (handOver_own _ _ _)
    · exact (ih _).trans (handOver_own _ _ _)
    · split
      · exact (ih _).trans (handOver_own _ _ _)
      · exact (ih _).trans (handOver_own _ _ _)

@[simp] theorem handEach_own (s : State) : own (handEach s) = own s := handFuel_own _ s

@[simp] theorem handAll_own (s : State) : own (handAll s) = own s := by
  simp only [handAll]
  split
  · split
    · exact handEach_own s
    · exact handEach_own s
  · exact handEach_own s

@[simp] theorem checkDrain_own (s : State) : own (checkDrain s) = own s := by
  unfold checkDrain; split
  · exact endOp_own _ _ _
  · rfl

@[simp] theorem settle_own (s : State) : own (settle s) = own s := (checkDrain_own _).trans (handAll_own s)

@[simp] theorem finishExecution_own (side : Side) (r : ExecRecord) (s : State) : own (finishExecution side r s) = own s := by
  simp only [finishExecution]
  refine (grantStore_own _).trans ((setEngine_own _ _ _).trans ((count_own _ _).trans ?_))
  split
  · exact (markBlocks_own _ _).trans (readToEnd_own _ _)
  · exact (removeEntry_own _ _ _).trans ((markBlocks_own _ _).trans (readToEnd_own _ _))

@[simp] theorem markRemoved_own (side : Side) (s : State) : own (markRemoved side s) = own s := setEngine_own _ _ _
@[simp] theorem markRemovedOf_own (side : Side) (i : Fin 8) (s : State) : own (markRemovedOf side i s) = own s :=
  setEngine_own _ _ _

/-! ### Layout -/

@[simp] theorem refuseLayout_own (tag : Byte) (x : Status) (s : State) : own (refuseLayout tag x s) = own s := count_own _ s

@[simp] theorem doHeaderWrite_own (tag : Byte) (b u : Half) (s : State) : own (doHeaderWrite tag b u s) = own s := by
  unfold doHeaderWrite; split
  · rfl
  · exact refuseLayout_own _ _ s

@[simp] theorem doRegionWrite_own (tag : Byte) (i : Fin 8) (en : Bool) (a b c d e : Half) (s : State) :
    own (doRegionWrite tag i en a b c d e s) = own s := by
  unfold doRegionWrite
  repeat' split
  all_goals first | rfl | exact refuseLayout_own _ _ s

@[simp] theorem setChanged_own (b : Bool) (s : State) : own (setChanged b s) = own s := mapRegions_own _ _

@[simp] theorem beginApply_own (s : State) : own (beginApply s) = own s := by
  simp only [beginApply]
  refine (askStore_own _ _).trans ((count_own _ _).trans ?_)
  split
  · exact setChanged_own _ _
  · exact (setStale_own _ _).trans (setChanged_own _ _)

@[simp] theorem finishApply_own (m : BitVec 8) (s : State) : own (finishApply m s) = own s :=
  (grantStore_own _).trans ((markBlocks_own _ _).trans (readToEnd_own _ _))

@[simp] theorem stopFill_own (s : State) : own (stopFill s) = own s := by
  simp only [stopFill]; split
  · exact readToEnd_own _ _
  · rfl

@[simp] theorem requestTeardownFill_own (s : State) : own (requestTeardownFill s) = own s :=
  (grantStore_own _).trans (stopFill_own s)

@[simp] theorem teardownLayout_own (s : State) : own (teardownLayout s) = own s :=
  (requestTeardownFill_own _).trans ((setChanged_own _ _).trans (setStale_own _ _))

@[simp] theorem finishTeardownFill_own (c : Half) (s : State) : own (finishTeardownFill c s) = own s :=
  (grantStore_own _).trans ((markBlocks_own _ _).trans (readToEnd_own _ _))

/-! ### Streams -/

@[simp] theorem openStream_own (i : Fin 8) (q : Half) (s : State) : own (openStream i q s) = own s := rfl

@[simp] theorem doStreamOpen_own (tag b : Byte) (q : Half) (s : State) : own (doStreamOpen tag b q s) = own s := by
  simp only [doStreamOpen]
  repeat' split
  all_goals rfl

@[simp] theorem closeStream_own (i : Fin 8) (s : State) : own (closeStream i s) = own s := by
  simp only [closeStream]
  refine (setStream_own _ _ _).trans ((releaseReservation_own _ _).trans ((leaveFault_own _ _ _).trans
    ((leaveFault_own _ _ _).trans ?_)))
  split
  · exact (markRemovedOf_own _ _ _).trans (setQueue_own _ _ _)
  · rfl

@[simp] theorem doStreamClose_own (tag b : Byte) (s : State) : own (doStreamClose tag b s) = own s := by
  simp only [doStreamClose]
  repeat' split
  · exact (settle_own _).trans ((answer_own _ _ _ _).trans (closeStream_own _ s))
  all_goals rfl

@[simp] theorem doTileUnpin_own (tag : Byte) (key : Word) (s : State) : own (doTileUnpin tag key s) = own s :=
  (settle_own _).trans (unpin_own _ _ _)

@[simp] theorem doStreamWrite_own (tag : Byte) (i : Fin 8) (b : Bool) (s : State) : own (doStreamWrite tag i b s) = own s := by
  cases b <;> rfl

@[simp] theorem shedStream_own (side : Side) (v : Fin 8) (s : State) : own (shedStream side v s) = own s :=
  (countN_own _ _ _).trans ((count_own _ _).trans ((flagRewind_own _ _ _).trans ((setStream_own _ _ _).trans
    (setQueue_own _ _ _))))

@[simp] theorem takeFrame_own (side : Side) (i : Fin 8) (q : Half) (cs : List DrawCommand) (s : State) :
    own (takeFrame side i q cs s) = own s :=
  (settle_own _).trans ((count_own _ _).trans ((setStream_own _ _ _).trans (setQueue_own _ _ _)))

@[simp] theorem refuseForRoom_own (i : Fin 8) (s : State) : own (refuseForRoom i s) = own s :=
  (flagRewind_own _ _ _).trans (count_own _ _)

@[simp] theorem inOrder_own (side : Side) (i : Fin 8) (q : Half) (cs : List DrawCommand) (s : State) :
    own (inOrder side i q cs s) = own s := by
  unfold inOrder
  split
  · exact takeFrame_own _ _ _ _ _
  · split
    · dsimp only
      repeat' split
      · exact (count_own _ _).trans (shedStream_own _ _ _)
      · exact (takeFrame_own _ _ _ _ _).trans (shedStream_own _ _ _)
      · exact (refuseForRoom_own _ _).trans (shedStream_own _ _ _)
    · exact (refuseForRoom_own _ _).trans (count_own _ _)

@[simp] theorem judgeDraw_own (i : Fin 8) (q : Half) (cs : List DrawCommand) (s : State) : own (judgeDraw i q cs s) = own s := by
  unfold judgeDraw
  split
  · exact count_own _ _
  · dsimp only
    repeat' split
    · exact count_own _ _
    · exact count_own _ _
    · exact inOrder_own _ _ _ _ _
    · exact (flagRewind_own _ _ _).trans (count_own _ _)
    · exact count_own _ _
    · exact count_own _ _

@[simp] theorem doDraw_own (b : Byte) (q : Half) (cs : List Byte) (s : State) : own (doDraw b q cs s) = own s := by
  unfold doDraw
  split
  · split
    · exact judgeDraw_own _ _ _ _
    · exact count_own _ _
  · exact count_own _ _

@[simp] theorem doQuiesce_own (tag : Byte) (s : State) : own (doQuiesce tag s) = own s := by
  unfold doQuiesce; split
  · rfl
  · exact checkDrain_own _

@[simp] theorem moveStream_own (side : Side) (s : State) : own (moveStream side s) = own s := by
  unfold moveStream; split
  · exact count_own _ _
  · rfl

@[simp] theorem rebalanceFuel_own (fuel : Nat) (s : State) : own (rebalanceFuel fuel s) = own s := by
  induction fuel generalizing s with
  | zero => rfl
  | succ fuel ih =>
    unfold rebalanceFuel
    repeat' split
    · exact (ih _).trans (moveStream_own _ _)
    · exact (ih _).trans (moveStream_own _ _)
    · rfl

@[simp] theorem finishResume_own (s : State) : own (finishResume s) = own s := by
  simp only [finishResume]
  rw [endOp_own]
  have h : own (flagOpenRewinds .quiesceEnd (rebalance s)) = own s :=
    (flagOpenRewinds_own _ _).trans (rebalanceFuel_own 8 s)
  generalize flagOpenRewinds .quiesceEnd (rebalance s) = t at h
  exact h

@[simp] theorem doResume_own (tag : Byte) (s : State) : own (doResume tag s) = own s := by
  simp only [doResume]
  repeat' split
  · exact beginApply_own _
  · exact finishResume_own _
  · rfl

@[simp] theorem resetStreams_own (s : State) : own (resetStreams s) = own s := by
  simp only [resetStreams]
  have h : own (mapStreams (fun _ r => closedRecord r) (markRemoved .b (markRemoved .a s))) = own s :=
    (mapStreams_own _ _).trans ((markRemoved_own _ _).trans (markRemoved_own _ _))
  generalize mapStreams (fun _ r => closedRecord r) (markRemoved .b (markRemoved .a s)) = t at h
  exact h

/-! ### Tiles, store and monitor requests, DOCK_RESET -/

@[simp] theorem doTile_own (key : Word) (b : Byte) (d : List Byte) (s : State) : own (doTile key b d s) = own s := by
  unfold doTile
  repeat' split
  · exact count_own _ _
  · exact count_own _ _
  · refine (settle_own _).trans ?_
    simp only [fillPresent]
    split
    · exact (fillPassed_own _ _ _).trans ((count_own _ _).trans (writeSector_own _ _ _ _ _))
    · exact (count_own _ _).trans (writeSector_own _ _ _ _ _)
  · unfold fillAbsent
    split
    · exact (count_own _ _).trans ((writeSector_own _ _ _ _ _).trans (allocateWay_own _ _ _))
    · exact count_own _ _

@[simp] theorem expireFault_own (side : Side) (s : State) : own (expireFault side s) = own s := by
  unfold expireFault; split
  · exact retryFault_own _ _
  · exact (settle_own _).trans (abandonFault_own _ _)

@[simp] theorem doStoreErase_own (tag p : Byte) (s : State) : own (doStoreErase tag p s) = own s := by
  unfold doStoreErase; split <;> rfl

@[simp] theorem doStoreWrite_own (tag : Byte) (o : Half) (d : List Byte) (s : State) : own (doStoreWrite tag o d s) = own s := by
  simp only [doStoreWrite]; split <;> rfl

@[simp] theorem doStoreRead_own (tag : Byte) (o : Half) (c : Byte) (s : State) : own (doStoreRead tag o c s) = own s := by
  unfold doStoreRead; split <;> rfl

@[simp] theorem doMonitorSet_own (tag e m g : Byte) (u : Word) (c : Byte) (s : State) :
    own (doMonitorSet tag e m g u c s) = own s := by
  unfold doMonitorSet
  repeat' split
  all_goals rfl

@[simp] theorem doTableRead_own (tag t : Byte) (f : Half) (c : Byte) (s : State) : own (doTableRead tag t f c s) = own s := by
  unfold doTableRead
  repeat' split
  all_goals rfl

@[simp] theorem clearEvents_own (s : State) : own (clearEvents s) = own s := rfl

@[simp] theorem dockReset_own (s : State) : own (dockReset s) = own s := by
  simp only [dockReset]
  refine (clearEvents_own _).trans (Eq.trans (b := own (resetFaults (resetCache (resetStreams
    { cutAllButGreet s with lc.keys := [], lc.replies := [] })))) rfl ?_)
  refine (resetFaults_own _).trans ((resetCache_own _).trans ((resetStreams_own _).trans ?_))
  show own (cutAllButGreet s) = own s
  unfold cutAllButGreet; split
  · exact cutTx_own s
  · rfl

@[simp] theorem doDockReset_own (tag : Byte) (s : State) : own (doDockReset tag s) = own s := dockReset_own s

@[simp] theorem abandonRequest_own (s : State) : own (abandonRequest s) = own s := by
  unfold abandonRequest
  repeat' split
  all_goals rfl

/-- Teardown changes, of these, the attachment record alone: it leaves it UNATTACHED, with no number and no timer (R15). -/
theorem teardown_own (s : State) :
    own (teardown s) =
      { own s with attachment := .unattached, attachNumber := 0, holdTimer := none, holdCause := none, holdStart := none } := by
  simp only [teardown]
  rw [trackTeardown_own, teardownLayout_own, resetFaults_own, resetCache_own, resetStreams_own, count_own]
  have h : own (cutTx (abandonRequest (clearEvents s))) = own s :=
    (cutTx_own _).trans ((abandonRequest_own _).trans (clearEvents_own _))
  have e : own (teardownLink (abandonRequest (clearEvents s))) =
      { own (cutTx (abandonRequest (clearEvents s))) with
        attachment := .unattached, attachNumber := 0, holdTimer := none, holdCause := none, holdStart := none } := rfl
  rw [e, h]

end Sys2Proof.Machine
end

