-- ==== Sys2Proof/Laws/Ends.lean ====
section
/-! SUPPORT. How to show that a command ends as a state but for the bookkeeping (endsAs of Safety.lean): counting adds its
sub-event, a raise adds its EVENT_RAISED, an update that is not about the bookkeeping passes through, and the end of an event keeps
what was shown. -/

namespace Sys2Proof.Machine

/-! ### What counting does to the counters -/

theorem addCounters_counter (p : Counter → Bool) (n : Nat) (s : State) (i : Fin 4) :
    (addCounters p n s).mn.counters[i] = if p s.mn.counters[i] then s.mn.counters[i].add n else s.mn.counters[i] := by
  simp [addCounters]

/-- Only a counter in OCCURRENCE mode selects a sub-event. -/
theorem Counter.selects_of_mode (c : Counter) (u : SubEvent) (h : c.mode ≠ .occurrence) : c.selects u = false := by
  simp [Counter.selects, h]

theorem selectionsKept.selects {s t : State} (h : selectionsKept s t) (i : Fin 4) (x : SubEvent) :
    t.mn.counters[i].selects x = s.mn.counters[i].selects x := by
  obtain ⟨m, g, k, _⟩ := h i
  simp only [Counter.selects, m, g, k]

@[simp] theorem addedTo_zero (v : Nat) : addedTo v 0 = v := rfl

theorem addedTo_addedTo (v a b : Nat) : addedTo (addedTo v a) b = addedTo v (a + b) := by
  unfold addedTo; (repeat' split) <;> omega

theorem le_addedTo (v a : Nat) : min v 4294967295 ≤ addedTo v a := by unfold addedTo; split <;> omega

/-- The counters do not fall from s to t. -/
abbrev countersRise (s t : State) : Prop :=
  ∀ i : Fin 4, min s.mn.counters[i].value 4294967295 ≤ t.mn.counters[i].value

theorem countersRise.trans {s t u : State} (h : countersRise s t) (g : countersRise t u) : countersRise s u := fun i => by
  have := h i; have := g i; omega

theorem countP_add {α : Type} (p q r : α → Bool) (h : ∀ a, (p a).toNat + (q a).toNat = (r a).toNat) (l : List α) :
    l.countP p + l.countP q = l.countP r := by
  induction l with
  | nil => rfl
  | cons a l ih =>
    have := h a
    simp only [List.countP_cons]
    cases hp : p a <;> cases hq : q a <;> cases hr : r a <;> simp_all <;> omega

/-- What comes to the maximum from s to u comes to it from s to t or from t to u. -/
theorem saturatedIn_add {s t u : State} (h : countersRise s t) (g : countersRise t u) :
    saturatedIn s t + saturatedIn t u = saturatedIn s u := by
  refine countP_add _ _ _ (fun i => ?_) _
  have := h i; have := g i
  rw [← Bool.decide_and, ← Bool.decide_and, ← Bool.decide_and]
  simp only [Bool.toNat, Bool.cond_decide]
  (repeat' split) <;> omega

/-- The number of counters below the maximum. -/
def belowMax (s : State) : Nat := (List.finRange 4).countP fun i => decide (s.mn.counters[i].value < 4294967295)

theorem belowMax_add {s t : State} (h : countersRise s t) : belowMax t + saturatedIn s t = belowMax s := by
  have := fun i => h i
  refine countP_add _ _ _ (fun i => ?_) _
  have := h i
  rw [← Bool.decide_and]
  simp only [Bool.toNat, Bool.cond_decide]
  have : t.mn.counters[i].value < 4294967295 → s.mn.counters[i].value < 4294967295 := by omega
  (repeat' split) <;> omega

theorem belowMax_le (s : State) : belowMax s ≤ 4 := List.countP_le_length.trans (by simp)

/-- From s to t each counter has had add of its own, and those that count raises one for each counter that came to the maximum,
when the enable is set. -/
def Added (enable : Bool) (add : Fin 4 → Nat) (s t : State) : Prop :=
  ∀ i : Fin 4, t.mn.counters[i].value = addedTo s.mn.counters[i].value
    (add i + if enable = true ∧ s.mn.counters[i].selects .eventRaised = true then saturatedIn s t else 0)

theorem Added.rise {e : Bool} {add : Fin 4 → Nat} {s t : State} (h : Added e add s t) : countersRise s t := fun i => by
  rw [h i]; exact le_addedTo _ _

theorem Added.trans {e : Bool} {a b : Fin 4 → Nat} {s t u : State} (h : Added e a s t) (k : selectionsKept s t)
    (g : Added e b t u) : Added e (fun i => a i + b i) s u := fun i => by
  rw [g i, h i, addedTo_addedTo, k.selects, ← saturatedIn_add h.rise g.rise]
  congr 1; beta_reduce; split <;> omega

theorem Added.same {e : Bool} {a b : Fin 4 → Nat} {s t : State} (h : Added e a s t) (hab : ∀ i, a i = b i) : Added e b s t :=
  (funext hab : a = b) ▸ h

/-- An addition to the counters alone. -/
theorem addCounters_value (p : Counter → Bool) (n : Nat) (hn : 0 < n) (s : State) (i : Fin 4) :
    (addCounters p n s).mn.counters[i].value = addedTo s.mn.counters[i].value (if p s.mn.counters[i] then n else 0) := by
  rw [addCounters_counter]
  split
  · simp only [Counter.add, addedTo, Config.maxCount]; rw [if_neg (by omega)]
  · rfl

/-- The counters that an addition first brings to the maximum are as many as its list holds. -/
theorem newlySaturated_length (p : Counter → Bool) (n : Nat) (hn : 0 < n) (s : State) :
    (newlySaturated p n s).length = saturatedIn s (addCounters p n s) := by
  rw [newlySaturated, ← List.countP_eq_length_filter, saturatedIn]
  congr 1; funext i
  rw [addCounters_value p n hn]
  unfold Counter.saturates addedTo Config.maxCount
  cases p s.mn.counters[i]
  · simp only [Bool.false_and, Bool.false_eq_true, if_false, if_true]
    rw [← Bool.decide_and, eq_comm, decide_eq_false_iff_not]; omega
  · simp only [Bool.true_and, if_true]
    rw [if_neg (by omega), ← Bool.decide_and, ← Bool.decide_and, decide_eq_decide]; omega

/-- What an addition does: the selected counters take it, and each counter that comes to the maximum, by it or by a raise that
follows, raises MONITOR_SATURATED when that is enabled, which each counter that selects EVENT_RAISED counts. -/
theorem addWhere_added (fuel : Nat) (p : Counter → Bool) (n : Nat) (s : State) (hn : 0 < n) (hf : belowMax s < fuel) :
    Added (eventEnabled .monitorSaturated s) (fun i => if p s.mn.counters[i] then n else 0) s (addWhere fuel p n s) := by
  induction fuel generalizing p n s with
  | zero => omega
  | succ fuel ih =>
    have k1 := (addCounters_counted p n s).selections
    have r1 : countersRise s (addCounters p n s) := fun i => by rw [addCounters_value p n hn]; exact le_addedTo _ _
    have b1 := belowMax_add r1
    rw [addWhere]
    have fold : ∀ (l : List (Fin 4)) (x : State), eventEnabled .monitorSaturated x = eventEnabled .monitorSaturated s →
        (l ≠ [] → belowMax x < fuel) → ∀ i : Fin 4,
        (l.foldl (fun t i =>
          if eventEnabled .monitorSaturated t then
            addWhere fuel (Counter.selects SubEvent.eventRaised) 1
              (setEventSlot .monitorSaturated
                (raisedSlot .monitorSaturated (BitVec.ofNat 24 (2 ^ i.val)) (eventOnLane .monitorSaturated t)
                  (eventSlot .monitorSaturated t)) t)
          else t) x).mn.counters[i].value = addedTo x.mn.counters[i].value
            (if eventEnabled .monitorSaturated s = true ∧ x.mn.counters[i].selects .eventRaised = true then
              l.length + saturatedIn x (l.foldl (fun t i =>
                if eventEnabled .monitorSaturated t then
                  addWhere fuel (Counter.selects SubEvent.eventRaised) 1
                    (setEventSlot .monitorSaturated
                      (raisedSlot .monitorSaturated (BitVec.ofNat 24 (2 ^ i.val)) (eventOnLane .monitorSaturated t)
                        (eventSlot .monitorSaturated t)) t)
                else t) x) else 0) := by
      intro l
      induction l with
      | nil =>
        intro x _ _ i
        have : saturatedIn x x = 0 := by
          have := belowMax_add (s := x) (t := x) (fun i => by omega); omega
        simp [this]
      | cons a l ihl =>
        intro x hx hfx i
        rw [List.foldl_cons]
        cases he : eventEnabled .monitorSaturated s
        · have hxe : eventEnabled .monitorSaturated x = false := hx.trans he
          rw [if_neg (by rw [hxe]; decide)]
          have := ihl x hx (fun _ => hfx (by simp)) i
          rw [he] at this
          simpa using this
        · have hxe : eventEnabled .monitorSaturated x = true := hx.trans he
          rw [if_pos hxe]
          generalize hv : setEventSlot .monitorSaturated _ x = v
          have vmn : v.mn = x.mn := by rw [← hv]; rfl
          have ven : eventEnabled .monitorSaturated v = true := by rw [← hv]; exact hxe
          have vb : belowMax v = belowMax x := by unfold belowMax; rw [vmn]
          have step := ih (Counter.selects SubEvent.eventRaised) 1 v (by decide) (by rw [vb]; exact hfx (by simp))
          have kept := (addWhere_counted fuel (Counter.selects SubEvent.eventRaised) 1 v).selections
          have set := (addWhere_counted fuel (Counter.selects SubEvent.eventRaised) 1 v).same_settings
          generalize addWhere fuel (Counter.selects SubEvent.eventRaised) 1 v = w at step kept set ⊢
          have wen : eventEnabled .monitorSaturated w = eventEnabled .monitorSaturated s := by
            rw [he, ← ven]; simp only [eventEnabled, set]
          have wb := belowMax_add step.rise
          have rest := ihl w wen (fun _ => by have := hfx (by simp); omega)
          generalize l.foldl _ w = y at rest ⊢
          have ry : countersRise w y := fun i => by rw [rest i]; exact le_addedTo _ _
          have rx : countersRise v w := step.rise
          have sum := saturatedIn_add rx ry
          have xy : saturatedIn x y = saturatedIn v y := by unfold saturatedIn; rw [vmn]
          have si : x.mn.counters[i].selects SubEvent.eventRaised = v.mn.counters[i].selects SubEvent.eventRaised := by rw [vmn]
          have xv : x.mn.counters[i].value = v.mn.counters[i].value := by rw [vmn]
          rw [rest i, step i, addedTo_addedTo, xv, si, xy, selectionsKept.selects kept, he, ven, ← sum]
          congr 1
          by_cases hs : v.mn.counters[i].selects SubEvent.eventRaised = true
          · simp only [hs, and_self, if_true, List.length_cons]; omega
          · simp only [hs, Bool.false_eq_true, and_false, if_false]
    intro i
    have f := fold (newlySaturated p n s) (addCounters p n s) rfl (fun hl => by
      have := newlySaturated_length p n hn s
      have := List.length_pos_iff.2 hl
      omega)
    have rl : countersRise (addCounters p n s) _ := fun i => by rw [f i]; exact le_addedTo _ _
    have sum := saturatedIn_add r1 rl
    rw [f i, addCounters_value p n hn, addedTo_addedTo, selectionsKept.selects k1, newlySaturated_length p n hn]
    congr 1
    rw [sum]

/-- What counting a sub-event n times does to the counters. -/
theorem countN_added (x : SubEvent) (n : Nat) (s : State) :
    Added (eventEnabled .monitorSaturated s) (fun i => if s.mn.counters[i].selects x then n else 0) s (countN x n s) := by
  unfold countN
  split
  · rename_i h
    have : saturatedIn s s = 0 := by have := belowMax_add (s := s) (t := s) (fun i => by omega); omega
    intro i; simp [this, h]
  · exact addWhere_added 5 _ _ _ (by omega) (by have := belowMax_le s; omega)

/-- What the end of an event does to the counters. -/
theorem conclude_added (b s : State) :
    Added (eventEnabled .monitorSaturated s) (fun i =>
      if s.mn.counters[i].mode == .conditionEdge && !holds b s.mn.counters[i].condition && holds s s.mn.counters[i].condition
      then 1 else 0) s (conclude b s) := by
  have h := addWhere_added 5
    (fun c => c.mode == .conditionEdge && !holds b c.condition && holds s c.condition) 1 s (by omega)
    (by have := belowMax_le s; omega)
  have e : (conclude b s).mn = (countEdges b s).mn := (arbitrate_selected _).same_mn
  intro i
  have hi := h i
  unfold saturatedIn at hi ⊢
  rw [e]; exact hi

/-! ### endsAs -/

/-- Two changes of the bookkeeping make one. -/
theorem rest_trans {u v w : State}
    (h : v = { u with mn.counters := v.mn.counters, me.events := v.me.events, lc.tx := v.lc.tx })
    (g : w = { v with mn.counters := w.mn.counters, me.events := w.me.events, lc.tx := w.lc.tx }) :
    w = { u with mn.counters := w.mn.counters, me.events := w.me.events, lc.tx := w.lc.tx } := by
  obtain ⟨c, e, x, rfl⟩ : ∃ c e x, v = { u with mn.counters := c, me.events := e, lc.tx := x } := ⟨_, _, _, h⟩
  exact g

/-- The end of an event changes nothing but the bookkeeping. -/
theorem concluded_rest (b v : State) :
    conclude b v =
      { v with
        mn.counters := (conclude b v).mn.counters
        me.events := (conclude b v).me.events
        lc.tx := (conclude b v).lc.tx } := by
  have e := (arbitrate_selected (countEdges b v)).rest
  have f := (countEdges_counted b v).rest
  show arbitrate (countEdges b v) = _
  unfold conclude
  generalize arbitrate (countEdges b v) = w at *
  generalize countEdges b v = a at *
  obtain ⟨x, ev, rfl⟩ : ∃ x ev, w = { a with lc.tx := x, me.events := ev } := ⟨_, _, e⟩
  obtain ⟨c, ev', rfl⟩ : ∃ c ev', a = { v with mn.counters := c, me.events := ev' } := ⟨_, _, f⟩
  rfl

/-- What has been counted goes on with what a further step adds to the counters. -/
theorem countedUnder.added {e : Bool} {us xs : List SubEvent} {add : Fin 4 → Nat} {u v w : State} (h : countedUnder e us u v)
    (k : selectionsKept u v) (g : Added e add v w)
    (ho : ∀ i : Fin 4, v.mn.counters[i].mode = .occurrence → add i = xs.countP fun x => v.mn.counters[i].selects x)
    (ht : ∀ i : Fin 4, v.mn.counters[i].mode = .conditionTime → add i = 0) : countedUnder e (us ++ xs) u w := by
  have rise : countersRise u v := fun i => (h i).2.2
  have sum := saturatedIn_add rise g.rise
  refine fun i => ⟨fun hm => ?_, fun hm => ?_, (rise.trans g.rise) i⟩
  · have hv : v.mn.counters[i].mode = .occurrence := (k i).1.trans hm
    rw [g i, (h i).1 hm, addedTo_addedTo, ho i hv, k.selects, List.countP_append, ← sum]
    simp only [k.selects]
    congr 1; split <;> omega
  · have hv : v.mn.counters[i].mode = .conditionTime := (k i).1.trans hm
    rw [g i, ht i hv, (h i).2.1 hm, Counter.selects_of_mode _ _ (by rw [hv]; decide)]
    simp

/-- The enable of MONITOR_SATURATED in the state that a command ends as. -/
theorem endsAs.enable {u v : State} {us : List SubEvent} (h : endsAs u us v) :
    eventEnabled .monitorSaturated v = u.settings.enables.getLsbD 4 := by rw [h.1]; rfl

theorem endsAs_refl (u : State) : endsAs u [] u := by
  have : saturatedIn u u = 0 := by have := belowMax_add (s := u) (t := u) (fun i => by omega); omega
  exact ⟨rfl, bookkeepingOnly_refl u, fun i => ⟨fun _ => by simp [this], fun _ => rfl, by omega⟩⟩

/-- One sub-event more, counted n times. -/
theorem endsAs.countN {u v : State} {us : List SubEvent} (h : endsAs u us v) (x : SubEvent) (n : Nat) :
    endsAs u (us ++ List.replicate n x) (countN x n v) := by
  have hk := countN_counted x n v
  have ha := countN_added x n v
  rw [h.enable] at ha
  refine ⟨?_, h.2.1.trans hk.bookkeeping, h.2.2.added h.2.1.1 ha (fun i _ => ?_) fun i hm => ?_⟩
  · rw [hk.rest]; rw [h.1]
  · rw [List.countP_replicate]
  · rw [Counter.selects_of_mode _ _ (by rw [hm]; decide)]; rfl

/-- One sub-event more. -/
theorem endsAs.count {u v : State} {us : List SubEvent} (h : endsAs u us v) (x : SubEvent) :
    endsAs u (us ++ [x]) (count x v) := h.countN x 1

/-- The end of the event keeps what was shown. -/
theorem endsAs.conclude {u v : State} {us : List SubEvent} (h : endsAs u us v) (b : State) :
    endsAs u us (conclude b v) := by
  have ha := conclude_added b v
  rw [h.enable] at ha
  refine ⟨rest_trans h.1 (concluded_rest b v), h.2.1.trans (conclude_bookkeeping b v), ?_⟩
  have no : ∀ (i : Fin 4) m, v.mn.counters[i].mode = m → m ≠ .conditionEdge →
      (v.mn.counters[i].mode == CounterMode.conditionEdge) = false := fun i m hm hne => by rw [hm]; simpa using hne
  have := h.2.2.added (xs := []) h.2.1.1 ha (fun i hm => by rw [no i _ hm (by decide)]; rfl)
    (fun i hm => by rw [no i _ hm (by decide)]; rfl)
  rwa [List.append_nil] at this

/-- An update that neither reads nor writes the bookkeeping, nor the settings, passes through. -/
theorem endsAs.map {u v : State} {us : List SubEvent} (h : endsAs u us v) (f : State → State)
    (hf : ∀ (s : State) c e x,
      f { s with mn.counters := c, me.events := e, lc.tx := x } = { f s with mn.counters := c, me.events := e, lc.tx := x })
    (hm : ∀ s, (f s).mn = s.mn) (he : ∀ s, (f s).me.events = s.me.events) (ht : ∀ s, (f s).lc.tx = s.lc.tx)
    (hs : ∀ s, (f s).settings = s.settings) : endsAs (f u) us (f v) := by
  obtain ⟨hr, ⟨a, b, c, d⟩, hc⟩ := h
  refine ⟨?_, ⟨fun n => ?_, ?_, fun k hk => ?_, fun hx => ?_⟩, fun n => ?_⟩
  · rw [hm v, he v, ht v]
    conv_lhs => rw [hr]
    exact hf u _ _ _
  · rw [hm, hm]; exact a n
  · rw [hm, hm]; exact b
  · have e : ∀ s, eventSlot k (f s) = eventSlot k s := by intro s; unfold eventSlot; rw [he]
    unfold eventStarts
    rw [e, e, ht, ht]; exact c k hk
  · rw [ht, ht]; rw [ht] at hx; exact d hx
  · unfold saturatedIn; rw [hm, hm, hs]; exact hc n

/-- The slot that a raise leaves, as R162's table gives it. -/
theorem raisedSlot_eq (k : EventKind) (d : BitVec 24) (own : Bool) (e : EventSlot) : raisedSlot k d own e = slotRaised k d own e := by
  cases k <;> cases own <;> simp [raisedSlot, slotRaised, EventKind.accumulates, EventKind.replaces]

/-- A raise, of a kind that counting does not raise too, with the transmission in progress as the command found it. -/
theorem endsAs.raise {u v : State} {us : List SubEvent} (h : endsAs u us v) (k : EventKind) (d : BitVec 24)
    (hk : k ≠ .monitorSaturated) (ht : v.lc.tx = u.lc.tx) :
    endsAs (raised k d u) (us ++ raiseCounts k u) (raiseEvent k d v) := by
  have hs : v.settings = u.settings := by rw [h.1]
  unfold raised raiseCounts raiseEvent eventEnabled
  rw [hs]
  split
  · refine endsAs.count ?_ _
    have slot : ∀ m : EventKind, m ≠ .monitorSaturated → eventSlot m v = eventSlot m u := by
      intro m hm
      obtain ⟨a, b, c, e⟩ := h.2.1.2.2.1 m hm
      rw [if_neg (not_eventStarts ht m)] at e
      generalize eventSlot m v = x at *
      generalize eventSlot m u = y at *
      obtain ⟨_, _, _, _⟩ := x; obtain ⟨_, _, _, _⟩ := y
      simp only at a b c e; rw [a, b, c, e]
    rw [raisedSlot_eq, slot k hk]
    unfold eventOnLane
    rw [ht]
    generalize slotRaised k d _ _ = e
    obtain ⟨hr, ⟨a, b, c, f⟩, hc⟩ := h
    refine ⟨?_, ⟨a, b, fun m hm => ?_, f⟩, hc⟩
    · conv_lhs => rw [hr]
      rfl
    · by_cases hkm : k = m
      · subst hkm
        have : ¬ eventStarts k (setEventSlot k e u) (setEventSlot k e v) := not_eventStarts ht k
        rw [if_neg this]; simp
      · have : ¬ eventStarts m (setEventSlot k e u) (setEventSlot k e v) := not_eventStarts ht m
        rw [if_neg this, eventSlot_setEventSlot_ne hkm, eventSlot_setEventSlot_ne hkm, slot m hm]
        exact ⟨rfl, rfl, rfl, rfl⟩
  · rwa [List.append_nil]

end Sys2Proof.Machine
end

