-- ==== Sys2Proof/Laws/Memory.lean ====
section
/-! SUPPORT. The canonical forms of memory and picture, and the basic laws of reading after writing. -/

namespace Sys2Proof.Machine

/-! ### Cells -/

theorem cellRead_append_low (d : Byte) (m n : List Host.Cell) (a : Nat) (h : ∀ c ∈ n, c.1 ≠ a) :
    cellRead d (m ++ n) a = cellRead d m a := by
  induction m with
  | nil =>
    induction n with
    | nil => rfl
    | cons c n ih =>
      obtain ⟨k, v⟩ := c
      have hk : k ≠ a := h (k, v) (by simp)
      simp only [List.nil_append, cellRead, if_neg hk] at *
      exact ih fun c hc => h c (by simp [hc])
  | cons c m ih => obtain ⟨k, v⟩ := c; simp only [List.cons_append, cellRead, ih]

theorem cellRead_append_high (d : Byte) (m n : List Host.Cell) (a : Nat) (h : ∀ c ∈ m, c.1 ≠ a) :
    cellRead d (m ++ n) a = cellRead d n a := by
  induction m with
  | nil => rfl
  | cons c m ih =>
    obtain ⟨k, v⟩ := c
    have hk : k ≠ a := h (k, v) (by simp)
    simp only [List.cons_append, cellRead, if_neg hk]
    exact ih fun c hc => h c (by simp [hc])

theorem cellRead_absent (d : Byte) (m : List Host.Cell) (a : Nat) (h : ∀ c ∈ m, c.1 ≠ a) : cellRead d m a = d := by
  simpa [cellRead] using cellRead_append_high d m [] a h

theorem cellRead_filter (d : Byte) (m : List Host.Cell) (p : Host.Cell → Bool) (a : Nat) (h : ∀ v, p (a, v) = true) :
    cellRead d (m.filter p) a = cellRead d m a := by
  induction m with
  | nil => rfl
  | cons c m ih =>
    obtain ⟨k, v⟩ := c
    by_cases hk : k = a
    · subst hk; simp [h v, cellRead]
    · by_cases hp : p (k, v) = true <;> simp [hp, cellRead, hk, ih]

theorem cellsOf_range (d : Byte) (a : Nat) (bs : List Byte) : ∀ c ∈ cellsOf d a bs, a ≤ c.1 ∧ c.1 < a + bs.length := by
  induction bs generalizing a with
  | nil => intro c hc; simp [cellsOf] at hc
  | cons b bs ih =>
    intro c hc
    simp only [cellsOf] at hc
    split at hc
    · obtain ⟨h1, h2⟩ := ih (a + 1) c hc
      simp only [List.length_cons]; omega
    · rcases List.mem_cons.1 hc with rfl | hc
      · simp
      · obtain ⟨h1, h2⟩ := ih (a + 1) c hc
        simp only [List.length_cons]; omega

theorem cellsOf_wf (d : Byte) (a : Nat) (bs : List Byte) : cellsWf d (cellsOf d a bs) := by
  induction bs generalizing a with
  | nil => exact ⟨List.Pairwise.nil, fun c hc => by simp [cellsOf] at hc⟩
  | cons b bs ih =>
    obtain ⟨h1, h2⟩ := ih (a + 1)
    simp only [cellsOf]
    split
    · exact ⟨h1, h2⟩
    · rename_i hb
      refine ⟨List.Pairwise.cons (fun c hc => ?_) h1, fun c hc => ?_⟩
      · obtain ⟨h, _⟩ := cellsOf_range d (a + 1) bs c hc
        show a < c.1
        omega
      · rcases List.mem_cons.1 hc with rfl | hc
        · exact hb
        · exact h2 c hc

theorem cellRead_cellsOf (d : Byte) (a : Nat) (bs : List Byte) (i : Nat) (h : i < bs.length) :
    cellRead d (cellsOf d a bs) (a + i) = bs[i] := by
  induction bs generalizing a i with
  | nil => simp at h
  | cons b bs ih =>
    simp only [cellsOf]
    cases i with
    | zero =>
      split
      · rename_i hb
        rw [cellRead_absent]
        · simp [hb]
        · intro c hc
          obtain ⟨h1, _⟩ := cellsOf_range d (a + 1) bs c hc
          omega
      · simp [cellRead]
    | succ i =>
      have e : a + (i + 1) = a + 1 + i := by omega
      have hi : i < bs.length := by simpa using h
      split
      · rw [e, ih (a + 1) i hi]; simp
      · have hk : ¬ a = a + (i + 1) := by omega
        simp only [cellRead, if_neg hk]
        rw [e, ih (a + 1) i hi]; simp

/-- A byte inside the stored run reads as stored. -/
theorem cellRead_cellWrite_inside (d : Byte) (m : List Host.Cell) (a : Nat) (bs : List Byte) (i : Nat) (h : i < bs.length) :
    cellRead d (cellWrite d m a bs) (a + i) = bs[i] := by
  unfold cellWrite
  rw [List.append_assoc, cellRead_append_high, cellRead_append_low, cellRead_cellsOf d a bs i h]
  · intro c hc
    simp only [List.mem_filter, decide_eq_true_eq] at hc
    omega
  · intro c hc
    simp only [List.mem_filter, decide_eq_true_eq] at hc
    omega

/-- A byte outside the stored run reads as before. -/
theorem cellRead_cellWrite_outside (d : Byte) (m : List Host.Cell) (a : Nat) (bs : List Byte) (x : Nat)
    (h : x < a ∨ a + bs.length ≤ x) : cellRead d (cellWrite d m a bs) x = cellRead d m x := by
  unfold cellWrite
  rcases h with h | h
  · rw [List.append_assoc, cellRead_append_low, cellRead_filter]
    · intro v; simpa using h
    · intro c hc
      rcases List.mem_append.1 hc with hc | hc
      · have := cellsOf_range d a bs c hc; omega
      · simp only [List.mem_filter, decide_eq_true_eq] at hc; omega
  · rw [cellRead_append_high, cellRead_filter]
    · intro v; simpa using h
    · intro c hc
      rcases List.mem_append.1 hc with hc | hc
      · simp only [List.mem_filter, decide_eq_true_eq] at hc; omega
      · have := cellsOf_range d a bs c hc; omega

/-- A store keeps the canonical form. -/
theorem cellWrite_wf (d : Byte) (m : List Host.Cell) (a : Nat) (bs : List Byte) (h : cellsWf d m) :
    cellsWf d (cellWrite d m a bs) := by
  obtain ⟨h1, h2⟩ := h
  obtain ⟨o1, o2⟩ := cellsOf_wf d a bs
  refine ⟨?_, fun c hc => ?_⟩
  · unfold cellWrite
    rw [List.append_assoc, List.pairwise_append, List.pairwise_append]
    refine ⟨h1.filter _, ⟨o1, h1.filter _, fun c hc e he => ?_⟩, fun c hc e he => ?_⟩
    · have := cellsOf_range d a bs c hc
      simp only [List.mem_filter, decide_eq_true_eq] at he
      omega
    · simp only [List.mem_filter, decide_eq_true_eq] at hc
      rcases List.mem_append.1 he with he | he
      · have := cellsOf_range d a bs e he; omega
      · simp only [List.mem_filter, decide_eq_true_eq] at he; omega
  · simp only [cellWrite, List.mem_append, List.mem_filter] at hc
    rcases hc with (hc | hc) | hc
    · exact h2 c hc.1
    · exact o2 c hc
    · exact h2 c hc.1

@[simp] theorem cellBlock_length (d : Byte) (m : List Host.Cell) (a n : Nat) : (cellBlock d m a n).length = n := by
  simp [cellBlock]

theorem cellBlock_getElem (d : Byte) (m : List Host.Cell) (a n i : Nat) (h : i < (cellBlock d m a n).length) :
    (cellBlock d m a n)[i] = cellRead d m (a + i) := by
  simp [cellBlock]

/-! ### The picture -/

theorem imageMerge_merged (before : Option Half) (img : Image) : imageMerged before (imageMerge before img) = true := by
  induction img generalizing before with
  | nil => rfl
  | cons e img ih =>
    obtain ⟨k, v⟩ := e
    simp only [imageMerge]
    split
    · exact ih before
    · rename_i h
      simp only [imageMerged, ih, Bool.and_true, bne_iff_ne, ne_eq]
      exact h

theorem imageMerge_sublist (before : Option Half) (img : Image) : (imageMerge before img).Sublist img := by
  induction img generalizing before with
  | nil => exact List.Sublist.refl _
  | cons e img ih =>
    obtain ⟨k, v⟩ := e
    simp only [imageMerge]
    split
    · exact (ih before).trans (List.sublist_cons_self _ _)
    · exact (ih (some v)).cons_cons _

/-- Dropping repeated colours changes no pixel. -/
theorem imageReadFrom_merge (c : Half) (img : Image) (a : Nat) (h : img.Pairwise (fun e f => e.1 < f.1)) :
    imageReadFrom c (imageMerge (some c) img) a = imageReadFrom c img a := by
  induction img generalizing c with
  | nil => rfl
  | cons e img ih =>
    obtain ⟨k, v⟩ := e
    obtain ⟨h1, h2⟩ := List.pairwise_cons.1 h
    simp only [imageMerge]
    split
    · rename_i hv
      obtain rfl : c = v := by simpa using hv
      simp only [imageReadFrom]
      split
      · rename_i hk
        rw [ih c h2]
        clear ih h h2
        cases img with
        | nil => rfl
        | cons f img =>
          have := h1 f (by simp)
          simp only [imageReadFrom]
          rw [if_pos (by omega)]
      · exact ih c h2
    · simp only [imageReadFrom]
      split
      · rfl
      · exact ih v h2

/-- A picture in canonical order: indices strictly rising. -/
abbrev Rising (img : Image) : Prop := img.Pairwise fun e f => e.1 < f.1

theorem imageRead_merge (img : Image) (a : Nat) (h : Rising img) : imageRead (imageMerge none img) a = imageRead img a := by
  cases img with
  | nil => rfl
  | cons e img =>
    obtain ⟨k, v⟩ := e
    obtain ⟨_, h2⟩ := List.pairwise_cons.1 h
    simp only [imageRead, imageMerge, reduceCtorEq, if_false, imageReadFrom]
    split
    · rfl
    · exact imageReadFrom_merge v img a h2

theorem imageReadFrom_append_low (c : Half) (l m : Image) (x : Nat) (h : ∀ e ∈ m, x < e.1) :
    imageReadFrom c (l ++ m) x = imageReadFrom c l x := by
  induction l generalizing c with
  | nil =>
    cases m with
    | nil => rfl
    | cons e m => obtain ⟨k, v⟩ := e; have := h (k, v) (by simp); simp only [List.nil_append, imageReadFrom]; rw [if_pos this]
  | cons e l ih => obtain ⟨k, v⟩ := e; simp only [List.cons_append, imageReadFrom, ih]

theorem imageReadFrom_append_high (c v : Half) (l r : Image) (k x : Nat) (hl : ∀ e ∈ l, e.1 ≤ x) (hk : k ≤ x) :
    imageReadFrom c (l ++ (k, v) :: r) x = imageReadFrom v r x := by
  induction l generalizing c with
  | nil => simp only [List.nil_append, imageReadFrom]; rw [if_neg (by omega)]
  | cons e l ih =>
    obtain ⟨j, w⟩ := e
    have hj : j ≤ x := hl (j, w) (by simp)
    simp only [List.cons_append, imageReadFrom]
    rw [if_neg (by omega)]
    exact ih w fun e he => hl e (by simp [he])

theorem imageReadFrom_filter_low (c : Half) (img : Image) (a x : Nat) (h : Rising img) (hx : x < a) :
    imageReadFrom c (img.filter fun e => e.1 < a) x = imageReadFrom c img x := by
  induction img generalizing c with
  | nil => rfl
  | cons e img ih =>
    obtain ⟨k, v⟩ := e
    obtain ⟨h1, h2⟩ := List.pairwise_cons.1 h
    by_cases hk : k < a
    · simp only [List.filter_cons, hk, decide_true, if_true, imageReadFrom, ih v h2]
    · have hn : img.filter (fun e => decide (e.1 < a)) = [] := by
        rw [List.filter_eq_nil_iff]
        intro e he
        have := h1 e he
        simp only [decide_eq_true_eq]; omega
      simp only [List.filter_cons, hk, decide_false, hn, imageReadFrom]
      simp [show x < k by omega, imageReadFrom]

theorem imageReadFrom_filter_high (c : Half) (img : Image) (b x : Nat) (h : Rising img) (hx : b ≤ x) :
    imageReadFrom (imageReadFrom c img b) (img.filter fun e => b < e.1) x = imageReadFrom c img x := by
  induction img generalizing c with
  | nil => rfl
  | cons e img ih =>
    obtain ⟨k, v⟩ := e
    obtain ⟨h1, h2⟩ := List.pairwise_cons.1 h
    by_cases hk : b < k
    · have hall : img.filter (fun e => decide (b < e.1)) = img := by
        rw [List.filter_eq_self]
        intro e he
        have := h1 e he
        simp only [decide_eq_true_eq]; omega
      simp only [List.filter_cons, hk, decide_true, if_true, hall, imageReadFrom]
    · simp only [List.filter_cons, hk, decide_false, imageReadFrom, if_false, Bool.false_eq_true]
      rw [ih v h2, if_neg (by omega)]

/-- What a paint requires of its runs: they start at a, rise, and lie below a + n. -/
def runsWithin (a n : Nat) (mid : Image) : Prop :=
  (∃ v r, mid = (a, v) :: r) ∧ Rising mid ∧ ∀ e ∈ mid, e.1 < a + n

theorem imagePaint_rising (size : Nat) (img : Image) (a n : Nat) (mid : Image) (h : Rising img) (hm : runsWithin a n mid) :
    Rising (img.filter (fun e => e.1 < a) ++ mid ++ imageResume size img (a + n)) := by
  obtain ⟨⟨v, r, hv⟩, hr, hw⟩ := hm
  have hlow : ∀ e ∈ mid, a ≤ e.1 := by
    rw [hv] at hr ⊢
    intro e he
    rcases List.mem_cons.1 he with rfl | he
    · exact Nat.le_refl _
    · exact Nat.le_of_lt ((List.pairwise_cons.1 hr).1 e he)
  have hres : ∀ e ∈ imageResume size img (a + n), a + n ≤ e.1 := by
    intro e he
    unfold imageResume at he
    split at he
    · rcases List.mem_cons.1 he with rfl | he
      · exact Nat.le_refl _
      · simp only [List.mem_filter, decide_eq_true_eq] at he; omega
    · simp at he
  have hresr : Rising (imageResume size img (a + n)) := by
    unfold imageResume
    split
    · refine List.Pairwise.cons (fun e he => ?_) (h.filter _)
      simp only [List.mem_filter, decide_eq_true_eq] at he
      exact he.2
    · exact List.Pairwise.nil
  rw [List.append_assoc]
  refine List.pairwise_append.2 ⟨h.filter _, List.pairwise_append.2 ⟨hr, hresr, fun e he f hf => ?_⟩, fun e he f hf => ?_⟩
  · have := hw e he; have := hres f hf; omega
  · simp only [List.mem_filter, decide_eq_true_eq] at he
    rcases List.mem_append.1 hf with hf | hf
    · have := hlow f hf; omega
    · have := hres f hf; omega

/-- A pixel inside the painted stretch reads as the runs say. -/
theorem imageRead_paint_inside (size : Nat) (img : Image) (a n : Nat) (mid : Image) (x : Nat) (h : Rising img)
    (hm : runsWithin a n mid) (hs : a + n ≤ size) (h1 : a ≤ x) (h2 : x < a + n) :
    imageRead (imagePaint size img a n mid) x = imageRead mid x := by
  unfold imagePaint
  rw [if_neg (by omega), imageRead_merge _ _ (imagePaint_rising size img a n mid h hm)]
  obtain ⟨⟨v, r, hv⟩, _, _⟩ := hm
  have hl : ∀ e ∈ img.filter (fun e => decide (e.1 < a)), e.1 ≤ x := by
    intro e he
    simp only [List.mem_filter, decide_eq_true_eq] at he
    omega
  have hres : ∀ e ∈ imageResume size img (a + n), x < e.1 := by
    intro e he
    unfold imageResume at he
    split at he
    · rcases List.mem_cons.1 he with rfl | he
      · exact h2
      · simp only [List.mem_filter, decide_eq_true_eq] at he; omega
    · simp at he
  show imageReadFrom 0 _ x = imageReadFrom 0 mid x
  rw [imageReadFrom_append_low 0 _ _ x hres, hv, imageReadFrom_append_high 0 v _ r a x hl h1]
  simp only [imageReadFrom]
  rw [if_neg (by omega)]

/-- A pixel outside the painted stretch reads as before. -/
theorem imageRead_paint_outside (size : Nat) (img : Image) (a n : Nat) (mid : Image) (x : Nat) (h : Rising img)
    (hm : runsWithin a n mid) (hx : x < size) (ho : x < a ∨ a + n ≤ x) :
    imageRead (imagePaint size img a n mid) x = imageRead img x := by
  unfold imagePaint
  split
  · rfl
  · rename_i hg
    rw [imageRead_merge _ _ (imagePaint_rising size img a n mid h hm)]
    obtain ⟨⟨v, r, hv⟩, hr, hw⟩ := hm
    rcases ho with ho | ho
    · have hlow : ∀ e ∈ mid ++ imageResume size img (a + n), x < e.1 := by
        intro e he
        rcases List.mem_append.1 he with he | he
        · rw [hv] at he hr
          rcases List.mem_cons.1 he with rfl | he
          · exact ho
          · have := (List.pairwise_cons.1 hr).1 e he; simp only at this; omega
        · unfold imageResume at he
          split at he
          · rcases List.mem_cons.1 he with rfl | he
            · simp only; omega
            · simp only [List.mem_filter, decide_eq_true_eq] at he; omega
          · simp at he
      show imageReadFrom 0 _ x = imageReadFrom 0 img x
      rw [List.append_assoc, imageReadFrom_append_low 0 _ _ x hlow]
      exact imageReadFrom_filter_low 0 img a x h ho
    · have hl : ∀ e ∈ img.filter (fun e => decide (e.1 < a)) ++ mid, e.1 ≤ x := by
        intro e he
        rcases List.mem_append.1 he with he | he
        · simp only [List.mem_filter, decide_eq_true_eq] at he; omega
        · have := hw e he; omega
      show imageReadFrom 0 _ x = imageReadFrom 0 img x
      unfold imageResume
      rw [if_pos (by omega), imageReadFrom_append_high 0 _ _ _ (a + n) x hl ho]
      exact imageReadFrom_filter_high 0 img (a + n) x h ho

/-- A paint keeps the canonical form of a picture. -/
theorem imagePaint_wf (size : Nat) (img : Image) (a n : Nat) (mid : Image) (h : imageWf size img) (hm : runsWithin a n mid) :
    imageWf size (imagePaint size img a n mid) := by
  obtain ⟨w1, w2, w3, w4⟩ := h
  unfold imagePaint
  split
  · exact ⟨w1, w2, w3, w4⟩
  · rename_i hg
    have hrise := imagePaint_rising size img a n mid w2 hm
    refine ⟨?_, hrise.sublist (imageMerge_sublist _ _), ?_, imageMerge_merged _ _⟩
    · obtain ⟨⟨v, r, hv⟩, _, _⟩ := hm
      cases img with
      | nil => simp at w1
      | cons e img =>
        obtain ⟨k, c⟩ := e
        simp only [List.head?_cons, Option.map_some, Option.some.injEq] at w1
        subst w1
        by_cases ha : 0 < a
        · simp [ha, imageMerge]
        · have h0 : a = 0 := by omega
          subst h0
          simp [hv, imageMerge]
    · intro e he
      have he := (imageMerge_sublist _ _).subset he
      rcases List.mem_append.1 he with he | he
      · rcases List.mem_append.1 he with he | he
        · simp only [List.mem_filter] at he; exact w3 e he.1
        · have := hm.2.2 e he; omega
      · unfold imageResume at he
        split at he
        · rcases List.mem_cons.1 he with rfl | he
          · assumption
          · simp only [List.mem_filter] at he; exact w3 e he.1
        · simp at he

theorem row_runsWithin (a n : Nat) (c : Half) (h : 0 < n) : runsWithin a n [(a, c)] :=
  ⟨⟨c, [], rfl⟩, List.pairwise_singleton _ _, fun e he => by simp only [List.mem_singleton] at he; subst he; simp only; omega⟩

theorem slice_runsWithin (img : Image) (src n dst : Nat) (h : Rising img) (hn : 0 < n) :
    runsWithin dst n (imageSlice img src n dst) := by
  refine ⟨⟨_, _, rfl⟩, ?_, ?_⟩
  · refine List.Pairwise.cons (fun e he => ?_) ?_
    · obtain ⟨f, hf, rfl⟩ := List.mem_map.1 he
      simp only [List.mem_filter, decide_eq_true_eq] at hf
      simp only; omega
    · rw [List.pairwise_map]
      refine (h.filter _).imp_of_mem fun {e f} he hf hlt => ?_
      simp only [List.mem_filter, decide_eq_true_eq] at he hf
      simp only; omega
  · intro e he
    rcases List.mem_cons.1 he with rfl | he
    · simp only; omega
    · obtain ⟨f, hf, rfl⟩ := List.mem_map.1 he
      simp only [List.mem_filter, decide_eq_true_eq] at hf
      simp only; omega

/-- A row of one colour keeps the canonical form. -/
theorem imageRow_wf (size : Nat) (img : Image) (a n : Nat) (c : Half) (h : imageWf size img) :
    imageWf size (imageRow size img a n c) := by
  by_cases hn : 0 < n
  · exact imagePaint_wf size img a n _ h (row_runsWithin a n c hn)
  · obtain rfl : n = 0 := by omega
    unfold imageRow imagePaint
    rw [if_pos (Or.inl rfl)]
    exact h

/-- A pixel after a row of one colour: the colour inside it, what it was outside. -/
theorem imageRead_row (size : Nat) (img : Image) (a n : Nat) (c : Half) (x : Nat) (h : Rising img) (hx : x < size)
    (hs : a + n ≤ size) :
    imageRead (imageRow size img a n c) x = if a ≤ x ∧ x < a + n then c else imageRead img x := by
  by_cases hn : 0 < n
  · split
    · rename_i hin
      unfold imageRow
      rw [imageRead_paint_inside size img a n _ x h (row_runsWithin a n c hn) hs hin.1 hin.2]
      simp only [imageRead, imageReadFrom]
      rw [if_neg (by omega)]
    · rename_i hout
      exact imageRead_paint_outside size img a n _ x h (row_runsWithin a n c hn) hx (by omega)
  · obtain rfl : n = 0 := by omega
    rw [if_neg (by omega)]
    unfold imageRow imagePaint
    rw [if_pos (Or.inl rfl)]

/-- A blend of two pictures is canonical, whatever the pixels it picks. -/
theorem imageBlend_wf (size : Nat) (late : Nat → Bool) (old new : Image) (h : 0 < size) :
    imageWf size (imageBlend size late old new) := by
  have sub := imageMerge_sublist none ((List.range size).map fun a => (a, imageRead (if late a then new else old) a))
  refine ⟨?_, ?_, ?_, imageMerge_merged none _⟩
  · obtain ⟨n, rfl⟩ : ∃ n, size = n + 1 := ⟨size - 1, by omega⟩
    simp [imageBlend, List.range_succ_eq_map, imageMerge]
  · exact (List.pairwise_map.2 (by simpa using List.pairwise_lt_range)).sublist sub
  · intro e he
    obtain ⟨a, ha, rfl⟩ := List.mem_map.1 (sub.subset he)
    exact List.mem_range.1 ha

/-- The runs of a picture's pixels, one run each, read as their colours. -/
theorem imageReadFrom_pixels (f : Nat → Half) (n k : Nat) (c : Half) (x : Nat) (h : k ≤ x) (hx : x < k + n) :
    imageReadFrom c ((List.range' k n).map fun a => (a, f a)) x = f x := by
  induction n generalizing k c with
  | zero => omega
  | succ n ih =>
    rw [List.range'_succ, List.map_cons, imageReadFrom, if_neg (by omega)]
    rcases Nat.eq_or_lt_of_le h with rfl | h
    · cases n with
      | zero => rfl
      | succ n => rw [List.range'_succ, List.map_cons, imageReadFrom, if_pos (by omega)]
    · exact ih (k + 1) (f k) (by omega) (by omega)

/-- A blend holds at each pixel what one of the two pictures holds there, the one picked. -/
theorem imageRead_blend (size : Nat) (late : Nat → Bool) (old new : Image) (x : Nat) (h : x < size) :
    imageRead (imageBlend size late old new) x = imageRead (if late x then new else old) x := by
  unfold imageBlend
  rw [imageRead_merge _ _ (List.pairwise_map.2 (by simpa using List.pairwise_lt_range)), List.range_eq_range']
  exact imageReadFrom_pixels (fun a => imageRead (if late a then new else old) a) size 0 0 x (Nat.zero_le x) (by omega)

theorem imageUniform_wf (size : Nat) (c : Half) (h : 0 < size) : imageWf size (imageUniform c) :=
  ⟨rfl, List.pairwise_singleton _ _, fun e he => by simp only [imageUniform, List.mem_singleton] at he; subst he; exact h, rfl⟩

theorem foldl_imageWf {α : Type} (size : Nat) (f : Image → α → Image) (hf : ∀ img a, imageWf size img → imageWf size (f img a))
    (l : List α) (img : Image) (h : imageWf size img) : imageWf size (l.foldl f img) := by
  induction l generalizing img with
  | nil => exact h
  | cons a l ih => exact ih _ (hf _ a h)

theorem imageRect_wf (width size : Nat) (img : Image) (x y w hh : Nat) (c : Half) (h : imageWf size img) :
    imageWf size (imageRect width size img x y w hh c) :=
  foldl_imageWf size _ (fun img _ h => imageRow_wf size img _ _ _ h) _ img h

theorem imageCopyRect_wf (width size : Nat) (src img : Image) (x y w hh : Nat) (hsrc : Rising src) (h : imageWf size img) :
    imageWf size (imageCopyRect width size src img x y w hh) := by
  refine foldl_imageWf size _ (fun img v h => ?_) _ img h
  by_cases hn : 0 < w
  · exact imagePaint_wf size img _ w _ h (slice_runsWithin src _ w _ hsrc hn)
  · obtain rfl : w = 0 := by omega
    simp only [imagePaint, true_or, if_true]
    exact h

/-- The memories right after reset are in canonical form. -/
theorem reset_memories : memoriesLegal State.reset := by decide +kernel

end Sys2Proof.Machine
end

