-- ==== Sys2Proof/Laws/Panel.lean ====
section
/-! SUPPORT. What the panel port, a fill that is stopped, the two engines' turns at the frame store and a cut transmission can
come out as, whatever the free values are: one lemma per operation. -/

namespace Sys2Proof.Machine

/-! ### The panel port -/

@[simp] theorem portPixels_length (s : State) (i : Nat) : (portPixels s i).length = 256 := by simp [portPixels]

/-- With no writer at the frame store the port carries what the picture holds. -/
theorem portPixels_free {s : State} (h : s.fs.holder = none) (i : Nat) :
    portPixels s i = (List.range 256).map fun p => imageRead s.fs.image (blockPixel s i p) := by
  simp [portPixels, storedPixel, isWritten, h]

/-- A pixel once written stays written while the write goes on. -/
theorem isWritten_mono {s t : State} (e : t.fs = s.fs) (h : s.free ≤ t.free) {a : Nat} (w : isWritten s a = true) :
    isWritten t a = true := by
  simp only [isWritten, e, Bool.and_eq_true, decide_eq_true_eq] at w ⊢
  exact ⟨w.1, w.2.trans h⟩

/-- Each pixel that the port carries is what the frame store holds at the selection. -/
theorem portPixels_getD (s : State) (i : Nat) {p : Nat} (h : p < 256) :
    (portPixels s i).getD p 0 = storedPixel s (blockPixel s i p) := by
  simp [portPixels, List.getD_eq_getElem?_getD, h]

/-- What a selection at moment f, between s and t, reads of a block in the course of a write. -/
theorem portPixels_read {s t : State} {f : Nat} (g : writeGoesOn s t) (lo : s.free ≤ f) (hi : f ≤ t.free) (i : Nat) (n : Byte) :
    blockRead s t i ⟨i, n, portPixels { s with free := f } i, 0⟩ := by
  refine ⟨rfl, rfl, portPixels_length _ i, g, fun p h => ?_⟩
  have e : (portPixels { s with free := f } i).getD p 0 =
      imageRead (if isWritten { s with free := f } (blockPixel s i p) then writtenImage s else s.fs.image)
        (blockPixel s i p) := portPixels_getD { s with free := f } i h
  rw [e]
  split
  · rename_i w
    exact ⟨.inr rfl, fun _ => rfl, fun o => nomatch o.symm.trans (isWritten_mono (s := { s with free := f }) g.1 hi w)⟩
  · rename_i w
    exact ⟨.inl rfl, fun o => absurd (isWritten_mono (s := s) (t := { s with free := f }) rfl lo o) w, fun _ => rfl⟩

/-- The port after it has read on. -/
theorem rereadPort_port {upTo : Nat → Nat} {written : Nat → Bool} {img : Image} {s : State} {w : BlockWrite}
    (f : s.pu.inFlight.isSome = true) (h : s.pu.port = some w) :
    (rereadPort upTo written img s).pu.port = some { w with
      read := upTo w.read
      pixels := w.pixels.mapIdx fun p c =>
        if w.read ≤ p ∧ written (blockPixel s w.block p) = true ∧ (upTo w.read ≤ p ∨ Config.readLater s.free p = true)
        then imageRead img (blockPixel s w.block p) else c } := by
  simp only [rereadPort, f, if_true, takeFree, h, Option.map_some]

/-- With no block write on the port there is nothing to read on. -/
theorem rereadPort_none {upTo : Nat → Nat} {written : Nat → Bool} {img : Image} {s : State} (h : s.pu.port = none) :
    (rereadPort upTo written img s).pu.port = none := by
  unfold rereadPort
  split
  · simp [takeFree, h]
  · exact h

/-- A pixel of a list mapped by places. -/
theorem mapIdx_getD {f : Nat → Half → Half} {l : List Half} {p : Nat} (h : p < l.length) :
    (l.mapIdx f).getD p 0 = f p (l.getD p 0) := by
  simp [List.getD_eq_getElem?_getD, List.getElem?_eq_getElem h]

/-- The port never counts fewer pixels as read than before. -/
theorem readOnTo_ge (s : State) (n : Nat) : n ≤ readOnTo s n := Nat.le_add_right _ _

/-- Nor more than there are. -/
theorem readOnTo_le (s : State) {n : Nat} (h : n ≤ 256) : readOnTo s n ≤ 256 := by
  have l := Nat.mod_lt (Config.pixelsRead s.free) (show 0 < 257 - n by omega)
  simp only [readOnTo]
  omega

/-- All that reading on at the end of a write can do. -/
theorem readToEnd_reads (img : Image) (s : State) : readOn img s (readToEnd img s) := by
  refine ⟨fun h => by rw [readToEnd_idle img h], rereadPort_none, fun w h f => ?_⟩
  refine ⟨_, rereadPort_port f h, rfl, rfl, readOnTo_ge _ _, readOnTo_le _, by simp, fun p hp => ?_⟩
  simp only [mapIdx_getD hp, true_and]
  have m := readOnTo_ge s w.read
  refine ⟨fun l => if_neg (by omega), fun _ => ?_, fun l => if_pos ⟨by omega, .inl l⟩⟩
  split
  · exact .inr rfl
  · exact .inl rfl

/-- A last read takes at most one free value, and none falls back. -/
theorem endReading_free_le (s : State) : s.free ≤ (endReading s).free := by
  unfold endReading rereadPort
  split
  · split
    · exact Nat.le_succ _
    · exact Nat.le_refl _
  · exact Nat.le_refl _

/-- A last read goes on with the write. -/
theorem endReading_goes (s : State) : writeGoesOn s (endReading s) := by
  have e : (endReading s).fs = s.fs := by rw [endReading_rest]
  exact ⟨e, by rw [endReading_rest]; rfl, fun _ => isWritten_mono e (endReading_free_le s)⟩

/-- All that a last read can do: the block in flight is read whole, and the port takes from the write at most what it has come
to. -/
theorem endReading_spec {s : State} (f : s.pu.inFlight.isSome = true) : readOnWriting s (endReading s) := by
  have g := endReading_goes s
  refine ⟨g, fun h => ?_, fun h => by simp [endReading_free h], fun w h => ?_⟩
  · unfold endReading
    split
    · exact rereadPort_none h
    · exact h
  · cases b : s.fs.holder.isSome with
    | false =>
      have n : s.fs.holder = none := by simpa using b
      exact ⟨w, by rw [endReading_free n]; exact h, rfl, rfl, fun k => absurd n k, rfl,
        fun _ _ => ⟨fun _ => rfl, .inl rfl, fun _ => rfl⟩⟩
    | true =>
      have e : endReading s = rereadPort (fun _ => 256) (isWritten s) (writtenImage s) s := if_pos b
      refine ⟨_, (congrArg (fun x : State => x.pu.port) e).trans (rereadPort_port f h), rfl, rfl, fun _ => rfl, by simp,
        fun p hp => ?_⟩
      simp only [mapIdx_getD hp]
      refine ⟨fun l => if_neg (by omega), ?_, fun o => if_neg fun k => ?_⟩
      · split
        · exact .inr rfl
        · exact .inl rfl
      · exact nomatch o.symm.trans (g.2.2 _ k.2.1)

/-- The port carries two bytes a pixel, the low byte first (R128, section 11.3). -/
theorem portBytes_length (w : BlockWrite) : (portBytes w).length = 2 * w.pixels.length := by
  simp [portBytes, le16, List.length_flatMap, Nat.mul_comm]

/-- With no writer at the frame store there is one picture: what is held, and what is being written, are the same. -/
@[simp] theorem writtenImage_free {s : State} (h : s.fs.holder = none) : writtenImage s = s.fs.image := by simp [writtenImage, h]

/-- A send puts block i on the port with the pixels read, and nothing else than sent says. -/
theorem sendBlock_sent (i : Nat) (s : State) :
    sendBlock i s =
      count .blockSent (sent i (portPixels s i) { s with free := if s.fs.holder.isSome then s.free + 1 else s.free }) := rfl

/-! ### A fill that is stopped -/

/-- Where no fill of the Layout Unit is at the frame store nothing is stopped. -/
theorem stopFill_idle {s : State} (h : s.fs.holder.any Writer.isLayout = false) : stopFill s = s := by simp [stopFill, h]

/-- A fill that is stopped leaves each pixel as it was, or as the fill gives it. -/
theorem stopFill_pixel (s : State) {a : Nat} (h : a < panelPixels s) :
    imageRead (stopFill s).fs.image a = imageRead s.fs.image a ∨
      imageRead (stopFill s).fs.image a = imageRead (writtenImage s) a := by
  unfold stopFill
  split
  · rw [readToEnd_rest]
    show imageRead (imageBlend _ _ _ _) a = _ ∨ imageRead (imageBlend _ _ _ _) a = _
    rw [imageRead_blend _ _ _ _ _ h]
    split
    · exact .inr rfl
    · exact .inl rfl
  · exact .inl rfl

/-- A pixel that a stopped fill had written holds what the fill gives it. -/
theorem stopFill_written (s : State) {a : Nat} (f : s.fs.holder.any Writer.isLayout = true) (h : a < panelPixels s)
    (w : isWritten s a = true) : imageRead (stopFill s).fs.image a = imageRead (writtenImage s) a := by
  unfold stopFill
  rw [if_pos f, readToEnd_rest]
  show imageRead (imageBlend _ _ _ _) a = _
  rw [imageRead_blend _ _ _ _ _ h, if_pos w]

/-! ### The engines' turns -/

/-- The choices for both engines come out as the handovers one after another, and when both engines took an entry perhaps with
their turns at the frame store exchanged. -/
theorem handAll_cases (s : State) :
    handAll s = handEach s ∨ handAll s = takeFree (handEach s) ∨ handAll s = exchangeTurns (takeFree (handEach s)) := by
  simp only [handAll]
  split
  · split
    · exact .inr (.inr rfl)
    · exact .inr (.inl rfl)
  · exact .inl rfl

/-! ### The upstream lane -/

/-- What a cut leaves on the lane. -/
theorem cutTx_lane {s : State} {x : Transmission} (h : s.lc.tx = some x) : cutOnLane x.frame (cutTx s).lc.laneOut := by
  have e : (cutTx s).lc.laneOut = frameGroups (cutFrame x.frame (Config.bytesSent s.free % x.frame.length)) := by
    simp only [cutTx, h, count_lc]
    cases x.item <;> rfl
  rw [e]
  exact ⟨_, rfl, fun h => Nat.mod_lt _ h⟩

end Sys2Proof.Machine
end

