-- ==== Sys2Proof/Laws/Sequencer.lean ====
section
/-! SUPPORT. What the sequencer's part of an event does where it has no choice to make and no drain to end, and how the operations of
the Tile Fault Unit read in the words of Safety.lean: one lemma per operation. -/

namespace Sys2Proof.Machine

/-! ### The sequencer with no choice to make -/

theorem eligible_none {side : Side} {s : State}
    (h : engineOf side s = none → ∀ e ∈ queueOf side s, (streamOf e.stream s).state ≠ .ready) : eligible side s = none := by
  simp only [eligible]
  split
  · rfl
  · rename_i f
    refine List.find?_eq_none.2 fun e m => ?_
    have n : engineOf side s = none := by simpa using f
    simp [h n e m]

/-- R47: a FREE engine is handed the oldest waiting entry of a READY stream, past the entries of streams that wait. -/
theorem eligible_oldest {side : Side} {s : State} {e : Entry} {front back : List Entry} (n : engineOf side s = none)
    (q : queueOf side s = front ++ e :: back) (f : ∀ d ∈ front, (streamOf d.stream s).state ≠ .ready)
    (r : (streamOf e.stream s).state = .ready) (x : e.executing = false) : eligible side s = some e := by
  have o : front.find? (fun e => !e.executing && (streamOf e.stream s).state == .ready) = none :=
    List.find?_eq_none.2 fun d m => by simp [f d m]
  simp [eligible, n, q, List.find?_append, o, r, x]

/-- Where neither engine can be handed an entry, and no entry is executing at a FREE engine, there is nothing to hand over. -/
theorem nothingToHand_of_eligible {s : State} (a : eligible .a s = none) (b : eligible .b s = none)
    (x : ∀ side, engineOf side s = none → ∀ e ∈ queueOf side s, e.executing = false) : nothingToHand s := by
  intro side n e m r
  have h : eligible side s = none := by cases side <;> assumption
  simp only [eligible, n, Option.isSome_none, Bool.false_eq_true, if_false] at h
  simpa [x side n e m, r] using List.find?_eq_none.1 h e m

theorem handFuel_none {s : State} (a : eligible .a s = none) (b : eligible .b s = none) (n : Nat) : handFuel n s = s := by
  cases n with
  | zero => rfl
  | succ n => simp only [handFuel, a, b]

/-- With nothing to hand over the choices for both engines change nothing. -/
theorem handAll_none {s : State} (h : nothingToHand s) : handAll s = s := by
  have e : handEach s = s := handFuel_none (eligible_none (h .a)) (eligible_none (h .b)) _
  simp only [handAll, e, bothTook]
  cases s.de.engineA <;> simp

/-! ### The drain -/

theorem drained_iff (s : State) : drained s = true ↔ nothingLeft s := by
  simp [drained, nothingLeft, and_assoc]

theorem checkDrain_waits {s : State} (h : s.sq.quiesce = .quiescing → ¬ nothingLeft s) : checkDrain s = s := by
  simp only [checkDrain, drained_iff]
  exact if_neg fun g => h g.1 g.2

/-- Where there is no choice to make and no drain to end, the sequencer's part of an event changes nothing. -/
theorem settle_settled {s : State} (h : settled s) : settle s = s := by
  simp only [settle, handAll_none h.1, checkDrain_waits h.2]

/-- With both engines busy there is no choice to make and no drain to end. -/
theorem settled_of_enginesBusy {s : State} (h : enginesBusy s) : settled s := by
  refine ⟨fun side n => ?_, fun _ l => ?_⟩
  · cases side
    · have e : s.de.engineA = none := n
      simp [enginesBusy, e] at h
    · have e : s.de.engineB = none := n
      simp [enginesBusy, e] at h
  · simp [enginesBusy, l.2.2.1] at h

/-- With both side queues empty there is nothing to hand over. -/
theorem nothingToHand_of_empty {s : State} (a : s.sq.queueA = []) (b : s.sq.queueB = []) : nothingToHand s := by
  intro side _ e h
  cases side
  · exact absurd (a ▸ h : e ∈ []) List.not_mem_nil
  · exact absurd (b ▸ h : e ∈ []) List.not_mem_nil

/-- The same side by side, in a form that a concrete state decides. -/
theorem settled_iff (s : State) :
    settled s ↔ ((s.de.engineA = none → ∀ e ∈ s.sq.queueA, (streamOf e.stream s).state ≠ .ready) ∧
      (s.de.engineB = none → ∀ e ∈ s.sq.queueB, (streamOf e.stream s).state ≠ .ready)) ∧
      (s.sq.quiesce = .quiescing → ¬ nothingLeft s) :=
  ⟨fun h => ⟨⟨h.1 .a, h.1 .b⟩, h.2⟩, fun h => ⟨fun side => by cases side; exacts [h.1.1, h.1.2], h.2⟩⟩

/-! ### Faults -/

theorem clearPending_eq (e : DirEntry) : clearPending e = noLongerPending e := rfl

theorem trackLost_eq (side : Side) (s : State) :
    trackLost side s = { s with mn.tracker := afterLoss side s.mn.tracker } := by
  simp only [trackLost, afterLoss]
  cases s.mn.tracker.armed with
  | none => rfl
  | some f => by_cases h : f.side = side <;> simp [h, bump, Config.maxCount]

theorem trackComplete_eq (side : Side) (s : State) :
    trackComplete side s = { s with mn.tracker := afterCompletion side s.tick s.mn.tracker } := by
  simp only [trackComplete, afterCompletion]
  cases s.mn.tracker.armed with
  | none => rfl
  | some f => by_cases h : f.side = side <;> simp [h, bump, Config.maxCount]

theorem wokenByIdle_eq (side : Side) (r : Stream) :
    (fun x : Stream => if x.state = .waitWay then { x with state := .ready } else x)
      (if r.state = .waitSlot ∧ r.side = some side then { r with state := .ready } else r) = wokenByIdle side r := by
  obtain ⟨state, x, _, _, _, _⟩ := r
  cases state <;> by_cases h : x = some side <;> simp [wokenByIdle, h]

/-- A record that goes IDLE wakes the streams of R97. -/
theorem goIdle_streams (side : Side) (s : State) :
    (goIdle side s).sq.streams = Vector.ofFn fun i => wokenByIdle side (streamOf i s) := by
  simp only [goIdle, wakeWay, mapStreams, streamOf]
  congr 1
  funext i
  simp only [Fin.getElem_fin, Vector.getElem_ofFn]
  cases side <;> exact wokenByIdle_eq _ _

/-- While HELD no fault timer expires (R104). -/
theorem faultExpires_attached {side : Side} {s : State} (h : faultExpires side s = true) : s.lc.attachment = .attached := by
  simp only [faultExpires, Bool.and_eq_true, beq_iff_eq] at h
  exact h.1.1

end Sys2Proof.Machine
end

