-- ==== Sys2Proof/Laws/Shared.lean ====
section
/-! SUPPORT. What the shared operations of the Link Controller and the Management Engine do, case by case, so that no proof about a
frame or a request unfolds them: a frame's arrival, its passing, its dispatch by attachment, the taking of a request. -/

namespace Sys2Proof.Machine

/-! ### The order of expiries -/

theorem arrange_perm (k : Nat) (l : List Instr) : (arrange k l).Perm l := by
  induction l generalizing k with
  | nil => simp [arrange]
  | cons c rest ih =>
    rw [arrange]
    refine (List.perm_insertIdx _ _ ?_).trans ((ih _).cons c)
    rw [(ih (k / (rest.length + 1))).length_eq]
    have := Nat.mod_lt k (show 0 < rest.length + 1 by omega)
    omega

/-- The expiries of a tick wait each once, whatever the order. -/
theorem inSomeOrder_perm (k : Nat) (l : List Instr) : (inSomeOrder k l).Perm l := by
  unfold inSomeOrder
  split
  · rfl
  · rfl
  · exact arrange_perm _ _

/-! ### Frames -/

theorem assembles_up {s : State} (h : s.lc.link = .up) : assembles s = true := by unfold assembles; rw [h]; rfl
theorem assembles_framing {s : State} (h : s.lc.link = .framing) : assembles s = true := by unfold assembles; rw [h]; rfl
theorem assembles_down {s : State} (h : s.lc.link = .down) : assembles s = false := by unfold assembles; rw [h]; rfl
theorem assembles_aligning {s : State} (h : s.lc.link = .aligning) : assembles s = false := by unfold assembles; rw [h]; rfl

theorem frameArrival_eq (effect : State → State) {s : State} (h : assembles s = true) :
    frameArrival effect s = .next (conclude s (effect s)) := by unfold frameArrival; rw [if_pos h]

theorem frameArrival_none (effect : State → State) {s : State} (h : assembles s = false) :
    frameArrival effect s = .next s := by unfold frameArrival; rw [h]; rfl

theorem passFrame_up (d : State → State) {s : State} (h : s.lc.link = .up) : passFrame d s = d (passed s) := by
  unfold passFrame; rw [h]; rfl

theorem passFrame_framing (d : State → State) {s : State} (h : s.lc.link = .framing) :
    passFrame d s =
      if 4 ≤ s.lc.framingCount + 1 then
        count .linkUp { s with lc.link := .up, lc.framingCount := s.lc.framingCount + 1, lc.failureCount := 0 }
      else { s with lc.framingCount := s.lc.framingCount + 1 } := by
  unfold passFrame; rw [h]; rfl

theorem ifAttached_yes (run : State → State) {s : State} (h : s.lc.attachment = .attached) : ifAttached run s = run s := by
  unfold ifAttached; rw [if_pos h]

theorem ifAttached_no (run : State → State) {s : State} (h : s.lc.attachment ≠ .attached) :
    ifAttached run s = count .notAttached s := by unfold ifAttached; rw [if_neg h]

/-! ### Requests -/

theorem owed_none {s : State} (h : s.me.inProgress = none) : owed s = 0 := by unfold owed; rw [h]; rfl

theorem takeRequest_taken (tag kind : Byte) (run : State → State) {s : State} (h : s.me.inProgress = none)
    (g : s.lc.replies.length < Config.repliesDepth) : takeRequest tag kind run s = run (count .reqTaken s) := by
  unfold takeRequest
  rw [owed_none h, if_neg (by omega), h]
  exact if_neg (by decide)

theorem takeRequest_busy (tag kind : Byte) (run : State → State) {s : State} (h : s.me.inProgress.isSome = true)
    (g : s.lc.replies.length + 1 < Config.repliesDepth) :
    takeRequest tag kind run s = count .reqBusy (answer tag kind .busy s) := by
  unfold takeRequest owed
  rw [h, if_pos rfl, if_neg (by omega), if_pos rfl]

theorem takeRequest_discarded (tag kind : Byte) (run : State → State) {s : State}
    (g : Config.repliesDepth ≤ s.lc.replies.length + owed s) : takeRequest tag kind run s = count .reqDiscarded s := by
  unfold takeRequest
  rw [if_pos g]

/-- A request that is taken is carried out on the state in which the frame has passed and REQ_TAKEN is counted. -/
theorem requestArrival_taken (tag kind : Byte) (run : State → State) {s : State} (h : takesRequest s) :
    requestArrival tag kind run s = .next (conclude s (run (count .reqTaken (passed s)))) := by
  obtain ⟨a, b, c, d⟩ := h
  unfold requestArrival
  rw [frameArrival_eq _ (assembles_up a), passFrame_up _ a, ifAttached_yes _ (show (passed s).lc.attachment = _ from b),
    takeRequest_taken _ _ _ (show (passed s).me.inProgress = _ from c) (show (passed s).lc.replies.length < _ from d)]

/-- A frame taken in UP ends as its dispatch does. -/
theorem frame_up_ends {dispatch : State → State} {s u : State} {us : List SubEvent} (h : s.lc.link = .up)
    (he : endsAs u us (dispatch (passed s))) :
    ∃ t, frameArrival (passFrame dispatch) s = .next t ∧ endsAs u us t :=
  ⟨_, by rw [frameArrival_eq _ (assembles_up h), passFrame_up _ h], he.conclude s⟩

/-- A request taken ends as its carrying out does, REQ_TAKEN counted first. -/
theorem request_ends {tag kind : Byte} {run : State → State} {s u : State} {us : List SubEvent} (h : takesRequest s)
    (he : endsAs u us (run (count .reqTaken (passed s)))) :
    ∃ t, requestArrival tag kind run s = .next t ∧ endsAs u us t :=
  ⟨_, requestArrival_taken tag kind run h, he.conclude s⟩

/-- A state in which only REQ_TAKEN has been counted. -/
theorem taken_ends (s : State) : endsAs s [.reqTaken] (count .reqTaken s) := (endsAs_refl s).count .reqTaken

end Sys2Proof.Machine
end

