-- ==== Sys2Proof/Laws/Spelling.lean ====
section
/-! SUPPORT. How a frame command is spelled: payloadOf and spelled by the tag, kind and arguments of a request. Unfolding payloadOf,
whose last arm overlaps the others, is slow; these lemmas stand in its place. -/

namespace Sys2Proof.Machine

/-- The payload of a request: its tag, its kind byte, its arguments (section 11.6). -/
theorem payloadOf_request {c : Instr} {tag kind : Byte} {args : List Byte} (h : requestOf c = some (tag, kind))
    (ha : argsOf c = some args) : payloadOf c = some (5, tag :: kind :: args) := by
  cases c <;>
    first
    | exact nomatch (show (none : Option (Byte × Byte)) = some (tag, kind) from h)
    | exact nomatch (show (none : Option (List Byte)) = some args from ha)
    | (injection h with h; injection h with h1 h2; injection ha with ha; subst h1 h2 ha; rfl)

/-- Only frame commands have a payload. -/
theorem payloadOf_none {c : Instr} (h : requestOf c = none) (hello : ∀ n, c ≠ .hello n) (idle : c ≠ .idle)
    (draw : ∀ stream seq commands, c ≠ .draw stream seq commands) (tile : ∀ key sector data, c ≠ .tile key sector data) :
    payloadOf c = none := by
  cases c <;>
    first
    | rfl
    | exact nomatch (show some (_, _) = none from h)
    | exact absurd rfl (hello _)
    | exact absurd rfl idle
    | exact absurd rfl (draw _ _ _)
    | exact absurd rfl (tile _ _ _)

/-- A command with a request's tag and kind, but for BAD_REQUEST, has arguments. -/
theorem argsOf_request {c : Instr} {tag kind : Byte} (h : requestOf c = some (tag, kind)) :
    c = .badRequest tag kind ∨ (argsOf c).isSome = true := by
  cases c <;>
    first
    | exact Or.inr rfl
    | exact nomatch (show (none : Option (Byte × Byte)) = some (tag, kind) from h)
    | (injection h with h; injection h with h1 h2; subst h1 h2; exact Or.inl rfl)

/-- The frame of a command whose payload is known (section 11.1). -/
theorem spelled_of_payload {c : Instr} {kind : Byte} {payload : List Byte} (h : payloadOf c = some (kind, payload)) :
    spelled c = some ([kind, BitVec.ofNat 8 payload.length] ++ payload ++
      le16 (frameCheck ([kind, BitVec.ofNat 8 payload.length] ++ payload))) := by
  simp only [spelled, h, Option.map_some, buildFrame, List.cons_append, List.nil_append]

end Sys2Proof.Machine
end

