-- ==== Sys2Proof/Tests/Slice0.lean ====
section
/-! SUPPORT. Tests. test_… are checks of this model against values the spec states, or worked out by hand from its rules; witness_…
shows, for each statement of Certificates/Slice0/Obligations.lean that has hypotheses, concrete values that meet them,
clause by clause, at the ends of their ranges. -/

set_option Elab.async false

namespace Sys2Proof.Machine.Tests

/-! ### States to start from -/

/-- A docked tablet: link UP, attached with number 7. -/
def up : State := { State.reset with lc.link := .up, lc.attachment := .attached, lc.attachNumber := 7, lc.attachCounter := 2 }

/-- The tablet's link has failed and come back: HELD, with a hold that began at tick 0. -/
def held : State :=
  { up with
    lc.attachment := .held, lc.holdTimer := some 1500000, lc.holdCause := some .lossDetector, lc.holdStart := some 0
    tick := 2345678 }

/-- Stream 0 open on side A, expecting frame 5. -/
def opened : State := setStream 0 ⟨.ready, some .a, 5, none, false, none⟩ up

/-- A quiesced bridge. -/
def quiet : State := { up with sq.quiesce := .quiesced }

/-- A record of a FILL over region 0's first block. -/
def aRecord : ExecRecord :=
  { stream := 0, seq := 4, pos := 0, command := .fill 31 0 0 16 16, ox := 0, oy := 0, rw := 1280, rh := 800, background := 0
    cx0 := 0, cx1 := 15, cy0 := 0, cy1 := 15, firstSector := 0, tile := [], removed := false }

/-- Both engines under execution, engine A writing. -/
def busy : State :=
  { opened with
    de := ⟨some aRecord, some aRecord⟩, fs.holder := some (.engine .a), fs.waiting := [.engine .b]
    sq.queueA := [⟨0, 4, 0, .fill 31 0 0 16 16, true⟩] }

/-- The state that a step answers, where it answers one. -/
def after (r : Result) : Option State :=
  match r with
  | .next t => some t
  | .fault _ => none
  | .refused _ => none

/-! ### Well-formed commands (section 11.2): an ill-formed one for each check -/

theorem test_wf_draw_needs_a_command : (Instr.draw 0 0 []).wf = false := by decide +kernel
theorem test_wf_draw_length_limit : (Instr.draw 0 0 (List.replicate 158 0)).wf = false := by decide +kernel
theorem test_wf_draw_longest : (Instr.draw 0 0 (List.replicate 157 0)).wf = true := by decide +kernel
theorem test_wf_tile_sector_is_128_bytes : (Instr.tile 1 0 (List.replicate 127 0)).wf = false := by decide +kernel
theorem test_wf_table_write_length_limit : (Instr.tableWrite 0 0 0 (List.replicate 156 0)).wf = false := by decide +kernel
theorem test_wf_store_write_length_limit : (Instr.storeWrite 0 0 (List.replicate 157 0)).wf = false := by decide +kernel

/-! ### Reset -/

/-- R21, R169: the reset state is the power-on of an erased store. -/
theorem test_reset_is_power_on : State.reset = powerOn [] 0 [] := by decide +kernel

/-! ### Arithmetic and encodings (chapters 9 and 11) -/

/-- R173, worked by hand for one byte 0: the register 0xFFFF is shifted eight times, 0x1021 joined after each shift that drops a 1. -/
theorem test_frame_check_of_one_byte : frameCheck [0] = 0xE1F0 := by decide
/-- R160's three examples of a scan period. -/
theorem test_scan_period_examples : clampScan 4100 = 4000 ∧ clampScan 1130 = 1000 ∧ clampScan 300 = 500 := by decide
/-- Section 11.4: PLACE of key 0x11223344 at (-1, 5), low byte first, bits above 11 ignored. -/
theorem test_parse_place :
    parseDraw [1, 0x44, 0x33, 0x22, 0x11, 0xFF, 0x0F, 5, 0xF0] = some [.place 0x11223344 (-1) 5 none] := by decide
/-- Section 11.4: PLACE with key colour 0x8001 at (0, -2048). -/
theorem test_parse_place_with_key_colour :
    parseDraw [2, 1, 0, 0, 0, 0, 0, 0, 8, 1, 0x80] = some [.place 1 0 (-2048) (some 0x8001)] := by decide
/-- Section 11.4: FILL of colour 31, (3, 4), 1 by 2048. -/
theorem test_parse_fill :
    parseDraw [3, 31, 0, 3, 0, 4, 0, 0, 0, 0xFF, 0x07] = some [.fill 31 3 4 1 2048] := by decide
/-- Section 11.4: SCROLL, and a payload that runs past its end. -/
theorem test_parse_scroll_and_short :
    parseDraw [4, 1, 0, 0xF0, 0x0F] = some [.scroll 1 (-16)] ∧ parseDraw [4, 1, 0, 0xF0] = none := by decide
/-- R50: nine commands are malformed, eight are not. -/
theorem test_parse_at_most_eight :
    (parseDraw (List.replicate 8 [4, 1, 0, 0, 0]).flatten).isSome = true ∧
      parseDraw (List.replicate 9 [4, 1, 0, 0, 0]).flatten = none := by decide +kernel

/-! ### The downstream lane -/

/-- R2: the 64th valid group moves the link to FRAMING. -/
theorem test_the_64th_group :
    (after (exec (.symbolGroup .startDelimiter) { State.reset with lc.link := .aligning, lc.alignCount := 63 })).map
      (fun t => (t.lc.link, t.lc.alignCount, t.lc.assembly)) = some (.framing, 64, none) := by decide +kernel
/-- R3, R9: the bytes of a HELLO with number 0, closed by an end delimiter, attach with the number issued. -/
theorem test_hello_from_its_bytes :
    (after (exec (.symbolGroup .endDelimiter)
      { State.reset with
        lc.link := .up, lc.assembly := some ([1, 4, 0, 0, 0, 0] ++ le16 (frameCheck [1, 4, 0, 0, 0, 0])) })).map
      (fun t => (t.lc.attachment, t.lc.attachNumber, t.lc.attachCounter, t.lc.greet)) =
      some (.attached, 1, 2, some .newSession) := by decide +kernel
/-- R11: a hold of 150 units of 10 ms. -/
theorem test_loss_starts_a_hold :
    (after (exec .lossDetectorExpiry { up with lc.lossCount := 64, tick := 9 })).map
      (fun t => (t.lc.link, t.lc.attachment, t.lc.holdTimer, t.lc.holdStart)) =
      some (.down, .held, some 1500000, some 9) := by decide +kernel
/-- R5: the fourth failing frame in a row. -/
theorem test_fourth_failure :
    (after (exec .checkFail { up with lc.failureCount := 3 })).map (fun t => (t.lc.link, t.lc.failureCount)) =
      some (.aligning, 0) := by decide +kernel
/-- R4: the fourth passing frame in FRAMING. -/
theorem test_fourth_passing_frame :
    (after (exec .idle { State.reset with lc.link := .framing, lc.framingCount := 3 })).map (fun t => t.lc.link) =
      some .up := by decide +kernel
/-- R12: a hold of 2345678 ticks is 2345 ms. -/
theorem test_reattach_detail :
    (after (exec (.hello 7) held)).map (fun t => (t.lc.lastDuration, (eventSlot .linkResumed t).detail)) =
      some (2345, 0x010929) := by decide +kernel
/-- R13: another number tears the session down. -/
theorem test_swap_tears_down :
    (after (exec (.hello 9) { held with sq.streams := opened.sq.streams })).map
      (fun t => (t.lc.attachNumber, (streamOf 0 t).state, (eventSlot .regionStale t).detail, t.fs.holder)) =
      some (9, .closed, 0xFF, some .teardownFill) := by decide +kernel
/-- R14: a hold ends UNATTACHED. -/
theorem test_hold_expiry :
    (after (exec .holdTimerExpiry { held with lc.holdTimer := some 0 })).map (fun t => (t.lc.attachment, t.lc.attachNumber)) =
      some (.unattached, 0) := by decide +kernel
/-- R19: a reply leaves its queue when its frame has left. -/
theorem test_reply_leaves :
    (after (exec .transmissionComplete
      { up with lc.tx := some ⟨.reply, [9]⟩, lc.replies := [⟨1, 2, .ok, []⟩] })).map
      (fun t => (t.lc.replies, t.lc.laneOut)) = 
      some ([], [.startDelimiter, .data 9, .endDelimiter]) := by decide +kernel
/-- R173: a frame cut after its first byte 0, whose check is 0xE1F0, goes out with the check 0x1E0F, low byte first, and an end
delimiter. -/
theorem test_cut_frame_on_the_lane :
    frameGroups (cutFrame [0, 7, 7] 1) = [.startDelimiter, .data 0, .data 0x0F, .data 0x1E, .endDelimiter] := by decide

/-! ### Streams and drawing -/

/-- R51: a frame two numbers ahead flags GAP. -/
theorem test_gap :
    (after (exec (.draw 0 7 [4, 1, 0, 0, 0]) opened)).map (fun t => ((streamOf 0 t).rewind, (streamOf 0 t).expected)) =
      some (some .gap, 5) := by decide +kernel
/-- R109, section 6.11: the FILL at (-20, 90), 50 by 30, in a region of 320 by 96 at (200, 104). -/
theorem test_fill_clip :
    let r := recordFor ⟨3, 0, 0, .fill 1 (-20) 90 50 30, false⟩ ⟨true, 200, 104, 320, 96, 0, false, false⟩
    (r.cx0, r.cx1, r.cy0, r.cy1) = (0, 29, 90, 95) := by decide
/-- Section 6.11: the PLACE at (310, -6) needs sectors 1 to 3. -/
theorem test_place_clip :
    let r := recordFor ⟨3, 0, 0, .place 1 310 (-6) none, false⟩ ⟨true, 200, 104, 320, 96, 0, false, false⟩
    (r.cx0, r.cx1, r.cy0, r.cy1, sectorMask (needLo r (-6)) (needHi r (-6))) = (310, 319, 0, 9, 0b1110#4) := by decide
/-- Section 4.11, step 5: a lookup of way 0 in a set of ages 2, 1, 0, 3. -/
theorem test_ages_after_a_hit :
    (makeRecent 0 #v[DirEntry.invalid 2, DirEntry.invalid 1, DirEntry.invalid 0, DirEntry.invalid 3]).toList.map DirEntry.age =
      [0, 2, 1, 3] := by decide
/-- R117 on a picture 4 wide: a region of 2 by 2 at (1, 0) moved right by one. -/
theorem test_scroll_right :
    (List.range 8).map (imageRead (writeScroll 4 8
      { aRecord with command := .scroll 1 0, ox := 1, oy := 0, rw := 2, rh := 2, background := 9 } 1 0
      [(0, 0), (1, 1), (2, 2), (3, 3), (4, 4), (5, 5), (6, 6), (7, 7)])) = [0, 9, 1, 3, 4, 9, 5, 7] := by decide +kernel
/-- R119: the end of an execution passes the frame store to the write that waits. -/
theorem test_execution_end_passes_the_store :
    (after (exec (.executionEnd .a) busy)).map (fun t => (t.fs.holder, engineState .a t, t.sq.queueA)) =
      some (some (.engine .b), .free, []) := by decide +kernel
/-- R79: the first fill of key 69 takes way 0 of set 5 (section 4.11, step 1). -/
theorem test_first_fill :
    (after (exec (.tile 69 0 (List.replicate 128 1)) up)).map (fun t => t.tc.dir[5][0]) =
      some ⟨true, 69, 1, 0, false, false, 0⟩ := by decide +kernel
/-- R100, R101: the first expiry is a retry. -/
theorem test_retry :
    (after (exec (.faultTimerExpiry .a) { up with tf.recA := ⟨true, 69, 1, 1, 0, some 0, false, false⟩ })).map
      (fun t => (t.tf.recA.tries, t.tf.recA.timer, t.tf.recA.send)) = some (1, some 40000, true) := by decide +kernel
/-- R104: in a hold the same expiry does nothing. -/
theorem test_no_expiry_in_a_hold :
    (after (exec (.faultTimerExpiry .a) { held with tf.recA := ⟨true, 69, 1, 1, 0, some 0, false, false⟩ })).map
      (fun t => t.tf.recA) = some ⟨true, 69, 1, 1, 0, some 0, false, false⟩ := by decide +kernel

/-! ### Requests -/

/-- R156: the reply to a request of no known kind. -/
theorem test_bad_request :
    (after (exec (.badRequest 3 0x77) up)).map (fun t => t.lc.replies) = some [⟨3, 0x77, .badRequest, []⟩] := by decide +kernel
/-- Section 11.7: the IDENT entry of a bridge with the defaults, 80 by 50 blocks. -/
theorem test_ident_read :
    (after (exec (.tableRead 1 0 0 1) up)).map (fun t => t.lc.replies) =
      some [⟨1, 1, .ok, [0, 0, 0, 1, 0x47, 0x0A, 0x18, 0x10, 1, 80, 50, 0]⟩] := by decide +kernel
/-- R159: the LINK table is read only. -/
theorem test_link_table_read_only :
    (after (exec (.tableWrite 1 8 0 (List.replicate 16 0)) up)).map (fun t => t.lc.replies) =
      some [⟨1, 2, .readOnly, []⟩] := by decide +kernel
/-- R29: a header write outside QUIESCED. -/
theorem test_header_write_refused :
    (after (exec (.layoutHeaderWrite 1 5 6) up)).map (fun t => (t.lc.replies, t.lu.border)) =
      some ([⟨1, 2, .notQuiesced, []⟩], 0) := by decide +kernel
/-- R30: region 1 over region 0. -/
theorem test_region_overlap :
    (after (exec (.layoutRegionWrite 1 1 true 0 0 16 16 5) quiet)).map (fun t => t.lc.replies) =
      some [⟨1, 2, .overlap, []⟩] := by decide +kernel
/-- R36: a stream write clears the stale flag. -/
theorem test_stream_write :
    (after (exec (.streamWrite 1 3 false) up)).map (fun t => ((regionOf 3 t).stale, (regionOf 2 t).stale)) =
      some (false, true) := by decide +kernel
/-- R148: LAYER 3 is no value. -/
theorem test_keymap_write_refused :
    (after (exec (.keymapWrite 1 0 3 3) up)).map (fun t => t.lc.replies) = some [⟨1, 2, .badValue, []⟩] := by decide +kernel
/-- R160: the depth 0 is taken as 1. -/
theorem test_settings_write :
    (after (exec (.settingsWrite 1 16 0 1130 0 0 8 1 0xFF) up)).map (fun t => t.settings) =
      some ⟨15, 1, 1000, 1, 1, 7, 2, 0x3F⟩ := by decide +kernel
/-- Section 7.9: level 40 is taken as 15. -/
theorem test_panel_write :
    (after (exec (.panelWrite 1 80 50 40) up)).map (fun t => (t.pu.level, (eventSlot .backlight t).detail)) =
      some (15, 15) := by decide +kernel
/-- R43: the first stream goes to side A. -/
theorem test_first_open :
    (after (exec (.streamOpen 1 0 9) up)).map (fun t => streamOf 0 t) =
      some ⟨.ready, some .a, 9, none, false, none⟩ := by decide +kernel
/-- R44: a closed stream keeps its expected number. -/
theorem test_close :
    (after (exec (.streamClose 1 0) opened)).map (fun t => streamOf 0 t) =
      some ⟨.closed, none, 5, none, false, none⟩ := by decide +kernel
/-- R61: with nothing to drain a QUIESCE is answered at once. -/
theorem test_quiesce_at_once :
    (after (exec (.quiesce 4) opened)).map (fun t => (t.sq.quiesce, t.lc.replies, t.me.inProgress)) =
      some (.quiesced, [⟨4, 5, .ok, []⟩], none) := by decide +kernel
/-- R62: the end of the last execution ends the drain, and the OK to the QUIESCE is queued. -/
theorem test_drain_ends :
    (after (exec (.executionEnd .a) { busy with
      de.engineB := none, fs.waiting := [], sq.quiesce := .quiescing, me.inProgress := some ⟨4, 5, .quiesce, false⟩ })).map
      (fun t => (t.sq.quiesce, t.me.inProgress, t.lc.replies)) = some (.quiesced, none, [⟨4, 5, .ok, []⟩]) := by decide +kernel
/-- R33: the first RESUME applies the whole layout; region 0 alone is enabled and changed. -/
theorem test_resume_applies :
    (after (exec (.resume 4) quiet)).map (fun t => (t.lu.apply, t.fs.holder, t.me.inProgress)) =
      some (some 1, some .layoutApply, some ⟨4, 6, .resume, false⟩) := by decide +kernel
/-- R86: a flush begins at set 0. -/
theorem test_flush :
    (after (exec (.tileFlush 1) quiet)).map (fun t => (t.tc.sweep, t.me.inProgress)) =
      some (0, some ⟨1, 7, .tileFlush, false⟩) := by decide +kernel
/-- R87: a step moves the sweep to the next set. -/
theorem test_sweep_step :
    (sweepSet 0 { quiet with tc.sweep := 0 }).tc.sweep = 1 := rfl
/-- R84: a key that is absent cannot be pinned, nor unpinned (R85). -/
theorem test_pin_absent :
    (after (exec (.tilePin 1 69) up)).map (fun t => t.lc.replies) = some [⟨1, 8, .notPresent, []⟩] ∧
      (after (exec (.tileUnpin 1 69) up)).map (fun t => t.lc.replies) = some [⟨1, 9, .notPresent, []⟩] := by decide +kernel
/-- R132: a restart clears the halt. -/
theorem test_restart :
    (doPanelRestart 1 { up with pu.halted := true, pu.streak := 3 }).pu.halted = false ∧
      (doPanelRestart 1 { up with pu.halted := true, pu.streak := 3 }).lc.replies = [⟨1, 10, .ok, []⟩] := by decide +kernel
/-- R161: DOCK_RESET keeps the attach number and leaves one reply. -/
theorem test_dock_reset :
    (after (exec (.dockReset 8) { opened with lc.keys := [Report.empty] })).map
      (fun t => (t.lc.attachNumber, t.lc.keys, t.lc.replies, (streamOf 0 t).state)) =
      some (7, [], [⟨8, 0x0B, .ok, []⟩], .closed) := by decide +kernel
/-- R165: page 4 does not exist; page 3 does. -/
theorem test_store_erase :
    (after (exec (.storeErase 1 4) up)).map (fun t => t.lc.replies) = some [⟨1, 0x0C, .badValue, []⟩] ∧
      (after (exec (.storeErase 1 3) up)).map (fun t => t.me.inProgress) =
        some (some ⟨1, 0x0C, .erase 3, false⟩) := by decide +kernel
/-- R166: the erased page reads 255. -/
theorem test_erase_done :
    (after (exec .eraseDone { up with flash := [(1023, 1), (1024, 2)], me.inProgress := some ⟨1, 12, .erase 1, false⟩ })).map
      (fun t => (t.flash, t.lc.replies)) = some ([(1023, 1)], [⟨1, 12, .ok, []⟩]) := by decide +kernel
/-- Section 10.3, step 1: 150 AND 200 is 128, a mismatch. -/
theorem test_program_mismatch :
    (after (exec .programDone { up with flash := [(9, 150)], me.inProgress := some ⟨1, 13, .program 9 [200], false⟩ })).map
      (fun t => (t.flash, t.lc.replies)) = some ([(9, 128)], [⟨1, 13, .storeMismatch, []⟩]) := by decide +kernel
/-- R165: bytes that nothing has written read 255. -/
theorem test_store_read :
    (after (exec (.storeRead 1 4094 2) { up with flash := [(4095, 3)] })).map (fun t => t.lc.replies) =
      some [⟨1, 0x0E, .ok, [255, 3]⟩] := by decide +kernel
/-- R165: a write across a page boundary. -/
theorem test_store_write_crosses_a_page :
    (after (exec (.storeWrite 1 1023 [0, 0]) up)).map (fun t => t.lc.replies) =
      some [⟨1, 0x0D, .badValue, []⟩] := by decide +kernel
/-- R170: SHED has four sub-events. -/
theorem test_monitor_set :
    (after (exec (.monitorSet 1 0 0 4 16 0) up)).map (fun t => t.lc.replies) = some [⟨1, 0x0F, .badValue, []⟩] ∧
      (after (exec (.monitorSet 1 0 0 4 15 0) up)).map (fun t => t.mn.counters[0]) =
        some ⟨0, .occurrence, .shed, 15, .anyStreamWaiting⟩ := by decide +kernel

/-! ### Panel, keys, time -/

/-- R129: the echo of block 0's write sends block 1. -/
theorem test_acknowledgement :
    (after (exec (.acknowledgement 1) up)).map (fun t => t.pu.inFlight) = some (some ⟨1, 2, 10000⟩) := by decide +kernel
/-- R130: the third timeout in a row halts the panel. -/
theorem test_third_timeout :
    (after (exec .blockTimeout { up with pu.streak := 2, pu.inFlight := some ⟨0, 1, 0⟩ })).map
      (fun t => (t.pu.halted, t.pu.streak, (eventSlot .panelHalted t).pending)) = some (true, 3, true) := by decide +kernel
/-- Section 8.3.1: the counts of the thirteen scans. -/
theorem test_debounce_counts :
    ([true, true, false, true, true, true, true, false, true, false, false, false, false].scanl
      (fun c closed => newCount 4 closed c) 0).tail = [1, 2, 1, 2, 3, 4, 4, 3, 4, 3, 2, 1, 0] := by decide
/-- R138, R144: position 0 pressed at depth 1 reports code 1. -/
theorem test_scan_press :
    (after (exec (.scan 1) { up with ks.scanTimer := 0, settings.depth := 1 })).map (fun t => (t.ks.report, t.lc.keys)) =
      some (⟨0, [1], false⟩, [⟨0, [1], false⟩]) := by decide +kernel
/-- A position pressed at depth 1, or released. -/
def corner (pressed : Bool) : KeyPosition := ⟨pressed, if pressed then 1 else 0, pressed, false⟩
/-- Positions 0, 1 and 16 held, and latched, at depth 1. -/
def threeCorners : State :=
  setKey 0 (corner true) (setKey 1 (corner true) (setKey 16 (corner true)
    { up with
      ks.scanTimer := 0, settings.depth := 1
      ks.latched := [⟨0, .ordinary 1, 0⟩, ⟨1, .ordinary 2, 0⟩, ⟨16, .ordinary 17, 0⟩] }))
/-- R142: with the other three corners of a rectangle held, position 17 is withheld. -/
theorem test_phantom_is_withheld :
    (after (exec (.scan 0x30003) threeCorners)).map (fun t => (keyAt 17 t, t.ks.latched.map Latched.pos)) =
      some (⟨true, 1, true, true⟩, [0, 1, 16]) := by decide +kernel
/-- R143: when position 0 is released the withheld position 17 is resolved. -/
theorem test_phantom_is_resolved :
    (after (exec (.scan 0x30002) (setKey 17 ⟨true, 1, true, true⟩ threeCorners))).map
      (fun t => (keyAt 17 t, t.ks.latched.map Latched.pos)) = some (⟨true, 1, true, false⟩, [1, 16, 17]) := by decide +kernel
/-- R145: with the LAYER 1 key held, position 2 takes its entry of layer 1, and position 3, NONE there, its entry of layer 0. -/
theorem test_layers :
    (after (exec (.scan 0x100000000000000000000000000000C) (setKey 120 ⟨true, 1, true, false⟩
      { up with
        ks.scanTimer := 0, settings.depth := 1, ks.latched := [⟨120, .layer 1, 0⟩]
        ks.keymap := up.ks.keymap.set 130 (.ordinary 200) }))).map (fun t => t.ks.latched.drop 1) =
      some [⟨2, .ordinary 200, 1⟩, ⟨3, .ordinary 4, 0⟩] := by decide +kernel
/-- R2: in DOWN any valid group begins ALIGNING, and an invalid one is ignored. -/
theorem test_groups_in_down :
    ([.filler, .data 5, .startDelimiter, .invalid].map fun g => (after (exec (.symbolGroup g) State.reset)).map
      fun t => (t.lc.link, t.lc.alignCount)) =
      [some (.aligning, 1), some (.aligning, 1), some (.aligning, 1), some (.down, 0)] := by decide +kernel
/-- R171: a counter of the time HELD. -/
theorem test_millisecond :
    (after (exec .millisecondTick { held with
      msTimer := 0, mn.counters := #v[⟨5, .conditionTime, .link, 0, .attachmentHeld⟩, Counter.initial, Counter.initial,
        Counter.initial] })).map (fun t => (t.mn.counters[0].value, t.msTimer)) = some (6, 1000) := by decide +kernel
/-- R171: a counter of the holds adds one as the hold begins, comes to its maximum and says so. -/
theorem test_condition_edge :
    (after (exec .lossDetectorExpiry { up with
      lc.lossCount := 1000, mn.counters := #v[Counter.initial, Counter.initial,
        ⟨4294967294, .conditionEdge, .link, 0, .attachmentHeld⟩, Counter.initial] })).map
      (fun t => (t.mn.counters[2].value, (eventSlot .monitorSaturated t).detail)) = some (4294967295, 4) := by decide +kernel
/-- R133: the next period is driven with the level then held. -/
theorem test_backlight_period :
    (after (exec .backlightPeriod { up with pu.periodTimer := 0, pu.level := 3 })).map
      (fun t => (t.pu.drivenLevel, t.pu.periodTimer)) = some (3, 1500) := by decide +kernel
/-- R133: at level 3 the output is driven in the first 300 of the 1500 ticks. -/
theorem test_backlight_duty :
    ([0, 299, 300, 1499].map fun k => backlightDriven { up with pu.drivenLevel := 3, pu.periodTimer := 1500 - k }) =
      [true, true, false, false] := by decide
/-- R34, R64: the end of the first layout apply with the border 0 leaves the background of region 0 everywhere. -/
theorem test_layout_apply_end :
    (after (exec .layoutApplyEnd { quiet with
      lu.width := 20, lu.height := 12, lu.regions := defaultRegions 20 12, lu.apply := some 1
      fs.holder := some .layoutApply, pu.dirty := List.replicate 240 false
      me.inProgress := some ⟨4, 6, .resume, false⟩ })).map
      (fun t => (t.fs.image, t.sq.quiesce, t.lc.replies)) = some ([(0, 0)], .running, [⟨4, 6, .ok, []⟩]) := by decide +kernel
/-- R37: the teardown fill's end. -/
theorem test_teardown_fill_end :
    (after (exec .teardownFillEnd { up with fs.holder := some .teardownFill, lu.fillColour := some 77 })).map
      (fun t => (t.fs.image, t.fs.holder)) = some ([(0, 77)], none) := by decide +kernel
/-- One tick after reset: the timers run, the loss detector does not, nothing is due. -/
theorem test_idle_tick :
    (after (step State.reset)).map (fun t => (t.tick, t.msTimer, t.lc.lossCount, t.pending)) =
      some (1, 999, 0, []) := by decide +kernel
/-- R16: a passing frame of no known kind. -/
theorem test_bad_frame :
    (after (exec .badFrame { up with lc.failureCount := 2 })).map (fun t => t.lc.failureCount) = some 0 := by decide +kernel
/-! ### Witnesses: values that meet the hypotheses of the statements -/

theorem witness_step : ({ up with pending := [.idle] } : State).pending = .idle :: [] := by decide
theorem witness_idle_step : up.pending = [] := by decide
/-- An erased store (every byte 255) holds no image, and one with the marker and check of its contents does (section 11.10). -/
theorem witness_power_on :
    imageValid [] = false ∧
      imageValid [(0, 0x21), (1, 0x4E), (2, 0x3C), (3, 0x5A), (4, 0x69), (5, 0x03), (6, 0x97), (7, 0x65)] = true ∧
      ∃ s : State, s.me.inProgress = some ⟨1, 0x0C, .erase 3, false⟩ :=
  ⟨by decide +kernel, by decide +kernel, ⟨{ up with me.inProgress := some ⟨1, 0x0C, .erase 3, false⟩ }, rfl⟩⟩
theorem witness_groups_align :
    (State.reset.lc.link = .down ∧ scansFirst State.reset) ∧
      (∃ s : State, s.lc.link = .down ∧ scansFirst s ∧ s.ks.scans = 2) ∧ (∃ s : State, s.lc.link = .up ∧ scansFirst s) ∧
      (∃ s : State, s.lc.link = .aligning ∧ s.lc.alignCount + 1 < 64 ∧ s.lc.alignCount = 62) ∧
      (∃ s : State, s.lc.link = .aligning ∧ 64 ≤ s.lc.alignCount + 1 ∧ s.lc.alignCount = 63) :=
  ⟨by decide, ⟨{ State.reset with ks.scans := 2 }, by decide⟩, ⟨{ up with ks.scans := 2 }, by decide⟩,
    ⟨{ State.reset with lc.link := .aligning, lc.alignCount := 62 }, by decide⟩,
    ⟨{ State.reset with lc.link := .aligning, lc.alignCount := 63 }, by decide⟩⟩
theorem witness_groups_assemble :
    (up.lc.link = .up ∧ up.lc.assembly = none ∧ up.lc.failureCount + 1 < 4) ∧
      (∃ s : State, s.lc.link = .framing ∧ s.lc.assembly = some (List.replicate 163 0)) ∧
      (∃ s : State, s.lc.link = .up ∧ s.lc.assembly = some (List.replicate 164 0)) ∧
      (∃ s : State, s.lc.link = .up ∧ s.lc.assembly = some [1] ∧ framePasses [1] = false ∧ 4 ≤ s.lc.failureCount + 1) :=
  ⟨by decide, ⟨{ up with lc.link := .framing, lc.assembly := some (List.replicate 163 0) }, rfl, rfl⟩,
    ⟨{ up with lc.assembly := some (List.replicate 164 0) }, rfl, rfl⟩,
    ⟨{ up with lc.assembly := some [1], lc.failureCount := 3 }, rfl, rfl, by decide, by decide⟩⟩
theorem witness_spelled_frames :
    spelled (.hello 7) = some (buildFrame 1 [7, 0, 0, 0]) ∧ (Instr.hello 7).wf = true ∧
      ({ up with lc.assembly := some (buildFrame 1 [7, 0, 0, 0]) } : State).lc.link = .up ∧
      spelled (.draw 0 5 [4, 1, 0, 0, 0]) = some (buildFrame 3 [0, 5, 0, 4, 1, 0, 0, 0]) ∧
      (Instr.draw 0 5 [4, 1, 0, 0, 0]).wf = true ∧
      spelled (.storeErase 9 2) = some (buildFrame 5 [9, 0x0C, 2]) ∧ (Instr.storeErase 9 2).wf = true := by decide +kernel
/-- A frame of kind 7; a HELLO of 3 bytes; a MGMT frame of 1 byte; an IDLE; a request of kind 16, and of kind 0; an IDENT write
of 2 bytes. -/
theorem witness_frames_from_their_bytes :
    (framePasses (buildFrame 7 []) = true ∧ (byteAt (buildFrame 7 []) 0).toNat = 7 ∧ 0 + 4 = (buildFrame 7 []).length) ∧
      (framePasses (buildFrame 1 [1, 2, 3]) = true ∧ 3 + 4 = (buildFrame 1 [1, 2, 3]).length) ∧
      (framePasses (buildFrame 5 [1]) = true ∧ 1 + 4 = (buildFrame 5 [1]).length) ∧
      (framePasses (buildFrame 2 [1, 2]) = true ∧ (byteAt (buildFrame 2 [1, 2]) 0).toNat = 2) ∧
      (framePasses (buildFrame 5 [3, 16]) = true ∧ (byteAt (buildFrame 5 [3, 16]) 0).toNat = 5 ∧
        (byteAt (buildFrame 5 [3, 16]) 3).toNat = 16 ∧ 2 + 4 = (buildFrame 5 [3, 16]).length) ∧
      (framePasses (buildFrame 5 [3, 0]) = true ∧ (byteAt (buildFrame 5 [3, 0]) 3).toNat = 0) ∧
      (framePasses (buildFrame 5 [3, 2, 0, 0, 0, 1, 1]) = true ∧ (byteAt (buildFrame 5 [3, 2, 0, 0, 0, 1, 1]) 3).toNat = 2 ∧
        tableOfCode (byteAt (buildFrame 5 [3, 2, 0, 0, 0, 1, 1]) 4) = some .ident ∧ 5 ≠ 3 + Table.ident.size) := by
  decide +kernel
theorem witness_loss_expiry :
    (∃ s : State, s.lc.link = .framing ∧ s.settings.lossLimit * 16 ≤ s.lc.lossCount ∧ s.lc.tx = none) ∧
      (∃ s : State, s.lc.link = .up ∧ s.settings.lossLimit * 16 ≤ s.lc.lossCount ∧ s.lc.tx = none ∧ s.lc.attachment ≠ .attached) ∧
      (∃ s : State, s.lc.link = .up ∧ s.settings.lossLimit * 16 ≤ s.lc.lossCount ∧ s.lc.tx = none ∧ s.lc.attachment = .attached) ∧
      up.lc.lossCount < up.settings.lossLimit * 16 :=
  ⟨⟨{ up with lc.link := .framing, lc.lossCount := 64 }, by decide⟩, ⟨{ held with lc.lossCount := 64 }, by decide⟩,
    ⟨{ up with lc.lossCount := 64 }, by decide⟩, by decide⟩
theorem witness_failing_frames :
    (up.lc.link = .up ∧ up.lc.failureCount + 1 < 4) ∧
      (∃ s : State, s.lc.link = .up ∧ 4 ≤ s.lc.failureCount + 1 ∧ s.lc.tx = none ∧ s.lc.attachment = .attached) ∧
      (∃ s : State, s.lc.link = .up ∧ 4 ≤ s.lc.failureCount + 1 ∧ s.lc.tx = none ∧ s.lc.attachment ≠ .attached) ∧
      (∃ s : State, s.lc.link = .framing) ∧ State.reset.lc.link = .down :=
  ⟨by decide, ⟨{ up with lc.failureCount := 3 }, by decide⟩, ⟨{ held with lc.failureCount := 3 }, by decide⟩,
    ⟨{ up with lc.link := .framing }, rfl⟩, rfl⟩
theorem witness_departures_cut :
    (∃ s : State, s.lc.link = .up ∧ s.lc.tx = some ⟨.greet, [1, 2]⟩ ∧ s.settings.lossLimit * 16 ≤ s.lc.lossCount) ∧
      (∃ s : State, s.lc.link = .up ∧ s.lc.tx = some ⟨.greet, [1, 2]⟩ ∧ 4 ≤ s.lc.failureCount + 1 ∧ s.lc.attachment = .attached) ∧
      (∃ s : State, s.lc.link = .up ∧ s.lc.tx = some ⟨.greet, [1, 2]⟩ ∧ 4 ≤ s.lc.failureCount + 1 ∧ s.lc.attachment ≠ .attached) :=
  ⟨⟨{ up with lc.tx := some ⟨.greet, [1, 2]⟩, lc.lossCount := 64 }, by decide⟩,
    ⟨{ up with lc.tx := some ⟨.greet, [1, 2]⟩, lc.failureCount := 3 }, by decide⟩,
    ⟨{ held with lc.tx := some ⟨.greet, [1, 2]⟩, lc.failureCount := 3 }, by decide⟩⟩
theorem witness_passing_frames :
    isFrame .idle = true ∧ isFrame .badFrame = true ∧ isFrame (.badRequest 0 0) = true ∧
      (∃ s : State, s.lc.link = .framing ∧ s.lc.framingCount + 1 < 4 ∧ s.lc.framingCount = 2) ∧
      (∃ s : State, s.lc.link = .framing ∧ 4 ≤ s.lc.framingCount + 1 ∧ s.lc.framingCount = 3) ∧ State.reset.lc.link = .down :=
  ⟨by decide, by decide, by decide, ⟨{ up with lc.link := .framing, lc.framingCount := 2 }, by decide⟩,
    ⟨{ up with lc.link := .framing, lc.framingCount := 3 }, by decide⟩, rfl⟩
theorem witness_frames_without_effect :
    up.lc.link = .up ∧ (Instr.draw 0 0 []).wf = false ∧ held.lc.link = .up ∧ held.lc.attachment ≠ .attached ∧
      (Instr.quiesce 0).wf = true ∧ (requestOf (.quiesce 0)).isSome = true := by decide
theorem witness_requests_not_taken :
    requestOf (.resume 3) = some (3, 6) ∧ (Instr.resume 3).wf = true ∧
      (∃ s : State, s.lc.link = .up ∧ s.lc.attachment = .attached ∧
        4 ≤ s.lc.replies.length + (if s.me.inProgress.isSome then 1 else 0)) ∧
      (∃ s : State, s.lc.link = .up ∧ s.lc.attachment = .attached ∧ s.me.inProgress.isSome = true ∧
        s.lc.replies.length + 1 < 4) :=
  ⟨by decide, by decide, ⟨{ up with lc.replies := List.replicate 4 ⟨0, 0, .ok, []⟩ }, by decide +kernel⟩,
    ⟨{ up with me.inProgress := some ⟨1, 5, .quiesce, false⟩, lc.replies := List.replicate 2 ⟨0, 0, .ok, []⟩ }, by decide +kernel⟩⟩
theorem witness_hello :
    (∃ s : State, s.lc.link = .up ∧ s.lc.attachment = .unattached) ∧
      (up.lc.link = .up ∧ up.lc.attachment = .attached ∧ up.lc.attachNumber = 7) :=
  ⟨⟨{ State.reset with lc.link := .up }, by decide⟩, by decide⟩
theorem witness_reattach : held.lc.link = .up ∧ held.lc.attachment = .held ∧ held.lc.tx = none := by decide
theorem witness_teardown :
    (∃ s : State, s.lc.holdTimer = some 0) ∧ held.lc.attachment ≠ .unattached ∧ held.lc.attachNumber ≠ 9 ∧
      up.lc.holdTimer ≠ some 0 ∧
      (∃ s : State, s.lc.holdTimer = some 0 ∧ s.fs.holder = some (.engine .a)) ∧
      (∃ s : State, s.lc.holdTimer = some 0 ∧ (s.fs.holder.any Writer.isLayout) = true ∧ s.lu.fillColour = some 5) ∧
      (∃ s : State, s.lc.link = .up ∧ s.lc.attachment = .attached ∧ s.lc.attachNumber ≠ 9 ∧ s.lc.tx = some ⟨.reply, [9]⟩ ∧
        s.me.inProgress = some ⟨1, 12, .erase 3, false⟩) :=
  ⟨⟨{ held with lc.holdTimer := some 0 }, rfl⟩, by decide, by decide, by decide,
    ⟨{ held with lc.holdTimer := some 0, fs.holder := some (.engine .a) }, by decide⟩,
    ⟨{ held with lc.holdTimer := some 0, fs.holder := some .teardownFill, lu.fillColour := some 5 }, by decide⟩,
    ⟨{ up with lc.tx := some ⟨.reply, [9]⟩, me.inProgress := some ⟨1, 12, .erase 3, false⟩ }, by decide⟩⟩
/-- A pixel that a fill has written by the moment of a teardown: the moment is the one at which it is written. -/
theorem witness_written_by_a_fill :
    ∃ s : State, s.lc.holdTimer = some 0 ∧ s.fs.holder.any Writer.isLayout = true ∧ 5 < panelPixels s ∧ isWritten s 5 = true :=
  ⟨{ held with
      lc.holdTimer := some 0, fs.holder := some .teardownFill, lu.fillColour := some 5, free := Config.writtenFrom 0 5 },
    rfl, rfl, by decide, decide_eq_true (Nat.le_refl _)⟩
theorem witness_transmission_complete :
    up.lc.tx = none ∧ ∀ item : TxItem, ∃ s : State, s.lc.tx = some ⟨item, [1]⟩ ∧
      s.mn = up.mn ∧ ∀ n : Fin 4, up.mn.counters[n].selects .eventSent = false :=
  ⟨by decide, fun item => ⟨{ up with lc.tx := some ⟨item, [1]⟩ }, rfl, rfl, by decide⟩⟩
/-- A reply that waits is taken up by the arbiter when the lane is free; a report when a GREET has left; the GREET of a HELLO that
tears a session down; the reply to a DOCK_RESET that cuts another. -/
theorem witness_arbiter :
    (((after (exec (.badRequest 3 0x77) up)).map fun t => t.lc.tx.map Transmission.item) = some (some .reply) ∧
      up.lc.tx = none) ∧
      ((after (exec .transmissionComplete
        { up with lc.tx := some ⟨.greet, [9]⟩, lc.greet := some .resumed, lc.keys := [Report.empty] })).map
          fun t => t.lc.tx.map Transmission.item) = some (some .keys) ∧
      (((after (exec (.hello 9) { up with lc.tx := some ⟨.keys, [9]⟩ })).map fun t => t.lc.tx.map Transmission.item) =
        some (some .greet) ∧ up.lc.attachment ≠ .unattached ∧ (9 : Word) ≠ up.lc.attachNumber) ∧
      (((after (exec (.dockReset 8) { up with lc.tx := some ⟨.reply, [9]⟩ })).map fun t => t.lc.tx.map Transmission.item) =
        some (some .reply) ∧ takesRequest { up with lc.tx := some ⟨.reply, [9]⟩ }) := by decide +kernel

/-- A DRAW that scrolls by one column. -/
def scroll1 : List Byte := [4, 1, 0, 0, 0]

theorem witness_draw_out_of_place :
    (up.lc.link = .up ∧ up.lc.attachment = .attached ∧ parseDraw scroll1 = some [.scroll 1 0] ∧ parseDraw [9] = none) ∧
      isOpen 1 opened = false ∧
      (isOpen 0 opened = true ∧ (streamOf 0 opened).side.isSome = true ∧ opened.sq.quiesce = .running ∧
        (streamOf 0 opened).rewind = none ∧ ((6 : Half) - (streamOf 0 opened).expected).toNat = 1 ∧
        ((32772 : Half) - (streamOf 0 opened).expected).toNat = 32767 ∧
        ((32773 : Half) - (streamOf 0 opened).expected).toNat = 32768 ∧
        ((4 : Half) - (streamOf 0 opened).expected).toNat = 65535) ∧
      (∃ s : State, isOpen 0 s = true ∧ (streamOf 0 s).side.isSome = true ∧ s.sq.quiesce ≠ .running) ∧
      (∃ s : State, isOpen 0 s = true ∧ (streamOf 0 s).rewind ≠ none) :=
  ⟨by decide, by decide, by decide, ⟨{ opened with sq.quiesce := .quiescing }, by decide⟩,
    ⟨setStream 0 ⟨.ready, some .a, 5, some .gap, false, none⟩ up, by decide⟩⟩
/-- A side queue of 23 entries takes a frame of one command. -/
def nearlyFull : State := { busy with sq.queueA := List.replicate 23 ⟨1, 4, 0, .scroll 1 0, false⟩ }
theorem witness_draw_in_order :
    (parseDraw scroll1 = some [.scroll 1 0] ∧ isOpen 0 nearlyFull = true ∧ (streamOf 0 nearlyFull).side = some .a ∧
      nearlyFull.sq.quiesce = .running ∧ (5 : Half) = (streamOf 0 nearlyFull).expected ∧
      (queueOf .a nearlyFull).length + [DrawCommand.scroll 1 0].length ≤ 24 ∧ enginesBusy nearlyFull ∧
      nearlyFull.lc.link = .up ∧ nearlyFull.lc.attachment = .attached) ∧
      settled (setStream 0 { streamOf 0 nearlyFull with expected := 6, renewed := false }
        (setQueue .a (queueOf .a nearlyFull ++ [⟨0, 5, 0, .scroll 1 0, false⟩]) (passed nearlyFull))) :=
  ⟨by decide, settled_of_enginesBusy (by decide)⟩
/-- A full side queue in which stream 1 waits with entries of two frames. -/
def full : State :=
  setStream 1 ⟨.waitTile, some .a, 9, none, false, none⟩
    { busy with sq.queueA := ⟨1, 4, 0, .place 1 0 0 none, false⟩ :: List.replicate 23 ⟨1, 5, 0, .scroll 1 0, false⟩ }
theorem witness_shed :
    (isOpen 0 full = true ∧ (streamOf 0 full).side = some .a ∧ full.sq.quiesce = .running ∧
      (5 : Half) = (streamOf 0 full).expected ∧ 24 < (queueOf .a full).length + [DrawCommand.scroll 1 0].length ∧
      (∀ j : Fin 8, shedCandidate .a full j = decide (j = 1)) ∧ (streamOf 1 full).side = some .a ∧
      (streamOf 1 full).state = .waitTile ∧
      full.settings.shedThreshold < ((queueOf .a full).filter fun e => e.stream == 1).length ∧
      ((queueOf .a full).find? fun e => e.stream == 1) = some ⟨1, 4, 0, .place 1 0 0 none, false⟩ ∧
      (∃ e ∈ queueOf .a full, e.stream = 1 ∧ e.seq ≠ 4) ∧
      (queueOf .a full).filter (fun e => e.stream != 1 || e.seq == 4) = [⟨1, 4, 0, .place 1 0 0 none, false⟩] ∧
      ∀ j : Fin 8, j ≠ 1 → (streamOf j full).state.waits = false) ∧
      nothingToHand (setQueue .a ([⟨1, 4, 0, .place 1 0 0 none, false⟩] ++ [⟨0, 5, 0, .scroll 1 0, false⟩]) full) ∧
      (∃ s : State, isOpen 0 s = true ∧ 24 < (queueOf .a s).length + 1 ∧ ∀ j : Fin 8, shedCandidate .a s j = false) :=
  ⟨by decide +kernel, (settled_of_enginesBusy (by decide)).1,
    ⟨{ busy with sq.queueA := List.replicate 24 ⟨1, 4, 0, .scroll 1 0, false⟩ }, by decide +kernel⟩⟩
/-- A DRAW that fills one pixel at (x, 0), x below 256. -/
def fillAt (x : Byte) : List Byte := [3, 31, 0, x, 0, 0, 0, 0, 0, 0, 0]
theorem witness_fill_handed_over :
    (parseDraw (fillAt 0) = some [.fill 31 0 0 1 1] ∧ (streamOf 0 opened).state = .ready ∧
      (streamOf 0 opened).side = some .a ∧ (streamOf 0 opened).rewind = none ∧ opened.sq.quiesce = .running ∧
      opened.sq.queueA = [] ∧ opened.sq.queueB = [] ∧ engineOf .a opened = none ∧ opened.fs.holder = none ∧
      opened.fs.waiting = [] ∧ max (0 : Int) 0 ≤ min (0 + (1 : Nat) - 1) ((regionOf 0 opened).rw.toNat - 1)) ∧
      parseDraw [3, 31, 0, 0, 8, 0, 0, 0, 0, 0, 0] = some [.fill 31 (-2048) 0 1 1] ∧
      min ((-2048 : Int) + (1 : Nat) - 1) ((regionOf 0 opened).rw.toNat - 1) < max (-2048) 0 := by decide +kernel
/-- Streams 1 and 2 wait on side A for key 69, of which the sectors of a mask are needed; engine A is FREE. -/
def behind (needed : BitVec 4) : State :=
  setStream 1 ⟨.waitTile, some .a, 9, none, false, none⟩ (setStream 2 ⟨.waitSlot, some .a, 9, none, false, none⟩
    { opened with
      sq.queueA := [⟨1, 8, 0, .place 69 0 0 none, false⟩, ⟨2, 8, 0, .place 70 0 0 none, false⟩]
      tc.dir := opened.tc.dir.set 5 (opened.tc.dir[5].set 0 ⟨true, 69, 0, 0, false, true, 0⟩)
      tf.recA := ⟨true, 69, needed, 2, 0, some 9, false, false⟩ })
theorem behind_has_nothing_to_hand (needed : BitVec 4) : nothingToHand (behind needed) := by
  intro side _ e h
  cases side
  · rcases List.mem_cons.1 h with rfl | h
    · show StreamState.waitTile ≠ .ready
      decide
    · rcases List.mem_cons.1 h with rfl | h
      · show StreamState.waitSlot ≠ .ready
        decide
      · exact absurd h List.not_mem_nil
  · exact absurd h List.not_mem_nil
theorem witness_commands_handed_over :
    nothingToHand (behind 4) ∧
      ((queueOf .a (behind 4)).length < 24 ∧ engineOf .a (behind 4) = none ∧ (streamOf 0 (behind 4)).state = .ready ∧
        (streamOf 0 (behind 4)).side = some .a ∧ (streamOf 0 (behind 4)).rewind = none ∧
        (streamOf 0 (behind 4)).reservation = none ∧ (behind 4).sq.quiesce = .running ∧ (behind 4).lc.link = .up ∧
        (behind 4).fs.holder = none ∧ (behind 4).fs.waiting = []) ∧
      (parseDraw [4, 0, 0, 0, 0] = some [.scroll 0 0] ∧ parseDraw [4, 0, 0, 1, 0] = some [.scroll 0 1] ∧
        parseDraw [1, 0, 0, 0, 0, 0, 0, 0, 0] = some [.place 0 0 0 none] ∧
        parseDraw [1, 5, 0, 0, 0, 0xF0, 0x0F, 0, 0] = some [.place 5 (-16) 0 none] ∧
        min ((-16 : Int) + 15) ((regionOf 0 (behind 4)).rw.toNat - 1) < max (-16) 0) :=
  ⟨behind_has_nothing_to_hand 4, by decide +kernel, by decide +kernel⟩
/-- Key 69 whole in way 0 of set 5. -/
def tiled : State :=
  { opened with tc.dir := opened.tc.dir.set 5 (opened.tc.dir[5].set 0 ⟨true, 69, 15, 0, false, false, 0⟩) }
theorem witness_place_looked_up :
    (parseDraw [1, 69, 0, 0, 0, 0, 0, 0, 0] = some [.place 69 0 0 none] ∧ (streamOf 0 tiled).state = .ready ∧
      (streamOf 0 tiled).side = some .a ∧ (streamOf 0 tiled).reservation = none ∧ engineOf .a tiled = none ∧
      tiled.tc.dir[5][0].valid = true ∧ tiled.tc.dir[5][0].key = 69 ∧ tiled.tc.dir[5][0].sectors = 15 ∧
      (0 : Int) = (max 0 0 - 0) / 4 ∧ (3 : Int) = (min (0 + 15) ((regionOf 0 tiled).rw.toNat - 1) - 0) / 4) ∧
      (parseDraw [1, 5, 0, 0, 0, 0, 0, 0, 0] = some [.place 5 0 0 none] ∧
        (∀ w : Fin 4, tiled.tc.dir[5][w].valid = true → tiled.tc.dir[5][w].key ≠ 5) ∧ tiled.tf.recA.active = false ∧
        tiled.tf.recB.active = false ∧ tiled.tc.dir[5][1].valid = false) := by decide +kernel
/-- A set of four whole tiles, keys 5, 69, 133 and 197, of ages 0 to 3. -/
def fullSet (pinned : Bool) : TileSet :=
  Vector.ofFn fun w : Fin 4 => ⟨true, BitVec.ofNat 32 (5 + 64 * w.val), 15, w.val, pinned && w != 3, false, if pinned then 1 else 0⟩
/-- Stream 0 READY, and set 5 full: of pinned and reserved entries, or of free ones. -/
def withFullSet (pinned : Bool) : State := { opened with tc.dir := opened.tc.dir.set 5 (fullSet pinned) }
/-- The PLACE of key 69 at (0, 0) joins the fault on it, which has all its sectors or lacks some; the one of key 261 waits for the
record, or for a way, or takes the oldest way; with one sector there the fault is raised on the entry. -/
theorem witness_misses :
    (foundAt 69 5 0 (behind 4) ∧ (15 : BitVec 4) &&& ~~~ (behind 4).tc.dir[5][0].sectors ≠ 0 ∧
        faultOn 69 (behind 4) = some .a ∧ (15 : BitVec 4) &&& ~~~ (recordOf .a (behind 4)).needed ≠ 0 ∧
        (15 : BitVec 4) &&& ~~~ (recordOf .a (behind 15)).needed = 0) ∧
      (∀ k : Nat, k < 4 → (15 : BitVec 4).getLsbD k = decide (0 ≤ k ∧ k ≤ 3)) ∧
      ((∀ w : Fin 4, (behind 4).tc.dir[5][w].valid = true → (behind 4).tc.dir[5][w].key ≠ 261) ∧
        faultOn 261 (behind 4) = none ∧ (recordOf .a (behind 4)).active = true ∧ (5 : Fin 64).val = (261 : Word).toNat % 64) ∧
      (nothingToHand (withFullSet true) ∧ (recordOf .a (withFullSet true)).active = false ∧
        ∀ w : Fin 4, (withFullSet true).tc.dir[5][w].valid = true ∧ (withFullSet true).tc.dir[5][w].reserve ≠ 0 ∧
          (withFullSet true).tc.dir[5][w].key ≠ 261) ∧
      ((withFullSet false).tc.dir[5][3].candidate = true ∧
        ∀ v : Fin 4, v ≠ 3 → (withFullSet false).tc.dir[5][v].age < (withFullSet false).tc.dir[5][3].age) ∧
      (∃ s : State, nothingToHand s ∧ foundAt 69 5 0 s ∧ (15 : BitVec 4) &&& ~~~ s.tc.dir[5][0].sectors ≠ 0 ∧
        faultOn 69 s = none ∧ (recordOf .a s).active = false) :=
  ⟨by decide +kernel, by decide, by decide +kernel, ⟨nothingToHand_of_empty rfl rfl, by decide, by decide +kernel⟩,
    by decide +kernel,
    ⟨{ opened with tc.dir := opened.tc.dir.set 5 (opened.tc.dir[5].set 0 ⟨true, 69, 1, 0, false, false, 0⟩) },
      nothingToHand_of_empty rfl rfl, by decide +kernel⟩⟩
/-- Behind the FILL under execution on side A stands a PLACE of key 69, for whose tile stream 0 holds the one reservation. -/
def reserving : State :=
  setStream 0 ⟨.ready, some .a, 6, none, false, some 69⟩
    { busy with
      sq.queueA := [⟨0, 4, 0, .fill 31 0 0 16 16, true⟩, ⟨0, 5, 0, .place 69 0 0 none, false⟩]
      tc.dir := busy.tc.dir.set 5 (busy.tc.dir[5].set 0 ⟨true, 69, 15, 0, false, false, 1⟩) }
theorem witness_reservation_released :
    engineOf .a reserving = some aRecord ∧ reserving.fs.holder = some (.engine .a) ∧ aRecord.removed = false ∧
      queueOf .a reserving = [⟨0, 4, 0, .fill 31 0 0 16 16, true⟩, ⟨0, 5, 0, .place 69 0 0 none, false⟩] ∧
      (streamOf 0 reserving).state = .ready ∧ (streamOf 0 reserving).reservation = some 69 ∧
      (engineOf .b reserving).isSome = true ∧ foundAt 69 5 0 reserving ∧ reserving.tc.dir[5][0].sectors = 15 ∧
      max (0 : Int) 0 ≤ min (0 + 15) ((regionOf 0 reserving).rw.toNat - 1) := by decide +kernel
/-- Engine A draws an entry that stands between those of two streams that wait; engine B is FREE. -/
def between : State :=
  { behind 4 with
    de.engineA := some aRecord, fs.holder := some (.engine .a)
    sq.queueA := [⟨1, 8, 0, .place 69 0 0 none, false⟩] ++ ⟨0, 4, 0, .fill 31 0 0 16 16, true⟩ ::
      [⟨2, 8, 0, .place 70 0 0 none, false⟩] }
theorem witness_execution_end :
    (engineOf .a between = some aRecord ∧ between.fs.holder = some (.engine .a) ∧ aRecord.removed = false ∧
      engineOf .b between = none ∧ between.pu.inFlight.isSome = true ∧ between.fs.waiting = [] ∧ engineOf .a up = none) ∧
      ∃ u : State, u = { setEngine .a none (setQueue .a
          [⟨1, 8, 0, .place 69 0 0 none, false⟩, ⟨2, 8, 0, .place 70 0 0 none, false⟩] between) with
        fs.image := writeCommand (panelW between) (panelPixels between) aRecord between.fs.image, fs.holder := none
        fs.waiting := [], pu.dirty := between.pu.dirty.mapIdx fun b d => d || commandBlocks between aRecord b } ∧ settled u ∧
        ∀ k : Nat, k < 2 → commandBlocks between aRecord k = decide (k % between.lu.width = 0 ∧ k / between.lu.width = 0) :=
  ⟨by decide, _, rfl, (settled_iff _).2 (by decide), by decide⟩
/-- Engine A draws; behind its entry stand one of a stream that waits and those of two READY streams, 0 and 3. -/
def choosing : State :=
  setStream 3 ⟨.ready, some .a, 9, none, false, none⟩ <| setRegion 3 ⟨true, 0, 0, 64, 64, 0, false, false⟩ { between with
    sq.queueA := [⟨1, 8, 0, .place 69 0 0 none, false⟩, ⟨0, 4, 0, .fill 31 0 0 16 16, true⟩, ⟨3, 8, 0, .fill 7 0 0 9 9, false⟩,
      ⟨0, 4, 1, .scroll 1 0, false⟩] }
theorem witness_execution_end_chooses :
    (engineOf .a choosing = some aRecord ∧ choosing.fs.holder = some (.engine .a) ∧
      (streamOf 1 choosing).state ≠ .ready ∧ (streamOf 3 choosing).state = .ready ∧ (streamOf 0 choosing).state = .ready ∧
      queueOf .b choosing = []) ∧
      (queueOf .a choosing = [⟨1, 8, 0, .place 69 0 0 none, false⟩] ++ ⟨0, 4, 0, .fill 31 0 0 16 16, true⟩ ::
        [⟨3, 8, 0, .fill 7 0 0 9 9, false⟩, ⟨0, 4, 1, .scroll 1 0, false⟩]) ∧
      (max (0 : Int) 0 ≤ min ((0 : Int) + (9 : Nat) - 1) ((regionOf 3 choosing).rw.toNat - 1) ∧
        max (0 : Int) 0 ≤ min ((0 : Int) + (9 : Nat) - 1) ((regionOf 3 choosing).rh.toNat - 1)) ∧
      (foundAt 69 5 0 reserving ∧ reserving.tc.dir[5][0].sectors = 15) := by decide +kernel
/-- R47: of two READY streams' entries the older one is handed to the engine, and that of a waiting stream keeps its place. -/
theorem test_oldest_ready_entry :
    (after (exec (.executionEnd .a) choosing)).map (fun t =>
      ((engineOf .a t).map ExecRecord.stream, t.sq.queueA.map fun e => (e.stream, e.pos, e.executing))) =
      some (some 3, [(1, 0, false), (3, 0, true), (0, 1, false)]) := by decide +kernel
/-- An entry removed by a close; a teardown fill that waits; and, on a small panel, no block in flight. -/
theorem witness_execution_end_of_a_removed_entry :
    (∃ s : State, ∃ r : ExecRecord, engineOf .a s = some r ∧ s.fs.holder = some (.engine .a) ∧ r.removed = true ∧
      settled (setEngine .a none s) ∧ s.fs.waiting.head? = some .teardownFill ∧ s.pu.inFlight.isSome = true) ∧
      (∃ s : State, engineOf .a s = some aRecord ∧ s.fs.holder = some (.engine .a) ∧ s.pu.inFlight = none ∧
        s.pu.halted = false ∧ settled (setEngine .a none (setQueue .a [] s)) ∧
        isNext (blockCount s) s.pu.scan
          (fun k => (s.pu.dirty.mapIdx fun b d => d || commandBlocks s aRecord b).getD k false) 0) :=
  ⟨⟨{ busy with
      de := ⟨some { aRecord with removed := true }, none⟩, sq.queueA := [], fs.waiting := [.teardownFill] },
    { aRecord with removed := true }, rfl, rfl, rfl, (settled_iff _).2 (by decide), rfl, by decide⟩,
   ⟨{ busy with pu.inFlight := none, pu.scan := 0, pu.dirty := [false, false] }, rfl, rfl, rfl, rfl,
    (settled_iff _).2 (by decide), by decide, by decide, .inl ⟨Nat.le_refl 0, fun _ _ h => absurd h (Nat.not_lt_zero _)⟩⟩⟩
/-- The record of a command in a region that is the whole of the smallest panel. -/
def wholePanel (command : DrawCommand) : ExecRecord := { aRecord with command := command, rw := 320, rh := 192 }
/-- The smallest panel there is, 20 by 12 blocks, none of them dirty or in flight, and engine A drawing. -/
def onPanel (command : DrawCommand) : State :=
  { busy with
    lu.width := 20, lu.height := 12, pu.dirty := List.replicate 240 false, pu.scan := 0, pu.inFlight := none
    de.engineA := some (wholePanel command) }
theorem witness_pixels :
    ∀ command ∈ [DrawCommand.fill 31 0 0 16 16, .place 69 0 0 (some 1), .scroll 1 0],
      panelShape (onPanel command) ∧ recordFits (onPanel command) (wholePanel command) ∧
        imageWf (panelPixels (onPanel command)) (onPanel command).fs.image ∧
        engineOf .a (onPanel command) = some (wholePanel command) ∧ (onPanel command).fs.holder = some (.engine .a) ∧
        (wholePanel command).command = command := by decide +kernel

/-- The directory with the full set as set 5. -/
def withSet (pinned : Bool) : State := { up with tc.dir := up.tc.dir.set 5 (fullSet pinned) }
theorem witness_tile_absent :
    (List.replicate 128 (0 : Byte)).length = 128 ∧ (5 : Fin 64).val = (261 : Word).toNat % 64 ∧
      (63 : Fin 64).val < up.tc.sweep ∧ (∃ s : State, s.tc.sweep ≤ (5 : Fin 64).val ∧ s.lc.link = .up) ∧
      (∀ w : Fin 4, (withSet true).tc.dir[5][w].valid = true ∧ (withSet true).tc.dir[5][w].reserve ≠ 0 ∧
        (withSet true).tc.dir[5][w].key ≠ 261) ∧
      ((withSet false).tc.dir[5][3].candidate = true ∧ (∀ v : Fin 4, (withSet false).tc.dir[5][v].valid = true) ∧
        ∀ v : Fin 4, v ≠ 3 → (withSet false).tc.dir[5][v].age < (withSet false).tc.dir[5][3].age) ∧
      up.tc.dir[5][0].valid = false :=
  ⟨by decide +kernel, by decide, by decide, ⟨{ up with tc.sweep := 5 }, by decide⟩, by decide +kernel, by decide +kernel,
    by decide +kernel⟩
/-- Key 69 pending in way 0 of set 5, needing sector 2, with stream 0 waiting for it. -/
def faulted : State :=
  { setStream 0 ⟨.waitTile, some .a, 5, none, false, none⟩ busy with
    tc.dir := busy.tc.dir.set 5 (busy.tc.dir[5].set 0 ⟨true, 69, 0, 0, false, true, 0⟩)
    tf.recA := ⟨true, 69, 4, 1, 3, some 0, false, false⟩ }
/-- The state that the completion of that fault comes to, by the rules, with both engines busy. -/
theorem witness_tile_present :
    (faulted.lc.link = .up ∧ faulted.lc.attachment = .attached ∧ (5 : Fin 64).val < faulted.tc.sweep ∧
      faulted.tc.dir[5][0].valid = true ∧ faulted.tc.dir[5][0].key = 69 ∧
      faulted.tc.dir[5][0].pending = true ∧ faultOn 69 faulted = some .a) ∧
      ((recordOf .a faulted).needed &&& ~~~ (faulted.tc.dir[5][0].sectors ||| BitVec.ofNat 4 (2 ^ 3)) ≠ 0) ∧
      ((recordOf .a faulted).needed &&& ~~~ (faulted.tc.dir[5][0].sectors ||| BitVec.ofNat 4 (2 ^ 2)) = 0) ∧
      (∃ u : State, u = { setRecord .a FaultRecord.idle (passed faulted) with
        tc.store := cellWrite 0 faulted.tc.store ((5 * 4 + 0) * 512 + 2 * 128) (List.replicate 128 1)
        tc.dir := faulted.tc.dir.set 5 (faulted.tc.dir[5].set 0 ⟨true, 69, 4, 0, false, false, 1⟩)
        sq.streams := Vector.ofFn fun i : Fin 8 =>
          if (recordOf .a faulted).waiting.getLsbD i.val = true then
            { streamOf i faulted with state := .ready, reservation := some 69 }
          else wokenByIdle .a (streamOf i faulted)
        mn.tracker := afterCompletion .a faulted.tick faulted.mn.tracker } ∧ settled u) ∧
      tiled.tc.dir[5][0].pending = false ∧ settled tiled :=
  ⟨by decide +kernel, by decide +kernel, by decide +kernel, ⟨_, rfl, settled_of_enginesBusy ⟨rfl, rfl⟩⟩, by decide +kernel,
    nothingToHand_of_empty rfl rfl, fun h => absurd h (by decide)⟩
/-- At the retry limit engine A is FREE: the stream that waits loses its one entry, and nothing is left to hand over. -/
def hopeless : State :=
  { faulted with de := ⟨none, none⟩, fs.holder := none, fs.waiting := [], sq.queueA := [⟨0, 4, 0, .place 69 0 0 none, false⟩] }
theorem witness_fault_timer :
    (hopeless.lc.attachment = .attached ∧ (recordOf .a hopeless).active = true ∧ (recordOf .a hopeless).timer = some 0 ∧
      hopeless.settings.retryLimit ≤ (recordOf .a hopeless).tries ∧
      (∀ i : Fin 8, (recordOf .a hopeless).waiting.getLsbD i.val = true → (streamOf i hopeless).side.isSome = true)) ∧
      (∃ u : State, u = { setRecord .a FaultRecord.idle hopeless with
        sq.queueA := withoutHeads (fun i => (recordOf .a hopeless).waiting.getLsbD i.val && (streamOf i hopeless).side == some .a)
          hopeless.sq.queueA
        sq.streams := Vector.ofFn fun i : Fin 8 =>
          if (recordOf .a hopeless).waiting.getLsbD i.val = true then { streamOf i hopeless with state := .ready }
          else wokenByIdle .a (streamOf i hopeless)
        tc.dir := hopeless.tc.dir.set 5 (hopeless.tc.dir[5].set 0 (noLongerPending hopeless.tc.dir[5][0]))
        mn.tracker := afterLoss .a hopeless.mn.tracker } ∧ settled u) ∧ foundAt 69 5 0 hopeless ∧
      (recordOf .b faulted).active = false ∧ held.lc.attachment ≠ .attached ∧
      (∃ s : State, s.lc.attachment = .attached ∧ (recordOf .a s).active = true ∧ (recordOf .a s).timer = some 0 ∧
        (recordOf .a s).tries < s.settings.retryLimit) :=
  ⟨by decide +kernel, ⟨_, rfl, (settled_iff _).2 (by decide +kernel)⟩, by decide +kernel, by decide, by decide,
    ⟨{ up with tf.recA := ⟨true, 69, 4, 1, 2, some 0, false, false⟩ }, by decide⟩⟩
/-- R162, R163: a stale marking during the kind's own EVENT transmission sets the renewed mark and joins the renewal mask. -/
theorem test_raise_joins_the_renewal_mask :
    (after (exec (.faultTimerExpiry .a)
      (setEventSlot .regionStale ⟨true, 6, false, 4⟩ { hopeless with lc.tx := some ⟨.event .regionStale, []⟩ }))).map
      (eventSlot .regionStale) = some ⟨true, 7, true, 5⟩ := by decide +kernel
/-- R163, R171: the change of level raises BACKLIGHT, and a counter that selects EVENT_RAISED counts that and the
MONITOR_SATURATED that another counter's coming to the maximum raises. -/
theorem test_event_raised_is_counted :
    (after (exec (.panelWrite 1 80 50 3) { up with
      mn.counters := #v[⟨0, .occurrence, .link, 0x4000, .anyStreamWaiting⟩, Counter.initial, Counter.initial,
        ⟨4294967294, .occurrence, .panel, 0x200, .anyStreamWaiting⟩] })).map (fun t =>
      (t.mn.counters[0].value, t.mn.counters[3].value, (eventSlot .monitorSaturated t).detail)) =
      some (2, 4294967295, 8) := by decide +kernel
/-- Also the witness of every statement about a request that asks for no more than takesRequest: BAD_REQUEST, TABLE_READ,
TABLE_WRITE, the STREAM, KEYMAP and SETTINGS writes, the store requests, MONITOR_SET. Three replies may wait. -/
theorem witness_takes_request :
    takesRequest up ∧ takesRequest opened ∧ takesRequest quiet ∧
      takesRequest { up with lc.replies := List.replicate 3 ⟨0, 0, .ok, []⟩ } := by decide
theorem witness_tables :
    tableOfCode 0 = some .ident ∧ tableOfCode 9 = some .monitor ∧ tableOfCode 2 = some .stream ∧
      (0 : Half).toNat < Table.ident.entries ∧ (383 : Half).toNat < Table.keymap.entries ∧
      Table.keymap.entries ≤ (384 : Half).toNat ∧ 10 ≤ (10 : Byte).toNat := by decide
theorem witness_layout_writes :
    takesRequest quiet ∧ quiet.sq.quiesce = .quiesced ∧ takesRequest up ∧ up.sq.quiesce ≠ .quiesced ∧
      (16 ≤ (16 : Half).toNat ∧ (1264 : Half).toNat + (16 : Half).toNat ≤ 16 * quiet.lu.width) ∧
      ¬ ((1265 : Half).toNat + (16 : Half).toNat ≤ 16 * quiet.lu.width) ∧ isOpen 1 quiet = false ∧
      (∀ j : Fin 8, j ≠ 0 → (regionOf j quiet).enabled = false) ∧
      (∃ s : State, takesRequest s ∧ s.sq.quiesce = .quiesced ∧ isOpen 0 s = true) :=
  ⟨by decide, by decide, by decide, by decide, by decide, by decide, by decide, by decide +kernel,
    ⟨{ opened with sq.quiesce := .quiesced }, by decide⟩⟩
/-- Header, region 3 (disabled), the stale flag of region 0, key position 5, the settings, the panel. -/
theorem witness_table_writes :
    (takesRequest quiet ∧ quiet.sq.quiesce = .quiesced ∧ (List.replicate 11 (0 : Byte)).length = 11) ∧
      ((byteAt (List.replicate 11 0) 0).getLsbD 0 = false ∧ isOpen 3 quiet = false) ∧
      (takesRequest up ∧ (5 : Half).toNat < 384 ∧ byteAt [1, 4] 0 = 1 ∧ byteAt [1, 4] 1 ≠ 0) ∧
      ((byteAt [80, 50, 3, 0, 0, 0, 0] 0).toNat = up.lu.width ∧ (byteAt [80, 50, 3, 0, 0, 0, 0] 1).toNat = up.lu.height ∧
        min (byteAt [80, 50, 3, 0, 0, 0, 0] 2).toNat 15 ≠ up.pu.level) := by decide +kernel
/-- R159, section 11.7: a write of the LAYOUT header's entry, low bytes first; of a keymap entry; of the panel's level. -/
theorem test_table_writes :
    (after (exec (.tableWrite 1 1 0 [0, 0x34, 0x12, 0x78, 0x56, 0, 0, 0, 0, 0, 0]) quiet)).map (fun t =>
        (t.lu.border, t.lu.undocked, t.lc.replies)) = some (0x1234, 0x5678, [⟨1, 2, .ok, []⟩]) ∧
      (after (exec (.tableWrite 1 5 5 [1, 4]) up)).map (fun t => (t.ks.keymap[5], t.lc.replies)) =
        some (.ordinary 4, [⟨1, 2, .ok, []⟩]) ∧
      (after (exec (.tableWrite 1 7 0 [80, 50, 3, 0, 0, 0, 0]) up)).map (fun t => (t.pu.level, t.lc.replies)) =
        some (3, [⟨1, 2, .ok, []⟩]) := by decide +kernel
theorem witness_panel_requests :
    takesRequest up ∧ up.pu.inFlight.isSome = true ∧ (80 : Byte).toNat = up.lu.width ∧ (50 : Byte).toNat = up.lu.height ∧
      min (8 : Byte).toNat 15 = up.pu.level ∧ min (255 : Byte).toNat 15 ≠ up.pu.level ∧
      (∃ s : State, takesRequest s ∧ s.pu.inFlight = none ∧ s.pu.dirty.length = blockCount s ∧ s.pu.scan < blockCount s ∧
        s.fs.holder = none) ∧
      (∃ s : State, takesRequest s ∧ s.pu.inFlight = none ∧ s.pu.dirty.length = blockCount s ∧ s.pu.scan < blockCount s ∧
        s.fs.holder ≠ none ∧ s.lu.fillColour = some 5) :=
  ⟨by decide, by decide, by decide, by decide, by decide, by decide, ⟨{ up with pu.inFlight := none }, by decide +kernel⟩,
    ⟨{ up with pu.inFlight := none, fs.holder := some .teardownFill, lu.fillColour := some 5 }, by decide +kernel⟩⟩
theorem witness_stream_open :
    takesRequest up ∧ (regionOf 0 up).enabled = true ∧ (streamOf 0 up).state = .closed ∧ (regionOf 7 up).enabled = false ∧
      (streamOf 0 opened).state ≠ .closed := by decide +kernel
/-- Stream 0 waits alone on the fault of record A, or with stream 1. -/
def waiting (mask : BitVec 8) : State := { faulted with tf.recA := ⟨true, 69, 4, mask, 0, some 9, false, false⟩ }
/-- Two engines at work for stream 1, and stream 0 idle. -/
def busyElsewhere : State := { busy with de := ⟨some { aRecord with stream := 1 }, some { aRecord with stream := 1 }⟩ }
theorem witness_stream_close :
    (takesRequest opened ∧ (streamOf 0 opened).state ≠ .closed ∧ (streamOf 7 opened).state = .closed ∧
      (streamOf 0 opened).side = some .a ∧ (streamOf 0 opened).reservation = none ∧ opened.tf.recA.active = false ∧
      opened.tf.recB.active = false) ∧
      settled (setStream 0 ⟨.closed, none, 5, none, false, none⟩ (setEngine .a none (setQueue .a [] opened))) ∧
      (takesRequest reserving ∧ (streamOf 0 reserving).reservation = some 69 ∧ foundAt 69 5 0 reserving ∧
        reserving.tc.dir[5][0].reserve = 1) ∧
      settled (setStream 0 ⟨.closed, none, 6, none, false, none⟩
        (released 0 5 0 (setEngine .a (some { aRecord with removed := true }) (setQueue .a [] reserving)))) ∧
      (takesRequest (waiting 1) ∧ (waiting 1).tf.recA.waiting &&& (waiting 1).tf.recB.waiting = 0 ∧
        (recordOf .a (waiting 1)).active = true ∧ (recordOf .a (waiting 1)).waiting = BitVec.ofNat 8 (2 ^ 0) ∧
        foundAt 69 5 0 (waiting 1) ∧ enginesBusy (waiting 1)) ∧
      (takesRequest (waiting 3) ∧ (recordOf .a (waiting 3)).waiting.getLsbD 0 = true ∧
        (recordOf .a (waiting 3)).waiting ≠ BitVec.ofNat 8 (2 ^ 0) ∧ enginesBusy (waiting 3)) :=
  ⟨by decide, (settled_iff _).2 (by decide +kernel), by decide +kernel, settled_of_enginesBusy ⟨rfl, rfl⟩, by decide +kernel,
    by decide⟩
theorem witness_quiesce :
    takesRequest quiet ∧ (takesRequest up ∧ up.sq.quiesce = .running ∧ nothingLeft up) ∧
      (takesRequest busy ∧ busy.sq.quiesce = .running ∧ ¬ nothingLeft busy) ∧
      (∃ s : State, s.sq.quiesce = .quiescing ∧ s.me.inProgress = some ⟨4, 5, .quiesce, false⟩ ∧ ¬ nothingLeft s ∧
        engineOf .a s = some aRecord ∧ s.fs.holder = some (.engine .a) ∧ aRecord.removed = false ∧
        queueOf .a s = [⟨0, 4, 0, .fill 31 0 0 16 16, true⟩] ∧ queueOf .b s = [] ∧ engineOf .b s = none ∧
        s.tf.recA.active = false ∧ s.tf.recB.active = false) :=
  ⟨by decide, by decide, by decide, ⟨{ busy with
    de.engineB := none, fs.waiting := [], sq.quiesce := .quiescing, me.inProgress := some ⟨4, 5, .quiesce, false⟩ }, by decide⟩⟩
theorem witness_resume :
    (takesRequest quiet ∧ quiet.lu.headerChanged = true ∧ quiet.fs.holder = none ∧ quiet.fs.waiting = [] ∧
      (∀ i : Fin 8, (1 : BitVec 8).getLsbD i.val = ((regionOf i quiet).enabled && (regionOf i quiet).changed))) ∧
      (takesRequest up ∧ up.sq.quiesce ≠ .quiesced) ∧
      (∃ s : State, takesRequest s ∧ s.sq.quiesce = .quiesced ∧ s.lu.headerChanged = false ∧
        ∀ i : Fin 8, (regionOf i s).changed = false) ∧
      (∃ s : State, takesRequest s ∧ s.sq.quiesce = .quiesced ∧ s.lu.headerChanged = true ∧
        s.fs.holder = some .teardownFill ∧ s.lu.fillColour = some 5) :=
  ⟨by decide +kernel, by decide, ⟨setChanged false quiet, by decide +kernel⟩,
    ⟨{ quiet with fs.holder := some .teardownFill, lu.fillColour := some 5 }, by decide⟩⟩
/-- R25, R37: a layout apply begun while a teardown fill runs waits for it. -/
theorem test_resume_waits :
    (after (exec (.resume 4) { quiet with fs.holder := some .teardownFill, lu.fillColour := some 5 })).map (fun t =>
      (t.lu.apply, t.fs.holder, t.fs.waiting)) = some (some 1, some .teardownFill, [.layoutApply]) := by decide +kernel
theorem witness_layout_apply :
    (∃ s : State, s.lu.apply = some 1 ∧ s.fs.holder = some .layoutApply ∧ layoutLegal s ∧ panelShape s ∧
      imageWf (panelPixels s) s.fs.image ∧ s.me.inProgress = some ⟨4, 6, .resume, false⟩ ∧ s.pu.inFlight.isSome = true ∧
      s.fs.waiting.head? ≠ some .teardownFill) ∧ up.lu.apply = none :=
  ⟨⟨{ quiet with lu.apply := some 1, fs.holder := some .layoutApply, me.inProgress := some ⟨4, 6, .resume, false⟩ }, rfl, rfl,
    by decide +kernel, by refine ⟨by decide, by decide, ?_, by decide, ?_⟩ <;> decide +kernel, by decide +kernel, rfl, rfl, by decide⟩, rfl⟩
/-- R65: of three streams on side A and none on side B one moves, the highest-numbered; with one on side A none. -/
theorem test_rebalance :
    (let s := setStream 1 ⟨.ready, some .a, 0, none, false, none⟩ (setStream 4 ⟨.ready, some .a, 0, none, false, none⟩ opened);
      ((movesToBalance s, balancedSide s 0, balancedSide s 1, balancedSide s 4), movesToBalance opened)) =
      ((1, some .a, some .a, some .b), 0) := by decide +kernel
theorem witness_teardown_fill :
    (∃ s : State, s.lu.fillColour = some 5 ∧ s.fs.holder = some .teardownFill ∧ s.pu.inFlight.isSome = true ∧
      .teardownFill ∉ s.fs.waiting) ∧ up.lu.fillColour = none ∧
      (∃ s : State, s.lu.fillColour = some 5 ∧ s.fs.holder = some .teardownFill ∧ s.pu.inFlight = none ∧
        s.pu.halted = false ∧ .teardownFill ∉ s.fs.waiting ∧ s.pu.dirty.length = blockCount s ∧
        s.pu.scan < blockCount s) :=
  ⟨⟨{ up with lu.fillColour := some 5, fs.holder := some .teardownFill }, by decide⟩, rfl,
    ⟨{ up with lu.fillColour := some 5, fs.holder := some .teardownFill, pu.inFlight := none }, by decide +kernel⟩⟩
theorem witness_sweep :
    (takesRequest quiet ∧ quiet.sq.quiesce = .quiesced) ∧ 64 ≤ up.tc.sweep ∧
      (∃ s : State, s.tc.sweep = (62 : Fin 64).val ∧ (62 : Fin 64).val < 63) ∧
      (∃ s : State, s.tc.sweep = (63 : Fin 64).val ∧ s.me.inProgress = some ⟨1, 7, .tileFlush, false⟩) ∧
      (∃ s : State, s.tc.sweep = (63 : Fin 64).val ∧ s.me.inProgress = none) :=
  ⟨by decide, by decide, ⟨{ up with tc.sweep := 62 }, by decide⟩,
    ⟨{ up with tc.sweep := 63, me.inProgress := some ⟨1, 7, .tileFlush, false⟩ }, by decide⟩, ⟨{ up with tc.sweep := 63 }, by decide⟩⟩
theorem witness_pins :
    (takesRequest tiled ∧ tiled.tc.dir[5][0].valid = true ∧ tiled.tc.dir[5][0].key = 69 ∧ tiled.tc.dir[5][0].sectors = 15 ∧
      tiled.tc.dir[5][0].pending = false ∧ tiled.tc.dir[5][0].pinned = false) ∧ settled tiled ∧
      (takesRequest (withSet true) ∧ (withSet true).tc.dir[5][3].pinned = false ∧
        3 ≤ ((List.finRange 4).countP fun v => (withSet true).tc.dir[5][v].pinned) ∧
        (withSet true).tc.dir[5][0].pinned = true) ∧
      (takesRequest faulted ∧ faulted.tc.dir[5][0].sectors ≠ 15 ∧ faulted.tc.dir[5][0].pinned = false) ∧
      (∃ s u : State, takesRequest s ∧ s.tc.dir[5][0].valid = true ∧ s.tc.dir[5][0].key = 5 ∧ s.tc.dir[5][0].pinned = true ∧
        u = { s with
          tc.dir := s.tc.dir.set 5 (s.tc.dir[5].set 0 { s.tc.dir[5][0] with pinned := false })
          sq.streams := Vector.ofFn fun i : Fin 8 =>
            if (streamOf i s).state = .waitWay then { streamOf i s with state := .ready } else streamOf i s } ∧ settled u) :=
  ⟨by decide +kernel, ⟨nothingToHand_of_empty rfl rfl, fun h => absurd h (by decide)⟩, by decide +kernel, by decide +kernel,
    ⟨withSet true, _, by decide, by decide +kernel, by decide +kernel, by decide +kernel, rfl, nothingToHand_of_empty rfl rfl,
      fun h => absurd h (by decide)⟩⟩
theorem witness_dock_reset :
    takesRequest up ∧ up.lc.tx = none ∧
      ∀ item : TxItem, takesRequest { up with lc.tx := some ⟨item, [9]⟩ } :=
  ⟨by decide, by decide, fun _ => ⟨rfl, rfl, rfl, show up.lc.replies.length < 4 by decide⟩⟩
theorem witness_store :
    takesRequest up ∧
      (1 ≤ (List.replicate 64 (0 : Byte)).length ∧ (List.replicate 64 (0 : Byte)).length ≤ 64 ∧
        (4032 : Half).toNat + (List.replicate 64 (0 : Byte)).length ≤ 4096 ∧
        (4032 : Half).toNat / 1024 = ((4032 : Half).toNat + (List.replicate 64 (0 : Byte)).length - 1) / 1024) ∧
      (1 ≤ (128 : Byte).toNat ∧ (128 : Byte).toNat ≤ 128 ∧ (3968 : Half).toNat + (128 : Byte).toNat ≤ 4096) ∧
      ¬ ((3969 : Half).toNat + (128 : Byte).toNat ≤ 4096) := by decide
theorem witness_store_ends :
    (∃ s : State, s.me.inProgress = some ⟨1, 12, .erase 3, true⟩) ∧
      (∃ s : State, s.me.inProgress = some ⟨1, 13, .program 9 [200], false⟩ ∧ cellRead 255 s.flash 9 &&& 200 = 200) ∧
      (∃ s : State, s.me.inProgress = some ⟨1, 13, .program 9 [200], false⟩ ∧ cellRead 255 s.flash 9 &&& 200 ≠ 200) ∧
      up.me.inProgress = none :=
  ⟨⟨{ up with me.inProgress := some ⟨1, 12, .erase 3, true⟩ }, rfl⟩,
    ⟨{ up with me.inProgress := some ⟨1, 13, .program 9 [200], false⟩ }, by decide⟩,
    ⟨{ up with me.inProgress := some ⟨1, 13, .program 9 [200], false⟩, flash := [(9, 150)] }, by decide⟩, rfl⟩
theorem witness_monitor_set :
    takesRequest up ∧ modeCode .conditionEdge = 2 ∧ groupCode .keys = 7 ∧ conditionCode .attachmentHeld = 4 ∧
      (2047 : Word).toNat < 2 ^ groupSize .keys ∧ 2 ^ groupSize .keys ≤ (2048 : Word).toNat := by decide
/-- A counter of REQ_TAKEN one below its maximum, and one in another mode. -/
theorem witness_monitor_set_beside :
    ∃ s : State, takesRequest s ∧ s.mn.counters[1].selects .reqTaken = true ∧ s.mn.counters[1].value = 4294967294 ∧
      ∀ j : Fin 4, s.mn.counters[j].selects .eventRaised = false :=
  ⟨{ up with mn.counters := #v[Counter.initial, ⟨4294967294, .occurrence, SubEvent.reqTaken.group,
      BitVec.ofNat 32 (2 ^ SubEvent.reqTaken.bit), .engineBusy⟩, Counter.initial, ⟨7, .conditionEdge, .link, 0, .engineBusy⟩] },
    by decide +kernel⟩
/-- R170, R171: a MONITOR_SET of counter 0 leaves the others' values, but for the count of its own REQ_TAKEN. -/
theorem test_monitor_set_keeps_others :
    (after (exec (.monitorSet 1 0 0 1 0 0) { up with mn.counters := #v[⟨9, .occurrence, .tileLookup, 0, .engineBusy⟩,
      ⟨5, .occurrence, SubEvent.reqTaken.group, BitVec.ofNat 32 (2 ^ SubEvent.reqTaken.bit), .engineBusy⟩,
      ⟨6, .occurrence, .tileLookup, 1, .engineBusy⟩, ⟨7, .conditionEdge, .link, 0, .engineBusy⟩] })).map (fun t =>
        t.mn.counters.toList.map Counter.value) = some [0, 6, 6, 7] := by decide +kernel
/-- R167: a program that leaves a byte different is counted as a mismatch, also with its reply taken (log entry 35). -/
theorem test_silent_mismatch :
    (after (exec .programDone { up with
      flash := [(0, 0)], me.inProgress := some ⟨1, 13, .program 0 [255], true⟩
      mn.counters := #v[⟨0, .occurrence, SubEvent.programMismatch.group, BitVec.ofNat 32 (2 ^ SubEvent.programMismatch.bit),
        .engineBusy⟩, Counter.initial, Counter.initial, Counter.initial] })).map (fun t =>
        (t.mn.counters[0].value, t.lc.replies, t.me.inProgress)) = some (1, [], none) := by decide +kernel
/-- R128, section 11.3: the pixels go out in their order, each with its low byte first. -/
theorem test_port_bytes : portBytes ⟨0, 1, [0x1234, 0x5678], 0⟩ = [0x34, 0x12, 0x78, 0x56] := by decide
theorem witness_acknowledgement :
    (∃ f, up.pu.inFlight = some f ∧ f.number = 1 ∧ f.number ≠ 2) ∧
      (up.pu.halted = false ∧ up.fs.holder = none ∧ 1 < blockCount up ∧ up.pu.dirty.getD 1 false = true ∧ up.pu.scan ≤ 1) ∧
      (∃ s : State, s.pu.inFlight = some ⟨0, 1, 5⟩ ∧ s.pu.scan ≤ blockCount s ∧ s.pu.halted = true) ∧
      (∃ s : State, s.pu.inFlight = some ⟨5, 1, 5⟩ ∧ s.pu.halted = false ∧ s.fs.holder = none ∧ 0 < s.pu.scan ∧
        s.pu.dirty.getD 0 false = true ∧ (∀ j : Nat, s.pu.scan ≤ j → j < blockCount s → s.pu.dirty.getD j false = false)) ∧
      (∃ s : State, s.pu.inFlight = none) ∧
      (∃ s : State, s.pu.inFlight = some ⟨0, 1, 5⟩ ∧ s.pu.halted = false ∧ s.fs.holder ≠ none ∧
        isNext (blockCount s) s.pu.scan (fun k => s.pu.dirty.getD k false) 1) :=
  ⟨⟨⟨0, 1, 10000⟩, by decide⟩, by decide +kernel,
    ⟨{ up with pu.inFlight := some ⟨0, 1, 5⟩, pu.halted := true }, by decide⟩,
    ⟨{ up with pu.inFlight := some ⟨5, 1, 5⟩, pu.scan := 4000, pu.dirty := [true] }, by
      refine ⟨rfl, rfl, rfl, by decide, rfl, fun j h g => ?_⟩
      exact absurd g (by show ¬ j < 4000; exact Nat.not_lt.mpr h)⟩,
    ⟨{ up with pu.inFlight := none }, rfl⟩,
    ⟨{ busy with pu.inFlight := some ⟨0, 1, 5⟩ }, rfl, rfl, by decide, by decide, by decide +kernel,
      .inl ⟨Nat.le_refl 1, fun _ h g => absurd g (Nat.not_lt.mpr h)⟩⟩⟩
theorem witness_timeouts :
    (∃ s : State, s.pu.inFlight = some ⟨0, 1, 0⟩ ∧ s.pu.streak + 1 < 3 ∧ s.pu.streak = 1 ∧ s.pu.halted = false ∧
      0 < blockCount s ∧ s.pu.dirty.length = blockCount s) ∧
      (∃ s : State, s.pu.inFlight = some ⟨0, 1, 0⟩ ∧ 3 ≤ s.pu.streak + 1 ∧ s.pu.streak = 2) ∧
      (∃ s : State, s.pu.inFlight = some ⟨0, 1, 0⟩ ∧ s.pu.streak + 1 < 3 ∧ s.pu.halted = false ∧
        isNext (blockCount s) s.pu.scan (fun k => (s.pu.dirty.set 0 true).getD k false) 0) :=
  ⟨⟨{ up with pu.inFlight := some ⟨0, 1, 0⟩, pu.streak := 1 }, by decide +kernel⟩,
    ⟨{ up with pu.inFlight := some ⟨0, 1, 0⟩, pu.streak := 2 }, by decide⟩,
    ⟨{ up with pu.inFlight := some ⟨0, 1, 0⟩, pu.scan := 0, pu.dirty := [false] }, rfl, by decide, rfl, by decide, rfl,
      .inl ⟨Nat.le_refl 0, fun _ _ h => absurd h (Nat.not_lt_zero _)⟩⟩⟩
/-- The second state has a withheld position. -/
theorem witness_scan :
    (∃ s : State, s.ks.scanTimer = 0) ∧ up.ks.scanTimer ≠ 0 ∧
      ∃ s : State, s.ks.scanTimer = 0 ∧ (keyAt 17 s).withheld = true ∧
        ∀ p : Fin 128, (keyAt p s).withheld = true → (keyAt p s).pressed = true :=
  ⟨⟨{ up with ks.scanTimer := 0 }, rfl⟩, by decide, ⟨setKey 17 ⟨true, 1, true, true⟩ threeCorners, by decide +kernel⟩⟩
theorem witness_one_key :
    (∃ s : State, s.ks.scanTimer = 0 ∧ 1 ≤ s.settings.depth ∧
      (∀ q : Fin 128, q ≠ 3 → (8 : BitVec 128).getLsbD q.val = false ∧ keyAt q s = ⟨false, 0, false, false⟩) ∧
      (8 : BitVec 128).getLsbD 3 = true ∧ (keyAt 3 s).pressed = false ∧ (keyAt 3 s).withheld = false ∧
      (keyAt 3 s).count + 1 = s.settings.depth ∧ s.ks.latched = []) ∧
      (∃ s : State, s.ks.scanTimer = 0 ∧ (∀ q : Fin 128, q ≠ 3 → (0 : BitVec 128).getLsbD q.val = false ∧
        keyAt q s = ⟨false, 0, false, false⟩) ∧ (keyAt 3 s).pressed = true ∧ (keyAt 3 s).withheld = false ∧
        (keyAt 3 s).count = 1 ∧ s.ks.latched = [⟨3, .ordinary 4, 0⟩]) :=
  ⟨⟨setKey 3 ⟨true, 3, false, false⟩ { up with ks.scanTimer := 0 }, by decide +kernel⟩,
    ⟨setKey 3 ⟨true, 1, true, false⟩ { up with ks.scanTimer := 0, ks.latched := [⟨3, .ordinary 4, 0⟩] }, by decide +kernel⟩⟩
theorem witness_time :
    (∃ s : State, s.msTimer = 0 ∧ s.pu.periodTimer = 0) ∧ up.msTimer ≠ 0 ∧ up.pu.periodTimer ≠ 0 ∧ up.pu.drivenLevel ≤ 15 :=
  ⟨⟨{ up with msTimer := 0, pu.periodTimer := 0 }, by decide⟩, by decide, by decide, by decide⟩
/-- The commands that the statement about the Monitor sets aside are not all: TRANSMISSION_COMPLETE is not among them, and it ends
what is not MONITOR_SATURATED's own transmission. -/
theorem witness_monitor :
    (Instr.transmissionComplete ≠ .powerOnReset ∧ Instr.transmissionComplete ≠ .symbolGroup .endDelimiter ∧
      Instr.transmissionComplete ≠ .holdTimerExpiry) ∧
      (∃ s : State, s.lc.tx = some ⟨.reply, [9]⟩ ∧ TxItem.reply ≠ .event .monitorSaturated) ∧
      (∀ k : Nat, (0 : BitVec 24).getLsbD k = true ↔ ∃ n : Fin 4, n.val = k ∧ up.mn.counters[n].value < 4294967295 ∧
        up.mn.counters[n].value = 4294967295) :=
  ⟨by decide, ⟨{ up with lc.tx := some ⟨.reply, [9]⟩ }, rfl, by decide⟩, fun _ =>
    ⟨fun h => absurd h (by simp), fun ⟨_, _, h, g⟩ => absurd g (Nat.ne_of_lt h)⟩⟩
/-- A docked tablet in a running session meets the laws that every step keeps, and a step is made from it. -/
theorem witness_laws :
    (attachmentLegal up ∧ receiveLegal up ∧ laneLegal (clearEvents up)) ∧ (upstreamWithinLimits opened ∧ sideQueuesWithinLimits opened) ∧
      (∀ n : Fin 64, agesLegal tiled.tc.dir[n] ∧ waysLegal n tiled.tc.dir[n] ∧ pinsLegal tiled.tc.dir[n]) ∧
      (panelShape up ∧ panelLegal up ∧ panelServed up) ∧ (layoutLegal busy ∧ storeServed busy) ∧
      (settingsLegal up.settings ∧ keysLegal up) ∧ memoriesLegal up ∧ monitorLegal up ∧ (∃ t, step up = .next t) := by
  refine ⟨?_, by decide, by decide +kernel, ⟨?_, by decide +kernel, ?_⟩, by decide +kernel, by decide +kernel,
    by decide +kernel, by decide +kernel, ⟨_, rfl⟩⟩
  · decide +kernel
  · refine ⟨by decide, by decide, ?_, by decide, ?_⟩ <;> decide +kernel
  · intro h; exact absurd h (by decide)
theorem witness_draws : drawsLegal busy := by
  refine ⟨by decide, ?_⟩
  rintro (_ | _) r h <;> (obtain rfl : aRecord = r := Option.some.inj h) <;> decide +kernel

/-- One engine at work, for a stream whose entry is executing. -/
def drawing : State := { busy with de := ⟨some aRecord, none⟩, fs.waiting := [] }
theorem witness_session : sessionLegal drawing := by
  refine ⟨by decide, by decide +kernel, by decide +kernel, ?_, by decide +kernel, by decide +kernel, by decide, by decide,
    by decide +kernel⟩
  intro side
  cases side
  · refine ⟨by decide +kernel, ?_⟩
    intro r h _
    obtain rfl : aRecord = r := Option.some.inj h
    decide +kernel
  · exact ⟨by decide +kernel, fun r h => nomatch h⟩
/-- Engine B is FREE with nothing queued, engine A draws: there is nothing to hand over. -/
theorem witness_nothing_to_hand : nothingToHand drawing := by
  rintro (_ | _) n e m
  · exact nomatch n
  · exact nomatch m
/-- R49, R47: the fill that completes a fault wakes stream 0, and its PLACE is handed to the FREE engine in the same event. -/
theorem test_wake_hands_over :
    (after (exec (.tile 69 2 (List.replicate 128 0)) { setStream 0 ⟨.waitTile, some .a, 5, none, false, none⟩ opened with
      sq.queueA := [⟨0, 4, 0, .place 69 0 0 none, false⟩]
      tc.dir := opened.tc.dir.set 5 (opened.tc.dir[5].set 0 ⟨true, 69, 11, 0, false, true, 0⟩)
      tf.recA := ⟨true, 69, 4, 1, 0, some 9, false, false⟩ })).map (fun t =>
        ((engineOf .a t).map ExecRecord.command, t.sq.queueA.map Entry.executing, (streamOf 0 t).state,
          (streamOf 0 t).reservation)) = some (some (.place 69 0 0 none), [true], .ready, none) := by decide +kernel
theorem witness_writers :
    writersLegal drawing ∧ drawing.lu.apply.isSome = (drawing.me.inProgress.any fun r => r.op == .resume) := by
  refine ⟨⟨by decide, ?_, by decide, by decide⟩, by decide⟩
  intro side
  cases side <;> decide

end Sys2Proof.Machine.Tests
end

section
/-! PROOFS. HELLO taken in UP (R9, R10): what each branch of its dispatch leaves, and the settlement of O14. -/

namespace Sys2Proof.Machine

/-! ### Flagging GREET (R17) -/

/-- An outcome other than REPEATED replaces what GREET holds, and a GREET on the lane then leaves as renewed. -/
theorem flagGreet_of_ne_repeated {o : GreetOutcome} (h : o ≠ .repeated) (s : State) :
    flagGreet o s =
      { s with
        lc.greet := some o
        lc.greetRenewed := s.lc.greetRenewed || s.lc.tx.any fun x => x.item == .greet } := by
  unfold flagGreet
  exact if_neg h

/-- REPEATED is flagged when no GREET waits; one that waits stands. -/
theorem flagGreet_repeated (s : State) :
    flagGreet .repeated s =
      { s with lc.greet := if s.lc.greet.isSome then s.lc.greet else some .repeated } := by
  unfold flagGreet
  rw [if_pos rfl]
  split <;> rfl

/-! ### A fresh attach (R8, R9) -/

theorem freshAttach_of_ne_zero {number : Word} (h : number ≠ 0) (s : State) :
    freshAttach number s =
      { s with
        lc.attachment := .attached, lc.attachNumber := number, lc.greet := some .newSession
        lc.greetRenewed := s.lc.greetRenewed || s.lc.tx.any fun x => x.item == .greet } := by
  unfold freshAttach
  rw [if_neg h, flagGreet_of_ne_repeated (by decide)]

/-- With number 0 the counter's value is issued and the counter moves on, from its maximum to 1. -/
theorem freshAttach_zero (s : State) :
    freshAttach 0 s =
      { s with
        lc.attachment := .attached, lc.attachNumber := s.lc.attachCounter
        lc.attachCounter := if s.lc.attachCounter = 0xFFFFFFFF then 1 else s.lc.attachCounter + 1
        lc.greet := some .newSession
        lc.greetRenewed := s.lc.greetRenewed || s.lc.tx.any fun x => x.item == .greet } := by
  unfold freshAttach
  rw [if_pos rfl, flagGreet_of_ne_repeated (by decide)]
  rfl

/-! ### Dispatch of HELLO (R9, R10) -/

theorem takeHello_unattached (number : Word) {s : State} (h : s.lc.attachment = .unattached) :
    takeHello number s = freshAttach number s := by unfold takeHello; rw [h]

theorem takeHello_attached_same {s : State} (h : s.lc.attachment = .attached) :
    takeHello s.lc.attachNumber s = flagGreet .repeated s := by
  unfold takeHello
  rw [h]
  exact if_pos rfl

theorem exec_hello (number : Word) (s : State) : exec (.hello number) s = execHello number s := by rfl

/-- A HELLO in UP whose dispatch leaves u ends as u and counts nothing. -/
theorem hello_ends {number : Word} {s u : State} (up : s.lc.link = .up) (h : takeHello number (passed s) = u) :
    ∃ t, exec (.hello number) s = .next t ∧ endsAs u [] t := by
  subst h
  rw [exec_hello]
  exact frame_up_ends up (endsAs_refl _)

/-- Settles O14: dispatch finds the attachment as it stood, since the frame's passing sets the failure count alone; each branch
then ends as its own equation says. -/
theorem helloAttachesOrRepeats : Obligations.HelloAttachesOrRepeats := by
  intro number s up
  refine ⟨fun free given => ?_, fun free zero => ?_, fun attached same => ?_⟩
  · have dispatched : takeHello number (passed s) = freshAttach number (passed s) := takeHello_unattached number free
    exact hello_ends up (dispatched.trans (freshAttach_of_ne_zero given _))
  · subst zero
    have dispatched : takeHello 0 (passed s) = freshAttach 0 (passed s) := takeHello_unattached 0 free
    exact hello_ends up (dispatched.trans (freshAttach_zero _))
  · subst same
    have dispatched : takeHello s.lc.attachNumber (passed s) = flagGreet .repeated (passed s) :=
      takeHello_attached_same (s := passed s) attached
    exact hello_ends up (dispatched.trans (flagGreet_repeated _))

end Sys2Proof.Machine
end

section
/-! PROOFS. DRAW frames that are not in order (R50 to R52, R54, R55): the judgement equation by equation, and the settlement of
O19. Updates of one record pass through endsAs; O36 uses these lemmas too. -/

namespace Sys2Proof.Machine

/-! ### What the records read while the event counts -/

@[simp] theorem streamOf_count (i : Fin 8) (x : SubEvent) (s : State) : streamOf i (count x s) = streamOf i s := by
  simp [streamOf]

@[simp] theorem isOpen_count (i : Fin 8) (x : SubEvent) (s : State) : isOpen i (count x s) = isOpen i s := by
  simp [isOpen]

@[simp] theorem openCount_count (side : Side) (x : SubEvent) (s : State) : openCount side (count x s) = openCount side s := by
  simp [openCount]

@[simp] theorem regionOf_count (i : Fin 8) (x : SubEvent) (s : State) : regionOf i (count x s) = regionOf i s := by
  simp [regionOf]

@[simp] theorem streamOf_passed (i : Fin 8) (s : State) : streamOf i (passed s) = streamOf i s := rfl
@[simp] theorem isOpen_passed (i : Fin 8) (s : State) : isOpen i (passed s) = isOpen i s := rfl
@[simp] theorem openCount_passed (side : Side) (s : State) : openCount side (passed s) = openCount side s := rfl
@[simp] theorem regionOf_passed (i : Fin 8) (s : State) : regionOf i (passed s) = regionOf i s := rfl

/-! ### Updates of one record and the bookkeeping -/

section
variable {u v : State} {us : List SubEvent}

theorem endsAs.setStream (h : endsAs u us v) (i : Fin 8) (r : Stream) :
    endsAs (setStream i r u) us (setStream i r v) :=
  h.map (Machine.setStream i r) (fun _ _ _ _ => rfl) (fun _ => rfl) (fun _ => rfl) (fun _ => rfl) fun _ => rfl

theorem endsAs.setRegion (h : endsAs u us v) (i : Fin 8) (r : Region) :
    endsAs (setRegion i r u) us (setRegion i r v) :=
  h.map (Machine.setRegion i r) (fun _ _ _ _ => rfl) (fun _ => rfl) (fun _ => rfl) (fun _ => rfl) fun _ => rfl

theorem endsAs.answer (h : endsAs u us v) (tag kind : Byte) (status : Status) :
    endsAs (answer tag kind status u) us (answer tag kind status v) :=
  h.map (Machine.answer tag kind status) (fun _ _ _ _ => rfl) (fun _ => rfl) (fun _ => rfl) (fun _ => rfl) fun _ => rfl

end

/-! ### A DRAW frame at the Stream Sequencer (R50) -/

theorem doDraw_malformed {stream : Byte} {commands : List Byte} (h : 8 ≤ stream.toNat ∨ parseDraw commands = none)
    (seq : Half) (s : State) : doDraw stream seq commands s = count .malformed s := by
  unfold doDraw
  split
  · next small =>
    have unread : parseDraw commands = none := h.resolve_left (by omega)
    rw [unread]
  · rfl

theorem doDraw_wellFormed {stream : Byte} {i : Fin 8} {commands : List Byte} {cs : List DrawCommand}
    (number : stream.toNat = i.val) (read : parseDraw commands = some cs) (seq : Half) (s : State) :
    doDraw stream seq commands s = judgeDraw i seq cs s := by
  have same : (⟨stream.toNat, number ▸ i.isLt⟩ : Fin 8) = i := Fin.ext number
  unfold doDraw
  rw [dif_pos (number ▸ i.isLt), read]
  exact congrArg (judgeDraw · seq cs s) same

/-! ### The judgement of a well-formed frame (R51, R52) -/

theorem judgeDraw_closed {i : Fin 8} {s : State} (h : isOpen i s = false) (seq : Half) (cs : List DrawCommand) :
    judgeDraw i seq cs s = count .closedStream s := by
  unfold judgeDraw
  split
  · rfl
  · rw [h]; rfl

section
variable {i : Fin 8} {s : State} (opened : isOpen i s = true) (sided : (streamOf i s).side.isSome = true)
include opened sided

theorem judgeDraw_heldOff (held : s.sq.quiesce ≠ .running) (seq : Half) (cs : List DrawCommand) :
    judgeDraw i seq cs s = count .heldOff s := by
  obtain ⟨side, hside⟩ := Option.isSome_iff_exists.1 sided
  simp [judgeDraw, hside, opened, held]

variable (running : s.sq.quiesce = .running) {seq : Half}
include running

/-- A frame of a running stream whose number is not expected is judged by the distance alone. -/
theorem judgeDraw_outOfOrder (away : 0 < (seq - (streamOf i s).expected).toNat) (cs : List DrawCommand) :
    judgeDraw i seq cs s =
      if (seq - (streamOf i s).expected).toNat < 32768 then
        if (streamOf i s).rewind.isNone then flagRewind .gap i (count .gap s) else count .gap s
      else count .duplicate s := by
  obtain ⟨side, hside⟩ := Option.isSome_iff_exists.1 sided
  have differs : seq - (streamOf i s).expected ≠ 0 := fun h => by rw [h] at away; exact absurd away (by decide)
  simp only [judgeDraw, hside, opened, running, differs, Bool.not_true, Bool.false_eq_true, ne_eq, not_true, if_false]

theorem judgeDraw_behind (behind : 32768 ≤ (seq - (streamOf i s).expected).toNat) (cs : List DrawCommand) :
    judgeDraw i seq cs s = count .duplicate s := by
  rw [judgeDraw_outOfOrder opened sided running (by omega), if_neg (by omega)]

variable (away : 0 < (seq - (streamOf i s).expected).toNat) (ahead : (seq - (streamOf i s).expected).toNat < 32768)
include away ahead

theorem judgeDraw_ahead_unflagged (unflagged : (streamOf i s).rewind = none) (cs : List DrawCommand) :
    judgeDraw i seq cs s = flagRewind .gap i (count .gap s) := by
  rw [judgeDraw_outOfOrder opened sided running away, if_pos ahead, unflagged]
  rfl

theorem judgeDraw_ahead_flagged (flagged : (streamOf i s).rewind ≠ none) (cs : List DrawCommand) :
    judgeDraw i seq cs s = count .gap s := by
  rw [judgeDraw_outOfOrder opened sided running away, if_pos ahead, if_neg (mt Option.isNone_iff_eq_none.1 flagged)]

end

/-! ### How a DRAW frame ends -/

theorem exec_draw (stream : Byte) (seq : Half) (commands : List Byte) (s : State) :
    exec (.draw stream seq commands) s = execDraw stream seq commands s := by rfl

/-- A DRAW frame of a length that the lane carries ends as the Stream Sequencer leaves it. -/
theorem draw_ends {stream : Byte} {seq : Half} {commands : List Byte} {s u : State} {us : List SubEvent}
    (up : s.lc.link = .up) (attached : s.lc.attachment = .attached)
    (length : 1 ≤ commands.length ∧ commands.length ≤ 157) (h : endsAs u us (doDraw stream seq commands (passed s))) :
    ∃ t, exec (.draw stream seq commands) s = .next t ∧ endsAs u us t := by
  rw [exec_draw]
  unfold execDraw
  rw [if_pos length]
  refine frame_up_ends up ?_
  rwa [ifAttached_yes _ (show (passed s).lc.attachment = .attached from attached)]

/-- A frame that the Stream Sequencer only counts leaves the state as its passing does. -/
theorem draw_counted {stream : Byte} {seq : Half} {commands : List Byte} {s : State} {x : SubEvent}
    (up : s.lc.link = .up) (attached : s.lc.attachment = .attached)
    (length : 1 ≤ commands.length ∧ commands.length ≤ 157)
    (h : doDraw stream seq commands (passed s) = count x (passed s)) :
    ∃ t, exec (.draw stream seq commands) s = .next t ∧ endsAs (passed s) [x] t :=
  draw_ends up attached length (h ▸ (endsAs_refl (passed s)).count x)

/-- R58: flagging after a count sets the stream's rewind and renewed mark beside what is counted. -/
theorem flagRewind_count_ends (reason : RewindReason) (i : Fin 8) (x : SubEvent) (s : State) :
    endsAs (flagRewind reason i s) [x] (flagRewind reason i (count x s)) := by
  have same : flagRewind reason i (count x s) = setStream i { streamOf i s with
      rewind := some reason
      renewed := (streamOf i s).renewed || s.lc.tx.any fun t => t.item == .rewind i } (count x s) := by
    simp [flagRewind]
  rw [same]
  exact ((endsAs_refl s).count x).setStream i _

/-- Settles O19: the checks of R50 and R51 in their order, then the distance of the frame's number from expected. -/
theorem drawFramesOutOfPlace : Obligations.DrawFramesOutOfPlace := by
  intro stream seq commands s up attached least most
  have counted {x : SubEvent} := draw_counted (stream := stream) (seq := seq) (x := x) up attached ⟨least, most⟩
  refine ⟨fun bad => counted (doDraw_malformed bad seq _), fun i cs number read => ?_⟩
  have judged := doDraw_wellFormed number read seq (passed s)
  rw [judged] at counted
  refine ⟨fun closed => counted (judgeDraw_closed (s := passed s) closed seq cs),
    fun opened sided held => counted (judgeDraw_heldOff (s := passed s) opened sided held seq cs),
    fun opened sided running => ⟨fun away ahead unflagged => ?_,
      fun away ahead flagged => counted (judgeDraw_ahead_flagged (s := passed s) opened sided running away ahead flagged cs),
      fun behind => counted (judgeDraw_behind (s := passed s) opened sided running behind cs)⟩⟩
  refine draw_ends up attached ⟨least, most⟩ ?_
  rw [judged, judgeDraw_ahead_unflagged (s := passed s) opened sided running away ahead unflagged cs]
  exact flagRewind_count_ends .gap i .gap (passed s)

end Sys2Proof.Machine
end

section
/-! PROOFS. STREAM_OPEN (R42, R43): its checks equation by equation, and the settlement of O36. -/

namespace Sys2Proof.Machine

/-! ### The checks of STREAM_OPEN (R42) -/

theorem isOpen_eq_true {i : Fin 8} {s : State} (h : (streamOf i s).state ≠ .closed) : isOpen i s = true :=
  bne_iff_ne.2 h

theorem isOpen_eq_false {i : Fin 8} {s : State} (h : (streamOf i s).state = .closed) : isOpen i s = false := by
  unfold isOpen
  rw [h]
  rfl

theorem doStreamOpen_badIndex {stream : Byte} (h : 8 ≤ stream.toNat) (tag : Byte) (start : Half) (s : State) :
    doStreamOpen tag stream start s = answer tag 0x03 .badIndex s := by
  unfold doStreamOpen
  exact dif_neg (by omega)

theorem doStreamOpen_stream {stream : Byte} {i : Fin 8} (h : stream.toNat = i.val) (tag : Byte) (start : Half) (s : State) :
    doStreamOpen tag stream start s =
      if (regionOf i s).enabled = false then answer tag 0x03 .regionDisabled s
      else if isOpen i s = true then answer tag 0x03 .streamIsOpen s
      else answer tag 0x03 .ok (openStream i start s) := by
  have same : (⟨stream.toNat, h ▸ i.isLt⟩ : Fin 8) = i := Fin.ext h
  unfold doStreamOpen
  rw [dif_pos (h ▸ i.isLt)]
  simp only [same, Bool.not_eq_true']

/-! ### How STREAM_OPEN ends -/

theorem exec_streamOpen (tag stream : Byte) (start : Half) (s : State) :
    exec (.streamOpen tag stream start) s = execStreamOpen tag stream start s := by rfl

/-- A STREAM_OPEN that is refused leaves nothing but its reply. -/
theorem streamOpen_refused {tag stream : Byte} {start : Half} {status : Status} {s : State} (taken : takesRequest s)
    (h : doStreamOpen tag stream start (count .reqTaken (passed s)) =
      answer tag 0x03 status (count .reqTaken (passed s))) :
    ∃ t, exec (.streamOpen tag stream start) s = .next t ∧ endsAs (replied tag 0x03 status [] s) [.reqTaken] t :=
  request_ends taken (h ▸ (taken_ends (passed s)).answer tag 0x03 status)

/-- R43: the count of REQ_TAKEN and the frame's passing do not bear on the side that a stream goes to. -/
theorem openStream_ends (i : Fin 8) (start : Half) (s : State) :
    endsAs (passed (openStream i start s)) [.reqTaken] (openStream i start (count .reqTaken (passed s))) := by
  have sides : sideForOpen (count .reqTaken (passed s)) = sideForOpen s := by simp [sideForOpen]
  unfold openStream
  rw [sides, regionOf_count]
  exact ((taken_ends (passed s)).setStream i _).setRegion i _

/-- Settles O36: the checks of R42 in their order; the stream opened goes to the side that R43 names. -/
theorem streamsOpenOnTheLighterSide : Obligations.StreamsOpenOnTheLighterSide := by
  intro tag stream start s taken
  refine ⟨fun large => streamOpen_refused taken (doStreamOpen_badIndex large tag start _), fun i number => ?_⟩
  have checks := doStreamOpen_stream number tag start (count .reqTaken (passed s))
  simp only [regionOf_count, regionOf_passed, isOpen_count, isOpen_passed] at checks
  refine ⟨fun disabled => ?_, fun enabled opened => ?_, fun enabled closed onA onB countA countB => ?_⟩
  · rw [if_pos disabled] at checks
    exact streamOpen_refused taken checks
  · rw [if_neg (by simp [enabled]), if_pos (isOpen_eq_true opened)] at checks
    exact streamOpen_refused taken checks
  · rw [if_neg (by simp [enabled]), if_neg (by simp [isOpen_eq_false closed])] at checks
    subst countA countB
    exact request_ends taken (checks ▸ (openStream_ends i start s).answer tag 0x03 .ok)

end Sys2Proof.Machine
end

section
/-! PROOFS. What the sequencer's choices can do to a state, whatever is handed over (R47 to R49): the handovers change of the
drawing blocks alone, draw nothing yet, queue no reply, and pin no way. One lemma per operation. -/

namespace Sys2Proof.Machine

/-! ### Changes of the drawing blocks, one after another -/

/-- With the lane and the slots as they were, the event slots are kept. -/
theorem eventsKept_of_same {s t : State} (lane : t.lc.tx = s.lc.tx) (events : t.me.events = s.me.events) : eventsKept s t := by
  intro k _
  have slot : eventSlot k t = eventSlot k s := by simp only [eventSlot, events]
  rw [slot, if_neg (not_eventStarts lane k)]
  exact ⟨rfl, rfl, rfl, rfl⟩

theorem drawingOnly.trans {s t u : State} (h : drawingOnly s t) (g : drawingOnly t u) : drawingOnly s u := by
  obtain ⟨rest, selections, events, lane⟩ := h
  obtain ⟨rest', selections', events', lane'⟩ := g
  refine ⟨by rw [rest', rest], selections.trans selections', events.trans events' lane lane', fun busy => ?_⟩
  rw [lane' (by rw [lane busy]; exact busy), lane busy]

/-- A reply that is queued changes the REPLY queue alone. -/
theorem answer_drawingOnly (tag kind : Byte) (x : Status) (s : State) : drawingOnly s (answer tag kind x s) :=
  ⟨rfl, fun _ => ⟨rfl, rfl, rfl, rfl⟩, eventsKept_of_same rfl rfl, fun _ => rfl⟩

/-! ### What the choices keep -/

/-- A way that is not pinned in s is not pinned in t. -/
def noNewPin (s t : State) : Prop :=
  ∀ (n : Fin 64) (w : Fin 4), s.tc.dir[n][w].pinned = false → t.tc.dir[n][w].pinned = false

/-- What the choices of the sequencer (R47) can do to a state: all that drawing can, but the picture, the panel, the REPLY
queue, the request in progress and the numbers that the streams expect stay, and no way becomes pinned. -/
structure Handed (s t : State) : Prop where
  drawing : drawingOnly s t
  image : t.fs.image = s.fs.image
  panel : t.pu = s.pu
  replies : t.lc.replies = s.lc.replies
  inProgress : t.me.inProgress = s.me.inProgress
  expected : ∀ i : Fin 8, (streamOf i t).expected = (streamOf i s).expected
  pins : noNewPin s t

theorem Handed.trans {s t u : State} (h : Handed s t) (g : Handed t u) : Handed s u where
  drawing := h.drawing.trans g.drawing
  image := g.image.trans h.image
  panel := g.panel.trans h.panel
  replies := g.replies.trans h.replies
  inProgress := g.inProgress.trans h.inProgress
  expected i := (g.expected i).trans (h.expected i)
  pins n w free := g.pins n w (h.pins n w free)

/-- An update of the sequencer, the engines, the directory, the fault records, the turns at the frame store, the fill colour,
the tracker and the count of free values, which keeps the picture, the numbers expected, and pins no way. -/
theorem Handed.of_rest {s t : State}
    (rest : t = { s with
      sq := t.sq, de := t.de, tc.dir := t.tc.dir, tf := t.tf, fs := t.fs, lu.fillColour := t.lu.fillColour
      mn.tracker := t.mn.tracker, free := t.free })
    (image : t.fs.image = s.fs.image) (expected : ∀ i : Fin 8, (streamOf i t).expected = (streamOf i s).expected)
    (pins : noNewPin s t) : Handed s t := by
  obtain ⟨sq, de, dir, tf, fs, fill, tracker, free, rfl⟩ : ∃ sq de dir tf fs fill tracker free, t = { s with
      sq := sq, de := de, tc.dir := dir, tf := tf, fs := fs, lu.fillColour := fill, mn.tracker := tracker, free := free } :=
    ⟨_, _, _, _, _, _, _, _, rest⟩
  exact {
    drawing := ⟨rfl, fun _ => ⟨rfl, rfl, rfl, rfl⟩, eventsKept_of_same rfl rfl, fun _ => rfl⟩
    image := image, panel := rfl, replies := rfl, inProgress := rfl, expected := expected, pins := pins }

theorem Handed.refl (s : State) : Handed s s := .of_rest rfl rfl (fun _ => rfl) fun _ _ => id

/-- The bookkeeping of an event is within what the choices can do. -/
theorem Handed.of_bookkeeping {s t : State}
    (rest : t = { s with mn.counters := t.mn.counters, me.events := t.me.events, lc.tx := t.lc.tx })
    (kept : bookkeepingOnly s t) : Handed s t where
  drawing := by
    obtain ⟨selections, _, events, lane⟩ := kept
    refine ⟨?_, selections, events, lane⟩
    obtain ⟨c, e, x, rfl⟩ : ∃ c e x, t = { s with mn.counters := c, me.events := e, lc.tx := x } := ⟨_, _, _, rest⟩
    rfl
  image := by rw [rest]
  panel := by rw [rest]
  replies := by rw [rest]
  inProgress := by rw [rest]
  expected i := by rw [rest]; rfl
  pins n w free := by rw [rest]; exact free

theorem count_handed (x : SubEvent) (s : State) : Handed s (count x s) := by
  have counted := count_counted x s
  refine .of_bookkeeping ?_ counted.bookkeeping
  rw [counted.same_lc]
  exact counted.rest

theorem conclude_handed (before s : State) : Handed s (conclude before s) :=
  .of_bookkeeping (concluded_rest before s) (conclude_bookkeeping before s)

/-! ### Updates of the records -/

theorem takeFree_handed (s : State) : Handed s (takeFree s) := .of_rest rfl rfl (fun _ => rfl) fun _ _ => id

theorem exchangeTurns_handed (s : State) : Handed s (exchangeTurns s) := .of_rest rfl rfl (fun _ => rfl) fun _ _ => id

theorem setQueue_handed (side : Side) (q : List Entry) (s : State) : Handed s (setQueue side q s) := by
  cases side <;> exact .of_rest rfl rfl (fun _ => rfl) fun _ _ => id

theorem setEngine_handed (side : Side) (r : Option ExecRecord) (s : State) : Handed s (setEngine side r s) := by
  cases side <;> exact .of_rest rfl rfl (fun _ => rfl) fun _ _ => id

theorem setRecord_handed (side : Side) (r : FaultRecord) (s : State) : Handed s (setRecord side r s) := by
  cases side <;> exact .of_rest rfl rfl (fun _ => rfl) fun _ _ => id

theorem setStream_handed {i : Fin 8} {r : Stream} {s : State} (same : r.expected = (streamOf i s).expected) :
    Handed s (setStream i r s) := by
  refine .of_rest rfl rfl (fun j => ?_) fun _ _ => id
  by_cases h : i = j
  · subst h
    rw [streamOf_setStream_self, same]
  · rw [streamOf_setStream_ne h]

theorem mapStreams_handed {f : Fin 8 → Stream → Stream} (same : ∀ i r, (f i r).expected = r.expected) (s : State) :
    Handed s (mapStreams f s) :=
  .of_rest rfl rfl (fun i => by rw [streamOf_mapStreams, same]) fun _ _ => id

/-- A set of the directory may be replaced by one in which no further way is pinned. -/
theorem setTileSet_handed {key : Word} {ways : TileSet} {s : State}
    (unpinned : ∀ w : Fin 4, (tileSet key s)[w].pinned = false → ways[w].pinned = false) :
    Handed s (setTileSet key ways s) := by
  refine .of_rest rfl rfl (fun _ => rfl) fun n w free => ?_
  by_cases h : setIndex key = n
  · subst h
    simpa [setTileSet] using unpinned w free
  · have : (setIndex key).val ≠ n.val := fun e => h (Fin.ext e)
    simpa [setTileSet, this] using free

/-- An entry of a set may be replaced by one that is not pinned anew. -/
theorem set_unpinned {ways : TileSet} {w : Fin 4} {e : DirEntry} (unpinned : ways[w].pinned = false → e.pinned = false)
    (v : Fin 4) (free : ways[v].pinned = false) : (ways.set w e)[v].pinned = false := by
  by_cases h : w = v
  · subst h
    simpa using unpinned free
  · have : w.val ≠ v.val := fun e => h (Fin.ext e)
    simpa [this] using free

/-! ### The Tile Cache -/

/-- Making a way recent changes ages alone (R72). -/
theorem makeRecent_pinned (w v : Fin 4) (ways : TileSet) : (makeRecent w ways)[v].pinned = ways[v].pinned := by
  simp only [makeRecent, Fin.getElem_fin, Vector.getElem_ofFn]
  split
  · rfl
  · split <;> rfl

theorem mapEntry_handed {key : Word} {f : DirEntry → DirEntry} (unpinned : ∀ e, e.pinned = false → (f e).pinned = false)
    (s : State) : Handed s (mapEntry key f s) := by
  unfold mapEntry
  split
  · exact setTileSet_handed (set_unpinned (unpinned _))
  · exact .refl s

theorem wakeWay_handed (s : State) : Handed s (wakeWay s) :=
  mapStreams_handed (fun _ r => by split <;> rfl) s

theorem afterLookup_handed (key : Word) (l : Lookup) (s : State) : Handed s (afterLookup key l s) := by
  cases l with
  | hit w =>
    have recent : Handed s (setTileSet key (makeRecent w (tileSet key s)) s) :=
      setTileSet_handed fun v free => by rw [makeRecent_pinned, free]
    exact recent.trans (count_handed _ _)
  | sectorMiss w => exact count_handed _ s
  | absent => exact count_handed _ s

theorem releaseEntry_handed (key : Word) (s : State) : Handed s (releaseEntry key s) := by
  unfold releaseEntry
  split
  · next w _ =>
    have given : Handed s (setTileSet key ((tileSet key s).set w
        { (tileSet key s)[w] with reserve := (tileSet key s)[w].reserve - 1 }) s) := setTileSet_handed (set_unpinned id)
    dsimp only
    split
    · exact given.trans (wakeWay_handed _)
    · exact given
  · exact .refl s

theorem releaseReservation_handed (i : Fin 8) (s : State) : Handed s (releaseReservation i s) := by
  have cleared : Handed s (setStream i { streamOf i s with reservation := none } s) := setStream_handed rfl
  unfold releaseReservation
  split
  · exact cleared.trans (releaseEntry_handed _ _)
  · exact .refl s

/-- A way taken for a new key is not pinned (R76). -/
theorem takeWay_unpinned {key : Word} {w v : Fin 4} {ways : TileSet} (free : ways[v].pinned = false) :
    (takeWay key w ways)[v].pinned = false := by
  unfold takeWay
  refine set_unpinned (fun _ => rfl) v ?_
  rw [makeRecent_pinned, free]

theorem allocateWay_handed (key : Word) (w : Fin 4) (s : State) : Handed s (allocateWay key w s) := by
  have taken : Handed s (setTileSet key (takeWay key w (tileSet key s)) s) := setTileSet_handed fun _ => takeWay_unpinned
  simp only [allocateWay]
  split
  · exact taken.trans (count_handed _ _)
  · exact taken

/-! ### The Tile Fault Unit takes a miss -/

theorem setWait_handed (i : Fin 8) (x : StreamState) (s : State) : Handed s (setWait i x s) := setStream_handed rfl

theorem trackRaise_handed (side : Side) (key : Word) (s : State) : Handed s (trackRaise side key s) := by
  unfold trackRaise
  split
  · exact .refl s
  · exact .of_rest rfl rfl (fun _ => rfl) fun _ _ => id

theorem joinFault_handed (side : Side) (i : Fin 8) (mask : BitVec 4) (s : State) : Handed s (joinFault side i mask s) := by
  simp only [joinFault]
  split
  · exact (setRecord_handed _ _ _).trans ((count_handed _ _).trans (setWait_handed _ _ _))
  · exact (setRecord_handed _ _ _).trans ((count_handed _ _).trans ((count_handed _ _).trans (setWait_handed _ _ _)))

theorem raiseFault_handed (side : Side) (i : Fin 8) (key : Word) (mask : BitVec 4) (s : State) :
    Handed s (raiseFault side i key mask s) := by
  have marked : Handed s (mapEntry key (fun e => { e with pending := true }) s) :=
    mapEntry_handed (f := fun e => { e with pending := true }) (fun _ free => free) s
  unfold raiseFault
  exact marked.trans ((setRecord_handed _ _ _).trans ((count_handed _ _).trans
    ((trackRaise_handed _ _ _).trans (setWait_handed _ _ _))))

theorem takeMiss_handed (side : Side) (i : Fin 8) (key : Word) (mask : BitVec 4) (present : Bool) (s : State) :
    Handed s (takeMiss side i key mask present s) := by
  unfold takeMiss
  split
  · exact joinFault_handed _ _ _ _
  · split
    · exact (count_handed _ _).trans (setWait_handed _ _ _)
    · split
      · exact raiseFault_handed _ _ _ _ _
      · split
        · exact (allocateWay_handed _ _ _).trans (raiseFault_handed _ _ _ _ _)
        · exact (count_handed _ _).trans (setWait_handed _ _ _)

/-! ### The handovers -/

/-- The turns at the frame store may pass on: a writer that is given it has written nothing yet. -/
theorem passStore_handed (holder : Option Writer) (waiting : List Writer) (began : Nat) (fill : Option Half) (s : State) :
    Handed s { s with fs.holder := holder, fs.waiting := waiting, fs.began := began, lu.fillColour := fill } :=
  .of_rest rfl rfl (fun _ => rfl) fun _ _ => id

theorem grantStore_handed (s : State) : Handed s (grantStore s) := by
  unfold grantStore
  split
  · split
    · next w rest _ =>
      dsimp only
      split
      · exact (passStore_handed (some w) rest s.free (some s.lu.undocked) s).trans (count_handed _ _)
      · exact passStore_handed (some w) rest s.free s.lu.fillColour s
    · exact .refl s
  · exact .refl s

theorem askStore_handed (w : Writer) (s : State) : Handed s (askStore w s) :=
  (passStore_handed s.fs.holder (s.fs.waiting ++ [w]) s.fs.began s.lu.fillColour s).trans (grantStore_handed _)

theorem beginExecution_handed (side : Side) (r : ExecRecord) (s : State) : Handed s (beginExecution side r s) :=
  (setQueue_handed _ _ _).trans ((setEngine_handed _ _ _).trans (askStore_handed _ _))

theorem removeEntry_handed (side : Side) (r : ExecRecord) (s : State) : Handed s (removeEntry side r s) :=
  setQueue_handed _ _ _

theorem handPlace_handed (side : Side) (r : ExecRecord) (key : Word) (y : Int) (s : State) :
    Handed s (handPlace side r key y s) := by
  have looked (l : Lookup) : Handed s (releaseReservation r.stream (afterLookup key l s)) :=
    (afterLookup_handed key l s).trans (releaseReservation_handed _ _)
  simp only [handPlace]
  split
  · exact (looked _).trans (beginExecution_handed _ _ _)
  · exact (looked _).trans (takeMiss_handed _ _ _ _ _ _)
  · exact (looked _).trans (takeMiss_handed _ _ _ _ _ _)

theorem handOver_handed (side : Side) (e : Entry) (s : State) : Handed s (handOver side e s) := by
  have done (x : SubEvent) (r : ExecRecord) : Handed s (removeEntry side r (count x s)) :=
    (count_handed x s).trans (removeEntry_handed _ _ _)
  simp only [handOver]
  split
  case h_1 =>
    split
    · exact (done _ _).trans (releaseReservation_handed _ _)
    · split
      · exact (done _ _).trans (releaseReservation_handed _ _)
      · exact handPlace_handed _ _ _ _ _
  case h_2 | h_3 =>
    split
    · exact done _ _
    · exact beginExecution_handed _ _ _

theorem handFuel_handed (fuel : Nat) (s : State) : Handed s (handFuel fuel s) := by
  induction fuel generalizing s with
  | zero => exact .refl s
  | succ fuel ih =>
    unfold handFuel
    split
    · exact .refl s
    · exact (handOver_handed _ _ _).trans (ih _)
    · exact (handOver_handed _ _ _).trans (ih _)
    · split
      · exact (takeFree_handed s).trans ((handOver_handed _ _ _).trans (ih _))
      · exact (takeFree_handed s).trans ((handOver_handed _ _ _).trans (ih _))

theorem handAll_handed (s : State) : Handed s (handAll s) := by
  have each : Handed s (handEach s) := handFuel_handed _ s
  rcases handAll_cases s with h | h | h <;> rw [h]
  · exact each
  · exact each.trans (takeFree_handed _)
  · exact each.trans ((takeFree_handed _).trans (exchangeTurns_handed _))

/-- With no request in progress the end of a drain owes no reply (R62). -/
theorem checkDrain_handed {s : State} (idle : s.me.inProgress = none) : Handed s (checkDrain s) := by
  unfold checkDrain
  split
  · have silent : endOp .quiesce .ok { s with sq.quiesce := .quiesced } = { s with sq.quiesce := .quiesced } := by
      simp [endOp, idle]
    rw [silent]
    exact .of_rest rfl rfl (fun _ => rfl) fun _ _ => id
  · exact .refl s

/-- The sequencer's part of an event, with no request in progress. -/
theorem settle_handed {s : State} (idle : s.me.inProgress = none) : Handed s (settle s) :=
  (handAll_handed s).trans (checkDrain_handed ((handAll_handed s).inProgress.trans idle))

end Sys2Proof.Machine
end

section
/-! PROOFS. Pins (R84, R85): the lookup of a key that is to be pinned or unpinned, the checks of TILE_PIN and TILE_UNPIN equation
by equation, and the settlement of O43. -/

namespace Sys2Proof.Machine

/-! ### The lookup of a key (R73) -/

/-- A key that a pin cannot name in set n: 0, or one that no valid way of the set holds. -/
abbrev absentFrom (key : Word) (n : Fin 64) (s : State) : Prop :=
  key = 0 ∨ ∀ w : Fin 4, s.tc.dir[n][w].valid = true → s.tc.dir[n][w].key ≠ key

theorem tileSet_eq {key : Word} {n : Fin 64} (number : n.val = key.toNat % 64) (s : State) : tileSet key s = s.tc.dir[n] := by
  obtain rfl : setIndex key = n := Fin.ext number.symm
  rfl

theorem setTileSet_eq {key : Word} {n : Fin 64} (number : n.val = key.toNat % 64) (ways : TileSet) (s : State) :
    setTileSet key ways s = { s with tc.dir := s.tc.dir.set n ways } := by
  obtain rfl : setIndex key = n := Fin.ext number.symm
  rfl

theorem findWay_none {key : Word} {ways : TileSet} (absent : ∀ w : Fin 4, ways[w].valid = true → ways[w].key ≠ key) :
    findWay key ways = none := by
  refine List.find?_eq_none.2 fun w _ => ?_
  simpa using absent w

/-- The lookup finds the lowest valid way that holds the key. -/
theorem findWay_lowest {key : Word} {ways : TileSet} {w : Fin 4} (valid : ways[w].valid = true) (holds : ways[w].key = key)
    (lowest : ∀ v : Fin 4, v < w → ways[v].valid = true → ways[v].key ≠ key) : findWay key ways = some w := by
  refine List.find?_eq_some_iff_getElem.2 ⟨by simp only [valid, holds, beq_self_eq_true, Bool.and_self], w.val, by simp, by simp,
    fun j below => ?_⟩
  simpa [imp_iff_not_or] using lowest ⟨j, by omega⟩ below

/-! ### TILE_PIN and TILE_UNPIN on a state -/

/-- The state with an entry of the directory replaced. -/
def setEntry (n : Fin 64) (w : Fin 4) (e : DirEntry) (s : State) : State :=
  { s with tc.dir := s.tc.dir.set n (s.tc.dir[n].set w e) }

@[simp] theorem setEntry_sq (n : Fin 64) (w : Fin 4) (e : DirEntry) (s : State) : (setEntry n w e s).sq = s.sq := rfl
@[simp] theorem setEntry_de (n : Fin 64) (w : Fin 4) (e : DirEntry) (s : State) : (setEntry n w e s).de = s.de := rfl
@[simp] theorem setEntry_tf (n : Fin 64) (w : Fin 4) (e : DirEntry) (s : State) : (setEntry n w e s).tf = s.tf := rfl

/-- Which streams are woken turns on the sequencer alone. -/
theorem wakeWay_sq {s t : State} (same : t.sq = s.sq) : (wakeWay t).sq = (wakeWay s).sq := by
  simp only [wakeWay, mapStreams, same]

section
variable {key : Word} {n : Fin 64} {s : State} (number : n.val = key.toNat % 64) (tag : Byte)
include number

theorem doTilePin_absent (absent : absentFrom key n s) : doTilePin tag key s = answer tag 0x08 .notPresent s := by
  rcases absent with rfl | unheld
  · rfl
  · simp only [doTilePin, tileSet_eq number, findWay_none unheld, ite_self]

theorem unpin_absent (absent : absentFrom key n s) : unpin tag key s = answer tag 0x09 .notPresent s := by
  rcases absent with rfl | unheld
  · rfl
  · simp only [unpin, tileSet_eq number, findWay_none unheld, ite_self]

end

section
variable {key : Word} {n : Fin 64} {w : Fin 4} {s : State} (found : foundAt key n w s) (named : key ≠ 0) (tag : Byte)
include found named

theorem doTilePin_found :
    doTilePin tag key s =
      if s.tc.dir[n][w].sectors ≠ 15 ∨ s.tc.dir[n][w].pending = true then answer tag 0x08 .notPresent s
      else if s.tc.dir[n][w].pinned = true then answer tag 0x08 .ok s
      else if 3 ≤ pinnedWays s.tc.dir[n] then answer tag 0x08 .pinLimit s
      else answer tag 0x08 .ok (setEntry n w { s.tc.dir[n][w] with pinned := true } s) := by
  obtain ⟨number, valid, holds, lowest⟩ := found
  simp only [doTilePin, if_neg named, tileSet_eq number, findWay_lowest valid holds lowest, setTileSet_eq number]
  rfl

theorem unpin_found :
    unpin tag key s =
      if s.tc.dir[n][w].pinned = true then
        answer tag 0x09 .ok (wakeWay (setEntry n w { s.tc.dir[n][w] with pinned := false } s))
      else answer tag 0x09 .ok s := by
  obtain ⟨number, valid, holds, lowest⟩ := found
  simp only [unpin, if_neg named, tileSet_eq number, findWay_lowest valid holds lowest, setTileSet_eq number]
  rfl

/-- After an unpin of a key that is present the reply is OK and the entry has no pin (R85). -/
theorem unpin_present :
    (unpin tag key s).lc.replies = s.lc.replies ++ [⟨tag, 0x09, .ok, []⟩] ∧ (unpin tag key s).tc.dir[n][w].pinned = false := by
  rw [unpin_found found named tag]
  split
  · simp [wakeWay, setEntry]
  · next free => exact ⟨rfl, eq_false_of_ne_true free⟩

end

/-- Whatever the key, an unpin queues one reply, and before it pins no way and leaves what the choices leave. -/
theorem unpin_answers (tag : Byte) (key : Word) (s : State) :
    ∃ x a, unpin tag key s = answer tag 0x09 x a ∧ Handed s a := by
  simp only [unpin]
  split
  · next w _ =>
    have freed : Handed s (setTileSet key ((tileSet key s).set w { (tileSet key s)[w] with pinned := false }) s) :=
      setTileSet_handed (set_unpinned fun _ => rfl)
    split
    · exact ⟨_, _, rfl, freed.trans (wakeWay_handed _)⟩
    · exact ⟨_, _, rfl, .refl s⟩
  · exact ⟨_, _, rfl, .refl s⟩

/-! ### The event of a request that is taken -/

@[simp] theorem passed_lc (s : State) : (passed s).lc = { s.lc with failureCount := 0 } := rfl
@[simp] theorem passed_sq (s : State) : (passed s).sq = s.sq := rfl
@[simp] theorem passed_de (s : State) : (passed s).de = s.de := rfl
@[simp] theorem passed_tc (s : State) : (passed s).tc = s.tc := rfl
@[simp] theorem passed_tf (s : State) : (passed s).tf = s.tf := rfl

/-- Passing and counting do not bear on a lookup. -/
theorem foundAt_taken {key : Word} {n : Fin 64} {w : Fin 4} {s : State} (found : foundAt key n w s) (x : SubEvent) :
    foundAt key n w (count x (passed s)) := by
  unfold foundAt
  rwa [count_tc, passed_tc]

theorem absentFrom_taken {key : Word} {n : Fin 64} {s : State} (absent : absentFrom key n s) (x : SubEvent) :
    absentFrom key n (count x (passed s)) := by
  unfold absentFrom
  rwa [count_tc, passed_tc]

/-- Whether the sequencer has a choice to make turns on the streams, the engines and the fault records. -/
theorem settled_of_same {s t : State} (h : settled s) (sq : t.sq = s.sq) (de : t.de = s.de) (tf : t.tf = s.tf) : settled t := by
  rw [settled_iff] at h ⊢
  simpa only [streamOf, nothingLeft, sq, de, tf] using h

theorem endsAs.setEntry {u v : State} {us : List SubEvent} (h : endsAs u us v) (n : Fin 64) (w : Fin 4) (e : DirEntry) :
    endsAs (setEntry n w e u) us (setEntry n w e v) :=
  h.map (Machine.setEntry n w e) (fun _ _ _ _ => rfl) (fun _ => rfl) (fun _ => rfl) (fun _ => rfl) fun _ => rfl

theorem endsAs.wakeWay {u v : State} {us : List SubEvent} (h : endsAs u us v) : endsAs (wakeWay u) us (wakeWay v) :=
  h.map Machine.wakeWay (fun _ _ _ _ => rfl) (fun _ => rfl) (fun _ => rfl) (fun _ => rfl) fun _ => rfl

theorem exec_tilePin (tag : Byte) (key : Word) (s : State) : exec (.tilePin tag key) s = execTilePin tag key s := by rfl

theorem exec_tileUnpin (tag : Byte) (key : Word) (s : State) : exec (.tileUnpin tag key) s = execTileUnpin tag key s := by rfl

section
variable {tag : Byte} {key : Word} {s u : State} (taken : takesRequest s)
include taken

theorem tilePin_ends (h : endsAs u [.reqTaken] (doTilePin tag key (count .reqTaken (passed s)))) :
    ∃ t, exec (.tilePin tag key) s = .next t ∧ endsAs u [.reqTaken] t := by
  rw [exec_tilePin]
  exact request_ends taken h

/-- A TILE_PIN that pins nothing leaves nothing but its reply. -/
theorem tilePin_answered {x : Status}
    (h : doTilePin tag key (count .reqTaken (passed s)) = answer tag 0x08 x (count .reqTaken (passed s))) :
    ∃ t, exec (.tilePin tag key) s = .next t ∧ endsAs (replied tag 0x08 x [] s) [.reqTaken] t :=
  tilePin_ends taken (h ▸ (taken_ends (passed s)).answer tag 0x08 x)

/-- A TILE_UNPIN that leaves the sequencer no choice ends as the unpin does. -/
theorem tileUnpin_ends {v : State} (h : unpin tag key (count .reqTaken (passed s)) = v) (still : settled v)
    (ends : endsAs u [.reqTaken] v) : ∃ t, exec (.tileUnpin tag key) s = .next t ∧ endsAs u [.reqTaken] t := by
  subst h
  rw [exec_tileUnpin]
  refine request_ends taken ?_
  rwa [doTileUnpin, settle_settled still]

/-- A TILE_UNPIN that unpins nothing leaves nothing but its reply. -/
theorem tileUnpin_answered {x : Status} (still : settled s)
    (h : unpin tag key (count .reqTaken (passed s)) = answer tag 0x09 x (count .reqTaken (passed s))) :
    ∃ t, exec (.tileUnpin tag key) s = .next t ∧ endsAs (replied tag 0x09 x [] s) [.reqTaken] t :=
  tileUnpin_ends taken h (settled_of_same still (by simp) (by simp) (by simp)) ((taken_ends (passed s)).answer tag 0x09 x)

/-- Whatever is handed over next, a TILE_UNPIN ends in the state that the unpin leaves but for what the choices can do. -/
theorem tileUnpin_next : ∃ t, exec (.tileUnpin tag key) s = .next t ∧
    Handed (unpin tag key (count .reqTaken (passed s))) t := by
  have ⟨_, _, free, _⟩ := taken
  obtain ⟨x, a, answered, handed⟩ := unpin_answers tag key (count .reqTaken (passed s))
  have idle : (unpin tag key (count .reqTaken (passed s))).me.inProgress = none := by
    rw [answered]
    exact (handed.inProgress.trans (count_inProgress _ _)).trans free
  rw [exec_tileUnpin]
  exact ⟨_, requestArrival_taken tag 0x09 (doTileUnpin tag key) taken, (settle_handed idle).trans (conclude_handed s _)⟩

end

/-! ### TILE_PIN and TILE_UNPIN case by case (R84, R85) -/

section
variable {tag : Byte} {key : Word} {n : Fin 64} {w : Fin 4} {s : State} (taken : takesRequest s) (found : foundAt key n w s)
  (named : key ≠ 0)
include taken found named

/-- R84 for a key that is present, in the order of the checks. -/
theorem tilePin_present :
    (s.tc.dir[n][w].sectors ≠ 15 ∨ s.tc.dir[n][w].pending = true → ∃ t, exec (.tilePin tag key) s = .next t ∧
      endsAs (replied tag 0x08 .notPresent [] s) [.reqTaken] t) ∧
    (s.tc.dir[n][w].sectors = 15 → s.tc.dir[n][w].pending = false →
      (s.tc.dir[n][w].pinned = true → ∃ t, exec (.tilePin tag key) s = .next t ∧
        endsAs (replied tag 0x08 .ok [] s) [.reqTaken] t) ∧
      (s.tc.dir[n][w].pinned = false → 3 ≤ pinnedWays s.tc.dir[n] → ∃ t, exec (.tilePin tag key) s = .next t ∧
        endsAs (replied tag 0x08 .pinLimit [] s) [.reqTaken] t) ∧
      (s.tc.dir[n][w].pinned = false → pinnedWays s.tc.dir[n] < 3 → ∃ t, exec (.tilePin tag key) s = .next t ∧
        endsAs (replied tag 0x08 .ok [] (setEntry n w { s.tc.dir[n][w] with pinned := true } s)) [.reqTaken] t)) := by
  have checks := doTilePin_found (foundAt_taken found .reqTaken) named tag
  simp only [count_tc, passed_tc] at checks
  refine ⟨fun partly => ?_, fun whole ready => ?_⟩
  · rw [if_pos partly] at checks
    exact tilePin_answered taken checks
  · rw [if_neg fun partly => partly.elim (· whole) (ne_true_of_eq_false ready)] at checks
    refine ⟨fun pinned => ?_, fun free full => ?_, fun free room => ?_⟩
    · rw [if_pos pinned] at checks
      exact tilePin_answered taken checks
    · rw [if_neg (ne_true_of_eq_false free), if_pos full] at checks
      exact tilePin_answered taken checks
    · rw [if_neg (ne_true_of_eq_false free), if_neg (by omega)] at checks
      exact tilePin_ends taken (checks ▸ ((taken_ends (passed s)).setEntry n w _).answer tag 0x08 .ok)

/-- R85 for a key that is present without a pin. -/
theorem tileUnpin_free (still : settled s) (free : s.tc.dir[n][w].pinned = false) :
    ∃ t, exec (.tileUnpin tag key) s = .next t ∧ endsAs (replied tag 0x09 .ok [] s) [.reqTaken] t := by
  have checks := unpin_found (foundAt_taken found .reqTaken) named tag
  simp only [count_tc, passed_tc] at checks
  rw [if_neg (ne_true_of_eq_false free)] at checks
  exact tileUnpin_answered taken still checks

/-- R85 for a key that is pinned, where the streams woken have nothing to hand over. -/
theorem tileUnpin_pinned (pinned : s.tc.dir[n][w].pinned = true)
    (still : settled (wakeWay (setEntry n w { s.tc.dir[n][w] with pinned := false } s))) :
    ∃ t, exec (.tileUnpin tag key) s = .next t ∧
      endsAs (replied tag 0x09 .ok [] (wakeWay (setEntry n w { s.tc.dir[n][w] with pinned := false } s))) [.reqTaken] t := by
  have checks := unpin_found (foundAt_taken found .reqTaken) named tag
  simp only [count_tc, passed_tc] at checks
  rw [if_pos pinned] at checks
  refine tileUnpin_ends taken checks (settled_of_same still ?_ ?_ ?_)
    (((taken_ends (passed s)).setEntry n w _).wakeWay.answer tag 0x09 .ok)
  · exact wakeWay_sq (by simp)
  · simp [wakeWay]
  · simp [wakeWay]

end

/-- R85, whatever the sequencer's choices are: the reply, that the pin is gone, and what nothing but drawing changes. -/
theorem tileUnpin_reply {tag : Byte} {key : Word} {n : Fin 64} {s : State} (taken : takesRequest s)
    (number : n.val = key.toNat % 64) :
    ∃ t, exec (.tileUnpin tag key) s = .next t ∧ drawingOnly (passed s) t ∧
      (absentFrom key n s → t.lc.replies = s.lc.replies ++ [⟨tag, 0x09, .notPresent, []⟩]) ∧
      (∀ w : Fin 4, key ≠ 0 → foundAt key n w s →
        t.lc.replies = s.lc.replies ++ [⟨tag, 0x09, .ok, []⟩] ∧ t.tc.dir[n][w].pinned = false) ∧
      t.fs.image = s.fs.image ∧ t.pu = s.pu ∧ ∀ i : Fin 8, (streamOf i t).expected = (streamOf i s).expected := by
  obtain ⟨t, next, after⟩ := tileUnpin_next (tag := tag) (key := key) taken
  obtain ⟨x, a, answered, before⟩ := unpin_answers tag key (count .reqTaken (passed s))
  have before : Handed (passed s) a := (count_handed _ _).trans before
  refine ⟨t, next, ?_, fun absent => ?_, fun w named found => ?_, ?_, ?_, fun i => ?_⟩
  · exact before.drawing.trans ((answer_drawingOnly tag 0x09 x a).trans (answered ▸ after).drawing)
  · rw [after.replies, unpin_absent number tag (absentFrom_taken absent .reqTaken)]
    simp
  · obtain ⟨replies, unpinned⟩ := unpin_present (foundAt_taken found .reqTaken) named tag
    rw [after.replies, replies]
    exact ⟨by simp, after.pins n w unpinned⟩
  · rw [after.image, answered]
    exact before.image
  · rw [after.panel, answered]
    exact before.panel
  · rw [after.expected, answered]
    exact before.expected i

/-- Settles O43: the lookup tells a key that is absent from one that is present; then the checks of R84 in their order, and R85
with and without a pin to take away. -/
theorem pinsProtectAtMostThreeWays : Obligations.PinsProtectAtMostThreeWays := by
  intro tag key s n taken number
  refine ⟨fun absent => ?_, fun w named valid holds lowest => ?_, ?_⟩
  · have absent := absentFrom_taken absent .reqTaken
    exact ⟨tilePin_answered taken (doTilePin_absent number tag absent),
      fun still => tileUnpin_answered taken still (unpin_absent number tag absent)⟩
  · have found : foundAt key n w s := ⟨number, valid, holds, lowest⟩
    obtain ⟨refused, checked⟩ := tilePin_present (tag := tag) taken found named
    refine ⟨refused, checked, tileUnpin_free taken found named, fun u pinned same still => ?_⟩
    subst same
    exact tileUnpin_pinned taken found named pinned still
  · obtain ⟨t, next, drawing, absent, present, rest⟩ := tileUnpin_reply (tag := tag) taken number
    exact ⟨t, next, drawing, absent, fun w named valid holds lowest => present w named ⟨number, valid, holds, lowest⟩, rest⟩

end Sys2Proof.Machine
end

section
/-! PROOFS. The end of an execution in general (R118, R119): the command's pixels stand in the picture, its blocks are marked, and
whatever the sequencer does next draws nothing and sends no block. One lemma per operation. -/

namespace Sys2Proof.Machine

/-! ### What follows the write of the pixels -/

/-- From s to t the drawing blocks may change, but the picture and the panel stay. -/
structure PictureKept (s t : State) : Prop where
  drawing : drawingOnly s t
  image : t.fs.image = s.fs.image
  panel : t.pu = s.pu

theorem PictureKept.trans {s t u : State} (h : PictureKept s t) (g : PictureKept t u) : PictureKept s u where
  drawing := h.drawing.trans g.drawing
  image := g.image.trans h.image
  panel := g.panel.trans h.panel

theorem Handed.pictureKept {s t : State} (h : Handed s t) : PictureKept s t := ⟨h.drawing, h.image, h.panel⟩

/-- The end of a request changes the request in progress and the REPLY queue, nothing else. -/
theorem endLong_rest (status : Status) (s : State) :
    endLong status s =
      { s with lc.replies := (endLong status s).lc.replies, me.inProgress := (endLong status s).me.inProgress } := by
  unfold endLong
  split
  · split <;> rfl
  · rfl

theorem endOp_pictureKept (op : LongOp) (status : Status) (s : State) : PictureKept s (endOp op status s) := by
  have ended (replies : List Reply) (request : Option Request) :
      PictureKept s { s with lc.replies := replies, me.inProgress := request } :=
    ⟨⟨rfl, fun _ => ⟨rfl, rfl, rfl, rfl⟩, eventsKept_of_same rfl rfl, fun _ => rfl⟩, rfl, rfl⟩
  unfold endOp
  split
  · rw [endLong_rest]
    exact ended _ _
  · exact (Handed.refl s).pictureKept

/-- R62: the end of a drain, with its reply owed or not. -/
theorem checkDrain_pictureKept (s : State) : PictureKept s (checkDrain s) := by
  have quiesced : Handed s { s with sq.quiesce := .quiesced } := .of_rest rfl rfl (fun _ => rfl) fun _ _ => id
  unfold checkDrain
  split
  · exact quiesced.pictureKept.trans (endOp_pictureKept _ _ _)
  · exact (Handed.refl s).pictureKept

theorem settle_pictureKept (s : State) : PictureKept s (settle s) :=
  (handAll_handed s).pictureKept.trans (checkDrain_pictureKept _)

/-! ### Selections and marks (R126 to R128) -/

/-- The picture and its writers, the panel and the count of free values may change. -/
theorem drawingOnly_of_panel (fs : FrameStore) (pu : PanelUpdater) (free : Nat) (s : State) :
    drawingOnly s { s with fs := fs, pu := pu, free := free } :=
  ⟨rfl, fun _ => ⟨rfl, rfl, rfl, rfl⟩, eventsKept_of_same rfl rfl, fun _ => rfl⟩

/-- A block that the search finds is dirty. -/
theorem firstDirty_dirty {dirty : List Bool} {lo hi i : Nat} (h : firstDirty dirty lo hi = some i) :
    dirty.getD i false = true := List.find?_some (p := fun k => dirty.getD k false) h

theorem nextBlock_dirty {s : State} {i : Nat} (h : nextBlock s = some i) : s.pu.dirty.getD i false = true := by
  rcases Option.or_eq_some_iff.1 h with found | ⟨_, found⟩ <;> exact firstDirty_dirty found

/-- A selection does nothing, or with no block in flight sends a dirty one. -/
theorem selectBlock_cases (s : State) :
    selectBlock s = s ∨
      ∃ i, s.pu.inFlight = none ∧ s.pu.dirty.getD i false = true ∧ selectBlock s = sendBlock i s := by
  unfold selectBlock
  split
  · next free =>
    simp only [Bool.and_eq_true, Option.isNone_iff_eq_none] at free
    split
    · next i next => exact .inr ⟨i, free.1, nextBlock_dirty next, rfl⟩
    · exact .inl rfl
  · exact .inl rfl

theorem sendBlock_drawing (i : Nat) (s : State) : drawingOnly s (sendBlock i s) :=
  (drawingOnly_of_panel s.fs _ _ s).trans (count_handed _ _).drawing

theorem selectBlock_drawing (s : State) : drawingOnly s (selectBlock s) := by
  rcases selectBlock_cases s with same | ⟨i, _, _, sends⟩
  · rw [same]
    exact (Handed.refl s).drawing
  · rw [sends]
    exact sendBlock_drawing i s

theorem markBlocks_drawing (named : Nat → Bool) (s : State) : drawingOnly s (markBlocks named s) :=
  (drawingOnly_of_panel s.fs _ s.free s).trans (selectBlock_drawing _)

@[simp] theorem selectBlock_fs (s : State) : (selectBlock s).fs = s.fs := by
  rcases selectBlock_cases s with same | ⟨i, _, _, sends⟩
  · rw [same]
  · rw [sends]
    simp [sendBlock]

@[simp] theorem markBlocks_fs (named : Nat → Bool) (s : State) : (markBlocks named s).fs = s.fs := selectBlock_fs _

/-- A block is dirty after a selection, or in flight when the selection has sent it, exactly when it was dirty before. -/
theorem selectBlock_dirty (s : State) (k : Nat) :
    ((selectBlock s).pu.dirty.getD k false = true ∨
        (s.pu.inFlight = none ∧ ∃ f, (selectBlock s).pu.inFlight = some f ∧ f.block = k)) ↔
      s.pu.dirty.getD k false = true := by
  rcases selectBlock_cases s with same | ⟨i, free, dirty, sends⟩
  · rw [same]
    refine or_iff_left ?_
    rintro ⟨free, f, flight, _⟩
    simp [free] at flight
  · have flags : (selectBlock s).pu.dirty = s.pu.dirty.set i false := by simp [sends, sendBlock]
    have flight : (selectBlock s).pu.inFlight.map InFlight.block = some i := by simp [sends, sendBlock]
    have sent : (∃ f, (selectBlock s).pu.inFlight = some f ∧ f.block = k) ↔ i = k := by
      rw [← Option.map_eq_some_iff, flight, Option.some_inj]
    rw [flags, sent]
    by_cases same : i = k
    · subst same
      exact ⟨fun _ => dirty, fun _ => .inr ⟨free, rfl⟩⟩
    · simp [List.getD_eq_getElem?_getD, List.getElem?_set_ne same, same]

/-- R126: after a mark exactly the blocks that were dirty and those named are dirty, but for one that the selection has sent. -/
theorem markBlocks_dirty (named : Nat → Bool) (s : State) {k : Nat} (block : k < s.pu.dirty.length) :
    ((markBlocks named s).pu.dirty.getD k false = true ∨
        (s.pu.inFlight = none ∧ ∃ f, (markBlocks named s).pu.inFlight = some f ∧ f.block = k)) ↔
      (s.pu.dirty.getD k false = true ∨ named k = true) := by
  refine (selectBlock_dirty { s with pu.dirty := s.pu.dirty.mapIdx fun i d => d || named i } k).trans ?_
  simp [List.getD_eq_getElem?_getD, List.getElem?_eq_getElem block]

/-! ### EXECUTION_END (R119) -/

/-- The state of an execution's end in which the pixels are written and the frame store is free (R119). -/
def pixelsWritten (r : ExecRecord) (s : State) : State :=
  readToEnd (writeCommand (panelW s) (panelPixels s) r s.fs.image)
    { s with fs.image := writeCommand (panelW s) (panelPixels s) r s.fs.image, fs.holder := none }

/-- The same with the blocks marked (R118), and a selection made. -/
def drawn (r : ExecRecord) (s : State) : State := markBlocks (commandBlocks s r) (pixelsWritten r s)

/-- Beside the picture and its holder, the write changes the block write on the port and the count of free values. -/
theorem pixelsWritten_rest (r : ExecRecord) (s : State) :
    pixelsWritten r s = { s with
      fs.image := writeCommand (panelW s) (panelPixels s) r s.fs.image, fs.holder := none
      pu.port := (pixelsWritten r s).pu.port, free := (pixelsWritten r s).free } := readToEnd_rest _ _

theorem drawn_drawing (r : ExecRecord) (s : State) : drawingOnly s (drawn r s) := by
  have written : drawingOnly s (pixelsWritten r s) := by
    rw [pixelsWritten_rest]
    exact drawingOnly_of_panel _ _ _ s
  exact written.trans (markBlocks_drawing _ _)

theorem drawn_image (r : ExecRecord) (s : State) :
    (drawn r s).fs.image = writeCommand (panelW s) (panelPixels s) r s.fs.image := by
  rw [drawn, markBlocks_fs, pixelsWritten_rest]

theorem drawn_dirty (r : ExecRecord) (s : State) {k : Nat} (block : k < s.pu.dirty.length) :
    ((drawn r s).pu.dirty.getD k false = true ∨
        (s.pu.inFlight = none ∧ ∃ f, (drawn r s).pu.inFlight = some f ∧ f.block = k)) ↔
      (s.pu.dirty.getD k false = true ∨ commandBlocks s r k = true) := by
  have flags : (pixelsWritten r s).pu.dirty = s.pu.dirty := by rw [pixelsWritten_rest]
  have flight : (pixelsWritten r s).pu.inFlight = s.pu.inFlight := by rw [pixelsWritten_rest]
  have marks := markBlocks_dirty (commandBlocks s r) (pixelsWritten r s) (flags ▸ block)
  rwa [flags, flight] at marks

/-- With the pixels written, the rest of the end touches the queue, the engine and the turns at the frame store. -/
theorem finishExecution_handed (side : Side) (r : ExecRecord) (s : State) :
    Handed (drawn r s) (finishExecution side r s) := by
  have finished {t : State} (h : Handed (drawn r s) t) :
      Handed (drawn r s) (grantStore (setEngine side none (count (drawnEvent r.command) t))) :=
    h.trans ((count_handed _ _).trans ((setEngine_handed _ _ _).trans (grantStore_handed _)))
  simp only [finishExecution]
  split
  · exact finished (.refl _)
  · exact finished (removeEntry_handed _ _ _)

theorem exec_executionEnd (side : Side) (s : State) : exec (.executionEnd side) s = execExecutionEnd side s := by rfl

/-- The end of an execution leaves the picture and the panel as the write and its marks do, whatever is handed over next. -/
theorem executionEnd_draws {side : Side} {r : ExecRecord} {s : State} (busy : engineOf side s = some r)
    (writing : s.fs.holder = some (.engine side)) :
    ∃ t, exec (.executionEnd side) s = .next t ∧ PictureKept (drawn r s) t := by
  have ended : execExecutionEnd side s = .next (conclude s (settle (finishExecution side r s))) := by
    simp only [execExecutionEnd, busy, writing, if_true]
  exact ⟨_, (exec_executionEnd side s).trans ended, (finishExecution_handed side r s).pictureKept.trans
    ((settle_pictureKept _).trans (conclude_handed s _).pictureKept)⟩

/-- R118: the end of an execution marks the blocks of its command. -/
theorem executionEnd_marks {mark : Nat → Nat → Prop} {r : ExecRecord} {s t : State} (shape : panelShape s)
    (after : PictureKept (drawn r s) t)
    (marked : ∀ col row : Nat, col < s.lu.width → (commandBlocks s r (row * s.lu.width + col) = true ↔ mark col row)) :
    marksBlocks mark s t := by
  obtain ⟨_, _, blocks, _, _⟩ := shape
  intro col row inCol inRow
  have block : row * s.lu.width + col < s.pu.dirty.length := by
    calc row * s.lu.width + col < (row + 1) * s.lu.width := by rw [Nat.succ_mul]; omega
      _ ≤ s.lu.height * s.lu.width := Nat.mul_le_mul_right _ inRow
      _ = s.pu.dirty.length := by rw [blocks, blockCount, Nat.mul_comm]
  rw [after.panel, drawn_dirty r s block, marked col row inCol]

/-- R118: a rectangle touches the block at a column and a row when its block columns and block rows take these in. -/
theorem touches_iff {s : State} {x0 x1 y0 y1 col row : Nat} (inCol : col < s.lu.width) :
    touches s x0 x1 y0 y1 (row * s.lu.width + col) = true ↔
      x0 / 16 ≤ col ∧ col ≤ x1 / 16 ∧ y0 / 16 ≤ row ∧ row ≤ y1 / 16 := by
  have column : (row * s.lu.width + col) % s.lu.width = col := by
    rw [Nat.mul_comm, Nat.mul_add_mod, Nat.mod_eq_of_lt inCol]
  have line : (row * s.lu.width + col) / s.lu.width = row := by
    rw [Nat.mul_comm, Nat.mul_add_div (by omega), Nat.div_eq_of_lt inCol, Nat.add_zero]
  simp [touches, inBlockRect, column, line, and_assoc]

end Sys2Proof.Machine
end

section
/-! PROOFS. The pixels of a FILL (R116): what a rectangle of one colour leaves at each position of the screen, and the settlement
of O25. -/

namespace Sys2Proof.Machine

/-! ### A rectangle in raster order (R24) -/

/-- A stretch of n pixels that starts in column x of a row and ends in that row holds a screen position exactly when the position
lies in the row, in one of its columns. -/
theorem raster_in_row {width row x n px py : Nat} (fits : x + n ≤ width) (onScreen : px < width) :
    row * width + x ≤ py * width + px ∧ py * width + px < row * width + x + n ↔ py = row ∧ x ≤ px ∧ px < x + n := by
  rcases Nat.lt_trichotomy py row with above | same | below
  · have rows := Nat.mul_le_mul_right width (show py + 1 ≤ row from above)
    rw [Nat.succ_mul] at rows
    omega
  · subst same
    omega
  · have rows := Nat.mul_le_mul_right width (show row + 1 ≤ py from below)
    rw [Nat.succ_mul] at rows
    omega

/-- A rectangle of one more row is the rectangle with that row written after it. -/
theorem imageRect_succ (width size : Nat) (img : Image) (x y w h : Nat) (c : Half) :
    imageRect width size img x y w (h + 1) c =
      imageRow size (imageRect width size img x y w h c) ((y + h) * width + x) w c := by
  simp [imageRect, List.range_succ]

/-- A screen position after a rectangle of one colour: the colour inside it, what it was outside. -/
theorem imageRead_rect {width size : Nat} {img : Image} {x y w h px py : Nat} (c : Half) (canonical : imageWf size img)
    (wide : x + w ≤ width) (high : (y + h) * width ≤ size) (onScreen : px < width) (pixel : py * width + px < size) :
    imageRead (imageRect width size img x y w h c) (py * width + px) =
      if x ≤ px ∧ px < x + w ∧ y ≤ py ∧ py < y + h then c else imageRead img (py * width + px) := by
  induction h with
  | zero => exact (if_neg (by omega)).symm
  | succ h ih =>
    rw [← Nat.add_assoc, Nat.succ_mul] at high
    obtain ⟨_, rising, _, _⟩ := imageRect_wf width size img x y w h c canonical
    rw [imageRect_succ, imageRead_row _ _ _ _ _ _ rising pixel (by omega), ih (by omega)]
    simp only [raster_in_row wide onScreen]
    by_cases lastRow : py = y + h ∧ x ≤ px ∧ px < x + w
    · rw [if_pos lastRow, if_pos (by omega)]
    · rw [if_neg lastRow]
      exact if_congr (by omega) rfl rfl

/-! ### A FILL (R116) -/

section
variable {s : State} {r : ExecRecord} {c : Half} {x y : Int} {w h : Nat} (command : r.command = .fill c x y w h)
  (fits : recordFits s r)
include command fits

/-- R118: a FILL marks the blocks that its clip rectangle touches. -/
theorem fill_commandBlocks {col row : Nat} (inCol : col < s.lu.width) :
    commandBlocks s r (row * s.lu.width + col) = true ↔
      ((r.ox : Int) + r.cx0) / 16 ≤ col ∧ (col : Int) ≤ ((r.ox : Int) + r.cx1) / 16 ∧
        ((r.oy : Int) + r.cy0) / 16 ≤ row ∧ (row : Int) ≤ ((r.oy : Int) + r.cy1) / 16 := by
  obtain ⟨_, _, left, across, _, top, down, _⟩ := fits
  simp only [commandBlocks, command, touches_iff inCol]
  omega

/-- R116: a FILL gives its colour to the positions of its clip rectangle, and leaves every other. -/
theorem fill_pixel (canonical : imageWf (panelPixels s) s.fs.image) {px py : Nat} (inRow : px < panelW s)
    (inColumn : py < panelH s) :
    imageRead (writeCommand (panelW s) (panelPixels s) r s.fs.image) (py * panelW s + px) =
      if (r.ox : Int) + r.cx0 ≤ px ∧ (px : Int) ≤ r.ox + r.cx1 ∧ (r.oy : Int) + r.cy0 ≤ py ∧ (py : Int) ≤ r.oy + r.cy1 then c
      else imageRead s.fs.image (py * panelW s + px) := by
  obtain ⟨wide, high, left, across, right, top, down, bottom⟩ := fits
  have rowsWithin {n : Nat} (within : n ≤ panelH s) : n * panelW s ≤ panelPixels s := by
    rw [panelPixels, Nat.mul_comm (panelW s)]
    exact Nat.mul_le_mul_right _ within
  have pixel : py * panelW s + px < panelPixels s := by
    have rows := rowsWithin (show py + 1 ≤ panelH s from inColumn)
    rw [Nat.succ_mul] at rows
    omega
  simp only [writeCommand, command, writeFill]
  rw [imageRead_rect c canonical (by omega) (rowsWithin (by omega)) inRow pixel]
  exact if_congr (by omega) rfl rfl

end

/-- Settles O25: the end of the execution leaves the picture and the marks of the write, the write is one rectangle of the colour,
and its blocks are those that the rectangle touches. -/
theorem aFillWritesEveryVisiblePixel : Obligations.AFillWritesEveryVisiblePixel := by
  intro side s r c x y w h busy writing command fits canonical
  obtain ⟨t, next, after⟩ := executionEnd_draws busy writing
  refine ⟨t, next, (drawn_drawing r s).trans after.drawing,
    fun shape => executionEnd_marks shape after fun _ _ => fill_commandBlocks command fits, fun px py inRow inColumn => ?_⟩
  rw [after.image, drawn_image]
  exact fill_pixel command fits canonical inRow inColumn

end Sys2Proof.Machine
end

section
/-! PROOFS. The store requests (R165): how a request that is taken answers or begins its operation, the checks of STORE_ERASE,
STORE_WRITE and STORE_READ equation by equation, and the settlement of O45. -/

namespace Sys2Proof.Machine

/-! ### A request that answers, and one that begins an operation -/

section
variable {u v : State} {us : List SubEvent}

theorem endsAs.postReply (h : endsAs u us v) (tag kind : Byte) (status : Status) (data : List Byte) :
    endsAs (postReply tag kind status data u) us (postReply tag kind status data v) :=
  h.map (Machine.postReply tag kind status data) (fun _ _ _ _ => rfl) (fun _ => rfl) (fun _ => rfl) (fun _ => rfl) fun _ => rfl

theorem endsAs.beginLong (h : endsAs u us v) (tag kind : Byte) (op : LongOp) :
    endsAs (beginLong tag kind op u) us (beginLong tag kind op v) :=
  h.map (Machine.beginLong tag kind op) (fun _ _ _ _ => rfl) (fun _ => rfl) (fun _ => rfl) (fun _ => rfl) fun _ => rfl

end

section
variable {tag kind : Byte} {run : State → State} {s : State} (taken : takesRequest s)
include taken

/-- R156: a request whose carrying out is its reply leaves nothing else. -/
theorem request_replied {status : Status} {data : List Byte}
    (h : run (count .reqTaken (passed s)) = postReply tag kind status data (count .reqTaken (passed s))) :
    ∃ t, requestArrival tag kind run s = .next t ∧ endsAs (replied tag kind status data s) [.reqTaken] t :=
  request_ends taken (h ▸ (taken_ends (passed s)).postReply tag kind status data)

/-- R156: a request whose carrying out begins a long operation leaves it in progress and nothing else. -/
theorem request_started {op : LongOp}
    (h : run (count .reqTaken (passed s)) = beginLong tag kind op (count .reqTaken (passed s))) :
    ∃ t, requestArrival tag kind run s = .next t ∧ endsAs (started tag kind op s) [.reqTaken] t :=
  request_ends taken (h ▸ (taken_ends (passed s)).beginLong tag kind op)

end

/-! ### The checks (R165) -/

/-- What a program must be (R165): of 1 to 64 bytes, within the store and within one page. -/
abbrev programFits (offset : Half) (data : List Byte) : Prop :=
  1 ≤ data.length ∧ data.length ≤ 64 ∧ offset.toNat + data.length ≤ 4096 ∧
    offset.toNat / 1024 = (offset.toNat + data.length - 1) / 1024

/-- What a read of the store must be (R165): of 1 to 128 bytes, within the store. -/
abbrev readFits (offset : Half) (count : Byte) : Prop :=
  1 ≤ count.toNat ∧ count.toNat ≤ 128 ∧ offset.toNat + count.toNat ≤ 4096

theorem doStoreErase_badValue {page : Byte} (beyond : 3 < page.toNat) (tag : Byte) (s : State) :
    doStoreErase tag page s = answer tag 0x0C .badValue s := if_pos beyond

theorem doStoreErase_begins {page : Byte} (within : page.toNat ≤ 3) (tag : Byte) (s : State) :
    doStoreErase tag page s = beginLong tag 0x0C (.erase page.toNat) s := if_neg (Nat.not_lt.2 within)

theorem doStoreWrite_badValue {offset : Half} {data : List Byte} (unfit : ¬ programFits offset data) (tag : Byte) (s : State) :
    doStoreWrite tag offset data s = answer tag 0x0D .badValue s :=
  if_pos (by simp only [Config.flashBytes, Config.pageBytes]; omega)

theorem doStoreWrite_begins {offset : Half} {data : List Byte} (fit : programFits offset data) (tag : Byte) (s : State) :
    doStoreWrite tag offset data s = beginLong tag 0x0D (.program offset.toNat data) s :=
  if_neg (by simp only [Config.flashBytes, Config.pageBytes]; omega)

theorem doStoreRead_badValue {offset : Half} {count : Byte} (unfit : ¬ readFits offset count) (tag : Byte) (s : State) :
    doStoreRead tag offset count s = answer tag 0x0E .badValue s :=
  if_pos (by simp only [Config.flashBytes]; omega)

theorem doStoreRead_answers {offset : Half} {count : Byte} (fit : readFits offset count) (tag : Byte) (s : State) :
    doStoreRead tag offset count s = postReply tag 0x0E .ok (cellBlock 255 s.flash offset.toNat count.toNat) s :=
  if_neg (by simp only [Config.flashBytes]; omega)

/-! ### How the store requests end -/

theorem exec_storeErase (tag page : Byte) (s : State) :
    exec (.storeErase tag page) s = requestArrival tag 0x0C (doStoreErase tag page) s := by rfl

theorem exec_storeWrite {data : List Byte} (short : data.length ≤ 156) (tag : Byte) (offset : Half) (s : State) :
    exec (.storeWrite tag offset data) s = requestArrival tag 0x0D (doStoreWrite tag offset data) s := by
  show execStoreWrite tag offset data s = _
  exact if_pos short

theorem exec_storeRead (tag : Byte) (offset : Half) (count : Byte) (s : State) :
    exec (.storeRead tag offset count) s = requestArrival tag 0x0E (doStoreRead tag offset count) s := by rfl

@[simp] theorem passed_flash (s : State) : (passed s).flash = s.flash := rfl

/-- Settles O45: the checks of each request, then its reply or the operation it begins. A read sees the store as the request found
it, for neither the frame's passing nor the count of REQ_TAKEN bears on the flash. -/
theorem storeRequestsAreChecked : Obligations.StoreRequestsAreChecked := by
  intro tag s taken
  refine ⟨fun page => ?_, fun offset data good fits => ?_, fun offset count good fits => ?_⟩
  · rw [exec_storeErase]
    exact ⟨fun beyond => request_replied taken (doStoreErase_badValue beyond tag _),
      fun within => request_started taken (doStoreErase_begins within tag _)⟩
  · refine ⟨fun bad short => ?_, fun ok => ?_⟩
    · rw [exec_storeWrite short]
      exact request_replied taken (doStoreWrite_badValue (mt fits.2 bad) tag _)
    · have fit : programFits offset data := fits.1 ok
      rw [exec_storeWrite (by omega)]
      exact request_started taken (doStoreWrite_begins fit tag _)
  · rw [exec_storeRead]
    refine ⟨fun bad => request_replied taken (doStoreRead_badValue (mt fits.2 bad) tag _), fun ok => request_replied taken ?_⟩
    rw [doStoreRead_answers (fits.1 ok), count_flash, passed_flash, cellBlock]

end Sys2Proof.Machine
end

section
/-! PROOFS. What a step can do (the meanings of Machine/Dispatch.lean taken apart once): a command that does anything ends in the
bookkeeping of its event, after operations of the blocks each of which comes with what is known when it is made. A law that
each operation keeps is kept by every step. -/

namespace Sys2Proof.Machine

/-- The operations of an event, one after another, each with the circumstances in which the commands make it. -/
inductive Happens : State → State → Prop
  | nothing (s : State) : Happens s s
  | andThen {s t u : State} (first : Happens s t) (next : Happens t u) : Happens s u
  | counted (x : SubEvent) (s : State) : Happens s (count x s)
  /- the downstream lane (R1 to R6) -/
  | lossRestarts (g : SymbolGroup) (s : State) : Happens s (restartLoss g s)
  | groupDown (g : SymbolGroup) {s : State} (down : s.lc.link = .down) : Happens s (downGroup g s)
  | groupAligning (g : SymbolGroup) {s : State} (aligning : s.lc.link = .aligning) : Happens s (alignGroup g s)
  | assembly (a : Option (List Byte)) {s : State} (assembling : assembles s = true) :
      Happens s { s with lc.assembly := a }
  | fails {s : State} (assembling : assembles s = true) : Happens s (failFrame s)
  | framing {s : State} (framing : s.lc.link = .framing) : Happens s (passFrame id s)
  | passes {s : State} (up : s.lc.link = .up) : Happens s (passed s)
  | lossExpires {s : State} (expired : lossExpired s = true) : Happens s (expireLoss s)
  /- attachment and the upstream lane (R8 to R19) -/
  | hello (number : Word) {s : State} (up : s.lc.link = .up) : Happens s (takeHello number s)
  | holdExpires {s : State} (expired : s.lc.holdTimer = some 0) : Happens s (teardown s)
  | transmitted {s : State} {x : Transmission} (sending : s.lc.tx = some x) :
      Happens s (completeItem x.item { s with lc.tx := none, lc.laneOut := frameGroups x.frame })
  /- DRAW and TILE frames, executions and faults (chapters 3 to 6) -/
  | draw (stream : Byte) (seq : Half) (commands : List Byte) {s : State} (up : s.lc.link = .up)
      (attached : s.lc.attachment = .attached) : Happens s (doDraw stream seq commands s)
  | tile (key : Word) (sector : Byte) (data : List Byte) {s : State} (up : s.lc.link = .up)
      (attached : s.lc.attachment = .attached) : Happens s (doTile key sector data s)
  | executionEnds {side : Side} {r : ExecRecord} {s : State} (busy : engineOf side s = some r)
      (writing : s.fs.holder = some (.engine side)) : Happens s (settle (finishExecution side r s))
  | faultExpires {side : Side} {s : State} (expired : faultExpires side s = true) : Happens s (expireFault side s)
  /- requests (chapter 9) -/
  | busy (tag kind : Byte) {s : State} (busy : s.me.inProgress.isSome = true) (slot : s.lc.replies.length + 1 < 4) :
      Happens s (answer tag kind .busy s)
  | answered (tag kind : Byte) (status : Status) {s : State} (taken : takesRequest s) : Happens s (answer tag kind status s)
  | tableRead (tag table : Byte) (first : Half) (number : Byte) {s : State} (taken : takesRequest s) :
      Happens s (doTableRead tag table first number s)
  | headerWrite (tag : Byte) (border undocked : Half) {s : State} (taken : takesRequest s) :
      Happens s (doHeaderWrite tag border undocked s)
  | regionWrite (tag : Byte) (i : Fin 8) (enabled : Bool) (ox oy rw rh background : Half) {s : State}
      (taken : takesRequest s) : Happens s (doRegionWrite tag i enabled ox oy rw rh background s)
  | streamWrite (tag : Byte) (i : Fin 8) (stale : Bool) {s : State} (taken : takesRequest s) :
      Happens s (doStreamWrite tag i stale s)
  | keymapWrite (tag : Byte) (entry : Half) (cls value : Byte) {s : State} (taken : takesRequest s) :
      Happens s (doKeymapWrite tag entry cls value s)
  | settingsWrite (tag a b : Byte) (c : Half) (d e f g h : Byte) {s : State} (taken : takesRequest s) :
      Happens s (doSettingsWrite tag (settingsOf a b c d e f g h) s)
  | panelWrite (tag width height level : Byte) {s : State} (taken : takesRequest s) :
      Happens s (doPanelWrite tag width height level s)
  | streamOpen (tag stream : Byte) (start : Half) {s : State} (taken : takesRequest s) :
      Happens s (doStreamOpen tag stream start s)
  | streamClose (tag stream : Byte) {s : State} (taken : takesRequest s) : Happens s (doStreamClose tag stream s)
  | quiesce (tag : Byte) {s : State} (taken : takesRequest s) : Happens s (doQuiesce tag s)
  | resume (tag : Byte) {s : State} (taken : takesRequest s) : Happens s (doResume tag s)
  | tileFlush (tag : Byte) {s : State} (taken : takesRequest s) : Happens s (doTileFlush tag s)
  | tilePin (tag : Byte) (key : Word) {s : State} (taken : takesRequest s) : Happens s (doTilePin tag key s)
  | tileUnpin (tag : Byte) (key : Word) {s : State} (taken : takesRequest s) : Happens s (doTileUnpin tag key s)
  | panelRestart (tag : Byte) {s : State} (taken : takesRequest s) : Happens s (doPanelRestart tag s)
  | dockReset (tag : Byte) {s : State} (taken : takesRequest s) : Happens s (doDockReset tag s)
  | storeErase (tag page : Byte) {s : State} (taken : takesRequest s) : Happens s (doStoreErase tag page s)
  | storeWrite (tag : Byte) (offset : Half) (data : List Byte) {s : State} (taken : takesRequest s) :
      Happens s (doStoreWrite tag offset data s)
  | storeRead (tag : Byte) (offset : Half) (number : Byte) {s : State} (taken : takesRequest s) :
      Happens s (doStoreRead tag offset number s)
  | monitorSet (tag entry mode group : Byte) (unitMask : Word) (condition : Byte) {s : State} (taken : takesRequest s) :
      Happens s (doMonitorSet tag entry mode group unitMask condition s)
  /- the ends of operations -/
  | applyEnds {mask : BitVec 8} {s : State} (applying : s.lu.apply = some mask) (writing : s.fs.holder = some .layoutApply) :
      Happens s (finishResume (finishApply mask s))
  | fillEnds {c : Half} {s : State} (filling : s.lu.fillColour = some c) (writing : s.fs.holder = some .teardownFill) :
      Happens s (finishTeardownFill c s)
  | sweeps {s : State} (sweeping : s.tc.sweep < 64) : Happens s (sweepSet ⟨s.tc.sweep, sweeping⟩ s)
  | erases {r : Request} {page : Nat} {s : State} (current : s.me.inProgress = some r) (op : r.op = .erase page) :
      Happens s (finishErase page s)
  | programs {r : Request} {offset : Nat} {data : List Byte} {s : State} (current : s.me.inProgress = some r)
      (op : r.op = .program offset data) : Happens s (finishProgram offset data s)
  /- the panel, the keys, time (chapters 7, 8, 10) -/
  | acknowledged {f : InFlight} {s : State} (sent : s.pu.inFlight = some f) : Happens s (completeBlock s)
  | timesOut {f : InFlight} {s : State} (sent : s.pu.inFlight = some f) (ended : f.timer = 0) : Happens s (timeOutBlock f s)
  | scans (contacts : BitVec 128) {s : State} (due : s.ks.scanTimer = 0) : Happens s (scanKeys contacts s)
  | millisecond {s : State} (due : s.msTimer = 0) : Happens s { countMillisecond s with msTimer := Config.ticksPerMs }
  | period {s : State} (due : s.pu.periodTimer = 0) :
      Happens s { s with pu.drivenLevel := s.pu.level, pu.periodTimer := Config.backlightPeriod }

/-! ### Requests -/

theorem takesRequest.counted {s : State} (taken : takesRequest s) (x : SubEvent) : takesRequest (count x s) := by
  simpa [takesRequest] using taken

/-- R155: a request's frame is discarded, answered BUSY, or carried out. -/
theorem takeRequest_happens {tag kind : Byte} {run : State → State} {s : State} (up : s.lc.link = .up)
    (attached : s.lc.attachment = .attached) (h : ∀ t, takesRequest t → Happens t (run t)) :
    Happens s (takeRequest tag kind run s) := by
  unfold takeRequest
  split
  next => exact .counted _ s
  next room =>
    simp only [Config.repliesDepth, Nat.not_le] at room
    split
    next busy =>
      simp only [owed, if_pos busy] at room
      exact (Happens.busy tag kind busy room).andThen (.counted _ _)
    next idle =>
      have none : s.me.inProgress = none := by simpa using idle
      rw [owed_none none] at room
      exact (Happens.counted .reqTaken s).andThen (h _ (takesRequest.counted ⟨up, attached, none, room⟩ _))

/-- A frame that is taken in UP (R16): its dispatch, by attachment. -/
theorem ifAttached_happens {run : State → State} {s : State}
    (h : s.lc.attachment = .attached → Happens s (run s)) : Happens s (ifAttached run s) := by
  unfold ifAttached
  split
  next attached => exact h attached
  next => exact .counted _ s

/-- R4, R5: a passing frame counts toward framing, or is dispatched in UP. -/
theorem passFrame_happens {dispatch : State → State} {s : State}
    (h : ∀ t, t.lc.link = .up → Happens t (dispatch t)) : Happens s (passFrame dispatch s) := by
  rcases link : s.lc.link with _ | _ | _ | _
  case framing =>
    have same : passFrame dispatch s = passFrame id s := by rw [passFrame_framing _ link, passFrame_framing _ link]
    exact same ▸ Happens.framing link
  case up =>
    rw [passFrame_up _ link]
    exact (Happens.passes link).andThen (h _ link)
  all_goals
    simp only [passFrame, link]
    exact .nothing s

theorem writeEntry_happens (table : Table) (tag : Byte) (entry : Half) (e : List Byte) {s : State} (taken : takesRequest s) :
    Happens s (writeEntry table tag entry e s) := by
  cases table with
  | ident => exact .answered tag 2 _ taken
  | tileDir => exact .answered tag 2 _ taken
  | fault => exact .answered tag 2 _ taken
  | link => exact .answered tag 2 _ taken
  | monitor => exact .answered tag 2 _ taken
  | layout =>
    simp only [writeEntry]
    split
    · exact .headerWrite tag _ _ taken
    · exact .regionWrite tag _ _ _ _ _ _ _ taken
  | stream =>
    simp only [writeEntry]
    split
    · exact .answered tag 2 _ taken
    · exact .streamWrite tag _ _ taken
  | keymap => exact .keymapWrite tag _ _ _ taken
  | settings => exact .settingsWrite tag _ _ _ _ _ _ _ _ taken
  | panel => exact .panelWrite tag _ _ _ taken

theorem doTableWrite_happens (tag table : Byte) (entry : Half) (contents : List Byte) {s : State} (taken : takesRequest s) :
    Happens s (doTableWrite tag table entry contents s) := by
  unfold doTableWrite
  split
  · exact .answered tag 2 _ taken
  · split
    · exact .answered tag 2 _ taken
    · split
      · exact .answered tag 2 _ taken
      · exact writeEntry_happens _ tag entry contents taken

theorem happens_ite {p : Prop} [Decidable p] {s t u : State} (yes : Happens s t) (no : Happens s u) :
    Happens s (if p then t else u) := by
  split
  · exact yes
  · exact no

theorem runRequest_happens (tag kind : Byte) (args : List Byte) {s : State} (taken : takesRequest s) :
    Happens s (runRequest tag kind args s) := by
  unfold runRequest
  refine happens_ite (.tableRead tag _ _ _ taken) (happens_ite (doTableWrite_happens tag _ _ _ taken) ?_)
  refine happens_ite (.streamOpen tag _ _ taken) (happens_ite (.streamClose tag _ taken) ?_)
  refine happens_ite (.quiesce tag taken) (happens_ite (.resume tag taken) (happens_ite (.tileFlush tag taken) ?_))
  refine happens_ite (.tilePin tag _ taken) (happens_ite (.tileUnpin tag _ taken) ?_)
  refine happens_ite (.panelRestart tag taken) (happens_ite (.dockReset tag taken) ?_)
  refine happens_ite (.storeErase tag _ taken) (happens_ite (.storeWrite tag _ _ taken) ?_)
  exact happens_ite (.storeRead tag _ _ taken)
    (happens_ite (.monitorSet tag _ _ _ _ _ taken) (.answered tag kind _ taken))

/-! ### Frames from their bytes -/

theorem dispatchPayload_happens (kind : Byte) (p : List Byte) {s : State} (up : s.lc.link = .up) :
    Happens s (dispatchPayload kind p s) := by
  simp only [dispatchPayload]
  split; · exact .hello _ up
  split; · exact .nothing s
  split; · exact ifAttached_happens fun attached => .draw _ _ _ up attached
  split; · exact ifAttached_happens fun attached => .tile _ _ _ up attached
  split
  · exact ifAttached_happens fun attached =>
      takeRequest_happens up attached fun _ taken => runRequest_happens _ _ _ taken
  · exact .counted _ s

theorem closeFrame_happens (bs : List Byte) {s : State} (assembling : assembles s = true) : Happens s (closeFrame bs s) := by
  unfold closeFrame
  split
  · exact (Happens.assembly none assembling).andThen (passFrame_happens fun _ up => dispatchPayload_happens _ _ up)
  · exact (Happens.assembly none assembling).andThen (.fails assembling)

theorem failOpen_happens {s : State} (assembling : assembles s = true) : Happens s (failOpen s) :=
  (Happens.assembly none assembling).andThen (.fails assembling)

theorem openFrame_happens (s : State) : Happens s (openFrame s) := by
  unfold openFrame
  split
  next assembling => exact .assembly _ assembling
  next => exact .nothing s

theorem assembleGroup_happens (g : SymbolGroup) {s : State} (assembling : assembles s = true) :
    Happens s (assembleGroup g s) := by
  unfold assembleGroup
  split
  · exact openFrame_happens s
  · exact (failOpen_happens assembling).andThen (openFrame_happens _)
  · unfold appendByte
    split
    · exact failOpen_happens assembling
    · exact .assembly _ assembling
  · exact closeFrame_happens _ assembling
  · exact failOpen_happens assembling
  all_goals exact .nothing s

theorem takeGroup_happens (g : SymbolGroup) (s : State) : Happens s (takeGroup g s) := by
  refine (Happens.lossRestarts g s).andThen ?_
  simp only [takeGroup]
  split
  next down => exact .groupDown g down
  next aligning => exact .groupAligning g aligning
  next framing => exact assembleGroup_happens g (assembles_framing framing)
  next up => exact assembleGroup_happens g (assembles_up up)

/-! ### Commands -/

/-- How a command ends that does something: in the bookkeeping of the event, after its operations. -/
def Ends (s : State) (x : Result) : Prop := x = .next s ∨ ∃ u, Happens s u ∧ x = .next (conclude s u)

theorem Ends.same (s : State) : Ends s (.next s) := .inl rfl
theorem Ends.of {s u : State} (h : Happens s u) : Ends s (.next (conclude s u)) := .inr ⟨u, h, rfl⟩

theorem frameArrival_ends {effect : State → State} {s : State} (h : assembles s = true → Happens s (effect s)) :
    Ends s (frameArrival effect s) := by
  unfold frameArrival
  split
  next assembling => exact .of (h assembling)
  next => exact .same s

theorem passing_ends {dispatch : State → State} {s : State} (h : ∀ t, t.lc.link = .up → Happens t (dispatch t)) :
    Ends s (frameArrival (passFrame dispatch) s) := frameArrival_ends fun _ => passFrame_happens h

theorem badFrame_ends (s : State) : Ends s (frameArrival (passFrame (count .badFrame)) s) :=
  passing_ends fun t _ => .counted _ t

theorem requestArrival_ends {tag kind : Byte} {run : State → State} {s : State}
    (h : ∀ t, takesRequest t → Happens t (run t)) : Ends s (requestArrival tag kind run s) :=
  passing_ends fun _ link => ifAttached_happens fun attached => takeRequest_happens link attached h

theorem eraseDone_ends (s : State) : Ends s (execEraseDone s) := by
  unfold execEraseDone
  split
  next current => exact .of (.erases current rfl)
  next => exact .same s

theorem programDone_ends (s : State) : Ends s (execProgramDone s) := by
  unfold execProgramDone
  split
  next current => exact .of (.programs current rfl)
  next => exact .same s

theorem acknowledgement_ends (echo : Byte) (s : State) : Ends s (execAcknowledgement echo s) := by
  unfold execAcknowledgement
  split
  next sent =>
    split
    · exact .of (.acknowledged sent)
    · exact .of (.counted _ s)
  next => exact .of (.counted _ s)

theorem blockTimeout_ends (s : State) : Ends s (execBlockTimeout s) := by
  unfold execBlockTimeout
  split
  next sent =>
    split
    next ended => exact .of (.timesOut sent ended)
    next => exact .same s
  next => exact .same s

theorem executionEnd_ends (side : Side) (s : State) : Ends s (execExecutionEnd side s) := by
  unfold execExecutionEnd
  split
  next busy =>
    split
    next writing => exact .of (.executionEnds busy writing)
    next => exact .same s
  next => exact .same s

theorem layoutApplyEnd_ends (s : State) : Ends s (execLayoutApplyEnd s) := by
  unfold execLayoutApplyEnd
  split
  next applying =>
    split
    next writing => exact .of (.applyEnds applying writing)
    next => exact .same s
  next => exact .same s

theorem teardownFillEnd_ends (s : State) : Ends s (execTeardownFillEnd s) := by
  unfold execTeardownFillEnd
  split
  next filling =>
    split
    next writing => exact .of (.fillEnds filling writing)
    next => exact .same s
  next => exact .same s

theorem transmissionComplete_ends (s : State) : Ends s (execTransmissionComplete s) := by
  unfold execTransmissionComplete
  split
  next sending => exact .of (.transmitted sending)
  next => exact .same s

theorem ends_ite {p : Prop} [Decidable p] {s u : State} (h : p → Happens s u) :
    Ends s (if p then .next (conclude s u) else .next s) := by
  split
  next yes => exact .of (h yes)
  next => exact .same s

/-- Every command but a power-on reset changes nothing, or ends in the bookkeeping after its operations. -/
theorem exec_ends (c : Instr) (notReset : c ≠ .powerOnReset) (s : State) : Ends s (exec c s) := by
  cases c with
  | powerOnReset => exact absurd rfl notReset
  | symbolGroup g => exact .of (takeGroup_happens g s)
  | lossDetectorExpiry => exact ends_ite .lossExpires
  | checkFail => exact frameArrival_ends .fails
  | idle => exact passing_ends fun t _ => .nothing t
  | badFrame => exact badFrame_ends s
  | hello number => exact passing_ends fun _ up => .hello number up
  | holdTimerExpiry => exact ends_ite .holdExpires
  | draw stream seq commands =>
    refine passing_ends fun t up => ?_
    split
    · exact ifAttached_happens fun attached => .draw _ _ _ up attached
    · exact .counted _ t
  | executionEnd side => exact executionEnd_ends side s
  | tile key sector data =>
    refine passing_ends fun t up => ?_
    split
    · exact ifAttached_happens fun attached => .tile _ _ _ up attached
    · exact .counted _ t
  | faultTimerExpiry side => exact ends_ite .faultExpires
  | transmissionComplete => exact transmissionComplete_ends s
  | badRequest tag kind => exact requestArrival_ends fun _ taken => .answered tag kind _ taken
  | tableRead tag table first number => exact requestArrival_ends fun _ taken => .tableRead tag _ _ _ taken
  | tableWrite tag table entry contents =>
    simp only [exec, execTableWrite]
    split
    · exact requestArrival_ends fun _ taken => doTableWrite_happens tag _ _ _ taken
    · exact badFrame_ends s
  | layoutHeaderWrite tag border undocked => exact requestArrival_ends fun _ taken => .headerWrite tag _ _ taken
  | layoutRegionWrite tag region enabled ox oy rw rh background =>
    exact requestArrival_ends fun _ taken => .regionWrite tag _ _ _ _ _ _ _ taken
  | streamWrite tag stream stale => exact requestArrival_ends fun _ taken => .streamWrite tag _ _ taken
  | keymapWrite tag entry cls value => exact requestArrival_ends fun _ taken => .keymapWrite tag _ _ _ taken
  | settingsWrite tag a b c d e f g h => exact requestArrival_ends fun _ taken => .settingsWrite tag a b c d e f g h taken
  | panelWrite tag width height level => exact requestArrival_ends fun _ taken => .panelWrite tag _ _ _ taken
  | streamOpen tag stream start => exact requestArrival_ends fun _ taken => .streamOpen tag _ _ taken
  | streamClose tag stream => exact requestArrival_ends fun _ taken => .streamClose tag _ taken
  | quiesce tag => exact requestArrival_ends fun _ taken => .quiesce tag taken
  | resume tag => exact requestArrival_ends fun _ taken => .resume tag taken
  | layoutApplyEnd => exact layoutApplyEnd_ends s
  | teardownFillEnd => exact teardownFillEnd_ends s
  | tileFlush tag => exact requestArrival_ends fun _ taken => .tileFlush tag taken
  | sweepStep =>
    simp only [exec, execSweepStep]
    split
    next sweeping => exact .of (.sweeps sweeping)
    next => exact .same s
  | tilePin tag key => exact requestArrival_ends fun _ taken => .tilePin tag _ taken
  | tileUnpin tag key => exact requestArrival_ends fun _ taken => .tileUnpin tag _ taken
  | panelRestart tag => exact requestArrival_ends fun _ taken => .panelRestart tag taken
  | dockReset tag => exact requestArrival_ends fun _ taken => .dockReset tag taken
  | storeErase tag page => exact requestArrival_ends fun _ taken => .storeErase tag _ taken
  | storeWrite tag offset data =>
    simp only [exec, execStoreWrite]
    split
    · exact requestArrival_ends fun _ taken => .storeWrite tag _ _ taken
    · exact badFrame_ends s
  | storeRead tag offset number => exact requestArrival_ends fun _ taken => .storeRead tag _ _ taken
  | monitorSet tag entry mode group unitMask condition =>
    exact requestArrival_ends fun _ taken => .monitorSet tag _ _ _ _ _ taken
  | eraseDone => exact eraseDone_ends s
  | programDone => exact programDone_ends s
  | acknowledgement echo => exact acknowledgement_ends echo s
  | blockTimeout => exact blockTimeout_ends s
  | scan contacts => exact ends_ite (.scans contacts)
  | millisecondTick => exact ends_ite .millisecond
  | backlightPeriod => exact ends_ite .period

/-- A law is kept by every step when ticks, the taking of a command from the queue, power-on resets, the operations and the
bookkeeping of an event keep it. -/
theorem step_keeps {Legal : State → Prop} {s t : State} (legal : Legal s) (stepped : step s = .next t)
    (tick : ∀ s, Legal s → Legal (passTick s)) (taken : ∀ s rest, Legal s → Legal { s with pending := rest })
    (reset : ∀ s, Legal s → Legal (powerOn (cutFlash s) (s.free + 1) s.pending))
    (event : ∀ s u, Legal s → Happens s u → Legal (conclude s u)) : Legal t := by
  unfold step at stepped
  split at stepped
  next =>
    cases stepped
    exact tick s legal
  next c rest _ =>
    have legal' := taken s rest legal
    by_cases power : c = .powerOnReset
    · subst power
      cases stepped
      exact reset _ legal'
    · rcases exec_ends c power { s with pending := rest } with same | ⟨u, happens, ended⟩
      · cases same.symm.trans stepped
        exact legal'
      · cases ended.symm.trans stepped
        exact event _ u legal' happens

end Sys2Proof.Machine
end

section
/-! PROOFS. What counting leaves in the slot of MONITOR_SATURATED (R162, R171): the counters that come to the maximum raise it, each
with the mask of its number, and two stretches of an event make one. -/

namespace Sys2Proof.Machine

/-! ### Masks of counter numbers -/

/-- The mask whose bits are the numbers of the counters of a set. -/
def names (m : BitVec 24) (p : Fin 4 → Prop) : Prop := ∀ k : Nat, m.getLsbD k = true ↔ ∃ n : Fin 4, n.val = k ∧ p n

theorem names.same {m : BitVec 24} {p q : Fin 4 → Prop} (h : names m p) (same : ∀ n, p n ↔ q n) : names m q := fun k => by
  simp only [h k, same]

theorem names.unique {m m' : BitVec 24} {p : Fin 4 → Prop} (h : names m p) (h' : names m' p) : m = m' := by
  refine BitVec.eq_of_getLsbD_eq fun k _ => ?_
  rw [Bool.eq_iff_iff, h k, h' k]

theorem names.union {m m' : BitVec 24} {p q : Fin 4 → Prop} (h : names m p) (h' : names m' q) :
    names (m ||| m') fun n => p n ∨ q n := fun k => by
  simp only [BitVec.getLsbD_or, Bool.or_eq_true, h k, h' k, and_or_left, exists_or]

theorem names_none : names 0 fun _ => False := fun k => by simp

theorem names_one (i : Fin 4) : names (BitVec.ofNat 24 (2 ^ i.val)) fun n => n = i := fun k => by
  rw [BitVec.getLsbD_ofNat, Nat.testBit_two_pow]
  simp only [Bool.and_eq_true, decide_eq_true_eq, exists_eq_right]
  omega

theorem names_list (l : List (Fin 4)) : ∃ m, names m fun n => n ∈ l := by
  induction l with
  | nil => exact ⟨0, names_none.same fun n => by simp⟩
  | cons i l ih =>
    obtain ⟨m, h⟩ := ih
    exact ⟨_, ((names_one i).union h).same fun n => by simp⟩

open Classical in
theorem exists_names (p : Fin 4 → Prop) : ∃ m, names m p := by
  obtain ⟨m, h⟩ := names_list ((List.finRange 4).filter fun n => decide (p n))
  exact ⟨m, h.same fun n => by simp⟩

/-! ### The slot after the raises of a mask -/

/-- R162, R171: the slot of MONITOR_SATURATED after the counters of a mask have come to the maximum, with its enable and its own
transmission in progress or not. -/
def saturatedSlot (enable own : Bool) (m : BitVec 24) (e : EventSlot) : EventSlot :=
  if enable = true ∧ m ≠ 0 then raisedSlot .monitorSaturated m own e else e

theorem saturatedSlot_none (enable own : Bool) (e : EventSlot) : saturatedSlot enable own 0 e = e := if_neg (by simp)

theorem saturatedSlot_union (enable own : Bool) (m m' : BitVec 24) (e : EventSlot) :
    saturatedSlot enable own m' (saturatedSlot enable own m e) = saturatedSlot enable own (m ||| m') e := by
  by_cases h : m = 0
  · rw [h, saturatedSlot_none, show (0 : BitVec 24) ||| m' = m' by simp]
  by_cases h' : m' = 0
  · rw [h', saturatedSlot_none, show m ||| (0 : BitVec 24) = m by simp]
  have both : m ||| m' ≠ 0 := fun zero => h (by
    have := congrArg (m &&& ·) zero
    simp [BitVec.and_or_distrib_left] at this
    exact this.1)
  cases enable with
  | false => simp [saturatedSlot]
  | true =>
    simp only [saturatedSlot, h, h', both, ne_eq, not_false_eq_true, and_self, if_true, raisedSlot, EventKind.accumulates]
    cases own <;> cases e.pending <;> simp [BitVec.or_assoc]

/-! ### Stretches of counting -/

/-- Counter n comes to the maximum from s to t. -/
def comesFull (s t : State) (n : Fin 4) : Prop :=
  s.mn.counters[n].value < 4294967295 ∧ t.mn.counters[n].value = 4294967295

/-- From s to t counters add to their values, keeping their selections; the lane and the enables stay; and the slot of
MONITOR_SATURATED takes the raises of those that come to the maximum, and of the further ones that also names. -/
structure Saturates (also : Fin 4 → Prop) (s t : State) : Prop where
  lane : t.lc.tx = s.lc.tx
  enables : t.settings.enables = s.settings.enables
  selections : selectionsKept s t
  values : ∀ n : Fin 4, ∃ k, t.mn.counters[n].value = addedTo s.mn.counters[n].value k
  slot : ∀ m, names m (fun n => also n ∨ comesFull s t n) → eventSlot .monitorSaturated t =
    saturatedSlot (eventEnabled .monitorSaturated s) (eventOnLane .monitorSaturated s) m (eventSlot .monitorSaturated s)

theorem comesFull_trans {s t u : State} (h : ∀ n : Fin 4, ∃ k, t.mn.counters[n].value = addedTo s.mn.counters[n].value k)
    (g : ∀ n : Fin 4, ∃ k, u.mn.counters[n].value = addedTo t.mn.counters[n].value k) (n : Fin 4) :
    comesFull s u n ↔ comesFull s t n ∨ comesFull t u n := by
  obtain ⟨a, ha⟩ := h n
  obtain ⟨b, hb⟩ := g n
  unfold comesFull addedTo at *
  split at ha <;> split at hb <;> omega

theorem Saturates.trans {p q : Fin 4 → Prop} {s t u : State} (h : Saturates p s t) (g : Saturates q t u) :
    Saturates (fun n => p n ∨ q n) s u where
  lane := g.lane.trans h.lane
  enables := g.enables.trans h.enables
  selections := h.selections.trans g.selections
  values n := by
    obtain ⟨a, ha⟩ := h.values n
    obtain ⟨b, hb⟩ := g.values n
    exact ⟨a + b, by rw [hb, ha, addedTo_addedTo]⟩
  slot m named := by
    obtain ⟨a, ha⟩ := exists_names fun n => p n ∨ comesFull s t n
    obtain ⟨b, hb⟩ := exists_names fun n => q n ∨ comesFull t u n
    have enable : eventEnabled .monitorSaturated t = eventEnabled .monitorSaturated s := by
      simp only [eventEnabled, h.enables]
    have own : eventOnLane .monitorSaturated t = eventOnLane .monitorSaturated s := by simp only [eventOnLane, h.lane]
    have union : m = a ||| b := named.unique ((ha.union hb).same fun n => by
      rw [comesFull_trans h.values g.values]
      tauto)
    rw [g.slot b hb, h.slot a ha, enable, own, saturatedSlot_union, union]

theorem Saturates.same {p q : Fin 4 → Prop} {s t : State} (h : Saturates p s t) (same : ∀ n, p n ↔ q n) : Saturates q s t where
  lane := h.lane
  enables := h.enables
  selections := h.selections
  values := h.values
  slot m named := h.slot m (named.same fun n => by rw [same])

/-- With the counters, the slot, the lane and the enables as they were, nothing comes to the maximum. -/
theorem Saturates.of_same {s t : State} (lane : t.lc.tx = s.lc.tx) (enables : t.settings.enables = s.settings.enables)
    (counters : t.mn.counters = s.mn.counters) (slot : eventSlot .monitorSaturated t = eventSlot .monitorSaturated s) :
    Saturates (fun _ => False) s t where
  lane := lane
  enables := enables
  selections n := by rw [counters]; exact ⟨rfl, rfl, rfl, rfl⟩
  values n := ⟨0, by rw [counters]; rfl⟩
  slot m named := by
    have zero : m = 0 := named.unique (names_none.same fun n => by
      simp only [comesFull, counters, false_or, false_iff]
      omega)
    rw [slot, zero, saturatedSlot_none]

theorem Saturates.refl (s : State) : Saturates (fun _ => False) s s := .of_same rfl rfl rfl rfl

/-- A raise of MONITOR_SATURATED with the mask of one counter, when its enable is set. -/
theorem raise_saturates (i : Fin 4) {t : State} (enabled : eventEnabled .monitorSaturated t = true) :
    Saturates (fun n => n = i) t (setEventSlot .monitorSaturated
      (raisedSlot .monitorSaturated (BitVec.ofNat 24 (2 ^ i.val)) (eventOnLane .monitorSaturated t)
        (eventSlot .monitorSaturated t)) t) where
  lane := rfl
  enables := rfl
  selections _ := ⟨rfl, rfl, rfl, rfl⟩
  values _ := ⟨0, rfl⟩
  slot m named := by
    have one : m = BitVec.ofNat 24 (2 ^ i.val) := named.unique ((names_one i).same fun n => by
      simp only [comesFull, setEventSlot]
      omega)
    have bit : m ≠ 0 := fun zero => by
      have := (named i.val).2 ⟨i, rfl, .inl rfl⟩
      rw [zero] at this
      simp at this
    rw [eventSlot_setEventSlot_self, saturatedSlot, if_pos ⟨enabled, bit⟩, one]

/-- The raises of the counters of a list, with what each counts. -/
theorem foldl_saturates (raise : State → Fin 4 → State)
    (h : ∀ t i, eventEnabled .monitorSaturated t = true → Saturates (fun n => n = i) t (raise t i)) (l : List (Fin 4))
    (s : State) :
    Saturates (fun n => n ∈ l) s (l.foldl (fun t i => if eventEnabled .monitorSaturated t then raise t i else t) s) ∨
      eventEnabled .monitorSaturated s = false ∧
        l.foldl (fun t i => if eventEnabled .monitorSaturated t then raise t i else t) s = s := by
  by_cases enabled : eventEnabled .monitorSaturated s = true
  case neg => exact .inr ⟨by simpa using enabled, List.foldl_fixed' (fun _ => if_neg enabled) l⟩
  left
  induction l generalizing s with
  | nil => exact (Saturates.refl s).same fun n => by simp
  | cons i l ih =>
    have first := h s i enabled
    have still : eventEnabled .monitorSaturated (raise s i) = true := by
      simpa only [eventEnabled, first.enables] using enabled
    rw [List.foldl_cons, if_pos enabled]
    exact (first.trans (ih (raise s i) still)).same fun n => by simp

theorem mem_newlySaturated (p : Counter → Bool) {k : Nat} (some' : 0 < k) (s : State) (n : Fin 4) :
    n ∈ newlySaturated p k s ↔ comesFull s (addCounters p k s) n := by
  simp only [newlySaturated, List.mem_filter, List.mem_finRange, true_and, Bool.and_eq_true, Counter.saturates,
    decide_eq_true_eq, comesFull, addCounters_value p k some', addedTo]
  by_cases h : p s.mn.counters[n] = true
  · simp only [h, true_and, if_true, Config.maxCount]
    rw [if_neg (by omega)]
    omega
  · simp only [h, false_and, Bool.false_eq_true, if_false, if_true, false_iff]
    omega

/-- Counting leaves in the slot of MONITOR_SATURATED the raises of the counters that come to the maximum. -/
theorem addWhere_saturates (fuel : Nat) (p : Counter → Bool) {k : Nat} (some' : 0 < k) (s : State) :
    Saturates (fun _ => False) s (addWhere fuel p k s) := by
  induction fuel generalizing p k s with
  | zero => exact .refl s
  | succ fuel ih =>
    have added (n : Fin 4) : ∃ j, (addCounters p k s).mn.counters[n].value = addedTo s.mn.counters[n].value j :=
      ⟨_, addCounters_value p k some' s n⟩
    have selections := (addCounters_counted p k s).selections
    rcases foldl_saturates _ (fun t i enabled => ((raise_saturates i enabled).trans
      (ih (Counter.selects SubEvent.eventRaised) Nat.one_pos _)).same fun n => by simp) (newlySaturated p k s)
      (addCounters p k s) with raises | ⟨disabled, same⟩
    · exact {
        lane := raises.lane
        enables := raises.enables
        selections := selectionsKept.trans selections raises.selections
        values := fun n => by
          obtain ⟨a, ha⟩ := added n
          obtain ⟨b, hb⟩ := raises.values n
          refine ⟨a + b, ?_⟩
          rw [← addedTo_addedTo, ← ha]
          exact hb
        slot := fun m named => raises.slot m (named.same fun n => by
          rw [mem_newlySaturated p some', false_or]
          exact comesFull_trans added raises.values n) }
    · have slot (m : BitVec 24) : eventSlot .monitorSaturated (addCounters p k s) =
          saturatedSlot (eventEnabled .monitorSaturated s) (eventOnLane .monitorSaturated s) m
            (eventSlot .monitorSaturated s) := by
        have : eventEnabled .monitorSaturated s = false := disabled
        simp only [saturatedSlot, this, Bool.false_eq_true, false_and, if_false]
        rfl
      have whole : addWhere (fuel + 1) p k s = addCounters p k s := same
      rw [whole]
      exact ⟨rfl, rfl, selections, added, fun m _ => slot m⟩

/-- What an event does to the counters and the slot of MONITOR_SATURATED before its end: in addition the counters in CONDITION_EDGE
mode keep their values. -/
structure Tallies (s t : State) : Prop where
  saturates : Saturates (fun _ => False) s t
  edges : ∀ n : Fin 4, s.mn.counters[n].mode = .conditionEdge → t.mn.counters[n].value = s.mn.counters[n].value

theorem Tallies.trans {s t u : State} (h : Tallies s t) (g : Tallies t u) : Tallies s u where
  saturates := (h.saturates.trans g.saturates).same fun _ => by simp
  edges n edge := by rw [g.edges n (by rw [(h.saturates.selections n).1]; exact edge), h.edges n edge]

theorem Tallies.of_same {s t : State} (lane : t.lc.tx = s.lc.tx) (enables : t.settings.enables = s.settings.enables)
    (counters : t.mn.counters = s.mn.counters) (slot : eventSlot .monitorSaturated t = eventSlot .monitorSaturated s) :
    Tallies s t :=
  ⟨.of_same lane enables counters slot, fun n _ => by rw [counters]⟩

theorem countN_tallies (x : SubEvent) (k : Nat) (s : State) : Tallies s (countN x k s) := by
  refine ⟨?_, fun n edge => ?_⟩
  · unfold countN
    split
    · exact .refl s
    · exact addWhere_saturates 5 _ (by omega) s
  · have unselected (y : SubEvent) : s.mn.counters[n].selects y = false :=
      Counter.selects_of_mode _ y (by rw [edge]; decide)
    have added := countN_added x k s n
    simp only [unselected, Bool.false_eq_true, and_false, if_false] at added
    exact added

theorem count_tallies (x : SubEvent) (s : State) : Tallies s (count x s) := countN_tallies x 1 s

theorem raiseEvent_tallies {k : EventKind} (other : k ≠ .monitorSaturated) (detail : BitVec 24) (s : State) :
    Tallies s (raiseEvent k detail s) := by
  unfold raiseEvent
  split
  · have slot (e : EventSlot) : Tallies s (setEventSlot k e s) := .of_same rfl rfl rfl (eventSlot_setEventSlot_ne other e s)
    exact (slot _).trans (count_tallies _ _)
  · exact .of_same rfl rfl rfl rfl

end Sys2Proof.Machine
end

section
/-! PROOFS. The Panel Updater's laws (R23, R125 to R131) through its own operations: a selection serves the panel, and reading on keeps the
shape of the block write on the port. -/

namespace Sys2Proof.Machine

/-- The laws of the panel. -/
def panelLaws (s : State) : Prop := panelShape s ∧ panelLegal s ∧ panelServed s

/-- The panel's laws but for the service of its dirty blocks. -/
def panelRanges (s : State) : Prop := panelShape s ∧ panelLegal s

theorem panelLaws.ranges {s : State} (h : panelLaws s) : panelRanges s := ⟨h.1, h.2.1⟩

/-- The panel's laws speak of the panel and of its geometry alone. -/
theorem panelLaws_of_same {s t : State} (pu : t.pu = s.pu) (width : t.lu.width = s.lu.width)
    (height : t.lu.height = s.lu.height) (h : panelLaws s) : panelLaws t := by
  unfold panelLaws panelShape panelLegal panelServed blockCount at *
  rw [pu, width, height]
  exact h

theorem panelRanges_of_same {s t : State} (pu : t.pu = s.pu) (width : t.lu.width = s.lu.width)
    (height : t.lu.height = s.lu.height) (h : panelRanges s) : panelRanges t := by
  unfold panelRanges panelShape panelLegal blockCount at *
  rw [pu, width, height]
  exact h

/-! ### Selections (R126 to R128) -/

theorem firstDirty_none {dirty : List Bool} {lo hi : Nat} (h : firstDirty dirty lo hi = none) {i : Nat} (above : lo ≤ i)
    (below : i < hi) : dirty.getD i false = false := by
  have := List.find?_eq_none.1 h i (List.mem_range'_1.2 ⟨above, by omega⟩)
  simpa using this

/-- With nothing to select no block is dirty. -/
theorem nextBlock_none {s : State} (shape : panelShape s) (h : nextBlock s = none) : ∀ d ∈ s.pu.dirty, d = false := by
  obtain ⟨_, _, length, _, _⟩ := shape
  obtain ⟨after, before⟩ := Option.or_eq_none_iff.1 h
  intro d mem
  obtain ⟨i, bound, rfl⟩ := List.getElem_of_mem mem
  have clean : s.pu.dirty.getD i false = false := by
    rcases Nat.lt_or_ge i s.pu.scan with below | above
    · exact firstDirty_none before (Nat.zero_le i) below
    · exact firstDirty_none after above (length ▸ bound)
  simpa [bound] using clean

/-- A block that is selected is one of the panel's. -/
theorem nextBlock_bound {s : State} (shape : panelShape s) {i : Nat} (h : nextBlock s = some i) : i < blockCount s := by
  obtain ⟨_, _, _, scan, _⟩ := shape
  unfold nextBlock at h
  rcases Option.or_eq_some_iff.1 h with after | ⟨_, before⟩
  · have := List.mem_range'_1.1 (List.mem_of_find?_eq_some after)
    omega
  · have := List.mem_range'_1.1 (List.mem_of_find?_eq_some before)
    omega

theorem panelShape_of_same {s t : State} (pu : t.pu = s.pu) (width : t.lu.width = s.lu.width)
    (height : t.lu.height = s.lu.height) (h : panelShape s) : panelShape t := by
  unfold panelShape blockCount at *
  rw [pu, width, height]
  exact h

theorem sendBlock_shape {s : State} (shape : panelShape s) {i : Nat} (bound : i < blockCount s) :
    panelShape (sendBlock i s) := by
  obtain ⟨width, height, length, scan, _⟩ := shape
  refine panelShape_of_same (s := sent i (portPixels s i) s) (by simp [sendBlock, sent, Config.blockTimeout])
    (by simp [sendBlock, sent]) (by simp [sendBlock, sent]) ⟨width, height, ?_, ?_, ?_⟩
  · exact List.length_set.trans length
  · change (if i + 1 = blockCount s then 0 else i + 1) < blockCount s
    split <;> omega
  · rintro f ⟨⟩
    exact bound

theorem selectBlock_shape {s : State} (shape : panelShape s) : panelShape (selectBlock s) := by
  unfold selectBlock
  split
  · split
    next found => exact sendBlock_shape shape (nextBlock_bound shape found)
    next => exact shape
  · exact shape

theorem markBlocks_shape (named : Nat → Bool) {s : State} (shape : panelShape s) : panelShape (markBlocks named s) := by
  obtain ⟨width, height, length, scan, inFlight⟩ := shape
  exact selectBlock_shape ⟨width, height, List.length_mapIdx.trans length, scan, inFlight⟩

/-- R128: the send of a block by a panel that is free to. -/
theorem sendBlock_panel {s : State} (ranges : panelRanges s) (running : s.pu.halted = false) {i : Nat}
    (bound : i < blockCount s) : panelLaws (sendBlock i s) := by
  have shape := sendBlock_shape ranges.1 bound
  obtain ⟨_, level, streak, halted, _, _, _⟩ := ranges
  have sends : (sendBlock i s).pu = (sent i (portPixels s i) s).pu := by simp [sendBlock, sent, Config.blockTimeout]
  refine ⟨shape, ?_, ?_⟩
  · unfold panelLegal
    rw [sends]
    refine ⟨level, streak, halted, fun h => ?_, ?_, by simp [sent]⟩
    · cases running.symm.trans h
    · rintro w ⟨⟩
      exact ⟨portPixels_length s i, Nat.zero_le _⟩
  · unfold panelServed
    rw [sends]
    intro none
    cases none

/-- R127: a selection serves the panel. -/
theorem selectBlock_panel {s : State} (ranges : panelRanges s) : panelLaws (selectBlock s) := by
  unfold selectBlock
  split
  next free =>
    simp only [Bool.and_eq_true, Bool.not_eq_true'] at free
    split
    next found => exact sendBlock_panel ranges free.2 (nextBlock_bound ranges.1 found)
    next nothing => exact ⟨ranges.1, ranges.2, fun _ _ => nextBlock_none ranges.1 nothing⟩
  next busy =>
    refine ⟨ranges.1, ranges.2, fun idle running => ?_⟩
    simp [idle, running] at busy

/-- R126: marks keep the panel served. -/
theorem markBlocks_panel (named : Nat → Bool) {s : State} (ranges : panelRanges s) : panelLaws (markBlocks named s) := by
  obtain ⟨⟨width, height, length, scan, inFlight⟩, legal⟩ := ranges
  exact selectBlock_panel ⟨⟨width, height, List.length_mapIdx.trans length, scan, inFlight⟩, legal⟩

/-! ### The port goes on reading (R25, R128) -/

/-- The panel after the port has read on is as before, but for the pixels of the block write and how many have been read. -/
theorem rereadPort_panel {upTo : Nat → Nat} (bounded : ∀ n, n ≤ 256 → upTo n ≤ 256) (written : Nat → Bool) (img : Image)
    {s : State} (h : panelLaws s) : panelLaws (rereadPort upTo written img s) := by
  obtain ⟨shape, ⟨level, streak, halted, stopped, port, named⟩, served⟩ := h
  unfold rereadPort
  split
  next =>
    refine ⟨shape, ⟨level, streak, halted, stopped, ?_, ?_⟩, served⟩
    · rintro w member
      obtain ⟨v, some', rfl⟩ := Option.map_eq_some_iff.1 member
      obtain ⟨length, read⟩ := port v some'
      exact ⟨by simpa using length, bounded _ read⟩
    · simpa [Option.any_map, Function.comp_def, takeFree] using named
  next => exact ⟨shape, ⟨level, streak, halted, stopped, port, named⟩, served⟩

theorem readToEnd_panel (img : Image) {s : State} (h : panelLaws s) : panelLaws (readToEnd img s) :=
  rereadPort_panel (fun _ => readOnTo_le s) _ img h

theorem endReading_panel {s : State} (h : panelLaws s) : panelLaws (endReading s) := by
  unfold endReading
  split
  · exact rereadPort_panel (fun _ _ => Nat.le_refl 256) _ _ h
  · exact h

theorem endReading_pu (s : State) : (endReading s).pu = { s.pu with port := (endReading s).pu.port } :=
  congrArg State.pu (endReading_rest s)

@[simp] theorem endReading_lu (s : State) : (endReading s).lu = s.lu := by rw [endReading_rest]

/-! ### Acknowledgement, timeout and restart (R129, R130, R132) -/

/-- A block in flight is on a panel that is not halted. -/
theorem running_of_inFlight {s : State} (legal : panelLegal s) {f : InFlight} (sent : s.pu.inFlight = some f) :
    s.pu.halted = false := by
  obtain ⟨_, _, _, stopped, _, _⟩ := legal
  by_contra halted
  rw [stopped (by simpa using halted)] at sent
  cases sent

theorem completeBlock_shape {s : State} (shape : panelShape s) : panelShape (completeBlock s) := by
  obtain ⟨width, height, length, scan, _⟩ := shape
  refine selectBlock_shape (panelShape_of_same (s := { s with pu.inFlight := none, pu.streak := 0, pu.port := (endReading s).pu.port })
    ?_ (by simp) (by simp) ⟨width, height, length, scan, ?_⟩)
  · rw [count_pu]
    change ({ (endReading s).pu with inFlight := none, streak := 0 } : PanelUpdater) = _
    rw [endReading_pu]
  · rintro f ⟨⟩

theorem timeOutBlock_shape (f : InFlight) {s : State} (shape : panelShape s) : panelShape (timeOutBlock f s) := by
  obtain ⟨width, height, length, scan, _⟩ := shape
  have marked : panelShape { endReading s with
      pu.dirty := s.pu.dirty.set f.block true, pu.inFlight := none, pu.streak := s.pu.streak + 1 } := by
    rw [endReading_rest]
    refine ⟨width, height, List.length_set.trans length, scan, ?_⟩
    rintro g ⟨⟩
  simp only [timeOutBlock]
  split
  · exact selectBlock_shape (panelShape_of_same (by simp) (by simp) (by simp) marked)
  · have halted : panelShape { endReading s with
        pu.dirty := s.pu.dirty.set f.block true, pu.inFlight := none, pu.streak := s.pu.streak + 1, pu.halted := true } := marked
    exact panelShape_of_same (by simp) (by simp) (by simp) halted

theorem restartPanel_shape {s : State} (shape : panelShape s) : panelShape (restartPanel s) := by
  have running : panelShape { s with pu.halted := false, pu.streak := 0 } := shape
  exact markBlocks_shape _ (panelShape_of_same (by simp) (by simp) (by simp) running)

theorem applyLevel_shape (n : Nat) {s : State} (shape : panelShape s) : panelShape (applyLevel n s) := by
  unfold applyLevel
  split
  · exact shape
  · have level : panelShape { s with pu.level := n } := shape
    exact panelShape_of_same (by simp) (by simp) (by simp) level

theorem completeBlock_panel {s : State} {f : InFlight} (sent : s.pu.inFlight = some f) (h : panelLaws s) :
    panelLaws (completeBlock s) := by
  have running := running_of_inFlight h.2.1 sent
  obtain ⟨⟨width, height, length, scan, _⟩, ⟨level, _, _, _, port, _⟩, _⟩ := endReading_panel h
  have pu := endReading_pu s
  refine selectBlock_panel (panelRanges_of_same (s := { endReading s with pu.inFlight := none, pu.streak := 0 })
    (by simp) (by simp) (by simp) ⟨⟨width, height, length, scan, ?_⟩, level, ?_, ?_, ?_, port, rfl⟩)
  · rintro f ⟨⟩
  · exact Nat.zero_le 3
  · have : (endReading s).pu.halted = false := by rw [pu]; exact running
    simp [this]
  · intro _
    rfl

theorem timeOutBlock_panel {s : State} {f : InFlight} (sent : s.pu.inFlight = some f) (h : panelLaws s) :
    panelLaws (timeOutBlock f s) := by
  have running := running_of_inFlight h.2.1 sent
  obtain ⟨⟨width, height, length, scan, _⟩, ⟨level, _, _, _, port, _⟩, _⟩ := endReading_panel h
  obtain ⟨_, ⟨_, streak, halted, _, _, _⟩, _⟩ := h
  have below : s.pu.streak < 3 := by
    refine Nat.lt_of_le_of_ne streak fun three => ?_
    rw [halted.2 three] at running
    cases running
  have pu := endReading_pu s
  have dirty : (s.pu.dirty.set f.block true).length = blockCount (endReading s) := by
    rw [← length, pu, List.length_set]
  have not_halted : (endReading s).pu.halted = false := by rw [pu]; exact running
  simp only [timeOutBlock]
  split
  next again =>
    have again' : s.pu.streak + 1 < 3 := by simpa [Config.haltStreak] using again
    refine selectBlock_panel (panelRanges_of_same (s := { endReading s with
      pu.dirty := s.pu.dirty.set f.block true, pu.inFlight := none, pu.streak := s.pu.streak + 1 })
      (by simp) (by simp) (by simp) ⟨⟨width, height, dirty, scan, ?_⟩, level, ?_, ?_, ?_, port, rfl⟩)
    · rintro f ⟨⟩
    · exact Nat.le_of_lt again'
    · have : s.pu.streak + 1 ≠ 3 := Nat.ne_of_lt again'
      simp [not_halted, this]
    · intro _
      rfl
  next third =>
    have third' : s.pu.streak + 1 = 3 := by
      simp [Config.haltStreak] at third
      omega
    refine panelLaws_of_same (s := { endReading s with
      pu.dirty := s.pu.dirty.set f.block true, pu.inFlight := none, pu.streak := s.pu.streak + 1, pu.halted := true })
      (by simp) (by simp) (by simp) ⟨⟨width, height, dirty, scan, ?_⟩, ⟨level, ?_, ?_, ?_, port, rfl⟩, ?_⟩
    · rintro f ⟨⟩
    · exact Nat.le_of_eq third'
    · simp [third']
    · intro _
      rfl
    · intro _ h
      cases h

theorem restartPanel_panel {s : State} (h : panelLaws s) : panelLaws (restartPanel s) := by
  obtain ⟨⟨width, height, length, scan, inFlight⟩, ⟨level, _, _, _, port, named⟩, _⟩ := h
  refine markBlocks_panel _ (panelRanges_of_same (s := { s with pu.halted := false, pu.streak := 0 }) (by simp) (by simp)
    (by simp) ⟨⟨width, height, length, scan, inFlight⟩, level, Nat.zero_le 3, by simp, ?_, port, named⟩)
  intro h
  cases h

/-- R134: a level that is in range may be applied. -/
theorem applyLevel_panel {n : Nat} (range : n ≤ 15) {s : State} (h : panelLaws s) : panelLaws (applyLevel n s) := by
  unfold applyLevel
  split
  · exact h
  obtain ⟨shape, ⟨_, rest⟩, served⟩ := h
  exact panelLaws_of_same (s := { s with pu.level := n }) (by simp) (by simp) (by simp) ⟨shape, ⟨range, rest⟩, served⟩

end Sys2Proof.Machine
end

section
/-! PROOFS. The pictures that the writers of the frame store leave are canonical (R24, R25, log entry 26), and the counts of the Monitor
keep their range (R170, R172). -/

namespace Sys2Proof.Machine

/-! ### Pictures -/

theorem imageSlice_paint_wf {size : Nat} {src img : Image} {a n b : Nat} (rising : Rising src) (h : imageWf size img) :
    imageWf size (imagePaint size img a n (imageSlice src b n a)) := by
  rcases Nat.eq_zero_or_pos n with zero | some'
  · subst zero
    simpa [imagePaint] using h
  · exact imagePaint_wf size img a n _ h (slice_runsWithin src b n a rising some')

theorem writePlace_wf (width size : Nat) (r : ExecRecord) (x y : Int) (keyColour : Option Half) {img : Image}
    (h : imageWf size img) : imageWf size (writePlace width size r x y keyColour img) := by
  refine foldl_imageWf size _ (fun acc cy row => foldl_imageWf size _ (fun acc cx pixel => ?_) _ acc row) _ img h
  dsimp only
  split
  · exact pixel
  · exact imageRow_wf size acc _ 1 _ pixel

theorem writeScroll_wf (width size : Nat) (r : ExecRecord) (dx dy : Int) {img : Image} (h : imageWf size img) :
    imageWf size (writeScroll width size r dx dy img) := by
  have blank := imageRect_wf width size img r.ox r.oy r.rw r.rh r.background h
  simp only [writeScroll]
  split
  · exact blank
  · exact foldl_imageWf size _ (fun acc i row => imageSlice_paint_wf h.2.1 row) _ _ blank

/-- A draw command leaves a canonical picture. -/
theorem writeCommand_wf (width size : Nat) (r : ExecRecord) {img : Image} (h : imageWf size img) :
    imageWf size (writeCommand width size r img) := by
  unfold writeCommand
  split
  · exact writePlace_wf width size r _ _ _ h
  · exact imageRect_wf width size img _ _ _ _ _ h
  · exact writeScroll_wf width size r _ _ h

/-- A layout apply leaves a canonical picture. -/
theorem applyImage_wf (s : State) (mask : BitVec 8) (screen : 0 < panelPixels s) (h : imageWf (panelPixels s) s.fs.image) :
    imageWf (panelPixels s) (applyImage s mask) := by
  refine foldl_imageWf _ _ (fun acc i region => ?_) _ _ (imageUniform_wf _ _ screen)
  dsimp only
  split
  · split
    · exact imageRect_wf _ _ acc _ _ _ _ _ region
    · exact imageCopyRect_wf _ _ s.fs.image acc _ _ _ _ h.2.1 region
  · exact region

theorem panelPixels_pos {s : State} (shape : panelShape s) : 0 < panelPixels s := by
  obtain ⟨⟨width, _⟩, ⟨height, _⟩, _⟩ := shape
  exact Nat.mul_pos (by simp only [panelW]; omega) (by simp only [panelH]; omega)

/-! ### The Monitor -/

/-- R172: the tracker's counts in their range. -/
def trackerLegal (k : Tracker) : Prop :=
  k.last ≤ 4294967295 ∧ k.max ≤ 4294967295 ∧ k.completed ≤ 4294967295 ∧ k.lost ≤ 4294967295

theorem afterLoss_legal (side : Side) {k : Tracker} (h : trackerLegal k) : trackerLegal (afterLoss side k) := by
  obtain ⟨last, most, completed, lost⟩ := h
  unfold afterLoss
  split
  · exact ⟨last, most, completed, Nat.min_le_right _ _⟩
  · exact ⟨last, most, completed, lost⟩

theorem afterCompletion_legal (side : Side) (tick : Nat) {k : Tracker} (h : trackerLegal k) :
    trackerLegal (afterCompletion side tick k) := by
  obtain ⟨last, most, completed, lost⟩ := h
  unfold afterCompletion
  split
  · split
    · exact ⟨Nat.min_le_right _ _, Nat.max_le.2 ⟨most, Nat.min_le_right _ _⟩, Nat.min_le_right _ _, lost⟩
    · exact ⟨last, most, completed, lost⟩
  · exact ⟨last, most, completed, lost⟩

/-- R171: additions keep a counter in its range. -/
theorem addedTo_le {v : Nat} (k : Nat) (h : v ≤ 4294967295) : addedTo v k ≤ 4294967295 := by
  unfold addedTo
  split
  · exact h
  · exact Nat.min_le_right _ _

theorem Saturates.monitorLegal {p : Fin 4 → Prop} {s t : State} (counted : Saturates p s t)
    (tracker : trackerLegal s.mn.tracker → trackerLegal t.mn.tracker) (h : monitorLegal s) : monitorLegal t := by
  refine ⟨fun n => ?_, tracker h.2⟩
  obtain ⟨k, value⟩ := counted.values n
  rw [value]
  exact addedTo_le k (h.1 n)

/-- The laws of the memories and of the Monitor's counts, with the geometry they stand on. -/
def storeLaws (s : State) : Prop := panelShape s ∧ memoriesLegal s ∧ monitorLegal s

end Sys2Proof.Machine
end

section
/-! PROOFS. What drawing, fills, faults, the panel and most requests keep, one lemma per operation: the records of Own, the lane, the
tally of the Monitor, the laws of the panel and those of the memories. -/

namespace Sys2Proof.Machine

/-- What an operation keeps that is not of the Link Controller, the Key Scanner, the settings or the store. -/
structure Kept (s t : State) : Prop where
  own : own t = own s
  tallies : Tallies s t
  panel : panelLaws s → panelLaws t
  memories : storeLaws s → storeLaws t

theorem Kept.trans {s t u : State} (h : Kept s t) (g : Kept t u) : Kept s u where
  own := g.own.trans h.own
  tallies := h.tallies.trans g.tallies
  panel := g.panel ∘ h.panel
  memories := g.memories ∘ h.memories

theorem Kept.foldl {α : Type} {f : State → α → State} (h : ∀ t a, Kept t (f t a)) (l : List α) (s : State)
    (refl : Kept s s) : Kept s (l.foldl f s) := by
  induction l generalizing s with
  | nil => exact refl
  | cons a l ih => exact (h s a).trans (ih _ ⟨rfl, .of_same rfl rfl rfl rfl, id, id⟩)

/-- The memories' laws where the pictures and stores are as they were. -/
theorem storeLaws_of_same {s t : State} (same : Machine.own t = Machine.own s) (tallies : Tallies s t) (shape : panelShape s → panelShape t)
    (store : t.tc.store = s.tc.store) (image : t.fs.image = s.fs.image)
    (tracker : trackerLegal s.mn.tracker → trackerLegal t.mn.tracker) (h : storeLaws s) : storeLaws t := by
  obtain ⟨shaped, ⟨flash, tiles, picture⟩, monitor⟩ := h
  have width : t.lu.width = s.lu.width := congrArg Own.width same
  have height : t.lu.height = s.lu.height := congrArg Own.height same
  have cells : t.flash = s.flash := congrArg Own.flash same
  refine ⟨shape shaped, ⟨by rw [cells]; exact flash, by rw [store]; exact tiles, ?_⟩,
    tallies.saturates.monitorLegal tracker monitor⟩
  simpa only [panelPixels, panelW, panelH, width, height, image] using picture

/-- An operation that leaves the panel, the pictures and the tile store. -/
theorem Kept.of {s t : State} (same : Machine.own t = Machine.own s) (tallies : Tallies s t) (pu : t.pu = s.pu)
    (store : t.tc.store = s.tc.store) (image : t.fs.image = s.fs.image)
    (tracker : trackerLegal s.mn.tracker → trackerLegal t.mn.tracker) : Kept s t where
  own := same
  tallies := tallies
  panel := panelLaws_of_same pu (congrArg Own.width same) (congrArg Own.height same)
  memories := storeLaws_of_same same tallies
    (panelShape_of_same pu (congrArg Own.width same) (congrArg Own.height same)) store image tracker

/-- An operation that leaves the Monitor and the pending set too. -/
theorem Kept.plain {s t : State} (same : Machine.own t = Machine.own s) (lane : t.lc.tx = s.lc.tx) (mn : t.mn = s.mn)
    (events : t.me.events = s.me.events) (pu : t.pu = s.pu) (store : t.tc.store = s.tc.store)
    (image : t.fs.image = s.fs.image) : Kept s t :=
  .of same (.of_same lane (congrArg (fun o => o.settings.enables) same) (by rw [mn]) (by simp only [eventSlot, events]))
    pu store image (by rw [mn]; exact id)

theorem Kept.refl (s : State) : Kept s s := .plain rfl rfl rfl rfl rfl rfl rfl

theorem Kept.ite {p : Prop} [Decidable p] {s t u : State} (yes : Kept s t) (no : Kept s u) : Kept s (if p then t else u) := by
  split
  · exact yes
  · exact no

/-! ### Shared operations -/

theorem countN_kept (x : SubEvent) (n : Nat) (s : State) : Kept s (countN x n s) :=
  .of (countN_own x n s) (countN_tallies x n s) (countN_pu x n s) (by simp) (by simp) (by simp)

theorem count_kept (x : SubEvent) (s : State) : Kept s (count x s) := countN_kept x 1 s

theorem raiseEvent_kept {k : EventKind} (other : k ≠ .monitorSaturated) (d : BitVec 24) (s : State) :
    Kept s (raiseEvent k d s) :=
  .of (raiseEvent_own k d s) (raiseEvent_tallies other d s) (by simp) (by simp) (by simp) (by simp)

theorem setStream_kept (i : Fin 8) (r : Stream) (s : State) : Kept s (setStream i r s) := .plain rfl rfl rfl rfl rfl rfl rfl
theorem mapStreams_kept (f : Fin 8 → Stream → Stream) (s : State) : Kept s (mapStreams f s) :=
  .plain (mapStreams_own f s) rfl rfl rfl rfl rfl rfl
theorem setRegion_kept (i : Fin 8) (r : Region) (s : State) : Kept s (setRegion i r s) := .plain rfl rfl rfl rfl rfl rfl rfl
theorem mapRegions_kept (f : Fin 8 → Region → Region) (s : State) : Kept s (mapRegions f s) :=
  .plain (mapRegions_own f s) rfl rfl rfl rfl rfl rfl
theorem setTileSet_kept (key : Word) (ways : TileSet) (s : State) : Kept s (setTileSet key ways s) :=
  .plain (setTileSet_own key ways s) rfl rfl rfl rfl rfl rfl
theorem setQueue_kept (side : Side) (q : List Entry) (s : State) : Kept s (setQueue side q s) := by
  cases side <;> exact .plain rfl rfl rfl rfl rfl rfl rfl
theorem setEngine_kept (side : Side) (r : Option ExecRecord) (s : State) : Kept s (setEngine side r s) := by
  cases side <;> exact .plain rfl rfl rfl rfl rfl rfl rfl
theorem setRecord_kept (side : Side) (r : FaultRecord) (s : State) : Kept s (setRecord side r s) := by
  cases side <;> exact .plain rfl rfl rfl rfl rfl rfl rfl
theorem takeFree_kept (s : State) : Kept s (takeFree s) := .plain rfl rfl rfl rfl rfl rfl rfl
theorem postReply_kept (tag kind : Byte) (x : Status) (d : List Byte) (s : State) : Kept s (postReply tag kind x d s) :=
  .plain rfl rfl rfl rfl rfl rfl rfl
theorem answer_kept (tag kind : Byte) (x : Status) (s : State) : Kept s (answer tag kind x s) := postReply_kept _ _ _ _ _
theorem beginLong_kept (tag kind : Byte) (op : LongOp) (s : State) : Kept s (beginLong tag kind op s) :=
  .plain rfl rfl rfl rfl rfl rfl rfl

theorem endLong_kept (x : Status) (s : State) : Kept s (endLong x s) := by
  rw [endLong_rest]
  exact .plain rfl rfl rfl rfl rfl rfl rfl

theorem endOp_kept (op : LongOp) (x : Status) (s : State) : Kept s (endOp op x s) := .ite (endLong_kept x s) (.refl s)

theorem flagRewind_kept (x : RewindReason) (i : Fin 8) (s : State) : Kept s (flagRewind x i s) := setStream_kept _ _ s

theorem flagOpenRewinds_kept (x : RewindReason) (s : State) : Kept s (flagOpenRewinds x s) :=
  .foldl (fun t i => .ite (flagRewind_kept x i t) (.refl t)) _ s (.refl s)

/-! ### The panel -/

theorem sendBlock_tallies (i : Nat) (s : State) : Tallies s (sendBlock i s) := by
  refine Tallies.trans ?_ (count_tallies _ _)
  exact .of_same rfl rfl rfl rfl

theorem selectBlock_tallies (s : State) : Tallies s (selectBlock s) := by
  rcases selectBlock_cases s with same | ⟨i, _, _, sends⟩
  · rw [same]; exact (Kept.refl s).tallies
  · rw [sends]; exact sendBlock_tallies i s

theorem markBlocks_tallies (named : Nat → Bool) (s : State) : Tallies s (markBlocks named s) := by
  refine Tallies.trans ?_ (selectBlock_tallies _)
  exact .of_same rfl rfl rfl rfl

@[simp] theorem sendBlock_tc (i : Nat) (s : State) : (sendBlock i s).tc = s.tc := count_tc _ _
@[simp] theorem selectBlock_tc (s : State) : (selectBlock s).tc = s.tc := by
  rcases selectBlock_cases s with same | ⟨i, _, _, sends⟩
  · rw [same]
  · rw [sends, sendBlock_tc]
@[simp] theorem markBlocks_tc (named : Nat → Bool) (s : State) : (markBlocks named s).tc = s.tc := selectBlock_tc _
@[simp] theorem sendBlock_tracker (i : Nat) (s : State) : (sendBlock i s).mn.tracker = s.mn.tracker := count_tracker _ _
@[simp] theorem selectBlock_tracker (s : State) : (selectBlock s).mn.tracker = s.mn.tracker := by
  rcases selectBlock_cases s with same | ⟨i, _, _, sends⟩
  · rw [same]
  · rw [sends, sendBlock_tracker]
@[simp] theorem markBlocks_tracker (named : Nat → Bool) (s : State) : (markBlocks named s).mn.tracker = s.mn.tracker :=
  selectBlock_tracker _

theorem markBlocks_kept (named : Nat → Bool) (s : State) : Kept s (markBlocks named s) where
  own := markBlocks_own named s
  tallies := markBlocks_tallies named s
  panel h := markBlocks_panel named h.ranges
  memories := storeLaws_of_same (markBlocks_own named s) (markBlocks_tallies named s) (markBlocks_shape named) (by simp)
    (by simp) (by simp)

theorem readToEnd_kept (img : Image) (s : State) : Kept s (readToEnd img s) := by
  have tallies : Tallies s (readToEnd img s) := by
    rw [readToEnd_rest]
    exact .of_same rfl rfl rfl rfl
  refine ⟨readToEnd_own img s, tallies, readToEnd_panel img, ?_⟩
  refine storeLaws_of_same (readToEnd_own img s) tallies ?_ ?_ ?_ ?_ <;> rw [readToEnd_rest]
  all_goals exact id

theorem applyLevel_kept {n : Nat} (range : n ≤ 15) (s : State) : Kept s (applyLevel n s) := by
  have tallies : Tallies s (applyLevel n s) := by
    unfold applyLevel
    split
    · exact (Kept.refl s).tallies
    · have level : Tallies s { s with pu.level := n } := .of_same rfl rfl rfl rfl
      exact (level.trans (count_tallies _ _)).trans (raiseEvent_tallies (by decide) _ _)
  refine ⟨applyLevel_own n s, tallies, applyLevel_panel range,
    storeLaws_of_same (applyLevel_own n s) tallies (applyLevel_shape n) ?_ ?_ ?_⟩
  all_goals
    unfold applyLevel
    split <;> simp

theorem restartPanel_kept (s : State) : Kept s (restartPanel s) := by
  have running : Tallies s { s with pu.halted := false, pu.streak := 0 } := .of_same rfl rfl rfl rfl
  have tallies : Tallies s (restartPanel s) := (running.trans (count_tallies _ _)).trans (markBlocks_tallies _ _)
  exact ⟨restartPanel_own s, tallies, restartPanel_panel,
    storeLaws_of_same (restartPanel_own s) tallies restartPanel_shape (by simp [restartPanel]) (by simp [restartPanel])
      (by simp [restartPanel])⟩

theorem doPanelRestart_kept (tag : Byte) (s : State) : Kept s (doPanelRestart tag s) :=
  (restartPanel_kept s).trans (answer_kept _ _ _ _)

theorem doPanelWrite_kept (tag w h l : Byte) (s : State) : Kept s (doPanelWrite tag w h l s) :=
  .ite ((applyLevel_kept (Nat.min_le_right _ _) s).trans (answer_kept _ _ _ _)) (answer_kept _ _ _ _)

/-! ### Tile Cache -/

theorem allocateWay_kept (key : Word) (w : Fin 4) (s : State) : Kept s (allocateWay key w s) :=
  .ite ((setTileSet_kept _ _ s).trans (count_kept _ _)) (setTileSet_kept _ _ s)

theorem mapEntry_kept (key : Word) (f : DirEntry → DirEntry) (s : State) : Kept s (mapEntry key f s) := by
  unfold mapEntry
  split
  · exact setTileSet_kept _ _ s
  · exact .refl s

/-- R78: a sector written into the tile store keeps its form. -/
theorem tileStore_kept (a : Nat) (data : List Byte) (s : State) :
    Kept s { s with tc.store := cellWrite 0 s.tc.store a data } where
  own := rfl
  tallies := .of_same rfl rfl rfl rfl
  panel := id
  memories := fun ⟨shape, ⟨flash, store, image⟩, monitor⟩ => ⟨shape, ⟨flash, cellWrite_wf 0 _ a data store, image⟩, monitor⟩

theorem writeSector_kept (key : Word) (w : Fin 4) (n : Nat) (d : List Byte) (s : State) : Kept s (writeSector key w n d s) :=
  (tileStore_kept _ d s).trans (setTileSet_kept _ _ _)

theorem afterLookup_kept (key : Word) (l : Lookup) (s : State) : Kept s (afterLookup key l s) := by
  cases l with
  | hit w => exact (setTileSet_kept _ _ s).trans (count_kept _ _)
  | sectorMiss w => exact count_kept _ s
  | absent => exact count_kept _ s

theorem wakeWay_kept (s : State) : Kept s (wakeWay s) := mapStreams_kept _ s

theorem releaseEntry_kept (key : Word) (s : State) : Kept s (releaseEntry key s) := by
  unfold releaseEntry
  split
  · exact .ite ((setTileSet_kept _ _ s).trans (wakeWay_kept _)) (setTileSet_kept _ _ s)
  · exact .refl s

theorem releaseReservation_kept (i : Fin 8) (s : State) : Kept s (releaseReservation i s) := by
  unfold releaseReservation
  split
  · exact (setStream_kept i _ s).trans (releaseEntry_kept _ _)
  · exact .refl s

theorem doTilePin_kept (tag : Byte) (key : Word) (s : State) : Kept s (doTilePin tag key s) := by
  simp only [doTilePin]
  split
  · exact .ite (answer_kept _ _ _ s) (.ite (answer_kept _ _ _ s)
      (.ite (answer_kept _ _ _ s) ((setTileSet_kept _ _ s).trans (answer_kept _ _ _ _))))
  · exact answer_kept _ _ _ s

theorem unpin_kept (tag : Byte) (key : Word) (s : State) : Kept s (unpin tag key s) := by
  simp only [unpin]
  split
  · exact .ite (((setTileSet_kept _ _ s).trans (wakeWay_kept _)).trans (answer_kept _ _ _ _)) (answer_kept _ _ _ s)
  · exact answer_kept _ _ _ s

theorem sweepPointer_kept (dir : Vector TileSet 64) (n : Nat) (s : State) : Kept s { s with tc.dir := dir, tc.sweep := n } :=
  .plain rfl rfl rfl rfl rfl rfl rfl

theorem doTileFlush_kept (tag : Byte) (s : State) : Kept s (doTileFlush tag s) :=
  .ite ((sweepPointer_kept s.tc.dir 0 s).trans (beginLong_kept _ _ _ _)) (answer_kept _ _ _ s)

theorem sweepSet_kept (n : Fin 64) (s : State) : Kept s (sweepSet n s) :=
  .ite ((sweepPointer_kept _ _ s).trans (endOp_kept _ _ _)) (sweepPointer_kept _ _ s)

theorem resetCache_kept (s : State) : Kept s (resetCache s) := sweepPointer_kept _ _ s

/-! ### Tile Fault Unit -/

theorem setWait_kept (i : Fin 8) (w : StreamState) (s : State) : Kept s (setWait i w s) := setStream_kept _ _ s

theorem joinFault_kept (side : Side) (i : Fin 8) (m : BitVec 4) (s : State) : Kept s (joinFault side i m s) :=
  ((Kept.ite (setRecord_kept side _ s) ((setRecord_kept side _ s).trans (count_kept _ _))).trans (count_kept _ _)).trans
    (setWait_kept i _ _)

/-- R172: the tracker's counts keep their range whatever it follows. -/
theorem tracker_kept {k : Tracker} {s : State} (legal : trackerLegal s.mn.tracker → trackerLegal k) :
    Kept s { s with mn.tracker := k } := .of rfl (.of_same rfl rfl rfl rfl) rfl rfl rfl legal

theorem trackRaise_kept (side : Side) (key : Word) (s : State) : Kept s (trackRaise side key s) :=
  .ite (.refl s) (tracker_kept (k := { s.mn.tracker with armed := _ }) id)

theorem trackComplete_kept (side : Side) (s : State) : Kept s (trackComplete side s) := by
  rw [trackComplete_eq]
  exact tracker_kept (afterCompletion_legal side s.tick)

theorem trackLost_kept (side : Side) (s : State) : Kept s (trackLost side s) := by
  rw [trackLost_eq]
  exact tracker_kept (afterLoss_legal side)

theorem trackTeardown_kept (s : State) : Kept s (trackTeardown s) := (trackLost_kept _ s).trans (trackLost_kept _ _)

theorem raiseFault_kept (side : Side) (i : Fin 8) (key : Word) (m : BitVec 4) (s : State) :
    Kept s (raiseFault side i key m s) :=
  ((((mapEntry_kept key _ s).trans (setRecord_kept side _ _)).trans (count_kept _ _)).trans (trackRaise_kept side key _)).trans
    (setWait_kept i _ _)

theorem takeMiss_kept (side : Side) (i : Fin 8) (key : Word) (m : BitVec 4) (p : Bool) (s : State) :
    Kept s (takeMiss side i key m p s) := by
  unfold takeMiss
  split
  · exact joinFault_kept _ i m s
  · refine .ite ((count_kept _ s).trans (setWait_kept i _ _)) (.ite (raiseFault_kept side i key m s) ?_)
    split
    · exact (allocateWay_kept key _ s).trans (raiseFault_kept side i key m _)
    · exact (count_kept _ s).trans (setWait_kept i _ _)

theorem goIdle_kept (side : Side) (s : State) : Kept s (goIdle side s) :=
  ((setRecord_kept side _ s).trans (mapStreams_kept _ _)).trans (wakeWay_kept _)

theorem completeFault_kept (side : Side) (s : State) : Kept s (completeFault side s) :=
  ((((mapEntry_kept _ _ s).trans (mapStreams_kept _ _)).trans (goIdle_kept side _)).trans (count_kept _ _)).trans
    (trackComplete_kept side _)

theorem fillPassed_kept (key : Word) (w : Fin 4) (s : State) : Kept s (fillPassed key w s) := by
  unfold fillPassed
  split
  · exact .ite (completeFault_kept _ s) (.refl s)
  · exact .refl s

theorem retryFault_kept (side : Side) (s : State) : Kept s (retryFault side s) :=
  (setRecord_kept side _ s).trans (count_kept _ _)

theorem skipHead_kept (s : State) (i : Fin 8) : Kept s (skipHead s i) := by
  unfold skipHead
  split
  · exact ((setQueue_kept _ _ s).trans (setStream_kept i _ _)).trans (count_kept _ _)
  · exact .refl s

theorem setStale_kept (m : BitVec 8) (s : State) : Kept s (setStale m s) :=
  (mapRegions_kept _ s).trans (raiseEvent_kept (by decide) _ _)

theorem abandonFault_kept (side : Side) (s : State) : Kept s (abandonFault side s) :=
  (((((Kept.foldl skipHead_kept _ s (.refl s)).trans (setStale_kept _ _)).trans (mapEntry_kept _ _ _)).trans
    (goIdle_kept side _)).trans (count_kept _ _)).trans (trackLost_kept side _)

theorem cancelFault_kept (side : Side) (s : State) : Kept s (cancelFault side s) :=
  (((mapEntry_kept _ _ s).trans (goIdle_kept side _)).trans (count_kept _ _)).trans (trackLost_kept side _)

theorem leaveFault_kept (side : Side) (i : Fin 8) (s : State) : Kept s (leaveFault side i s) :=
  .ite (.ite ((setRecord_kept side _ s).trans (cancelFault_kept side _)) (setRecord_kept side _ s)) (.refl s)

theorem representFault_kept (side : Side) (s : State) : Kept s (representFault side s) :=
  .ite ((setRecord_kept side _ s).trans (count_kept _ _)) (.refl s)

theorem resetFaults_kept (s : State) : Kept s (resetFaults s) := .plain rfl rfl rfl rfl rfl rfl rfl

/-! ### Drawing -/

theorem turns_kept (holder : Option Writer) (waiting : List Writer) (began : Nat) (fill : Option Half) (s : State) :
    Kept s { s with fs.holder := holder, fs.waiting := waiting, fs.began := began, lu.fillColour := fill } :=
  .plain rfl rfl rfl rfl rfl rfl rfl

theorem grantStore_kept (s : State) : Kept s (grantStore s) := by
  simp only [grantStore]
  split
  · split
    next w rest _ =>
      exact .ite ((turns_kept (some w) rest s.free (some s.lu.undocked) s).trans (count_kept _ _))
        (turns_kept (some w) rest s.free s.lu.fillColour s)
    · exact .refl s
  · exact .refl s

theorem askStore_kept (w : Writer) (s : State) : Kept s (askStore w s) :=
  (turns_kept s.fs.holder (s.fs.waiting ++ [w]) s.fs.began s.lu.fillColour s).trans (grantStore_kept _)

theorem removeEntry_kept (side : Side) (r : ExecRecord) (s : State) : Kept s (removeEntry side r s) := setQueue_kept _ _ s

theorem beginExecution_kept (side : Side) (r : ExecRecord) (s : State) : Kept s (beginExecution side r s) :=
  ((setQueue_kept side _ s).trans (setEngine_kept side _ _)).trans (askStore_kept _ _)

theorem handPlace_kept (side : Side) (r : ExecRecord) (key : Word) (y : Int) (s : State) :
    Kept s (handPlace side r key y s) := by
  have looked (l : Lookup) : Kept s (releaseReservation r.stream (afterLookup key l s)) :=
    (afterLookup_kept key l s).trans (releaseReservation_kept _ _)
  simp only [handPlace]
  split
  · exact (looked _).trans (beginExecution_kept side _ _)
  · exact (looked _).trans (takeMiss_kept side _ key _ _ _)
  · exact (looked _).trans (takeMiss_kept side _ key _ _ _)

theorem handOver_kept (side : Side) (e : Entry) (s : State) : Kept s (handOver side e s) := by
  have taken (x : SubEvent) : Kept s (removeEntry side (recordFor e (regionOf e.stream s)) (count x s)) :=
    (count_kept x s).trans (removeEntry_kept side _ _)
  simp only [handOver]
  split
  · exact .ite ((taken _).trans (releaseReservation_kept _ _))
      (.ite ((taken _).trans (releaseReservation_kept _ _)) (handPlace_kept side _ _ _ s))
  · exact .ite (taken _) (beginExecution_kept side _ s)
  · exact .ite (taken _) (beginExecution_kept side _ s)

theorem handFuel_kept (fuel : Nat) (s : State) : Kept s (handFuel fuel s) := by
  induction fuel generalizing s with
  | zero => exact .refl s
  | succ fuel ih =>
    simp only [handFuel]
    split
    · exact .refl s
    · exact (handOver_kept _ _ s).trans (ih _)
    · exact (handOver_kept _ _ s).trans (ih _)
    · exact .ite (((takeFree_kept s).trans (handOver_kept _ _ _)).trans (ih _))
        (((takeFree_kept s).trans (handOver_kept _ _ _)).trans (ih _))

theorem exchangeTurns_kept (s : State) : Kept s (exchangeTurns s) := .plain rfl rfl rfl rfl rfl rfl rfl

theorem handAll_kept (s : State) : Kept s (handAll s) := by
  have each : Kept s (handEach s) := handFuel_kept _ s
  rcases handAll_cases s with same | same | same <;> rw [same]
  · exact each
  · exact each.trans (takeFree_kept _)
  · exact (each.trans (takeFree_kept _)).trans (exchangeTurns_kept _)

theorem quiesceState_kept (q : QuiesceState) (s : State) : Kept s { s with sq.quiesce := q } :=
  .plain rfl rfl rfl rfl rfl rfl rfl

theorem checkDrain_kept (s : State) : Kept s (checkDrain s) :=
  .ite ((quiesceState_kept .quiesced s).trans (endOp_kept _ _ _)) (.refl s)

theorem settle_kept (s : State) : Kept s (settle s) := (handAll_kept s).trans (checkDrain_kept _)

/-- A picture that is canonical may take the place of the one held. -/
theorem picture_kept {img : Image} {holder : Option Writer} {layout : Option (BitVec 8)} {fill : Option Half} {s : State}
    (canonical : panelShape s → imageWf (panelPixels s) s.fs.image → imageWf (panelPixels s) img) :
    Kept s { s with fs.image := img, fs.holder := holder, lu.apply := layout, lu.fillColour := fill } where
  own := rfl
  tallies := .of_same rfl rfl rfl rfl
  panel := id
  memories := fun ⟨shape, ⟨flash, store, image⟩, monitor⟩ => ⟨shape, ⟨flash, store, canonical shape image⟩, monitor⟩

theorem finishExecution_kept (side : Side) (r : ExecRecord) (s : State) : Kept s (finishExecution side r s) := by
  have written : Kept s { s with fs.image := writeCommand (panelW s) (panelPixels s) r s.fs.image, fs.holder := none } :=
    picture_kept (layout := s.lu.apply) (fill := s.lu.fillColour) fun _ => writeCommand_wf _ _ r
  exact (((((written.trans (readToEnd_kept _ _)).trans (markBlocks_kept _ _)).trans
    (.ite (.refl _) (removeEntry_kept side r _))).trans (count_kept _ _)).trans (setEngine_kept side none _)).trans
    (grantStore_kept _)

theorem markRemoved_kept (side : Side) (s : State) : Kept s (markRemoved side s) := setEngine_kept _ _ s
theorem markRemovedOf_kept (side : Side) (i : Fin 8) (s : State) : Kept s (markRemovedOf side i s) := setEngine_kept _ _ s

/-! ### Layout -/

theorem header_kept (border undocked : Half) (changed : Bool) (layout : Option (BitVec 8)) (s : State) :
    Kept s { s with lu.border := border, lu.undocked := undocked, lu.headerChanged := changed, lu.apply := layout } :=
  .plain rfl rfl rfl rfl rfl rfl rfl

theorem refuseLayout_kept (tag : Byte) (x : Status) (s : State) : Kept s (refuseLayout tag x s) :=
  (count_kept _ s).trans (answer_kept _ _ _ _)

theorem doHeaderWrite_kept (tag : Byte) (b u : Half) (s : State) : Kept s (doHeaderWrite tag b u s) :=
  .ite ((header_kept b u true s.lu.apply s).trans (answer_kept _ _ _ _)) (refuseLayout_kept _ _ s)

theorem doRegionWrite_kept (tag : Byte) (i : Fin 8) (en : Bool) (a b c d e : Half) (s : State) :
    Kept s (doRegionWrite tag i en a b c d e s) :=
  .ite (refuseLayout_kept _ _ s) (.ite (refuseLayout_kept _ _ s) (.ite (refuseLayout_kept _ _ s)
    (.ite (refuseLayout_kept _ _ s) ((setRegion_kept i _ s).trans (answer_kept _ _ _ _)))))

theorem setChanged_kept (b : Bool) (s : State) : Kept s (setChanged b s) :=
  (header_kept s.lu.border s.lu.undocked b s.lu.apply s).trans (mapRegions_kept _ _)

theorem beginApply_kept (s : State) : Kept s (beginApply s) := by
  have noted : Kept s (setChanged false { s with lu.apply := some (notedRegions s) }) :=
    (header_kept s.lu.border s.lu.undocked s.lu.headerChanged _ s).trans (setChanged_kept _ _)
  exact ((noted.trans (.ite (.refl _) (setStale_kept _ _))).trans (count_kept _ _)).trans (askStore_kept _ _)

theorem finishApply_kept (m : BitVec 8) (s : State) : Kept s (finishApply m s) := by
  have painted : Kept s { s with fs.image := applyImage s m, fs.holder := none, lu.apply := none } :=
    picture_kept (fill := s.lu.fillColour) fun shape => applyImage_wf s m (panelPixels_pos shape)
  exact ((painted.trans (readToEnd_kept _ _)).trans (markBlocks_kept _ _)).trans (grantStore_kept _)

theorem stopFill_kept (s : State) : Kept s (stopFill s) := by
  have blended : Kept s { s with
      fs.image := imageBlend (panelPixels s) (isWritten s) s.fs.image (writtenImage s), fs.holder := none } :=
    picture_kept (layout := s.lu.apply) (fill := s.lu.fillColour) fun shape _ => imageBlend_wf _ _ _ _ (panelPixels_pos shape)
  exact .ite ((blended.trans (takeFree_kept _)).trans (readToEnd_kept _ _)) (.refl s)

theorem requestTeardownFill_kept (s : State) : Kept s (requestTeardownFill s) := by
  have waits (waiting : List Writer) : Kept (stopFill s)
      { stopFill s with fs.waiting := waiting, lu.apply := none, lu.fillColour := none } :=
    .plain rfl rfl rfl rfl rfl rfl rfl
  exact ((stopFill_kept s).trans (waits _)).trans (grantStore_kept _)

theorem teardownLayout_kept (s : State) : Kept s (teardownLayout s) :=
  ((setStale_kept _ s).trans (setChanged_kept _ _)).trans (requestTeardownFill_kept _)

theorem finishTeardownFill_kept (c : Half) (s : State) : Kept s (finishTeardownFill c s) := by
  have filled : Kept s { s with fs.image := imageUniform c, fs.holder := none, lu.fillColour := none } :=
    picture_kept (layout := s.lu.apply) fun shape _ => imageUniform_wf _ c (panelPixels_pos shape)
  exact ((filled.trans (readToEnd_kept _ _)).trans (markBlocks_kept _ _)).trans (grantStore_kept _)

/-! ### Streams -/

theorem doStreamOpen_kept (tag b : Byte) (q : Half) (s : State) : Kept s (doStreamOpen tag b q s) := by
  simp only [doStreamOpen]
  split
  · exact .ite (answer_kept _ _ _ s) (.ite (answer_kept _ _ _ s)
      (((setStream_kept _ _ s).trans (setRegion_kept _ _ _)).trans (answer_kept _ _ _ _)))
  · exact answer_kept _ _ _ s

theorem closeStream_kept (i : Fin 8) (s : State) : Kept s (closeStream i s) := by
  have entries (t : State) : Kept t (releaseReservation i (leaveFault .b i (leaveFault .a i t))) :=
    ((leaveFault_kept .a i t).trans (leaveFault_kept .b i _)).trans (releaseReservation_kept i _)
  unfold closeStream
  dsimp only
  split
  · exact (((setQueue_kept _ _ s).trans (markRemovedOf_kept _ i _)).trans (entries _)).trans (setStream_kept i _ _)
  · exact (entries s).trans (setStream_kept i _ _)

theorem doStreamClose_kept (tag b : Byte) (s : State) : Kept s (doStreamClose tag b s) := by
  simp only [doStreamClose]
  split
  · exact .ite (((closeStream_kept _ s).trans (answer_kept _ _ _ _)).trans (settle_kept _)) (answer_kept _ _ _ s)
  · exact answer_kept _ _ _ s

theorem doTileUnpin_kept (tag : Byte) (key : Word) (s : State) : Kept s (doTileUnpin tag key s) :=
  (unpin_kept tag key s).trans (settle_kept _)

theorem doStreamWrite_kept (tag : Byte) (i : Fin 8) (b : Bool) (s : State) : Kept s (doStreamWrite tag i b s) :=
  Kept.trans (.ite (.refl s) (setRegion_kept i _ s)) (answer_kept _ _ _ _)

theorem shedStream_kept (side : Side) (v : Fin 8) (s : State) : Kept s (shedStream side v s) :=
  ((((setQueue_kept side _ s).trans (setStream_kept v _ _)).trans (flagRewind_kept _ v _)).trans (count_kept _ _)).trans
    (countN_kept _ _ _)

theorem takeFrame_kept (side : Side) (i : Fin 8) (q : Half) (cs : List DrawCommand) (s : State) :
    Kept s (takeFrame side i q cs s) :=
  (((setQueue_kept side _ s).trans (setStream_kept i _ _)).trans (count_kept _ _)).trans (settle_kept _)

theorem refuseForRoom_kept (i : Fin 8) (s : State) : Kept s (refuseForRoom i s) :=
  (count_kept _ s).trans (flagRewind_kept _ i _)

theorem inOrder_kept (side : Side) (i : Fin 8) (q : Half) (cs : List DrawCommand) (s : State) :
    Kept s (inOrder side i q cs s) := by
  unfold inOrder
  refine .ite (takeFrame_kept side i q cs s) ?_
  split
  next v _ =>
    exact .ite ((shedStream_kept side v s).trans (count_kept _ _)) (.ite
      ((shedStream_kept side v s).trans (takeFrame_kept side i q cs _))
      ((shedStream_kept side v s).trans (refuseForRoom_kept i _)))
  · exact (count_kept _ s).trans (refuseForRoom_kept i _)

theorem judgeDraw_kept (i : Fin 8) (q : Half) (cs : List DrawCommand) (s : State) : Kept s (judgeDraw i q cs s) := by
  unfold judgeDraw
  split
  · exact count_kept _ s
  · exact .ite (count_kept _ s) (.ite (count_kept _ s) (.ite (inOrder_kept _ i q cs s) (.ite
      (.ite ((count_kept _ s).trans (flagRewind_kept _ i _)) (count_kept _ s)) (count_kept _ s))))

theorem doDraw_kept (b : Byte) (q : Half) (cs : List Byte) (s : State) : Kept s (doDraw b q cs s) := by
  unfold doDraw
  split
  · split
    · exact judgeDraw_kept _ q _ s
    · exact count_kept _ s
  · exact count_kept _ s

theorem doQuiesce_kept (tag : Byte) (s : State) : Kept s (doQuiesce tag s) :=
  .ite (answer_kept _ _ _ s) (((quiesceState_kept _ s).trans (beginLong_kept _ _ _ _)).trans (checkDrain_kept _))

theorem moveStream_kept (side : Side) (s : State) : Kept s (moveStream side s) := by
  unfold moveStream
  split
  · exact (setStream_kept _ _ s).trans (count_kept _ _)
  · exact .refl s

theorem rebalanceFuel_kept (fuel : Nat) (s : State) : Kept s (rebalanceFuel fuel s) := by
  induction fuel generalizing s with
  | zero => exact .refl s
  | succ fuel ih => exact .ite ((moveStream_kept .a s).trans (ih _)) (.ite ((moveStream_kept .b s).trans (ih _)) (.refl s))

theorem finishResume_kept (s : State) : Kept s (finishResume s) := by
  have moved : Kept s (flagOpenRewinds .quiesceEnd (rebalance s)) :=
    (rebalanceFuel_kept 8 s).trans (flagOpenRewinds_kept _ _)
  exact (moved.trans (quiesceState_kept .running _)).trans (endOp_kept .resume .ok _)

theorem doResume_kept (tag : Byte) (s : State) : Kept s (doResume tag s) :=
  .ite ((beginLong_kept _ _ _ s).trans (.ite (beginApply_kept _) (finishResume_kept _))) (answer_kept _ _ _ s)

theorem resetStreams_kept (s : State) : Kept s (resetStreams s) := by
  have emptied (t : State) : Kept t { t with sq.queueA := [], sq.queueB := [], sq.quiesce := .running } :=
    .plain rfl rfl rfl rfl rfl rfl rfl
  exact (((markRemoved_kept .a s).trans (markRemoved_kept .b _)).trans (mapStreams_kept _ _)).trans (emptied _)

/-! ### Tiles, store requests and reads -/

theorem fillPresent_kept (key : Word) (w : Fin 4) (n : Nat) (d : List Byte) (s : State) :
    Kept s (fillPresent key w n d s) := by
  have written := (writeSector_kept key w n d s).trans (count_kept .fillPresent _)
  exact written.trans (.ite (fillPassed_kept key w _) (.refl _))

theorem fillAbsent_kept (key : Word) (n : Nat) (d : List Byte) (s : State) : Kept s (fillAbsent key n d s) := by
  unfold fillAbsent
  split
  · exact ((allocateWay_kept key _ s).trans (writeSector_kept key _ n d _)).trans (count_kept _ _)
  · exact count_kept _ s

theorem doTile_kept (key : Word) (b : Byte) (d : List Byte) (s : State) : Kept s (doTile key b d s) := by
  unfold doTile
  refine .ite (count_kept _ s) (.ite (count_kept _ s) ?_)
  split
  · exact (fillPresent_kept key _ _ d s).trans (settle_kept _)
  · exact fillAbsent_kept key _ d s

theorem expireFault_kept (side : Side) (s : State) : Kept s (expireFault side s) :=
  .ite (retryFault_kept side s) ((abandonFault_kept side s).trans (settle_kept _))

theorem doStoreErase_kept (tag p : Byte) (s : State) : Kept s (doStoreErase tag p s) :=
  .ite (answer_kept _ _ _ s) (beginLong_kept _ _ _ s)

theorem doStoreWrite_kept (tag : Byte) (o : Half) (d : List Byte) (s : State) : Kept s (doStoreWrite tag o d s) :=
  .ite (answer_kept _ _ _ s) (beginLong_kept _ _ _ s)

theorem doStoreRead_kept (tag : Byte) (o : Half) (c : Byte) (s : State) : Kept s (doStoreRead tag o c s) :=
  .ite (answer_kept _ _ _ s) (postReply_kept _ _ _ _ s)

theorem doTableRead_kept (tag t : Byte) (f : Half) (c : Byte) (s : State) : Kept s (doTableRead tag t f c s) := by
  unfold doTableRead
  split
  · exact answer_kept _ _ _ s
  · exact .ite (answer_kept _ _ _ s) (.ite (answer_kept _ _ _ s) (postReply_kept _ _ _ _ s))

theorem abandonRequest_kept (s : State) : Kept s (abandonRequest s) := by
  have progress (r : Option Request) : Kept s { s with me.inProgress := r } := .plain rfl rfl rfl rfl rfl rfl rfl
  unfold abandonRequest
  split
  · split
    all_goals exact progress _
  · exact .refl s

end Sys2Proof.Machine
end

section
/-! PROOFS. What a scan of the matrix leaves alone (R138 to R152). -/

namespace Sys2Proof.Machine

/-- What the scan of the matrix can do to a state: the Key Scanner, the KEYS queue, the backlight level and the bookkeeping. -/
structure Scanned (s t : State) : Prop where
  rest : t = { s with
    ks := t.ks, lc.keys := t.lc.keys, pu.level := t.pu.level, mn.counters := t.mn.counters, me.events := t.me.events }
  tallies : Tallies s t
  level : s.pu.level ≤ 15 → t.pu.level ≤ 15

theorem Scanned.trans {s t u : State} (h : Scanned s t) (g : Scanned t u) : Scanned s u where
  rest := by rw [g.rest, h.rest]
  tallies := h.tallies.trans g.tallies
  level := g.level ∘ h.level

theorem scanned_ks (k : KeyScanner) (s : State) : Scanned s { s with ks := k } :=
  ⟨rfl, .of_same rfl rfl rfl rfl, id⟩

theorem Scanned.refl (s : State) : Scanned s s := scanned_ks s.ks s

theorem Scanned.ite {p : Prop} [Decidable p] {s t u : State} (yes : Scanned s t) (no : Scanned s u) :
    Scanned s (if p then t else u) := by
  split
  · exact yes
  · exact no

theorem Scanned.foldl {α : Type} {f : State → α → State} (h : ∀ t a, Scanned t (f t a)) (l : List α) (s : State) :
    Scanned s (l.foldl f s) := by
  induction l generalizing s with
  | nil => exact .refl s
  | cons a l ih => exact (h s a).trans (ih _)

theorem Counted.scanned {s t : State} (h : Counted s t) (tallies : Tallies s t) : Scanned s t :=
  ⟨by rw [h.rest], tallies, by rw [h.same_pu]; exact id⟩

theorem countN_scanned (x : SubEvent) (n : Nat) (s : State) : Scanned s (countN x n s) :=
  (countN_counted x n s).scanned (countN_tallies x n s)

theorem count_scanned (x : SubEvent) (s : State) : Scanned s (count x s) := countN_scanned x 1 s

theorem raiseEvent_scanned {k : EventKind} (other : k ≠ .monitorSaturated) (d : BitVec 24) (s : State) :
    Scanned s (raiseEvent k d s) := by
  refine ⟨?_, raiseEvent_tallies other d s, by simp⟩
  unfold raiseEvent
  split
  · rw [(count_counted _ _).rest]
    rfl
  · rfl

theorem applyLevel_scanned {n : Nat} {s : State} (range : s.pu.level ≤ 15 → n ≤ 15) : Scanned s (applyLevel n s) := by
  have level : Scanned s { s with pu.level := n } := ⟨rfl, .of_same rfl rfl rfl rfl, range⟩
  exact .ite (.refl s) ((level.trans (count_scanned _ _)).trans (raiseEvent_scanned (by decide) _ _))

theorem localLevel_le (a : LocalAction) {n : Nat} (range : n ≤ 15) : localLevel a n ≤ 15 := by
  cases a with
  | backlightUp => exact Nat.min_le_right _ _
  | backlightDown => exact (Nat.sub_le n 1).trans range

/-- A LOCAL action leaves the level in its range. -/
theorem actLocal_scanned (e : KeyEntry) (s : State) : Scanned s (actLocal e s) := by
  cases e with
  | localAction a =>
    refine (count_scanned .localAction s).trans (applyLevel_scanned ?_)
    rw [count_pu]
    exact localLevel_le a
  | none => exact .refl s
  | ordinary code => exact .refl s
  | modifier index => exact .refl s
  | layer n => exact .refl s

theorem setKey_scanned (p : Pos) (k : KeyPosition) (s : State) : Scanned s (setKey p k s) := scanned_ks _ s

theorem resolveKey_scanned (p : Pos) (s : State) : Scanned s (resolveKey p s) :=
  (scanned_ks _ s).trans (actLocal_scanned _ _)

theorem releaseKey_scanned (s : State) (p : Pos) : Scanned s (releaseKey s p) :=
  ((setKey_scanned p _ s).trans (scanned_ks _ _)).trans (count_scanned _ _)

theorem reevaluateKey_scanned (s : State) (p : Pos) : Scanned s (reevaluateKey s p) :=
  .ite (((setKey_scanned p _ s).trans (count_scanned _ _)).trans (resolveKey_scanned p _)) (.refl s)

theorem pressKey_scanned (s : State) (p : Pos) : Scanned s (pressKey s p) := by
  have pressed := (setKey_scanned p { keyAt p s with pressed := true, withheld := isPhantom p s } s).trans
    (count_scanned .pressAccepted _)
  exact .ite (pressed.trans (count_scanned _ _)) (pressed.trans (resolveKey_scanned p _))

theorem changeKeys_scanned (s : State) : Scanned s (changeKeys s) := by
  have released (l : List Pos) : Scanned s (l.foldl releaseKey s) := .foldl releaseKey_scanned l s
  exact ((released _).trans (.ite (.refl _) (.foldl reevaluateKey_scanned _ _))).trans (.foldl pressKey_scanned _ _)

theorem queueReport_scanned (r : Report) (s : State) : Scanned s (queueReport r s) := by
  have keys (q : List Report) : Scanned s { s with lc.keys := q } := ⟨rfl, .of_same rfl rfl rfl rfl, id⟩
  exact .ite (.refl s) (.ite ((keys _).trans (count_scanned _ _)) ((keys _).trans (count_scanned _ _)))

theorem buildReport_scanned (s : State) : Scanned s (buildReport s) :=
  .ite (.refl s) (((scanned_ks _ s).trans (count_scanned _ _)).trans (queueReport_scanned _ _))

theorem scanKeys_scanned (contacts : BitVec 128) (s : State) : Scanned s (scanKeys contacts s) := by
  have read (f : Pos → KeyPosition → KeyPosition) : Scanned s (mapKeys f s) := scanned_ks _ s
  exact (((((read _).trans (count_scanned _ _)).trans (countN_scanned _ _ _)).trans (changeKeys_scanned _)).trans
    (buildReport_scanned _)).trans (scanned_ks _ _)

/-! ### What follows for the laws -/

theorem Scanned.same_width {s t : State} (h : Scanned s t) : t.lu = s.lu := by rw [h.rest]

theorem Scanned.panel {s t : State} (h : Scanned s t) (legal : panelLaws s) : panelLaws t := by
  have pu : t.pu = { s.pu with level := t.pu.level } := congrArg State.pu h.rest
  obtain ⟨shape, ⟨level, rest⟩, served⟩ := legal
  unfold panelLaws panelShape panelLegal panelServed blockCount
  rw [pu, h.same_width]
  exact ⟨shape, ⟨h.level level, rest⟩, served⟩

theorem Scanned.memories {s t : State} (h : Scanned s t) (legal : storeLaws s) : storeLaws t := by
  obtain ⟨shape, memories, monitor⟩ := legal
  refine ⟨?_, ?_, h.tallies.saturates.monitorLegal (by rw [h.rest]; exact id) monitor⟩
  · have pu : t.pu = { s.pu with level := t.pu.level } := congrArg State.pu h.rest
    unfold panelShape blockCount
    rw [pu, h.same_width]
    exact shape
  · rw [h.rest]
    exact memories

/-- R152: the snapshot of a reattach. -/
theorem reattachSnapshot_scanned (s : State) : Scanned s (reattachSnapshot s) :=
  (count_scanned _ s).trans (queueReport_scanned _ _)

end Sys2Proof.Machine
end

section
/-! PROOFS. The laws of the link, the attachment and the upstream lane (R7, R8, R18, R19) through every operation, and the settlement of
O54. -/

namespace Sys2Proof.Machine

/-! ### The lane -/

@[simp] theorem cutMark_tx (item : TxItem) (s : State) : (cutMark item s).lc.tx = s.lc.tx := by cases item <;> rfl

/-- R19: after a cut the lane is free. -/
@[simp] theorem cutTx_tx (s : State) : (cutTx s).lc.tx = none := by
  unfold cutTx
  split
  · simp
  next free => exact free

@[simp] theorem enterHold_tx (cause : DepartCause) (s : State) : (enterHold cause s).lc.tx = s.lc.tx := by
  unfold enterHold
  split <;> simp

/-- R6: a departure leaves the lane free. -/
@[simp] theorem leaveUp_tx (cause : DepartCause) (s : State) : (leaveUp cause s).lc.tx = none := by simp [leaveUp]

@[simp] theorem flagGreet_tx (o : GreetOutcome) (s : State) : (flagGreet o s).lc.tx = s.lc.tx := by
  simp only [flagGreet]
  split
  · split <;> rfl
  · rfl

@[simp] theorem completeItem_tx (item : TxItem) (s : State) : (completeItem item s).lc.tx = s.lc.tx := by
  cases item with
  | greet => simp only [completeItem]; split <;> rfl
  | keys => rfl
  | fault side => cases side <;> rfl
  | rewind i => rfl
  | reply => rfl
  | event k => simp [completeItem]

theorem Kept.same_tx {s t : State} (h : Kept s t) : t.lc.tx = s.lc.tx := h.tallies.saturates.lane

/-- After a teardown the lane is free. -/
theorem teardown_tx (s : State) : (teardown s).lc.tx = none := by
  unfold teardown
  have link : (teardownLink (abandonRequest (clearEvents s))).lc.tx = none := by simp [teardownLink]
  have kept := ((((count_kept .teardown (teardownLink (abandonRequest (clearEvents s)))).trans (resetStreams_kept _)).trans
    (resetCache_kept _)).trans (resetFaults_kept _)).trans (teardownLayout_kept _) |>.trans (trackTeardown_kept _)
  exact kept.same_tx.trans link

/-- DOCK_RESET leaves the lane as it was, or free (R20). -/
theorem dockReset_tx (s : State) : (dockReset s).lc.tx = s.lc.tx ∨ (dockReset s).lc.tx = none := by
  have cut : (cutAllButGreet s).lc.tx = s.lc.tx ∨ (cutAllButGreet s).lc.tx = none := by
    unfold cutAllButGreet
    split
    · exact .inr (cutTx_tx s)
    · exact .inl rfl
  have kept := (resetStreams_kept { cutAllButGreet s with lc.keys := [], lc.replies := [] }).trans
    ((resetCache_kept _).trans (resetFaults_kept _))
  have same : (dockReset s).lc.tx = (cutAllButGreet s).lc.tx := kept.same_tx
  rw [same]
  exact cut

/-! ### Departures (R6, R11) -/

/-- R11: what the attachment machine records of a departure. -/
theorem enterHold_own (cause : DepartCause) (s : State) :
    own (enterHold cause s) =
      if s.lc.attachment = .attached then
        { own s with
          attachment := .held, holdCause := some cause, holdStart := some s.tick
          holdTimer := some (s.settings.holdTime * Config.holdUnit) }
      else own s := by
  unfold enterHold
  split
  · rw [count_own]
    rfl
  · rfl

theorem cutAssembly_own (s : State) : own (cutAssembly s) = { own s with assembly := none } := by
  unfold cutAssembly
  split
  · rw [count_own]
    rfl
  next closed =>
    have : s.lc.assembly = none := by simpa using closed
    simp [own, this]

/-- R6, R11: what a departure leaves of the receive state and the attachment record. -/
theorem leaveUp_own (cause : DepartCause) (s : State) :
    own (leaveUp cause s) =
      if s.lc.attachment = .attached then
        { own s with
          assembly := none, failureCount := 0, framingCount := 0, attachment := .held, holdCause := some cause
          holdStart := some s.tick, holdTimer := some (s.settings.holdTime * Config.holdUnit) }
      else { own s with assembly := none, failureCount := 0, framingCount := 0 } := by
  have cleared : own { cutAssembly s with lc.failureCount := 0, lc.framingCount := 0 } =
      { own s with assembly := none, failureCount := 0, framingCount := 0 } := by
    have := cutAssembly_own s
    simp only [own, Own.mk.injEq] at this ⊢
    simp only [this, and_self]
  have before : own (cutTx { cutAssembly s with lc.failureCount := 0, lc.framingCount := 0 }) =
      { own s with assembly := none, failureCount := 0, framingCount := 0 } := (cutTx_own _).trans cleared
  have attachment := congrArg Own.attachment before
  have tick := congrArg Own.tick before
  have settings := congrArg Own.settings before
  simp only [own] at attachment tick settings
  simp only [leaveUp, enterHold_own, attachment, tick, settings, before]

/-- R1, R6: what an expiry of the loss detector leaves. -/
theorem expireLoss_own (s : State) :
    own (expireLoss s) =
      if s.lc.link = .up then
        if s.lc.attachment = .attached then
          { own s with
            link := .down, lossCount := 0, assembly := none, failureCount := 0, framingCount := 0, attachment := .held
            holdCause := some .lossDetector, holdStart := some s.tick
            holdTimer := some (s.settings.holdTime * Config.holdUnit) }
        else { own s with link := .down, lossCount := 0, assembly := none, failureCount := 0, framingCount := 0 }
      else { own s with link := .down, lossCount := 0, assembly := none } := by
  simp only [expireLoss, count_own]
  split
  · rw [leaveUp_own]
    rfl
  · rw [cutAssembly_own]
    rfl

/-! ### The laws -/

/-- R7, R8, R18: the laws of the receive state, the attachment record and the lane, but for the service of what waits. -/
def linkLaws (s : State) : Prop :=
  attachmentLegal s ∧ receiveLegal s ∧ (s.lc.tx.isSome = true → s.lc.link = .up ∧ s.lc.attachment = .attached)

/-- R7, R8: the same of the records, the lane being free or as it was. -/
def recordsLegal (o : Own) (free : Prop) : Prop :=
  ((o.attachNumber = 0 ↔ o.attachment = .unattached) ∧ (o.holdTimer.isSome = true ↔ o.attachment = .held) ∧
    o.attachCounter ≠ 0) ∧
  (o.alignCount ≤ 64 ∧ (o.link = .aligning → o.alignCount < 64) ∧ o.framingCount ≤ 4 ∧
    (o.link = .framing → o.framingCount < 4) ∧ o.failureCount < 4 ∧
    (o.assembly.isSome = true → o.link = .framing ∨ o.link = .up)) ∧
  (free ∨ (o.link = .up ∧ o.attachment = .attached))

theorem linkLaws_iff (s : State) : linkLaws s ↔ recordsLegal (own s) (s.lc.tx = none) := by
  have lane : (s.lc.tx.isSome = true → s.lc.link = .up ∧ s.lc.attachment = .attached) ↔
      (s.lc.tx = none ∨ (s.lc.link = .up ∧ s.lc.attachment = .attached)) := by
    cases s.lc.tx <;> simp
  unfold linkLaws recordsLegal
  rw [lane]
  rfl

/-- The laws speak of the records of Own and of the lane. -/
theorem linkLaws_of_own {s t : State} (legal : linkLaws s) (same : own t = own s)
    (lane : t.lc.tx = s.lc.tx ∨ t.lc.tx = none) : linkLaws t := by
  rw [linkLaws_iff] at legal ⊢
  rw [same]
  obtain ⟨attachment, receive, free⟩ := legal
  refine ⟨attachment, receive, ?_⟩
  rcases lane with lane | lane
  · rw [lane]; exact free
  · exact .inl lane

theorem Kept.linkLaws {s t : State} (kept : Kept s t) (legal : linkLaws s) : linkLaws t :=
  linkLaws_of_own legal kept.own (.inl kept.same_tx)

theorem Scanned.linkLaws {s t : State} (scanned : Scanned s t) (legal : linkLaws s) : linkLaws t := by
  rw [scanned.rest]
  exact legal

/-- A departure keeps the laws. -/
theorem leaveUp_linkLaws (cause : DepartCause) {s : State} (legal : recordsLegal { own s with assembly := none, failureCount := 0, framingCount := 0 } True) :
    linkLaws (leaveUp cause s) := by
  rw [linkLaws_iff, leaveUp_own, leaveUp_tx]
  obtain ⟨⟨number, hold, counter⟩, receive, _⟩ := legal
  split
  next attached =>
    refine ⟨⟨?_, by simp, counter⟩, receive, .inl rfl⟩
    change s.lc.attachment = .attached at attached
    simpa [own, attached] using number
  next => exact ⟨⟨number, hold, counter⟩, receive, .inl rfl⟩

theorem expireLoss_linkLaws {s : State} (legal : linkLaws s) : linkLaws (expireLoss s) := by
  obtain ⟨⟨number, hold, counter⟩, ⟨align, _, framing, _, failures, _⟩, lane⟩ := legal
  simp only [expireLoss]
  refine (count_kept _ _).linkLaws ?_
  split
  next up =>
    exact leaveUp_linkLaws _ ⟨⟨number, hold, counter⟩, ⟨align, nofun, Nat.zero_le 4, nofun, Nat.zero_lt_succ 3, nofun⟩, .inl trivial⟩
  next below =>
    rw [linkLaws_iff, cutAssembly_own]
    refine ⟨⟨number, hold, counter⟩, ⟨align, nofun, framing, nofun, failures, nofun⟩, .inl ?_⟩
    have free : s.lc.tx = none := by
      by_contra busy
      exact below (lane (Option.isSome_iff_ne_none.2 busy)).1
    unfold cutAssembly
    split <;> simpa using free

theorem failFrame_linkLaws {s : State} (legal : linkLaws s) : linkLaws (failFrame s) := by
  obtain ⟨⟨number, hold, counter⟩, ⟨align, aligning, framing, framed, failures, assembly⟩, lane⟩ := legal
  unfold failFrame
  split
  next link =>
    refine (count_kept _ _).linkLaws ⟨⟨number, hold, counter⟩, ⟨align, aligning, Nat.zero_le 4, fun _ => Nat.zero_lt_succ 3, failures, assembly⟩, lane⟩
  next link =>
    split
    next =>
      refine leaveUp_linkLaws _ ?_
      simp only [count_own]
      exact ⟨⟨number, hold, counter⟩, ⟨Nat.zero_le _, fun _ => Nat.zero_lt_succ 63, Nat.zero_le 4, nofun, Nat.zero_lt_succ 3, nofun⟩,
        .inl trivial⟩
    next more =>
      refine (count_kept _ _).linkLaws ⟨⟨number, hold, counter⟩, ⟨align, aligning, framing, framed, ?_, assembly⟩, lane⟩
      exact Nat.lt_of_not_le more
  all_goals exact ⟨⟨number, hold, counter⟩, ⟨align, aligning, framing, framed, failures, assembly⟩, lane⟩

theorem nextCounter_ne_zero (c : Word) : nextCounter c ≠ 0 := by
  unfold nextCounter
  split
  · decide
  next h => bv_omega

theorem flagGreet_linkLaws (o : GreetOutcome) {s : State} (legal : linkLaws s) : linkLaws (flagGreet o s) :=
  linkLaws_of_own legal (flagGreet_own o s) (.inl (flagGreet_tx o s))

theorem freshAttach_linkLaws (number : Word) {s : State} (up : s.lc.link = .up) (stopped : s.lc.holdTimer = none)
    (legal : linkLaws s) : linkLaws (freshAttach number s) := by
  obtain ⟨⟨_, _, counter⟩, receive, _⟩ := legal
  refine flagGreet_linkLaws _ ?_
  split
  · exact ⟨⟨by simpa using counter, by simp [stopped], nextCounter_ne_zero _⟩, receive, fun _ => ⟨up, rfl⟩⟩
  next given => exact ⟨⟨by simpa using given, by simp [stopped], counter⟩, receive, fun _ => ⟨up, rfl⟩⟩

theorem teardown_linkLaws {s : State} (legal : linkLaws s) : linkLaws (teardown s) := by
  obtain ⟨⟨_, _, counter⟩, receive, _⟩ := legal
  rw [linkLaws_iff, teardown_own, teardown_tx]
  exact ⟨⟨by simp, by simp, counter⟩, receive, .inl rfl⟩

theorem reattach_linkLaws {s : State} (up : s.lc.link = .up) (held : s.lc.attachment = .held) (legal : linkLaws s) :
    linkLaws (reattach s) := by
  obtain ⟨⟨number, _, counter⟩, receive, _⟩ := legal
  have attached : linkLaws { s with
      lc.attachment := .attached, lc.holdTimer := none, lc.lastCause := s.lc.holdCause, lc.lastDuration := holdMs s } :=
    ⟨⟨by simpa [held] using number, by simp, counter⟩, receive, fun _ => ⟨up, rfl⟩⟩
  have again := ((flagOpenRewinds_kept .reattach _).trans (representFault_kept .a _)).trans (representFault_kept .b _)
    |>.linkLaws (flagGreet_linkLaws .resumed attached)
  exact ((raiseEvent_kept (by decide) _ _).trans (count_kept _ _)).linkLaws ((reattachSnapshot_scanned _).linkLaws again)

theorem takeHello_linkLaws (number : Word) {s : State} (up : s.lc.link = .up) (legal : linkLaws s) :
    linkLaws (takeHello number s) := by
  have again : linkLaws (freshAttach number (teardown s)) := by
    have records := teardown_own s
    exact freshAttach_linkLaws number ((congrArg Own.link records).trans up) (congrArg Own.holdTimer records)
      (teardown_linkLaws legal)
  unfold takeHello
  split
  next unattached =>
    refine freshAttach_linkLaws number up ?_ legal
    have := legal.1.2.1
    simpa [unattached] using this
  next attached =>
    split
    · exact flagGreet_linkLaws _ legal
    · exact again
  next held =>
    split
    · exact reattach_linkLaws up held legal
    · exact again

theorem passFrame_framing_linkLaws {s : State} (link : s.lc.link = .framing) (legal : linkLaws s) :
    linkLaws (passFrame id s) := by
  obtain ⟨attachment, ⟨align, _, _, framed, failures, _⟩, lane⟩ := legal
  have below := framed link
  have free : s.lc.tx.isSome ≠ true := fun busy => by
    have := (lane busy).1
    rw [link] at this
    cases this
  rw [passFrame_framing _ link]
  split
  · exact (count_kept _ _).linkLaws
      ⟨attachment, ⟨align, nofun, below, nofun, Nat.zero_lt_succ 3, fun _ => .inr rfl⟩, fun busy => absurd busy free⟩
  next more =>
    exact ⟨attachment, ⟨align, by simp [link], Nat.le_of_lt (Nat.lt_of_not_le more), fun _ => Nat.lt_of_not_le more, failures,
      fun _ => .inl link⟩, lane⟩

theorem alignGroup_linkLaws (g : SymbolGroup) {s : State} (link : s.lc.link = .aligning) (legal : linkLaws s) :
    linkLaws (alignGroup g s) := by
  obtain ⟨attachment, ⟨_, aligning, framing, _, failures, assembly⟩, lane⟩ := legal
  have below := aligning link
  have free : s.lc.tx.isSome ≠ true := fun busy => by
    have := (lane busy).1
    rw [link] at this
    cases this
  unfold alignGroup
  split
  · split
    · exact ⟨attachment, ⟨below, nofun, Nat.zero_le 4, fun _ => Nat.zero_lt_succ 3, failures, nofun⟩, fun busy => absurd busy free⟩
    next more =>
      have more' : s.lc.alignCount + 1 < 64 := Nat.lt_of_not_le more
      exact ⟨attachment, ⟨below, fun _ => more', framing, by simp [link], failures, assembly⟩, lane⟩
  · exact ⟨attachment, ⟨Nat.zero_le _, fun _ => Nat.zero_lt_succ 63, framing, by simp [link], failures, assembly⟩, lane⟩

theorem downGroup_linkLaws (g : SymbolGroup) {s : State} (link : s.lc.link = .down) (legal : linkLaws s) :
    linkLaws (downGroup g s) := by
  unfold downGroup
  split
  · obtain ⟨attachment, ⟨_, _, framing, _, failures, assembly⟩, lane⟩ := legal
    refine ⟨attachment, ⟨by simp, by simp, framing, nofun, failures, fun opened => ?_⟩, fun busy => ?_⟩
    · have := assembly opened
      simp [link] at this
    · have := (lane busy).1
      rw [link] at this
      cases this
  · exact legal

/-- Every operation keeps the laws of the link. -/
theorem Happens.linkLaws {s u : State} (h : Happens s u) (legal : linkLaws s) : linkLaws u := by
  induction h with
  | nothing => exact legal
  | andThen _ _ first next => exact next (first legal)
  | counted x s => exact (count_kept x s).linkLaws legal
  | lossRestarts g s =>
    unfold restartLoss
    split <;> exact legal
  | groupDown g down => exact downGroup_linkLaws g down legal
  | groupAligning g aligning => exact alignGroup_linkLaws g aligning legal
  | assembly a assembling =>
    obtain ⟨attachment, ⟨align, aligning, framing, framed, failures, _⟩, lane⟩ := legal
    refine ⟨attachment, ⟨align, aligning, framing, framed, failures, fun _ => ?_⟩, lane⟩
    simpa [assembles] using assembling
  | fails assembling => exact failFrame_linkLaws legal
  | framing framing => exact passFrame_framing_linkLaws framing legal
  | passes up =>
    obtain ⟨attachment, ⟨align, aligning, framing, framed, _, assembly⟩, lane⟩ := legal
    exact ⟨attachment, ⟨align, aligning, framing, framed, Nat.zero_lt_succ 3, assembly⟩, lane⟩
  | lossExpires expired => exact expireLoss_linkLaws legal
  | hello number up => exact takeHello_linkLaws number up legal
  | holdExpires expired => exact teardown_linkLaws legal
  | transmitted sending => exact linkLaws_of_own legal (completeItem_own _ _) (.inr (completeItem_tx _ _))
  | draw stream seq commands _ _ => exact (doDraw_kept stream seq commands _).linkLaws legal
  | tile key sector data _ _ => exact (doTile_kept key sector data _).linkLaws legal
  | executionEnds busy writing => exact ((finishExecution_kept _ _ _).trans (settle_kept _)).linkLaws legal
  | faultExpires expired => exact (expireFault_kept _ _).linkLaws legal
  | busy tag kind _ _ => exact (answer_kept tag kind _ _).linkLaws legal
  | answered tag kind status _ => exact (answer_kept tag kind status _).linkLaws legal
  | tableRead tag table first number _ => exact (doTableRead_kept tag table first number _).linkLaws legal
  | headerWrite tag border undocked _ => exact (doHeaderWrite_kept tag border undocked _).linkLaws legal
  | regionWrite tag i enabled ox oy rw rh background _ => exact (doRegionWrite_kept tag i enabled ox oy rw rh background _).linkLaws legal
  | streamWrite tag i stale _ => exact (doStreamWrite_kept tag i stale _).linkLaws legal
  | keymapWrite tag entry cls value _ =>
    unfold doKeymapWrite
    split
    · split
      · exact (answer_kept _ _ _ _).linkLaws ((scanned_ks _ _).linkLaws legal)
      · exact (answer_kept _ _ _ _).linkLaws legal
    · exact (answer_kept _ _ _ _).linkLaws legal
  | settingsWrite tag a b c d e f g h _ => exact legal
  | panelWrite tag width height level _ => exact (doPanelWrite_kept tag width height level _).linkLaws legal
  | streamOpen tag stream start _ => exact (doStreamOpen_kept tag stream start _).linkLaws legal
  | streamClose tag stream _ => exact (doStreamClose_kept tag stream _).linkLaws legal
  | quiesce tag _ => exact (doQuiesce_kept tag _).linkLaws legal
  | resume tag _ => exact (doResume_kept tag _).linkLaws legal
  | tileFlush tag _ => exact (doTileFlush_kept tag _).linkLaws legal
  | tilePin tag key _ => exact (doTilePin_kept tag key _).linkLaws legal
  | tileUnpin tag key _ => exact (doTileUnpin_kept tag key _).linkLaws legal
  | panelRestart tag _ => exact (doPanelRestart_kept tag _).linkLaws legal
  | dockReset tag _ => exact linkLaws_of_own legal (doDockReset_own tag _) (dockReset_tx _)
  | storeErase tag page _ => exact (doStoreErase_kept tag page _).linkLaws legal
  | storeWrite tag offset data _ => exact (doStoreWrite_kept tag offset data _).linkLaws legal
  | storeRead tag offset number _ => exact (doStoreRead_kept tag offset number _).linkLaws legal
  | monitorSet tag entry mode group unitMask condition _ =>
    refine linkLaws_of_own legal (doMonitorSet_own tag entry mode group unitMask condition _) (.inl ?_)
    unfold doMonitorSet
    split
    · split <;> rfl
    · split <;> rfl
  | applyEnds applying writing => exact ((finishApply_kept _ _).trans (finishResume_kept _)).linkLaws legal
  | fillEnds filling writing => exact (finishTeardownFill_kept _ _).linkLaws legal
  | sweeps sweeping => exact (sweepSet_kept _ _).linkLaws legal
  | erases current op => exact ((count_kept _ _).trans (endLong_kept _ _)).linkLaws legal
  | programs current op =>
    simp only [finishProgram]
    split
    · exact ((count_kept _ _).trans (endLong_kept _ _)).linkLaws legal
    · exact (((count_kept _ _).trans (count_kept _ _)).trans (endLong_kept _ _)).linkLaws legal
  | acknowledged sent =>
    refine linkLaws_of_own legal (completeBlock_own _) (.inl ?_)
    exact (selectBlock_tallies _).saturates.lane.trans (by rw [count_lc, endReading_rest])
  | timesOut sent ended =>
    refine linkLaws_of_own legal (timeOutBlock_own _ _) (.inl ?_)
    simp only [timeOutBlock]
    split
    · rw [(selectBlock_tallies _).saturates.lane, count_lc, endReading_rest]
    · rw [raiseEvent_lc, count_lc, count_lc, endReading_rest]
  | scans contacts due => exact (scanKeys_scanned contacts _).linkLaws legal
  | millisecond due =>
    rw [(countMillisecond_counted _).rest]
    exact legal
  | period due => exact legal

/-! ### The end of an event -/

theorem conclude_linkLaws (before : State) {s : State} (legal : linkLaws s) : linkLaws (conclude before s) := by
  rw [linkLaws_iff, conclude_own]
  obtain ⟨attachment, receive, lane⟩ := (linkLaws_iff s).1 legal
  refine ⟨attachment, receive, ?_⟩
  rcases lane with free | ready
  · have counted : (countEdges before s).lc = s.lc := by simp
    simp only [conclude, arbitrate]
    split
    next may =>
      simp only [mayTransmit, counted, free, Bool.and_eq_true, beq_iff_eq] at may
      exact .inr ⟨may.1.2, may.2⟩
    next => exact .inl (by rw [counted]; exact free)
  · exact .inr ready

@[simp] theorem emptyRenewal_lc (item : TxItem) (s : State) : (emptyRenewal item s).lc = s.lc := by cases item <;> rfl

/-- R18: at the end of an event the lane is not free while something waits. -/
theorem arbitrate_served (s : State) (up : (arbitrate s).lc.link = .up) (attached : (arbitrate s).lc.attachment = .attached)
    (free : (arbitrate s).lc.tx = none) : nextItem (arbitrate s) = none := by
  rw [arbitrate_link] at up
  rw [arbitrate_attachment] at attached
  unfold arbitrate at free ⊢
  split at free
  next may =>
    split at free
    next item _ => simp at free
    next nothing => simp only [may, if_true, nothing]
  next mayNot => simp [mayTransmit, free, up, attached] at mayNot

/-- A tick changes nothing that could be sent. -/
theorem nextItem_passTick (s : State) : nextItem (passTick s) = nextItem s := by
  have send (r : FaultRecord) : (tickRecord s r).send = r.send := by
    unfold tickRecord
    split <;> rfl
  unfold nextItem
  simp only [passTick, advance, send]
  rfl

theorem passTick_linkLaws (s : State) (legal : linkLaws s) : linkLaws (passTick s) := by
  obtain ⟨⟨number, hold, counter⟩, receive, lane⟩ := legal
  exact ⟨⟨number, by simpa [passTick, advance] using hold, counter⟩, receive, lane⟩

theorem powerOn_linkLaws (flash : List Host.Cell) (free : Nat) (pending : List Instr) :
    linkLaws (powerOn flash free pending) := by
  have start (used : Bool) (x : Loaded) : linkLaws (powerOnState flash used x free pending) :=
    ⟨⟨by simp [powerOnState], by simp [powerOnState], by simp [powerOnState]⟩,
      ⟨Nat.zero_le _, nofun, Nat.zero_le _, nofun, Nat.zero_lt_succ 3, nofun⟩, nofun⟩
  unfold powerOn
  refine linkLaws_of_own ?_ (selectBlock_own _) (.inl (selectBlock_tallies _).saturates.lane)
  split
  · exact start _ _
  · exact (raiseEvent_kept (by decide) _ _).linkLaws (start _ _)

theorem powerOn_link (flash : List Host.Cell) (free : Nat) (pending : List Instr) :
    (powerOn flash free pending).lc.link = .down := by
  unfold powerOn
  refine (congrArg Own.link (selectBlock_own _)).trans ?_
  split
  · rfl
  · exact congrArg Own.link (raiseEvent_own _ _ _)

/-- Settles O54: each operation keeps the laws of the records, and the arbiter's selection at the end of each event leaves no lane
free while something waits. -/
theorem linkAndAttachmentStayLegal : Obligations.LinkAndAttachmentStayLegal := by
  intro s t ⟨attachment, receive, lane, served⟩ stepped
  have legal : linkLaws s ∧ (s.lc.link = .up → s.lc.attachment = .attached → s.lc.tx = none → nextItem s = none) :=
    ⟨⟨attachment, receive, lane⟩, served⟩
  obtain ⟨⟨attachment, receive, lane⟩, served⟩ := step_keeps (Legal := fun s =>
    linkLaws s ∧ (s.lc.link = .up → s.lc.attachment = .attached → s.lc.tx = none → nextItem s = none)) legal stepped
    (fun s ⟨laws, served⟩ => ⟨passTick_linkLaws s laws, fun up attached free => (nextItem_passTick s).trans (served up attached free)⟩)
    (fun _ _ h => h)
    (fun s _ => ⟨powerOn_linkLaws _ _ _, fun up => by rw [powerOn_link] at up; cases up⟩)
    (fun s u ⟨laws, _⟩ happens => ⟨conclude_linkLaws s (happens.linkLaws laws), arbitrate_served _⟩)
  exact ⟨attachment, receive, lane, served⟩

end Sys2Proof.Machine
end

section
/-! PROOFS. The panel stays served (R23, R125 to R131), and the memories and the Monitor's counts canonical (log entries 15, 16, 26): by every
operation, by the end of an event, by a tick and by power-on reset. -/

namespace Sys2Proof.Machine

/-- The laws of the panel and those of the memories, each kept from s to t. -/
structure Serves (s t : State) : Prop where
  panel : panelLaws s → panelLaws t
  memories : storeLaws s → storeLaws t

theorem Serves.trans {s t u : State} (h : Serves s t) (g : Serves t u) : Serves s u :=
  ⟨g.panel ∘ h.panel, g.memories ∘ h.memories⟩

theorem Kept.serves {s t : State} (h : Kept s t) : Serves s t := ⟨h.panel, h.memories⟩

theorem Scanned.serves {s t : State} (h : Scanned s t) : Serves s t := ⟨h.panel, h.memories⟩

theorem Serves.refl (s : State) : Serves s s := (Kept.refl s).serves

theorem Serves.ite {p : Prop} [Decidable p] {s t u : State} (yes : Serves s t) (no : Serves s u) :
    Serves s (if p then t else u) := by
  split
  · exact yes
  · exact no

/-- An operation that leaves the panel, the screen's size, the pictures and the stores. -/
theorem Serves.of {s t : State} (pu : t.pu = s.pu) (lu : t.lu = s.lu) (flash : t.flash = s.flash)
    (store : t.tc.store = s.tc.store) (image : t.fs.image = s.fs.image) (monitor : monitorLegal s → monitorLegal t) :
    Serves s t where
  panel := panelLaws_of_same pu (congrArg LayoutUnit.width lu) (congrArg LayoutUnit.height lu)
  memories := by
    rintro ⟨shape, ⟨cells, tiles, picture⟩, counts⟩
    refine ⟨panelShape_of_same pu (congrArg LayoutUnit.width lu) (congrArg LayoutUnit.height lu) shape,
      ⟨by rwa [flash], by rwa [store], ?_⟩, monitor counts⟩
    simpa only [panelPixels, panelW, panelH, lu, image] using picture

/-! ### The link -/

theorem lc_serves (lc : LinkCtl) (s : State) : Serves s { s with lc := lc } := .of rfl rfl rfl rfl rfl id

theorem events_serves (events : Vector EventSlot 6) (s : State) : Serves s { s with me.events := events } :=
  .of rfl rfl rfl rfl rfl id

theorem cutAssembly_serves (s : State) : Serves s (cutAssembly s) :=
  .ite ((lc_serves _ s).trans (count_kept _ _).serves) (.refl s)

theorem cutMark_serves (item : TxItem) (s : State) : Serves s (cutMark item s) := by
  cases item with
  | greet => exact lc_serves _ s
  | event k => exact events_serves _ s
  | keys => exact .refl s
  | fault side => exact .refl s
  | rewind i => exact .refl s
  | reply => exact .refl s

theorem cutTx_serves (s : State) : Serves s (cutTx s) := by
  unfold cutTx
  split
  · exact (((lc_serves _ s).trans (takeFree_kept _).serves).trans (cutMark_serves _ _)).trans (count_kept _ _).serves
  · exact .refl s

theorem enterHold_serves (cause : DepartCause) (s : State) : Serves s (enterHold cause s) :=
  .ite ((lc_serves _ s).trans (count_kept _ _).serves) (.refl s)

theorem leaveUp_serves (cause : DepartCause) (s : State) : Serves s (leaveUp cause s) :=
  (((cutAssembly_serves s).trans (lc_serves _ _)).trans (cutTx_serves _)).trans (enterHold_serves cause _)

theorem expireLoss_serves (s : State) : Serves s (expireLoss s) :=
  ((lc_serves _ s).trans (.ite (leaveUp_serves _ _) (cutAssembly_serves _))).trans (count_kept _ _).serves

theorem failFrame_serves (s : State) : Serves s (failFrame s) := by
  unfold failFrame
  split
  · exact (lc_serves _ s).trans (count_kept _ _).serves
  · exact .ite ((((lc_serves _ s).trans (count_kept _ _).serves).trans (count_kept _ _).serves).trans (leaveUp_serves _ _))
      ((lc_serves _ s).trans (count_kept _ _).serves)
  · exact .refl s
  · exact .refl s

theorem passFrame_framing_serves {s : State} (framing : s.lc.link = .framing) : Serves s (passFrame id s) := by
  rw [passFrame_framing _ framing]
  exact .ite ((lc_serves _ s).trans (count_kept _ _).serves) (lc_serves _ s)

theorem downGroup_serves (g : SymbolGroup) (s : State) : Serves s (downGroup g s) := .ite (lc_serves _ s) (.refl s)

theorem alignGroup_serves (g : SymbolGroup) (s : State) : Serves s (alignGroup g s) :=
  .ite (.ite (lc_serves _ s) (lc_serves _ s)) (lc_serves _ s)

theorem flagGreet_serves (outcome : GreetOutcome) (s : State) : Serves s (flagGreet outcome s) :=
  .ite (.ite (.refl s) (lc_serves _ s)) (lc_serves _ s)

theorem teardown_serves (s : State) : Serves s (teardown s) := by
  have link : Serves s (teardownLink (abandonRequest (clearEvents s))) :=
    (((events_serves _ s).trans (abandonRequest_kept _).serves).trans (cutTx_serves _)).trans (lc_serves _ _)
  exact link.trans ((((((count_kept _ _).trans (resetStreams_kept _)).trans (resetCache_kept _)).trans
    (resetFaults_kept _)).trans (teardownLayout_kept _)).trans (trackTeardown_kept _)).serves

theorem freshAttach_serves (number : Word) (s : State) : Serves s (freshAttach number s) :=
  Serves.trans (.ite (lc_serves _ s) (lc_serves _ s)) (flagGreet_serves _ _)

theorem reattach_serves (s : State) : Serves s (reattach s) := by
  have again : Serves s (flagGreet .resumed { s with
      lc.attachment := .attached, lc.holdTimer := none, lc.lastCause := s.lc.holdCause, lc.lastDuration := holdMs s }) :=
    (lc_serves _ s).trans (flagGreet_serves _ _)
  refine (again.trans (((flagOpenRewinds_kept .reattach _).trans (representFault_kept .a _)).trans
    (representFault_kept .b _)).serves).trans ?_
  exact (reattachSnapshot_scanned _).serves.trans ((raiseEvent_kept (by decide) _ _).trans (count_kept _ _)).serves

theorem takeHello_serves (number : Word) (s : State) : Serves s (takeHello number s) := by
  have again := (teardown_serves s).trans (freshAttach_serves number _)
  unfold takeHello
  split
  · exact freshAttach_serves number s
  · exact .ite (flagGreet_serves _ s) again
  · exact .ite (reattach_serves s) again

theorem completeItem_serves (item : TxItem) (s : State) : Serves s (completeItem item s) := by
  cases item with
  | greet => exact .ite (lc_serves _ s) (lc_serves _ s)
  | keys => exact lc_serves _ s
  | fault side => exact (setRecord_kept side _ s).serves
  | rewind i => exact (setStream_kept i _ s).serves
  | reply => exact lc_serves _ s
  | event k => exact (events_serves _ s).trans (count_kept .eventSent _).serves

/-! ### The Monitor, the settings and the store -/

theorem Monitor.initial_legal {s : State} (fresh : s.mn = Monitor.initial) : monitorLegal s := by
  unfold monitorLegal
  rw [fresh]
  refine ⟨fun n => ?_, by decide⟩
  simp [Monitor.initial, Counter.initial]

theorem cutAllButGreet_serves (s : State) : Serves s (cutAllButGreet s) := .ite (cutTx_serves s) (.refl s)

theorem dockReset_serves (s : State) : Serves s (dockReset s) := by
  refine (cutAllButGreet_serves s).trans ((lc_serves { (cutAllButGreet s).lc with keys := [], replies := [] } _).trans ?_)
  refine (((resetStreams_kept _).trans (resetCache_kept _)).trans (resetFaults_kept _)).serves.trans ?_
  exact .of rfl rfl rfl rfl rfl fun _ => Monitor.initial_legal rfl

theorem selectionOf_value {mode group : Byte} {units : Word} {condition : Byte} {c : Counter}
    (h : selectionOf mode group units condition = some c) : c.value = 0 := by
  unfold selectionOf at h
  split at h
  · split at h
    · cases h; rfl
    · cases h
  · cases h

theorem doMonitorSet_serves (tag entry mode group : Byte) (units : Word) (condition : Byte) (s : State) :
    Serves s (doMonitorSet tag entry mode group units condition s) := by
  unfold doMonitorSet
  split
  next bound =>
    split
    next c selected =>
      refine .of rfl rfl rfl rfl rfl fun ⟨counters, tracker⟩ => ⟨fun n => ?_, tracker⟩
      change (s.mn.counters.set entry.toNat c bound)[n].value ≤ _
      simp only [Fin.getElem_fin, Vector.getElem_set]
      split
      · rw [selectionOf_value selected]
        exact Nat.zero_le _
      · exact counters n
    · exact (answer_kept _ _ _ _).serves
  next =>
    split
    · exact .of rfl rfl rfl rfl rfl fun ⟨counters, _⟩ =>
        ⟨counters, Nat.zero_le _, Nat.zero_le _, Nat.zero_le _, Nat.zero_le _⟩
    · exact (answer_kept _ _ _ _).serves

theorem doKeymapWrite_serves (tag : Byte) (entry : Half) (cls value : Byte) (s : State) :
    Serves s (doKeymapWrite tag entry cls value s) := by
  unfold doKeymapWrite
  split
  · split
    · exact (scanned_ks _ s).serves.trans (answer_kept _ _ _ _).serves
    · exact (answer_kept _ _ _ _).serves
  · exact (answer_kept _ _ _ _).serves

theorem doSettingsWrite_serves (tag : Byte) (r : Settings) (s : State) : Serves s (doSettingsWrite tag r s) := by
  have record : Serves s { s with settings := r } := .of rfl rfl rfl rfl rfl id
  exact (record.trans (scanned_ks _ _).serves).trans (answer_kept _ _ _ _).serves

/-- A write into the settings store keeps its canonical form. -/
theorem flash_serves (a : Nat) (bs : List Byte) (s : State) : Serves s { s with flash := cellWrite 255 s.flash a bs } :=
  ⟨panelLaws_of_same rfl rfl rfl, fun ⟨shape, ⟨cells, rest⟩, monitor⟩ =>
    ⟨shape, ⟨cellWrite_wf 255 s.flash a bs cells, rest⟩, monitor⟩⟩

theorem finishErase_serves (page : Nat) (s : State) : Serves s (finishErase page s) :=
  (flash_serves _ _ s).trans ((count_kept _ _).trans (endLong_kept _ _)).serves

theorem finishProgram_serves (offset : Nat) (data : List Byte) (s : State) : Serves s (finishProgram offset data s) := by
  have written := (flash_serves offset (programmed s.flash offset data) s).trans (count_kept .programDone _).serves
  refine written.trans ?_
  exact .ite (endLong_kept _ _).serves ((count_kept _ _).trans (endLong_kept _ _)).serves

/-! ### The block in flight -/

theorem selectBlock_memories {s : State} (h : storeLaws s) : storeLaws (selectBlock s) :=
  storeLaws_of_same (selectBlock_own s) (selectBlock_tallies s) selectBlock_shape (by simp) (by simp) (by simp) h

/-- The end of a block write changes the panel's record alone. -/
theorem blockEnds_memories {dirty : List Bool} {streak : Nat} {s : State} (length : dirty.length = blockCount s)
    (h : storeLaws s) :
    storeLaws { endReading s with pu.dirty := dirty, pu.inFlight := none, pu.streak := streak } := by
  rw [endReading_rest]
  obtain ⟨⟨width, height, _, scan, _⟩, memories, monitor⟩ := h
  exact ⟨⟨width, height, length, scan, nofun⟩, memories, monitor⟩

theorem completeBlock_memories {s : State} (h : storeLaws s) : storeLaws (completeBlock s) := by
  have length : (endReading s).pu.dirty.length = blockCount s := by
    rw [endReading_rest]
    exact h.1.2.2.1
  exact selectBlock_memories ((count_kept _ _).memories (blockEnds_memories length h))

theorem timeOutBlock_memories (f : InFlight) {s : State} (h : storeLaws s) : storeLaws (timeOutBlock f s) := by
  have length : (s.pu.dirty.set f.block true).length = blockCount s := List.length_set.trans h.1.2.2.1
  have ended := (count_kept .blockTimeout _).memories (blockEnds_memories (streak := s.pu.streak + 1) length h)
  simp only [timeOutBlock]
  split
  · exact selectBlock_memories ended
  · exact ((count_kept .panelHalt _).trans (raiseEvent_kept (by decide) 0 _)).memories ended

/-! ### Additions at the end of an event and at a millisecond -/

theorem addWhere_serves (fuel : Nat) (p : Counter → Bool) {k : Nat} (positive : 0 < k) (s : State) :
    Serves s (addWhere fuel p k s) := by
  have rest := addWhere_counted fuel p k s
  exact .of rest.same_pu rest.same_lu rest.same_flash (congrArg _ rest.same_tc) (congrArg _ rest.same_fs)
    ((addWhere_saturates fuel p positive s).monitorLegal (by rw [rest.same_tracker]; exact id))

theorem conclude_serves (before s : State) : Serves s (conclude before s) := by
  have edges : Serves s (countEdges before s) := addWhere_serves 5 _ Nat.one_pos s
  refine edges.trans ?_
  unfold conclude
  rw [(arbitrate_selected (countEdges before s)).rest]
  exact .of rfl rfl rfl rfl rfl id

/-! ### Every operation -/

theorem Happens.serves {s u : State} (h : Happens s u) : Serves s u := by
  induction h with
  | nothing s => exact .refl s
  | andThen _ _ first next => exact first.trans next
  | counted x s => exact (count_kept x s).serves
  | lossRestarts g s => exact .ite (lc_serves _ s) (.refl s)
  | groupDown g down => exact downGroup_serves g _
  | groupAligning g aligning => exact alignGroup_serves g _
  | assembly a assembling => exact lc_serves _ _
  | fails assembling => exact failFrame_serves _
  | framing framing => exact passFrame_framing_serves framing
  | passes up => exact lc_serves _ _
  | lossExpires expired => exact expireLoss_serves _
  | hello number up => exact takeHello_serves number _
  | holdExpires expired => exact teardown_serves _
  | transmitted sending => exact (lc_serves _ _).trans (completeItem_serves _ _)
  | draw stream seq commands _ _ => exact (doDraw_kept stream seq commands _).serves
  | tile key sector data _ _ => exact (doTile_kept key sector data _).serves
  | executionEnds busy writing => exact ((finishExecution_kept _ _ _).trans (settle_kept _)).serves
  | faultExpires expired => exact (expireFault_kept _ _).serves
  | busy tag kind _ _ => exact (answer_kept tag kind _ _).serves
  | answered tag kind status _ => exact (answer_kept tag kind status _).serves
  | tableRead tag table first number _ => exact (doTableRead_kept tag table first number _).serves
  | headerWrite tag border undocked _ => exact (doHeaderWrite_kept tag border undocked _).serves
  | regionWrite tag i enabled ox oy rw rh background _ =>
    exact (doRegionWrite_kept tag i enabled ox oy rw rh background _).serves
  | streamWrite tag i stale _ => exact (doStreamWrite_kept tag i stale _).serves
  | keymapWrite tag entry cls value _ => exact doKeymapWrite_serves tag entry cls value _
  | settingsWrite tag a b c d e f g h _ => exact doSettingsWrite_serves tag _ _
  | panelWrite tag width height level _ => exact (doPanelWrite_kept tag width height level _).serves
  | streamOpen tag stream start _ => exact (doStreamOpen_kept tag stream start _).serves
  | streamClose tag stream _ => exact (doStreamClose_kept tag stream _).serves
  | quiesce tag _ => exact (doQuiesce_kept tag _).serves
  | resume tag _ => exact (doResume_kept tag _).serves
  | tileFlush tag _ => exact (doTileFlush_kept tag _).serves
  | tilePin tag key _ => exact (doTilePin_kept tag key _).serves
  | tileUnpin tag key _ => exact (doTileUnpin_kept tag key _).serves
  | panelRestart tag _ => exact (doPanelRestart_kept tag _).serves
  | dockReset tag _ => exact (dockReset_serves _).trans (answer_kept _ _ _ _).serves
  | storeErase tag page _ => exact (doStoreErase_kept tag page _).serves
  | storeWrite tag offset data _ => exact (doStoreWrite_kept tag offset data _).serves
  | storeRead tag offset number _ => exact (doStoreRead_kept tag offset number _).serves
  | monitorSet tag entry mode group unitMask condition _ => exact doMonitorSet_serves tag entry mode group unitMask condition _
  | applyEnds applying writing => exact ((finishApply_kept _ _).trans (finishResume_kept _)).serves
  | fillEnds filling writing => exact (finishTeardownFill_kept _ _).serves
  | sweeps sweeping => exact (sweepSet_kept _ _).serves
  | erases current op => exact finishErase_serves _ _
  | programs current op => exact finishProgram_serves _ _ _
  | acknowledged sent => exact ⟨completeBlock_panel sent, completeBlock_memories⟩
  | timesOut sent ended => exact ⟨timeOutBlock_panel sent, timeOutBlock_memories _⟩
  | scans contacts due => exact (scanKeys_scanned contacts _).serves
  | millisecond due =>
    exact (addWhere_serves 5 _ Nat.one_pos _).trans (.of rfl rfl rfl rfl rfl id)
  | period due => exact ⟨id, id⟩

/-! ### A tick -/

theorem passTick_panel {s : State} (h : panelLaws s) : panelLaws (passTick s) := by
  obtain ⟨⟨width, height, length, scan, inFlight⟩, ⟨level, streak, halted, stopped, port, named⟩, served⟩ := h
  refine ⟨⟨width, height, length, scan, ?_⟩, ⟨level, streak, halted, fun h => ?_, port, ?_⟩, fun idle => ?_⟩
  · intro f sending
    obtain ⟨g, sent, rfl⟩ := Option.map_eq_some_iff.1 (show s.pu.inFlight.map _ = some f from sending)
    exact inFlight g sent
  · exact congrArg (Option.map _) (stopped h)
  · exact Option.all_map.trans named
  · exact served (Option.map_eq_none_iff.1 idle)

theorem passTick_memories {s : State} (h : storeLaws s) : storeLaws (passTick s) := by
  obtain ⟨⟨width, height, length, scan, inFlight⟩, memories, monitor⟩ := h
  refine ⟨⟨width, height, length, scan, fun f sending => ?_⟩, memories, monitor⟩
  obtain ⟨g, sent, rfl⟩ := Option.map_eq_some_iff.1 (show s.pu.inFlight.map _ = some f from sending)
  exact inFlight g sent

/-! ### Power-on reset -/

/-- R23, R133: the geometry and the level that a load sets up are in their ranges. -/
def loadedFits (x : Loaded) : Prop :=
  (20 ≤ x.width ∧ x.width ≤ 120) ∧ (12 ≤ x.height ∧ x.height ≤ 75) ∧ x.level ≤ 15

theorem clamp_range {lo hi : Nat} (v : Nat) (ordered : lo ≤ hi) : lo ≤ clamp lo hi v ∧ clamp lo hi v ≤ hi := by
  unfold clamp
  omega

theorem loadImage_fits (bs : List Byte) : loadedFits (loadImage bs) :=
  ⟨clamp_range _ (by decide), clamp_range _ (by decide), Nat.min_le_right _ _⟩

theorem default_fits : loadedFits Loaded.default := by
  unfold loadedFits Loaded.default
  decide

theorem powerOnState_ranges {x : Loaded} (fits : loadedFits x) (flash : List Host.Cell) (used : Bool) (free : Nat)
    (pending : List Instr) : panelRanges (powerOnState flash used x free pending) := by
  obtain ⟨⟨wide, width⟩, ⟨tall, height⟩, level⟩ := fits
  have blocks : 0 < x.width * x.height := Nat.mul_pos (by omega) (by omega)
  refine ⟨⟨⟨wide, width⟩, ⟨tall, height⟩, List.length_replicate, blocks, nofun⟩, level, Nat.zero_le 3, ?_, nofun, nofun, rfl⟩
  simp [powerOnState]

theorem powerOnState_memories {x : Loaded} (fits : loadedFits x) {flash : List Host.Cell} (canonical : cellsWf 255 flash)
    (used : Bool) (free : Nat) (pending : List Instr) : storeLaws (powerOnState flash used x free pending) := by
  have shape := (powerOnState_ranges fits flash used free pending).1
  refine ⟨shape, ⟨canonical, ?_, imageUniform_wf _ _ (panelPixels_pos shape)⟩, Monitor.initial_legal rfl⟩
  exact cellsOf_wf 0 0 []

/-- What the load leaves before the first selection. -/
theorem powerOn_keeps {Legal : State → Prop} (flash : List Host.Cell) (free : Nat) (pending : List Instr)
    (start : ∀ used x, loadedFits x → Legal (powerOnState flash used x free pending))
    (raised : ∀ s, Legal s → Legal (raiseEvent .storeDefaulted 0 s)) {Selected : State → Prop}
    (selects : ∀ s, Legal s → Selected (selectBlock s)) : Selected (powerOn flash free pending) := by
  unfold powerOn
  refine selects _ ?_
  split
  · exact start _ _ (loadImage_fits _)
  · exact raised _ (start _ _ default_fits)

/-- R164: a store operation that a power-on reset ends leaves the store canonical. -/
theorem cutFlash_wf {s : State} (canonical : cellsWf 255 s.flash) : cellsWf 255 (cutFlash s) := by
  unfold cutFlash
  dsimp only
  split
  · exact cellWrite_wf _ _ _ _ canonical
  · exact cellWrite_wf _ _ _ _ canonical
  · exact canonical

theorem raised_ranges (s : State) (ranges : panelRanges s) : panelRanges (raiseEvent .storeDefaulted 0 s) :=
  panelRanges_of_same (by simp) (by simp) (by simp) ranges

/-! ### The two laws -/

/-- Settles O57: every operation serves the panel, and the bookkeeping, a tick and a reset leave it served. -/
theorem thePanelStaysServed : Obligations.ThePanelStaysServed := fun _ _ legal stepped =>
  step_keeps (Legal := panelLaws) legal stepped (fun _ => passTick_panel) (fun _ _ h => h)
    (fun _ _ => powerOn_keeps _ _ _ (fun _ _ fits => powerOnState_ranges fits _ _ _ _) raised_ranges
      fun _ => selectBlock_panel)
    fun s u h happens => (conclude_serves s u).panel (happens.serves.panel h)

/-- Settles O60: writes keep canonical forms, and saturating additions the range of the counts. -/
theorem memoriesAndCountersStayCanonical : Obligations.MemoriesAndCountersStayCanonical := fun _ _ legal stepped =>
  step_keeps (Legal := storeLaws) legal stepped (fun _ => passTick_memories) (fun _ _ h => h)
    (fun _ h => powerOn_keeps _ _ _ (fun used _ fits => powerOnState_memories fits (cutFlash_wf h.2.1.1) used _ _)
      (fun s => (raiseEvent_kept (by decide) 0 s).memories) fun _ => selectBlock_memories)
    fun s u h happens => (conclude_serves s u).memories (happens.serves.memories h)

end Sys2Proof.Machine
end

section
/-! PROOFS. What a scan does to the Key Scanner (R139 to R146): the keys released, the withheld ones that are freed, the keys pressed, and the
latched key table. And with it the laws of keys and settings. -/

namespace Sys2Proof.Machine

/-! ### One position at a time -/

/-- R145: the record that a position latches, by the keymap and the records latched before. -/
def latchIn (keymap : Vector KeyEntry 384) (latched : List Latched) (p : Pos) : Latched :=
  if keymap.toList.getD (activeLayer latched * 128 + p.val) .none = .none then
    ⟨p.val, keymap.toList.getD (0 * 128 + p.val) .none, 0⟩
  else ⟨p.val, keymap.toList.getD (activeLayer latched * 128 + p.val) .none, Fin.ofNat 3 (activeLayer latched)⟩

theorem latchFor_eq (p : Pos) (s : State) : latchFor p s = latchIn s.ks.keymap s.ks.latched p := rfl

@[simp] theorem latchIn_pos (keymap : Vector KeyEntry 384) (latched : List Latched) (p : Pos) :
    (latchIn keymap latched p).pos = p.val := by
  unfold latchIn
  split <;> rfl

/-- The records that positions latch, one after another. -/
def latchAll (keymap : Vector KeyEntry 384) : List Latched → List Pos → List Latched
  | _, [] => []
  | latched, p :: rest => latchIn keymap latched p :: latchAll keymap (latched ++ [latchIn keymap latched p]) rest

@[simp] theorem latchAll_pos (keymap : Vector KeyEntry 384) (latched : List Latched) (ps : List Pos) :
    (latchAll keymap latched ps).map Latched.pos = ps.map (·.val) := by
  induction ps generalizing latched with
  | nil => rfl
  | cons p rest ih => simp [latchAll, ih]

theorem latchAll_append (keymap : Vector KeyEntry 384) (latched : List Latched) (ps qs : List Pos) :
    latchAll keymap latched (ps ++ qs) =
      latchAll keymap latched ps ++ latchAll keymap (latched ++ latchAll keymap latched ps) qs := by
  induction ps generalizing latched with
  | nil => simp [latchAll]
  | cons p rest ih => simp [latchAll, ih]

@[simp] theorem applyLevel_ks (n : Nat) (s : State) : (applyLevel n s).ks = s.ks := by
  unfold applyLevel
  split
  · rfl
  · simp

@[simp] theorem actLocal_ks (e : KeyEntry) (s : State) : (actLocal e s).ks = s.ks := by cases e <;> simp [actLocal]

@[simp] theorem resolveKey_ks (p : Pos) (s : State) :
    (resolveKey p s).ks = { s.ks with latched := s.ks.latched ++ [latchIn s.ks.keymap s.ks.latched p] } :=
  actLocal_ks _ _

theorem keyAt_of_positions {s t : State} (same : t.ks.positions = s.ks.positions) (p : Pos) : keyAt p t = keyAt p s := by
  simp only [keyAt, same]

/-- R142: the phantom condition, by the set of pressed positions. -/
def phantomIn (pressed : Pos → Bool) (p : Pos) : Bool :=
  (List.finRange 8).any fun d => d != Fin.ofNat 8 (p.val / 16) && pressed (posOf d (Fin.ofNat 16 p.val)) &&
    (List.finRange 16).any fun n => n != Fin.ofNat 16 p.val && pressed (posOf (Fin.ofNat 8 (p.val / 16)) n) && pressed (posOf d n)

theorem isPhantom_eq (p : Pos) (s : State) : isPhantom p s = phantomIn (fun q => (keyAt q s).pressed) p := rfl

/-! ### Releases (R141, R143, R146) -/

@[simp] theorem releaseKey_ks (s : State) (p : Pos) :
    (releaseKey s p).ks = { s.ks with
      positions := s.ks.positions.set p { keyAt p s with pressed := false, withheld := false }
      latched := s.ks.latched.filter fun r => r.pos != p.val } := by simp [releaseKey, setKey]

/-- A position released. -/
def KeyPosition.letGo (k : KeyPosition) : KeyPosition := { k with pressed := false, withheld := false }

theorem keyAt_releaseKey (s : State) (p q : Pos) :
    keyAt q (releaseKey s p) = if q = p then (keyAt q s).letGo else keyAt q s := by
  have same : keyAt q (releaseKey s p) = keyAt q (setKey p (keyAt p s).letGo s) :=
    keyAt_of_positions (by rw [releaseKey_ks]; rfl) q
  split
  next h => rw [same, h, keyAt_setKey_self]
  next h => rw [same, keyAt_setKey_ne (Ne.symm h)]

theorem keyAt_releaseAll (l : List Pos) (s : State) (q : Pos) :
    keyAt q (l.foldl releaseKey s) = if q ∈ l then (keyAt q s).letGo else keyAt q s := by
  induction l generalizing s with
  | nil => simp
  | cons p rest ih =>
    rw [List.foldl_cons, ih, keyAt_releaseKey]
    by_cases here : q = p <;> by_cases later : q ∈ rest <;> simp [here, later, KeyPosition.letGo]

theorem latched_releaseAll (l : List Pos) (s : State) :
    (l.foldl releaseKey s).ks.latched = s.ks.latched.filter fun r => l.all fun p => r.pos != p.val := by
  induction l generalizing s with
  | nil => simp
  | cons p rest ih => simp [ih, List.filter_filter, Bool.and_comm]

/-! ### Withheld positions (R143) -/

/-- The withheld positions that no longer meet the phantom condition. -/
def freed (s : State) (l : List Pos) : List Pos := l.filter fun p => (keyAt p s).withheld && !isPhantom p s

theorem reevaluateKey_ks (s : State) (p : Pos) :
    (reevaluateKey s p).ks =
      if (keyAt p s).withheld && !isPhantom p s then
        { s.ks with
          positions := s.ks.positions.set p { keyAt p s with withheld := false }
          latched := s.ks.latched ++ [latchIn s.ks.keymap s.ks.latched p] }
      else s.ks := by
  unfold reevaluateKey
  split
  · simp [setKey]
  · rfl

theorem keyAt_reevaluateKey (s : State) (p q : Pos) :
    keyAt q (reevaluateKey s p) =
      if q = p ∧ ((keyAt p s).withheld && !isPhantom p s) = true then { keyAt q s with withheld := false } else keyAt q s := by
  have ks := reevaluateKey_ks s p
  by_cases free : ((keyAt p s).withheld && !isPhantom p s) = true
  · rw [if_pos free] at ks
    have same : keyAt q (reevaluateKey s p) = keyAt q (setKey p { keyAt p s with withheld := false } s) :=
      keyAt_of_positions (by rw [ks]; rfl) q
    by_cases here : q = p
    · rw [same, if_pos ⟨here, free⟩, here, keyAt_setKey_self]
    · rw [same, if_neg fun both => here both.1, keyAt_setKey_ne (Ne.symm here)]
  · rw [if_neg free] at ks
    rw [if_neg fun both => free both.2]
    exact keyAt_of_positions (by rw [ks]) q

theorem reevaluateKey_pressed (s : State) (p q : Pos) : (keyAt q (reevaluateKey s p)).pressed = (keyAt q s).pressed := by
  rw [keyAt_reevaluateKey]
  split <;> rfl

theorem isPhantom_of_pressed {s t : State} (same : ∀ q, (keyAt q t).pressed = (keyAt q s).pressed) (p : Pos) :
    isPhantom p t = isPhantom p s := by simp only [isPhantom_eq, same]

theorem freed_reevaluateKey {s : State} {p : Pos} {rest : List Pos} (once : p ∉ rest) :
    freed (reevaluateKey s p) rest = freed s rest := by
  refine List.filter_congr fun q later => ?_
  have other : q ≠ p := fun same => once (same ▸ later)
  rw [isPhantom_of_pressed (reevaluateKey_pressed s p), keyAt_reevaluateKey, if_neg fun both => other both.1]

theorem reevaluateAll_ks {l : List Pos} (distinct : l.Nodup) (s : State) :
    (l.foldl reevaluateKey s).ks = { s.ks with
      positions := (l.foldl reevaluateKey s).ks.positions
      latched := s.ks.latched ++ latchAll s.ks.keymap s.ks.latched (freed s l) } := by
  induction l generalizing s with
  | nil => simp [freed, latchAll]
  | cons p rest ih =>
    obtain ⟨once, distinct⟩ := List.nodup_cons.1 distinct
    rw [List.foldl_cons, ih distinct, freed_reevaluateKey once, reevaluateKey_ks]
    by_cases free : ((keyAt p s).withheld && !isPhantom p s) = true
    · have : freed s (p :: rest) = p :: freed s rest := List.filter_cons_of_pos free
      simp only [free, if_true, this, latchAll, List.append_assoc, List.singleton_append]
    · have : freed s (p :: rest) = freed s rest := List.filter_cons_of_neg free
      simp only [free, this]
      rfl

theorem keyAt_reevaluateAll {l : List Pos} (distinct : l.Nodup) (s : State) (q : Pos) :
    keyAt q (l.foldl reevaluateKey s) =
      if q ∈ freed s l then { keyAt q s with withheld := false } else keyAt q s := by
  induction l generalizing s with
  | nil => simp [freed]
  | cons p rest ih =>
    obtain ⟨once, distinct⟩ := List.nodup_cons.1 distinct
    rw [List.foldl_cons, ih distinct, freed_reevaluateKey once, keyAt_reevaluateKey]
    by_cases here : q = p
    · subst here
      have absent : q ∉ freed s rest := fun later => once (List.mem_of_mem_filter later)
      simp only [absent, if_false, true_and]
      simp only [freed, List.mem_filter, List.mem_cons_self, true_and]
    · have : q ∈ freed s (p :: rest) ↔ q ∈ freed s rest := by simp [freed, here]
      simp only [this, here, false_and, if_false]

theorem reevaluateAll_pressed (l : List Pos) (s : State) (q : Pos) :
    (keyAt q (l.foldl reevaluateKey s)).pressed = (keyAt q s).pressed := by
  induction l generalizing s with
  | nil => rfl
  | cons p rest ih => rw [List.foldl_cons, ih, reevaluateKey_pressed]

/-! ### Presses (R141, R142) -/

/-- The pressed set as the press of a position finds it: the positions that stay, and the new presses below it. -/
def pressedBelow (s : State) (l : List Pos) (p : Pos) (q : Pos) : Bool :=
  (keyAt q s).pressed || (decide (q ∈ l) && decide (q < p))

theorem pressKey_ks (s : State) (p : Pos) :
    (pressKey s p).ks = { s.ks with
      positions := s.ks.positions.set p { keyAt p s with pressed := true, withheld := isPhantom p s }
      latched := s.ks.latched ++ if isPhantom p s then [] else [latchIn s.ks.keymap s.ks.latched p] } := by
  unfold pressKey
  dsimp only
  split
  · simp [setKey]
  · simp [setKey]

theorem keyAt_pressKey (s : State) (p q : Pos) :
    keyAt q (pressKey s p) = if q = p then { keyAt q s with pressed := true, withheld := isPhantom q s } else keyAt q s := by
  have same : keyAt q (pressKey s p) = keyAt q (setKey p { keyAt p s with pressed := true, withheld := isPhantom p s } s) :=
    keyAt_of_positions (by rw [pressKey_ks]; rfl) q
  split
  next h => rw [same, h, keyAt_setKey_self]
  next h => rw [same, keyAt_setKey_ne (Ne.symm h)]

/-- The new presses that are withheld: those that meet the phantom condition against the presses before them. -/
def ghosts (s : State) (l : List Pos) (p : Pos) : Bool := phantomIn (pressedBelow s l p) p

theorem ghosts_pressKey {s : State} {p : Pos} {rest : List Pos} (ascending : ∀ q ∈ rest, p < q) {q : Pos} (later : q ∈ rest) :
    ghosts (pressKey s p) rest q = ghosts s (p :: rest) q := by
  unfold ghosts
  congr 1
  funext r
  unfold pressedBelow
  rw [keyAt_pressKey]
  by_cases here : r = p
  · subst here
    simp [ascending q later]
  · simp [here]

theorem ghosts_head {s : State} {p : Pos} {rest : List Pos} (ascending : ∀ q ∈ rest, p < q) :
    ghosts s (p :: rest) p = isPhantom p s := by
  unfold ghosts
  rw [isPhantom_eq]
  congr 1
  funext r
  unfold pressedBelow
  by_cases later : r ∈ rest
  · have := ascending r later
    simp [Fin.not_lt.2 (Fin.le_of_lt this)]
  · by_cases here : r = p <;> simp [here, later]

theorem keyAt_pressAll {l : List Pos} (ascending : l.Pairwise (· < ·)) (s : State) (q : Pos) :
    keyAt q (l.foldl pressKey s) =
      if q ∈ l then { keyAt q s with pressed := true, withheld := ghosts s l q } else keyAt q s := by
  induction l generalizing s with
  | nil => simp
  | cons p rest ih =>
    obtain ⟨above, ascending⟩ := List.pairwise_cons.1 ascending
    rw [List.foldl_cons, ih ascending, keyAt_pressKey]
    by_cases here : q = p
    · subst here
      have once : q ∉ rest := fun later => Nat.lt_irrefl _ (above q later)
      simp [once, ghosts_head above]
    · by_cases later : q ∈ rest
      · simp [here, later, ghosts_pressKey above later]
      · simp [here, later]

theorem pressAll_ks {l : List Pos} (ascending : l.Pairwise (· < ·)) (s : State) :
    (l.foldl pressKey s).ks = { s.ks with
      positions := (l.foldl pressKey s).ks.positions
      latched := s.ks.latched ++ latchAll s.ks.keymap s.ks.latched (l.filter fun p => !ghosts s l p) } := by
  induction l generalizing s with
  | nil => simp [latchAll]
  | cons p rest ih =>
    obtain ⟨above, ascending⟩ := List.pairwise_cons.1 ascending
    have later : rest.filter (fun q => !ghosts (pressKey s p) rest q) = rest.filter fun q => !ghosts s (p :: rest) q :=
      List.filter_congr fun q member => by rw [ghosts_pressKey above member]
    rw [List.foldl_cons, ih ascending, later, pressKey_ks, List.filter_cons, ghosts_head above]
    by_cases ghost : isPhantom p s = true
    · simp [ghost]
    · simp [ghost, latchAll]

end Sys2Proof.Machine
end

section
/-! PROOFS. The laws of keys and settings (R137, R139, R142, R160): what a scan, the writes and the load leave. -/

namespace Sys2Proof.Machine

/-! ### Withheld and latched (R137, R142) -/

/-- A withheld position is pressed; a pressed one is withheld or has one record in the latched key table. -/
def latchesLegal (s : State) : Prop :=
  (∀ p : Pos, (keyAt p s).withheld = true → (keyAt p s).pressed = true) ∧
    (∀ p : Pos, p.val ∈ s.ks.latched.map Latched.pos ↔ (keyAt p s).pressed = true ∧ (keyAt p s).withheld = false) ∧
    (s.ks.latched.map Latched.pos).Nodup

theorem any_pos (l : List Latched) (n : Nat) : (l.any fun r => r.pos == n) = true ↔ n ∈ l.map Latched.pos := by
  simp [List.any_eq_true, List.mem_map]

theorem keysLegal_iff (s : State) :
    keysLegal s ↔ (∀ p : Pos, (keyAt p s).count ≤ s.settings.depth) ∧ latchesLegal s := by
  refine and_congr_right fun _ => and_congr_right fun _ => and_congr_left fun _ => forall_congr' fun p => ?_
  rw [← any_pos, Bool.eq_iff_iff]
  simp

/-- Keys latched anew, each without a record before. -/
theorem nodup_latchAll {keymap : Vector KeyEntry 384} {latched : List Latched} {ps : List Pos}
    (before : (latched.map Latched.pos).Nodup) (distinct : ps.Nodup) (anew : ∀ p ∈ ps, p.val ∉ latched.map Latched.pos) :
    ((latched ++ latchAll keymap latched ps).map Latched.pos).Nodup := by
  rw [List.map_append, latchAll_pos]
  refine before.append (distinct.map Fin.val_injective) fun n old new => ?_
  obtain ⟨p, member, rfl⟩ := List.mem_map.1 new
  exact anew p member old

theorem mem_latchAll (keymap : Vector KeyEntry 384) (latched : List Latched) (ps : List Pos) (p : Pos) :
    p.val ∈ (latched ++ latchAll keymap latched ps).map Latched.pos ↔ p.val ∈ latched.map Latched.pos ∨ p ∈ ps := by
  rw [List.map_append, latchAll_pos, List.mem_append, List.mem_map_of_injective Fin.val_injective]

theorem releaseAll_latches (l : List Pos) {s : State} (h : latchesLegal s) : latchesLegal (l.foldl releaseKey s) := by
  obtain ⟨withheld, latched, distinct⟩ := h
  refine ⟨fun p => ?_, fun p => ?_, ?_⟩
  · rw [keyAt_releaseAll]
    split
    · exact nofun
    · exact withheld p
  · rw [keyAt_releaseAll, latched_releaseAll]
    by_cases here : p ∈ l
    · simp only [here, if_true, KeyPosition.letGo]
      simp only [List.mem_map, List.mem_filter, List.all_eq_true, bne_iff_ne, Bool.false_eq_true, false_and, iff_false]
      rintro ⟨r, ⟨_, stays⟩, same⟩
      exact stays p here same
    · simp only [here, if_false, ← latched p]
      simp only [List.mem_map, List.mem_filter, List.all_eq_true, bne_iff_ne]
      refine ⟨fun ⟨r, member, same⟩ => ⟨r, member.1, same⟩, fun ⟨r, member, same⟩ => ⟨r, ⟨member, fun q gone equal => ?_⟩, same⟩⟩
      exact here (Fin.ext (same.symm.trans equal) ▸ gone)
  · rw [latched_releaseAll]
    exact distinct.sublist (List.filter_sublist.map _)

theorem mem_freed {s : State} {l : List Pos} {p : Pos} :
    p ∈ freed s l ↔ p ∈ l ∧ (keyAt p s).withheld = true ∧ isPhantom p s = false := by
  simp [freed, List.mem_filter]

theorem reevaluateAll_latches {l : List Pos} (once : l.Nodup) {s : State} (h : latchesLegal s) :
    latchesLegal (l.foldl reevaluateKey s) := by
  obtain ⟨withheld, latched, distinct⟩ := h
  have table : (l.foldl reevaluateKey s).ks.latched = _ := congrArg KeyScanner.latched (reevaluateAll_ks once s)
  refine ⟨fun p held => ?_, fun p => ?_, ?_⟩
  · rw [reevaluateAll_pressed]
    rw [keyAt_reevaluateAll once] at held
    split at held
    · cases held
    · exact withheld p held
  · rw [table, mem_latchAll, latched, reevaluateAll_pressed, keyAt_reevaluateAll once]
    by_cases free : p ∈ freed s l
    · simp [free, withheld p (mem_freed.1 free).2.1]
    · simp [free]
  · rw [table]
    refine nodup_latchAll distinct (once.filter _) fun p free old => ?_
    have := ((latched p).1 old).2
    rw [(mem_freed.1 free).2.1] at this
    cases this

theorem pressAll_latches {l : List Pos} (ascending : l.Pairwise (· < ·)) {s : State}
    (fresh : ∀ p ∈ l, (keyAt p s).pressed = false) (h : latchesLegal s) : latchesLegal (l.foldl pressKey s) := by
  obtain ⟨withheld, latched, distinct⟩ := h
  have table : (l.foldl pressKey s).ks.latched = _ := congrArg KeyScanner.latched (pressAll_ks ascending s)
  refine ⟨fun p => ?_, fun p => ?_, ?_⟩
  · rw [keyAt_pressAll ascending]
    split
    · exact fun _ => rfl
    · exact withheld p
  · rw [table, mem_latchAll, latched, keyAt_pressAll ascending]
    by_cases new : p ∈ l
    · simp [new, fresh p new]
    · simp [new]
  · rw [table]
    refine nodup_latchAll distinct ((ascending.imp fun below => Fin.ne_of_lt below).filter _) fun p new old => ?_
    have := ((latched p).1 old).1
    rw [fresh p (List.mem_filter.1 new).1] at this
    cases this

/-! ### The three steps of a scan (R141) -/

/-- The positions that a scan releases. -/
def releasedKeys (s : State) : List Pos := (List.finRange 128).filter fun p => becomesReleased (keyAt p s)

/-- The positions that a scan finds newly pressed. -/
def pressedKeys (s : State) : List Pos := (List.finRange 128).filter fun p => becomesPressed s.settings.depth (keyAt p s)

/-- The state of a scan when its releases are done and the withheld positions seen to. -/
def afterReleases (s : State) : State :=
  if (releasedKeys s).isEmpty then (releasedKeys s).foldl releaseKey s
  else (List.finRange 128).foldl reevaluateKey ((releasedKeys s).foldl releaseKey s)

theorem changeKeys_eq (s : State) : changeKeys s = (pressedKeys s).foldl pressKey (afterReleases s) := rfl

theorem pressedKeys_ascending (s : State) : (pressedKeys s).Pairwise (· < ·) :=
  (List.pairwise_lt_finRange 128).filter _

theorem mem_pressedKeys {s : State} {p : Pos} :
    p ∈ pressedKeys s ↔ (keyAt p s).pressed = false ∧ (keyAt p s).count = s.settings.depth := by
  simp [pressedKeys, becomesPressed]

theorem mem_releasedKeys {s : State} {p : Pos} :
    p ∈ releasedKeys s ↔ (keyAt p s).pressed = true ∧ (keyAt p s).count = 0 := by
  simp [releasedKeys, becomesReleased]

theorem afterReleases_pressed (s : State) (p : Pos) :
    (keyAt p (afterReleases s)).pressed = ((keyAt p s).pressed && (keyAt p s).count != 0) := by
  have released : (keyAt p ((releasedKeys s).foldl releaseKey s)).pressed =
      ((keyAt p s).pressed && (keyAt p s).count != 0) := by
    rw [keyAt_releaseAll]
    by_cases gone : p ∈ releasedKeys s
    · simp [gone, KeyPosition.letGo, (mem_releasedKeys.1 gone).2]
    · rw [if_neg gone]
      rw [mem_releasedKeys] at gone
      by_cases pressed : (keyAt p s).pressed = true
      · simp [pressed] at gone ⊢
        exact gone
      · simp [pressed]
  unfold afterReleases
  split
  · exact released
  · rw [reevaluateAll_pressed]
    exact released

theorem afterReleases_latches {s : State} (h : latchesLegal s) : latchesLegal (afterReleases s) := by
  unfold afterReleases
  split
  · exact releaseAll_latches _ h
  · exact reevaluateAll_latches (List.nodup_finRange 128) (releaseAll_latches _ h)

theorem changeKeys_latches {s : State} (h : latchesLegal s) : latchesLegal (changeKeys s) := by
  rw [changeKeys_eq]
  refine pressAll_latches (pressedKeys_ascending s) (fun p new => ?_) (afterReleases_latches h)
  rw [afterReleases_pressed, (mem_pressedKeys.1 new).1, Bool.false_and]

theorem afterReleases_count (s : State) (p : Pos) : (keyAt p (afterReleases s)).count = (keyAt p s).count := by
  have released : (keyAt p ((releasedKeys s).foldl releaseKey s)).count = (keyAt p s).count := by
    rw [keyAt_releaseAll]
    split <;> rfl
  unfold afterReleases
  split
  · exact released
  · rw [keyAt_reevaluateAll (List.nodup_finRange 128)]
    split
    · exact released
    · exact released

theorem changeKeys_count (s : State) (p : Pos) : (keyAt p (changeKeys s)).count = (keyAt p s).count := by
  rw [changeKeys_eq, keyAt_pressAll (pressedKeys_ascending s), ← afterReleases_count s p]
  split <;> rfl

/-! ### The scan (R138, R139) -/

/-- The state of a scan when the matrix is read. -/
def readMatrix (contacts : BitVec 128) (s : State) : State :=
  mapKeys (fun p k => readKey s.settings.depth (contacts.getLsbD p.val) k) s

/-- The positions of a scan that count CHATTER. -/
def noisyKeys (contacts : BitVec 128) (s : State) : Nat :=
  (List.finRange 128).countP fun p => chatters s.settings.depth (keyAt p (readMatrix contacts s))

/-- The state of a scan before its keys change. -/
def counted (contacts : BitVec 128) (s : State) : State :=
  countN .chatter (noisyKeys contacts s) (count .scan (readMatrix contacts s))

theorem scanKeys_eq (contacts : BitVec 128) (s : State) :
    scanKeys contacts s =
      { buildReport (changeKeys (counted contacts s)) with
        ks.scanTimer := s.settings.scanPeriod, ks.scans := min (s.ks.scans + 1) Config.firstScans } := by
  simp only [scanKeys, counted, noisyKeys, readMatrix]

@[simp] theorem counted_ks (contacts : BitVec 128) (s : State) : (counted contacts s).ks = (readMatrix contacts s).ks := by
  simp [counted]

@[simp] theorem queueReport_ks (r : Report) (s : State) : (queueReport r s).ks = s.ks := by
  unfold queueReport
  split
  · rfl
  · split <;> simp

@[simp] theorem buildReport_ks (s : State) :
    (buildReport s).ks = { s.ks with report := reportedState s.ks.latched } := by
  unfold buildReport
  dsimp only
  split
  next same => rw [same]
  next => simp

theorem keyAt_buildReport (s : State) (p : Pos) : keyAt p (buildReport s) = keyAt p s :=
  keyAt_of_positions (by rw [buildReport_ks]) p

theorem latched_buildReport (s : State) : (buildReport s).ks.latched = s.ks.latched := by rw [buildReport_ks]

theorem keyAt_timed (timer n : Nat) (s : State) (p : Pos) :
    keyAt p { s with ks.scanTimer := timer, ks.scans := n } = keyAt p s := rfl

theorem latched_timed (timer n : Nat) (s : State) :
    ({ s with ks.scanTimer := timer, ks.scans := n } : State).ks.latched = s.ks.latched := rfl

theorem keyAt_scanKeys (contacts : BitVec 128) (s : State) (p : Pos) :
    keyAt p (scanKeys contacts s) = keyAt p (changeKeys (counted contacts s)) := by
  rw [scanKeys_eq, keyAt_timed, keyAt_buildReport]

theorem latched_scanKeys (contacts : BitVec 128) (s : State) :
    (scanKeys contacts s).ks.latched = (changeKeys (counted contacts s)).ks.latched := by
  rw [scanKeys_eq, latched_timed, latched_buildReport]

@[simp] theorem mapKeys_latched (f : Pos → KeyPosition → KeyPosition) (s : State) :
    (mapKeys f s).ks.latched = s.ks.latched := by simp only [mapKeys]

theorem latched_counted (contacts : BitVec 128) (s : State) : (counted contacts s).ks.latched = s.ks.latched := by
  rw [counted_ks, readMatrix, mapKeys_latched]

theorem latchesLegal_of_keys {s t : State} (positions : ∀ p, (keyAt p t).pressed = (keyAt p s).pressed ∧
    (keyAt p t).withheld = (keyAt p s).withheld) (latched : t.ks.latched = s.ks.latched) (h : latchesLegal s) :
    latchesLegal t := by
  unfold latchesLegal at *
  simpa only [positions, latched] using h

theorem keyAt_counted (contacts : BitVec 128) (s : State) (p : Pos) :
    keyAt p (counted contacts s) = readKey s.settings.depth (contacts.getLsbD p.val) (keyAt p s) := by
  rw [keyAt_of_positions (congrArg KeyScanner.positions (counted_ks contacts s))]
  exact keyAt_mapKeys _ p s

theorem newCount_le {depth c : Nat} (closed : Bool) (h : c ≤ depth) : newCount depth closed c ≤ depth := by
  unfold newCount
  split <;> omega

theorem scanKeys_keysLegal (contacts : BitVec 128) {s : State} (h : keysLegal s) : keysLegal (scanKeys contacts s) := by
  obtain ⟨counts, latches⟩ := (keysLegal_iff s).1 h
  refine (keysLegal_iff _).2 ⟨fun p => ?_, ?_⟩
  · have settings : (scanKeys contacts s).settings = s.settings := by rw [(scanKeys_scanned contacts s).rest]
    rw [settings, keyAt_scanKeys, changeKeys_count, keyAt_counted]
    exact newCount_le _ (counts p)
  · refine latchesLegal_of_keys (s := changeKeys (counted contacts s)) (fun p => ?_) (latched_scanKeys contacts s)
      (changeKeys_latches (latchesLegal_of_keys (s := s) (fun p => ?_) ?_ latches))
    · rw [keyAt_scanKeys]
      exact ⟨rfl, rfl⟩
    · rw [keyAt_counted]
      exact ⟨rfl, rfl⟩
    · exact latched_counted contacts s

/-! ### The settings (R160) -/

theorem settingsOf_legal (lossLimit holdTime : Byte) (scanPeriod : Half) (depth faultTimeout retryLimit shed enables : Byte) :
    settingsLegal (settingsOf lossLimit holdTime scanPeriod depth faultTimeout retryLimit shed enables) := by
  refine ⟨clamp_range _ (by decide), clamp_range _ (by decide), ?_, clamp_range _ (by decide), clamp_range _ (by decide),
    (clamp_range _ (by decide)).2, clamp_range _ (by decide)⟩
  simp only [settingsOf, clampScan, clamp]
  omega

theorem default_settingsLegal : settingsLegal Settings.default := by decide

theorem keyAt_answer (tag kind : Byte) (x : Status) (s : State) (p : Pos) : keyAt p (answer tag kind x s) = keyAt p s := rfl

theorem keyAt_settings (r : Settings) (s : State) (p : Pos) : keyAt p { s with settings := r } = keyAt p s := rfl

/-- A write of the settings acts on the counts at once (R140). -/
theorem doSettingsWrite_keysLegal (tag : Byte) (r : Settings) {s : State} (h : keysLegal s) :
    keysLegal (doSettingsWrite tag r s) := by
  obtain ⟨_, latches⟩ := (keysLegal_iff s).1 h
  have key (p : Pos) : keyAt p (doSettingsWrite tag r s) = { keyAt p s with count := min (keyAt p s).count r.depth } := by
    rw [doSettingsWrite, keyAt_answer, clampCounts, keyAt_mapKeys, keyAt_settings]
  have latched : (doSettingsWrite tag r s).ks.latched = s.ks.latched := by
    rw [doSettingsWrite, answer_ks, clampCounts, mapKeys_latched]
  have settings : (doSettingsWrite tag r s).settings = r := by
    rw [doSettingsWrite, answer_settings, clampCounts, mapKeys_settings]
  refine (keysLegal_iff _).2 ⟨fun p => ?_, latchesLegal_of_keys (fun p => ?_) latched latches⟩
  · rw [key, settings]
    exact Nat.min_le_right _ _
  · rw [key]
    exact ⟨rfl, rfl⟩

/-! ### What leaves the keys and the settings alone -/

/-- The Key Scanner and the settings record are as they were. -/
def sameKeys (s t : State) : Prop := t.ks = s.ks ∧ t.settings = s.settings

theorem sameKeys.trans {s t u : State} (h : sameKeys s t) (g : sameKeys t u) : sameKeys s u :=
  ⟨g.1.trans h.1, g.2.trans h.2⟩

theorem sameKeys_of_own {s t : State} (same : own t = own s) : sameKeys s t :=
  ⟨congrArg Own.ks same, congrArg Own.settings same⟩

theorem Kept.sameKeys {s t : State} (h : Kept s t) : sameKeys s t :=
  sameKeys_of_own h.own

theorem leaveUp_sameKeys (cause : DepartCause) (s : State) : sameKeys s (leaveUp cause s) := by
  have ks : (own (leaveUp cause s)).ks = s.ks := by rw [leaveUp_own]; split <;> rfl
  have settings : (own (leaveUp cause s)).settings = s.settings := by rw [leaveUp_own]; split <;> rfl
  exact ⟨ks, settings⟩

theorem expireLoss_sameKeys (s : State) : sameKeys s (expireLoss s) := by
  unfold expireLoss
  refine sameKeys.trans ?_ (count_kept _ _).sameKeys
  split
  · exact leaveUp_sameKeys .lossDetector { s with lc.link := .down, lc.lossCount := 0 }
  · exact ⟨congrArg Own.ks (cutAssembly_own _), congrArg Own.settings (cutAssembly_own _)⟩

theorem failFrame_sameKeys (s : State) : sameKeys s (failFrame s) := by
  unfold failFrame
  split
  · exact (count_kept _ { s with lc.framingCount := 0 }).sameKeys
  · split
    · exact (((count_kept _ { s with lc.link := .aligning, lc.alignCount := 0 }).trans (count_kept _ _)).sameKeys).trans
        (leaveUp_sameKeys _ _)
    · exact (count_kept _ { s with lc.failureCount := s.lc.failureCount + 1 }).sameKeys
  · exact ⟨rfl, rfl⟩
  · exact ⟨rfl, rfl⟩

theorem teardown_sameKeys (s : State) : sameKeys s (teardown s) :=
  ⟨congrArg Own.ks (teardown_own s), congrArg Own.settings (teardown_own s)⟩

theorem flagGreet_sameKeys (outcome : GreetOutcome) (s : State) : sameKeys s (flagGreet outcome s) := by
  unfold flagGreet
  split
  · split <;> exact ⟨rfl, rfl⟩
  · exact ⟨rfl, rfl⟩

theorem freshAttach_sameKeys (number : Word) (s : State) : sameKeys s (freshAttach number s) := by
  refine sameKeys.trans ?_ (flagGreet_sameKeys _ _)
  split <;> exact ⟨rfl, rfl⟩

theorem reattach_sameKeys (s : State) : sameKeys s (reattach s) := by
  have again := (flagGreet_sameKeys .resumed { s with
    lc.attachment := .attached, lc.holdTimer := none, lc.lastCause := s.lc.holdCause, lc.lastDuration := holdMs s }).trans
    (((flagOpenRewinds_kept .reattach _).trans (representFault_kept .a _)).trans (representFault_kept .b _)).sameKeys
  refine (again.trans ⟨?_, ?_⟩).trans ((raiseEvent_kept (by decide) _ (reattachSnapshot _)).trans (count_kept _ _)).sameKeys
  · rw [reattachSnapshot, queueReport_ks, count_ks]
  · rw [(reattachSnapshot_scanned _).rest]

theorem takeHello_sameKeys (number : Word) (s : State) : sameKeys s (takeHello number s) := by
  have again := (teardown_sameKeys s).trans (freshAttach_sameKeys number _)
  unfold takeHello
  split
  · exact freshAttach_sameKeys number s
  · split
    · exact flagGreet_sameKeys _ s
    · exact again
  · split
    · exact reattach_sameKeys s
    · exact again

theorem passFrame_framing_sameKeys {s : State} (framing : s.lc.link = .framing) : sameKeys s (passFrame id s) := by
  rw [passFrame_framing _ framing]
  split
  · exact (count_kept _ { s with
      lc.link := .up, lc.framingCount := s.lc.framingCount + 1, lc.failureCount := 0 }).sameKeys
  · exact ⟨rfl, rfl⟩

theorem alignGroup_sameKeys (g : SymbolGroup) (s : State) : sameKeys s (alignGroup g s) := by
  unfold alignGroup
  split
  · split <;> exact ⟨rfl, rfl⟩
  · exact ⟨rfl, rfl⟩

theorem downGroup_sameKeys (g : SymbolGroup) (s : State) : sameKeys s (downGroup g s) := by
  unfold downGroup
  split <;> exact ⟨rfl, rfl⟩

/-- A law of the keys and the settings is kept by every operation when writes of the keymap and the settings and scans keep
it. -/
theorem Happens.keys {Legal : State → Prop} (same : ∀ {s t}, Legal s → sameKeys s t → Legal t)
    (keymap : ∀ tag entry cls value {s}, Legal s → Legal (doKeymapWrite tag entry cls value s))
    (write : ∀ tag a b c d e f g h {s}, Legal s → Legal (doSettingsWrite tag (settingsOf a b c d e f g h) s))
    (scan : ∀ contacts {s}, Legal s → Legal (scanKeys contacts s))
    {s u : State} (happens : Happens s u) (legal : Legal s) : Legal u := by
  induction happens with
  | nothing => exact legal
  | andThen _ _ first next => exact next (first legal)
  | counted x s => exact same legal (count_kept x s).sameKeys
  | lossRestarts g s =>
    unfold restartLoss
    split
    · exact same legal ⟨rfl, rfl⟩
    · exact legal
  | groupDown g down => exact same legal (downGroup_sameKeys g _)
  | groupAligning g aligning => exact same legal (alignGroup_sameKeys g _)
  | assembly a assembling => exact same legal ⟨rfl, rfl⟩
  | fails assembling => exact same legal (failFrame_sameKeys _)
  | framing framing => exact same legal (passFrame_framing_sameKeys framing)
  | passes up => exact same legal ⟨rfl, rfl⟩
  | lossExpires expired => exact same legal (expireLoss_sameKeys _)
  | hello number up => exact same legal (takeHello_sameKeys number _)
  | holdExpires expired => exact same legal (teardown_sameKeys _)
  | transmitted sending =>
    exact same legal (sameKeys_of_own (completeItem_own _ _))
  | draw stream seq commands _ _ => exact same legal (doDraw_kept stream seq commands _).sameKeys
  | tile key sector data _ _ => exact same legal (doTile_kept key sector data _).sameKeys
  | executionEnds busy writing => exact same legal ((finishExecution_kept _ _ _).trans (settle_kept _)).sameKeys
  | faultExpires expired => exact same legal (expireFault_kept _ _).sameKeys
  | busy tag kind _ _ => exact same legal (answer_kept tag kind _ _).sameKeys
  | answered tag kind status _ => exact same legal (answer_kept tag kind status _).sameKeys
  | tableRead tag table first number _ => exact same legal (doTableRead_kept tag table first number _).sameKeys
  | headerWrite tag border undocked _ => exact same legal (doHeaderWrite_kept tag border undocked _).sameKeys
  | regionWrite tag i enabled ox oy rw rh background _ =>
    exact same legal (doRegionWrite_kept tag i enabled ox oy rw rh background _).sameKeys
  | streamWrite tag i stale _ => exact same legal (doStreamWrite_kept tag i stale _).sameKeys
  | keymapWrite tag entry cls value _ => exact keymap tag entry cls value legal
  | settingsWrite tag a b c d e f g h _ =>
    exact write tag a b c d e f g h legal
  | panelWrite tag width height level _ => exact same legal (doPanelWrite_kept tag width height level _).sameKeys
  | streamOpen tag stream start _ => exact same legal (doStreamOpen_kept tag stream start _).sameKeys
  | streamClose tag stream _ => exact same legal (doStreamClose_kept tag stream _).sameKeys
  | quiesce tag _ => exact same legal (doQuiesce_kept tag _).sameKeys
  | resume tag _ => exact same legal (doResume_kept tag _).sameKeys
  | tileFlush tag _ => exact same legal (doTileFlush_kept tag _).sameKeys
  | tilePin tag key _ => exact same legal (doTilePin_kept tag key _).sameKeys
  | tileUnpin tag key _ => exact same legal (doTileUnpin_kept tag key _).sameKeys
  | panelRestart tag _ => exact same legal (doPanelRestart_kept tag _).sameKeys
  | dockReset tag _ =>
    exact same legal (sameKeys_of_own (doDockReset_own tag _))
  | storeErase tag page _ => exact same legal (doStoreErase_kept tag page _).sameKeys
  | storeWrite tag offset data _ => exact same legal (doStoreWrite_kept tag offset data _).sameKeys
  | storeRead tag offset number _ => exact same legal (doStoreRead_kept tag offset number _).sameKeys
  | monitorSet tag entry mode group unitMask condition _ =>
    exact same legal (sameKeys_of_own (doMonitorSet_own tag entry mode group unitMask condition _))
  | applyEnds applying writing => exact same legal ((finishApply_kept _ _).trans (finishResume_kept _)).sameKeys
  | fillEnds filling writing => exact same legal (finishTeardownFill_kept _ _).sameKeys
  | sweeps sweeping => exact same legal (sweepSet_kept _ _).sameKeys
  | erases current op => exact same legal ((count_kept _ _).trans (endLong_kept _ _)).sameKeys
  | programs current op =>
    simp only [finishProgram]
    split
    · exact same legal ((count_kept _ _).trans (endLong_kept _ _)).sameKeys
    · exact same legal (((count_kept _ _).trans (count_kept _ _)).trans (endLong_kept _ _)).sameKeys
  | acknowledged sent =>
    exact same legal (sameKeys_of_own (completeBlock_own _))
  | timesOut sent ended =>
    exact same legal (sameKeys_of_own (timeOutBlock_own _ _))
  | scans contacts due => exact scan contacts legal
  | millisecond due => exact same legal ⟨by rw [(countMillisecond_counted _).rest], by rw [(countMillisecond_counted _).rest]⟩
  | period due => exact same legal ⟨rfl, rfl⟩

/-! ### The law -/

/-- The laws of keys and settings. -/
def keyLaws (s : State) : Prop := settingsLegal s.settings ∧ keysLegal s

theorem sameKeys.keyLaws {s t : State} (same : sameKeys s t) (h : keyLaws s) : keyLaws t := by
  obtain ⟨ks, settings⟩ := same
  unfold Machine.keyLaws keysLegal at *
  simpa only [settings, keyAt_of_positions (congrArg KeyScanner.positions ks), ks] using h

theorem doKeymapWrite_keyLaws (tag : Byte) (entry : Half) (cls value : Byte) {s : State} (h : keyLaws s) :
    keyLaws (doKeymapWrite tag entry cls value s) := by
  unfold doKeymapWrite
  split
  · split
    · exact (answer_kept _ _ _ _).sameKeys.keyLaws h
    · exact (answer_kept _ _ _ _).sameKeys.keyLaws h
  · exact (answer_kept _ _ _ _).sameKeys.keyLaws h

theorem scanKeys_keyLaws (contacts : BitVec 128) {s : State} (h : keyLaws s) : keyLaws (scanKeys contacts s) := by
  refine ⟨?_, scanKeys_keysLegal contacts h.2⟩
  rw [(scanKeys_scanned contacts _).rest]
  exact h.1

/-- Every operation keeps the laws of keys and settings. -/
theorem Happens.keyLaws {s u : State} (h : Happens s u) : keyLaws s → keyLaws u :=
  h.keys (fun legal same => same.keyLaws legal) doKeymapWrite_keyLaws
    (fun tag a b c d e f g h _ legal => ⟨settingsOf_legal a b c d e f g h, doSettingsWrite_keysLegal tag _ legal.2⟩)
    scanKeys_keyLaws

theorem conclude_keyLaws (before : State) {s : State} (h : keyLaws s) : keyLaws (conclude before s) :=
  (sameKeys_of_own (conclude_own before s)).keyLaws h

/-- R137, R169: a load finds every position released, and settings in their ranges. -/
theorem powerOnState_keyLaws {x : Loaded} (settings : settingsLegal x.settings) (flash : List Host.Cell) (used : Bool)
    (free : Nat) (pending : List Instr) : keyLaws (powerOnState flash used x free pending) := by
  have key (p : Pos) : keyAt p (powerOnState flash used x free pending) = KeyPosition.released :=
    Vector.getElem_replicate p.isLt
  refine ⟨settings, (keysLegal_iff _).2 ⟨fun p => ?_, fun p => ?_, fun p => ?_, List.nodup_nil⟩⟩
  · rw [key]
    exact Nat.zero_le _
  · rw [key]
    exact nofun
  · rw [key]
    simp [powerOnState, KeyPosition.released]

theorem powerOn_keyLaws (flash : List Host.Cell) (free : Nat) (pending : List Instr) : keyLaws (powerOn flash free pending) := by
  unfold powerOn
  refine (sameKeys_of_own (selectBlock_own _)).keyLaws ?_
  split
  · exact powerOnState_keyLaws (settingsOf_legal _ _ _ _ _ _ _ _) _ _ _ _
  · exact (raiseEvent_kept (by decide) 0 _).sameKeys.keyLaws (powerOnState_keyLaws default_settingsLegal _ _ _ _)

/-- Settles O59: only scans, writes and the load change keys or settings, and each leaves them legal. -/
theorem keysAndSettingsStayLegal : Obligations.KeysAndSettingsStayLegal := fun _ _ legal stepped =>
  step_keeps (Legal := keyLaws) legal stepped (fun _ h => h) (fun _ _ h => h) (fun _ _ => powerOn_keyLaws _ _ _)
    fun s _ h happens => conclude_keyLaws s (happens.keyLaws h)

end Sys2Proof.Machine
end

section
/-! PROOFS. What stands apart from drawing: the link, the keys, the panel, the store and the Monitor leave the sequencer, the engines, the
Tile Cache, the Tile Fault Unit, the layout, the frame store and the request in progress alone. -/

namespace Sys2Proof.Machine

/-- The blocks that draw are as they were, and the request in progress. -/
structure Apart (s t : State) : Prop where
  sq : t.sq = s.sq
  de : t.de = s.de
  tc : t.tc = s.tc
  tf : t.tf = s.tf
  lu : t.lu = s.lu
  fs : t.fs = s.fs
  inProgress : t.me.inProgress = s.me.inProgress

theorem Apart.trans {s t u : State} (h : Apart s t) (g : Apart t u) : Apart s u where
  sq := g.sq.trans h.sq
  de := g.de.trans h.de
  tc := g.tc.trans h.tc
  tf := g.tf.trans h.tf
  lu := g.lu.trans h.lu
  fs := g.fs.trans h.fs
  inProgress := g.inProgress.trans h.inProgress

theorem Apart.refl (s : State) : Apart s s := ⟨rfl, rfl, rfl, rfl, rfl, rfl, rfl⟩

theorem Apart.ite {p : Prop} [Decidable p] {s t u : State} (yes : Apart s t) (no : Apart s u) :
    Apart s (if p then t else u) := by
  split
  · exact yes
  · exact no

theorem Counted.apart {s t : State} (h : Counted s t) : Apart s t :=
  ⟨h.same_sq, h.same_de, h.same_tc, h.same_tf, h.same_lu, h.same_fs, h.same_inProgress⟩

theorem Scanned.apart {s t : State} (h : Scanned s t) : Apart s t := by
  rw [h.rest]
  exact ⟨rfl, rfl, rfl, rfl, rfl, rfl, rfl⟩

theorem count_apart (x : SubEvent) (s : State) : Apart s (count x s) := (count_counted x s).apart

theorem setEventSlot_apart (k : EventKind) (e : EventSlot) (s : State) : Apart s (setEventSlot k e s) :=
  ⟨rfl, rfl, rfl, rfl, rfl, rfl, rfl⟩

theorem raiseEvent_apart (k : EventKind) (d : BitVec 24) (s : State) : Apart s (raiseEvent k d s) :=
  .ite ((setEventSlot_apart k _ s).trans (count_apart _ _)) (.refl s)

/-- The link alone changes. -/
theorem lc_apart (lc : LinkCtl) (s : State) : Apart s { s with lc := lc } := ⟨rfl, rfl, rfl, rfl, rfl, rfl, rfl⟩

theorem takeFree_apart (s : State) : Apart s (takeFree s) := ⟨rfl, rfl, rfl, rfl, rfl, rfl, rfl⟩

theorem postReply_apart (tag kind : Byte) (x : Status) (d : List Byte) (s : State) : Apart s (postReply tag kind x d s) :=
  lc_apart _ s

theorem answer_apart (tag kind : Byte) (x : Status) (s : State) : Apart s (answer tag kind x s) := lc_apart _ s

/-! ### The link -/

theorem cutAssembly_apart (s : State) : Apart s (cutAssembly s) := .ite ((lc_apart _ s).trans (count_apart _ _)) (.refl s)

theorem cutMark_apart (item : TxItem) (s : State) : Apart s (cutMark item s) := by
  cases item with
  | greet => exact lc_apart _ s
  | event k => exact setEventSlot_apart _ _ s
  | keys => exact .refl s
  | fault side => exact .refl s
  | rewind i => exact .refl s
  | reply => exact .refl s

theorem cutTx_apart (s : State) : Apart s (cutTx s) := by
  unfold cutTx
  split
  · exact (((lc_apart _ s).trans (takeFree_apart _)).trans (cutMark_apart _ _)).trans (count_apart _ _)
  · exact .refl s

theorem enterHold_apart (cause : DepartCause) (s : State) : Apart s (enterHold cause s) :=
  .ite ((lc_apart _ s).trans (count_apart _ _)) (.refl s)

theorem leaveUp_apart (cause : DepartCause) (s : State) : Apart s (leaveUp cause s) :=
  (((cutAssembly_apart s).trans (lc_apart _ _)).trans (cutTx_apart _)).trans (enterHold_apart cause _)

theorem expireLoss_apart (s : State) : Apart s (expireLoss s) :=
  ((lc_apart _ s).trans (.ite (leaveUp_apart _ _) (cutAssembly_apart _))).trans (count_apart _ _)

theorem failFrame_apart (s : State) : Apart s (failFrame s) := by
  unfold failFrame
  split
  · exact (lc_apart _ s).trans (count_apart _ _)
  · exact .ite ((((lc_apart _ s).trans (count_apart _ _)).trans (count_apart _ _)).trans (leaveUp_apart _ _))
      ((lc_apart _ s).trans (count_apart _ _))
  · exact .refl s
  · exact .refl s

theorem passFrame_framing_apart {s : State} (framing : s.lc.link = .framing) : Apart s (passFrame id s) := by
  rw [passFrame_framing _ framing]
  exact .ite ((lc_apart _ s).trans (count_apart _ _)) (lc_apart _ s)

theorem flagGreet_apart (outcome : GreetOutcome) (s : State) : Apart s (flagGreet outcome s) :=
  .ite (.ite (.refl s) (lc_apart _ s)) (lc_apart _ s)

theorem freshAttach_apart (number : Word) (s : State) : Apart s (freshAttach number s) :=
  Apart.trans (.ite (lc_apart _ s) (lc_apart _ s)) (flagGreet_apart _ _)

/-! ### The panel -/

/-- The panel and the free values alone change. -/
theorem pu_apart (pu : PanelUpdater) (free : Nat) (s : State) : Apart s { s with pu := pu, free := free } :=
  ⟨rfl, rfl, rfl, rfl, rfl, rfl, rfl⟩

theorem sendBlock_apart (i : Nat) (s : State) : Apart s (sendBlock i s) := by
  exact (pu_apart _ _ s).trans (count_apart .blockSent _)

theorem selectBlock_apart (s : State) : Apart s (selectBlock s) := by
  rcases selectBlock_cases s with same | ⟨i, _, _, sends⟩
  · rw [same]; exact .refl s
  · rw [sends]; exact sendBlock_apart i s

theorem markBlocks_apart (named : Nat → Bool) (s : State) : Apart s (markBlocks named s) :=
  (pu_apart _ s.free s).trans (selectBlock_apart _)

theorem readToEnd_apart (img : Image) (s : State) : Apart s (readToEnd img s) := by
  rw [readToEnd_rest]
  exact pu_apart _ _ s

theorem endReading_apart (s : State) : Apart s (endReading s) := by
  rw [endReading_rest]
  exact pu_apart _ _ s

theorem completeBlock_apart (s : State) : Apart s (completeBlock s) :=
  (((endReading_apart s).trans (pu_apart _ (endReading s).free _)).trans (count_apart _ _)).trans (selectBlock_apart _)

theorem timeOutBlock_apart (f : InFlight) (s : State) : Apart s (timeOutBlock f s) := by
  have ended (dirty : List Bool) (streak : Nat) : Apart s (count .blockTimeout { endReading s with
      pu.dirty := dirty, pu.inFlight := none, pu.streak := streak }) :=
    ((endReading_apart s).trans (pu_apart _ (endReading s).free _)).trans (count_apart _ _)
  refine (ended _ _).trans (.ite (selectBlock_apart _) ?_)
  exact ((pu_apart _ _ _).trans (count_apart .panelHalt _)).trans (raiseEvent_apart _ _ _)

theorem applyLevel_apart (n : Nat) (s : State) : Apart s (applyLevel n s) :=
  .ite (.refl s) (((pu_apart _ s.free s).trans (count_apart _ _)).trans (raiseEvent_apart _ _ _))

theorem doPanelWrite_apart (tag w h l : Byte) (s : State) : Apart s (doPanelWrite tag w h l s) :=
  .ite ((applyLevel_apart _ s).trans (answer_apart _ _ _ _)) (answer_apart _ _ _ _)

theorem doPanelRestart_apart (tag : Byte) (s : State) : Apart s (doPanelRestart tag s) :=
  (((pu_apart _ s.free s).trans (count_apart .restarted _)).trans (markBlocks_apart _ _)).trans (answer_apart _ _ _ _)

/-! ### The Monitor -/

theorem mn_apart (mn : Monitor) (s : State) : Apart s { s with mn := mn } := ⟨rfl, rfl, rfl, rfl, rfl, rfl, rfl⟩

theorem trackRaise_apart (side : Side) (key : Word) (s : State) : Apart s (trackRaise side key s) :=
  .ite (.refl s) (mn_apart _ s)

theorem trackComplete_apart (side : Side) (s : State) : Apart s (trackComplete side s) := by
  rw [trackComplete_eq]
  exact mn_apart _ s

theorem trackLost_apart (side : Side) (s : State) : Apart s (trackLost side s) := by
  rw [trackLost_eq]
  exact mn_apart _ s

theorem trackTeardown_apart (s : State) : Apart s (trackTeardown s) := (trackLost_apart _ s).trans (trackLost_apart _ _)

theorem doMonitorSet_apart (tag entry mode group : Byte) (units : Word) (condition : Byte) (s : State) :
    Apart s (doMonitorSet tag entry mode group units condition s) := by
  unfold doMonitorSet
  split
  · split
    · exact (mn_apart _ s).trans (answer_apart _ _ _ _)
    · exact answer_apart _ _ _ _
  · exact .ite ((mn_apart _ s).trans (answer_apart _ _ _ _)) (answer_apart _ _ _ _)

/-! ### Requests -/

theorem doTableRead_apart (tag t : Byte) (f : Half) (c : Byte) (s : State) : Apart s (doTableRead tag t f c s) := by
  unfold doTableRead
  split
  · exact answer_apart _ _ _ _
  · exact .ite (answer_apart _ _ _ _) (.ite (answer_apart _ _ _ _) (postReply_apart _ _ _ _ _))

theorem ks_apart (ks : KeyScanner) (settings : Settings) (s : State) : Apart s { s with ks := ks, settings := settings } :=
  ⟨rfl, rfl, rfl, rfl, rfl, rfl, rfl⟩

theorem doKeymapWrite_apart (tag : Byte) (entry : Half) (cls value : Byte) (s : State) :
    Apart s (doKeymapWrite tag entry cls value s) := by
  unfold doKeymapWrite
  split
  · split
    · exact (ks_apart _ s.settings s).trans (answer_apart _ _ _ _)
    · exact answer_apart _ _ _ _
  · exact answer_apart _ _ _ _

theorem doSettingsWrite_apart (tag : Byte) (r : Settings) (s : State) : Apart s (doSettingsWrite tag r s) :=
  ((ks_apart s.ks r s).trans (ks_apart _ r _)).trans (answer_apart _ _ _ _)

theorem flash_apart (flash : List Host.Cell) (s : State) : Apart s { s with flash := flash } :=
  ⟨rfl, rfl, rfl, rfl, rfl, rfl, rfl⟩

theorem doStoreRead_apart (tag : Byte) (o : Half) (c : Byte) (s : State) : Apart s (doStoreRead tag o c s) :=
  .ite (answer_apart _ _ _ _) (postReply_apart _ _ _ _ _)

/-! ### The end of an event -/

theorem conclude_apart (before s : State) : Apart s (conclude before s) :=
  ⟨conclude_sq _ _, conclude_de _ _, conclude_tc _ _, conclude_tf _ _, conclude_lu _ _, conclude_fs _ _, conclude_inProgress _ _⟩

/-! ### What is left: the session -/

/-- The operations of an event that reach the blocks that draw, with the circumstances in which they are made; the others stand
apart. -/
inductive Session : State → State → Prop
  | apart {s t : State} (h : Apart s t) : Session s t
  | andThen {s t u : State} (first : Session s t) (next : Session t u) : Session s u
  | tearsDown (s : State) : Session s (teardown s)
  | rewinds (reason : RewindReason) (s : State) : Session s (flagOpenRewinds reason s)
  | represents (side : Side) (s : State) : Session s (representFault side s)
  | completes (item : TxItem) (s : State) : Session s (completeItem item s)
  | draw (stream : Byte) (seq : Half) (commands : List Byte) {s : State} (up : s.lc.link = .up)
      (attached : s.lc.attachment = .attached) : Session s (doDraw stream seq commands s)
  | tile (key : Word) (sector : Byte) (data : List Byte) {s : State} (up : s.lc.link = .up)
      (attached : s.lc.attachment = .attached) : Session s (doTile key sector data s)
  | executionEnds {side : Side} {r : ExecRecord} {s : State} (busy : engineOf side s = some r)
      (writing : s.fs.holder = some (.engine side)) : Session s (settle (finishExecution side r s))
  | faultExpires {side : Side} {s : State} (expired : faultExpires side s = true) : Session s (expireFault side s)
  | headerWrite (tag : Byte) (border undocked : Half) {s : State} (taken : takesRequest s) :
      Session s (doHeaderWrite tag border undocked s)
  | regionWrite (tag : Byte) (i : Fin 8) (enabled : Bool) (ox oy rw rh background : Half) {s : State}
      (taken : takesRequest s) : Session s (doRegionWrite tag i enabled ox oy rw rh background s)
  | streamWrite (tag : Byte) (i : Fin 8) (stale : Bool) {s : State} (taken : takesRequest s) :
      Session s (doStreamWrite tag i stale s)
  | streamOpen (tag stream : Byte) (start : Half) {s : State} (taken : takesRequest s) :
      Session s (doStreamOpen tag stream start s)
  | streamClose (tag stream : Byte) {s : State} (taken : takesRequest s) : Session s (doStreamClose tag stream s)
  | quiesce (tag : Byte) {s : State} (taken : takesRequest s) : Session s (doQuiesce tag s)
  | resume (tag : Byte) {s : State} (taken : takesRequest s) : Session s (doResume tag s)
  | tileFlush (tag : Byte) {s : State} (taken : takesRequest s) : Session s (doTileFlush tag s)
  | tilePin (tag : Byte) (key : Word) {s : State} (taken : takesRequest s) : Session s (doTilePin tag key s)
  | tileUnpin (tag : Byte) (key : Word) {s : State} (taken : takesRequest s) : Session s (doTileUnpin tag key s)
  | dockReset (tag : Byte) {s : State} (taken : takesRequest s) : Session s (doDockReset tag s)
  | storeErase (tag page : Byte) {s : State} (taken : takesRequest s) : Session s (doStoreErase tag page s)
  | storeWrite (tag : Byte) (offset : Half) (data : List Byte) {s : State} (taken : takesRequest s) :
      Session s (doStoreWrite tag offset data s)
  | applyEnds {mask : BitVec 8} {s : State} (applying : s.lu.apply = some mask) (writing : s.fs.holder = some .layoutApply) :
      Session s (finishResume (finishApply mask s))
  | fillEnds {c : Half} {s : State} (filling : s.lu.fillColour = some c) (writing : s.fs.holder = some .teardownFill) :
      Session s (finishTeardownFill c s)
  | sweeps {s : State} (sweeping : s.tc.sweep < 64) : Session s (sweepSet ⟨s.tc.sweep, sweeping⟩ s)
  | storeEnds (status : Status) {r : Request} {s : State} (current : s.me.inProgress = some r)
      (store : (∃ page, r.op = .erase page) ∨ ∃ offset data, r.op = .program offset data) : Session s (endLong status s)

theorem reattach_session (s : State) : Session s (reattach s) := by
  have attached : Apart s (flagGreet .resumed { s with
      lc.attachment := .attached, lc.holdTimer := none, lc.lastCause := s.lc.holdCause, lc.lastDuration := holdMs s }) :=
    (lc_apart _ s).trans (flagGreet_apart _ _)
  refine .andThen (.apart attached) (.andThen (.rewinds .reattach _) (.andThen (.represents .a _)
    (.andThen (.represents .b _) (.apart ?_))))
  exact ((reattachSnapshot_scanned _).apart.trans (raiseEvent_apart _ _ _)).trans (count_apart _ _)

theorem takeHello_session (number : Word) (s : State) : Session s (takeHello number s) := by
  have again := Session.andThen (.tearsDown s) (.apart (freshAttach_apart number _))
  unfold takeHello
  split
  · exact .apart (freshAttach_apart number s)
  · split
    · exact .apart (flagGreet_apart _ s)
    · exact again
  · split
    · exact reattach_session s
    · exact again

/-- What happens in an event, seen from the blocks that draw. -/
theorem Happens.session {s u : State} (h : Happens s u) : Session s u := by
  induction h with
  | nothing s => exact .apart (.refl s)
  | andThen _ _ first next => exact .andThen first next
  | counted x s => exact .apart (count_apart x s)
  | lossRestarts g s => exact .apart (.ite (lc_apart _ s) (.refl s))
  | groupDown g down => exact .apart (.ite (lc_apart _ _) (.refl _))
  | groupAligning g aligning => exact .apart (.ite (.ite (lc_apart _ _) (lc_apart _ _)) (lc_apart _ _))
  | assembly a assembling => exact .apart (lc_apart _ _)
  | fails assembling => exact .apart (failFrame_apart _)
  | framing framing => exact .apart (passFrame_framing_apart framing)
  | passes up => exact .apart (lc_apart _ _)
  | lossExpires expired => exact .apart (expireLoss_apart _)
  | hello number up => exact takeHello_session number _
  | holdExpires expired => exact .tearsDown _
  | transmitted sending => exact .andThen (.apart (lc_apart _ _)) (.completes _ _)
  | draw stream seq commands up attached => exact .draw stream seq commands up attached
  | tile key sector data up attached => exact .tile key sector data up attached
  | executionEnds busy writing => exact .executionEnds busy writing
  | faultExpires expired => exact .faultExpires expired
  | busy tag kind _ _ => exact .apart (answer_apart _ _ _ _)
  | answered tag kind status _ => exact .apart (answer_apart _ _ _ _)
  | tableRead tag table first number _ => exact .apart (doTableRead_apart _ _ _ _ _)
  | headerWrite tag border undocked taken => exact .headerWrite tag border undocked taken
  | regionWrite tag i enabled ox oy rw rh background taken => exact .regionWrite tag i enabled ox oy rw rh background taken
  | streamWrite tag i stale taken => exact .streamWrite tag i stale taken
  | keymapWrite tag entry cls value _ => exact .apart (doKeymapWrite_apart _ _ _ _ _)
  | settingsWrite tag a b c d e f g h _ => exact .apart (doSettingsWrite_apart _ _ _)
  | panelWrite tag width height level _ => exact .apart (doPanelWrite_apart _ _ _ _ _)
  | streamOpen tag stream start taken => exact .streamOpen tag stream start taken
  | streamClose tag stream taken => exact .streamClose tag stream taken
  | quiesce tag taken => exact .quiesce tag taken
  | resume tag taken => exact .resume tag taken
  | tileFlush tag taken => exact .tileFlush tag taken
  | tilePin tag key taken => exact .tilePin tag key taken
  | tileUnpin tag key taken => exact .tileUnpin tag key taken
  | panelRestart tag _ => exact .apart (doPanelRestart_apart _ _)
  | dockReset tag taken => exact .dockReset tag taken
  | storeErase tag page taken => exact .storeErase tag page taken
  | storeWrite tag offset data taken => exact .storeWrite tag offset data taken
  | storeRead tag offset number _ => exact .apart (doStoreRead_apart _ _ _ _)
  | monitorSet tag entry mode group unitMask condition _ => exact .apart (doMonitorSet_apart _ _ _ _ _ _ _)
  | applyEnds applying writing => exact .applyEnds applying writing
  | fillEnds filling writing => exact .fillEnds filling writing
  | sweeps sweeping => exact .sweeps sweeping
  | @erases r page s current op =>
    have ended : Apart s (count .eraseDone { s with flash := erasePage page s.flash }) :=
      (flash_apart _ s).trans (count_apart _ _)
    exact .andThen (.apart ended) (.storeEnds _ (ended.inProgress.trans current) (.inl ⟨_, op⟩))
  | @programs r offset data s current op =>
    have ended : Apart s (count .programDone { s with flash := programBytes offset data s.flash }) :=
      (flash_apart _ s).trans (count_apart _ _)
    unfold finishProgram
    dsimp only
    split
    · exact .andThen (.apart ended) (.storeEnds _ (ended.inProgress.trans current) (.inr ⟨_, _, op⟩))
    · have mismatch := ended.trans (count_apart .programMismatch _)
      exact .andThen (.apart mismatch) (.storeEnds _ (mismatch.inProgress.trans current) (.inr ⟨_, _, op⟩))
  | acknowledged sent => exact .apart (completeBlock_apart _)
  | timesOut sent ended => exact .apart (timeOutBlock_apart _ _)
  | scans contacts due => exact .apart (scanKeys_scanned contacts _).apart
  | millisecond due => exact .apart ((countMillisecond_counted _).apart.trans ⟨rfl, rfl, rfl, rfl, rfl, rfl, rfl⟩)
  | period due => exact .apart (pu_apart _ _ _)

end Sys2Proof.Machine
end

section
/-! PROOFS. The tile directory stays legal (R71, R72, R83): each way in which the Tile Cache and the Tile Fault Unit change a set keeps its
ages, keys and pins; and every other operation leaves the directory alone. -/

namespace Sys2Proof.Machine

/-! ### The sequencer's choices, once for every law -/

/-- R47: what every handover keeps, the choices of the sequencer keep. -/
theorem handFuel_keeps {Legal : State → Prop}
    (hands : ∀ side e s, eligible side s = some e → Legal s → Legal (handOver side e s))
    (free : ∀ s, Legal s → Legal (takeFree s)) (fuel : Nat) {s : State} (h : Legal s) : Legal (handFuel fuel s) := by
  induction fuel generalizing s with
  | zero => exact h
  | succ fuel ih =>
    simp only [handFuel]
    split
    next => exact h
    next e first _ => exact ih (hands _ e _ first h)
    next e _ second => exact ih (hands _ e _ second h)
    next e f first second =>
      split
      · exact ih (hands _ f _ second (free _ h))
      · exact ih (hands _ e _ first (free _ h))

theorem handAll_keeps {Legal : State → Prop}
    (hands : ∀ side e s, eligible side s = some e → Legal s → Legal (handOver side e s))
    (free : ∀ s, Legal s → Legal (takeFree s)) (turns : ∀ s, Legal s → Legal (exchangeTurns s)) {s : State} (h : Legal s) :
    Legal (handAll s) := by
  have each : Legal (handEach s) := handFuel_keeps hands free _ h
  rcases handAll_cases s with same | same | same <;> rw [same]
  · exact each
  · exact free _ each
  · exact turns _ (free _ each)

/-! ### One set -/

/-- The laws of one set of the directory. -/
def setLegal (n : Fin 64) (ways : TileSet) : Prop := agesLegal ways ∧ waysLegal n ways ∧ pinsLegal ways

theorem findWay_some {key : Word} {ways : TileSet} {w : Fin 4} (found : findWay key ways = some w) :
    ways[w].valid = true ∧ ways[w].key = key := by
  simpa using List.find?_some found

theorem findWay_eq_none {key : Word} {ways : TileSet} :
    findWay key ways = none ↔ ∀ w : Fin 4, ways[w].valid = true → ways[w].key ≠ key := by
  simp [findWay, List.find?_eq_none]

theorem findWay_congr {key : Word} {ways others : TileSet}
    (same : ∀ w : Fin 4, others[w].valid = ways[w].valid ∧ others[w].key = ways[w].key) :
    findWay key others = findWay key ways := by
  simp only [findWay, same]

theorem set_way {ways : TileSet} {w : Fin 4} (e : DirEntry) (v : Fin 4) :
    (ways.set w e)[v] = if v = w then e else ways[v] := by
  simp only [Fin.getElem_fin, Vector.getElem_set, Fin.ext_iff, eq_comm]

theorem pinnedWays_set {ways : TileSet} {w : Fin 4} {e : DirEntry} (unpinned : e.pinned = true → ways[w].pinned = true) :
    pinnedWays (ways.set w e) ≤ pinnedWays ways := by
  refine List.countP_mono_left fun v _ pinned => ?_
  rw [set_way] at pinned
  split at pinned
  next here => exact here ▸ unpinned pinned
  next => exact pinned

theorem countP_or_le {α : Type} (p q : α → Bool) (l : List α) :
    l.countP (fun a => p a || q a) ≤ l.countP p + l.countP q := by
  induction l with
  | nil => simp
  | cons a rest ih =>
    simp only [List.countP_cons]
    cases p a <;> cases q a <;> simp <;> omega

theorem pinnedWays_set_le (ways : TileSet) (w : Fin 4) (e : DirEntry) : pinnedWays (ways.set w e) ≤ pinnedWays ways + 1 := by
  have others : pinnedWays (ways.set w e) ≤ (List.finRange 4).countP (fun v => v == w || ways[v].pinned) := by
    refine List.countP_mono_left fun v _ pinned => ?_
    rw [set_way] at pinned
    split at pinned
    next here => simp [here]
    next => exact Bool.or_eq_true_iff.2 (.inr pinned)
  have one : (List.finRange 4).countP (fun v => v == w) = 1 :=
    List.count_eq_one_of_mem (List.nodup_finRange 4) (List.mem_finRange w)
  have sum := countP_or_le (fun v => v == w) (fun v => ways[v].pinned) (List.finRange 4)
  rw [one] at sum
  exact others.trans (sum.trans (Nat.le_of_eq (Nat.add_comm 1 _)))

/-- An entry of a set may be replaced by one of the same age that holds the same key or nothing; and pinned anew only as R84
allows. -/
theorem setLegal_set {n : Fin 64} {ways : TileSet} {w : Fin 4} {e : DirEntry} (h : setLegal n ways)
    (age : e.age = ways[w].age) (empty : e.valid = false → e = DirEntry.invalid e.age)
    (key : e.valid = true → ways[w].valid = true ∧ e.key = ways[w].key)
    (pinned : e.pinned = true → (e.valid = true ∧ e.sectors = 15 ∧ e.pending = false) ∧
      (ways[w].pinned = true ∨ pinnedWays ways < 3)) : setLegal n (ways.set w e) := by
  obtain ⟨ages, ⟨nothing, keys, once⟩, limit, whole⟩ := h
  have held (v : Fin 4) : (ways.set w e)[v].valid = true →
      ways[v].valid = true ∧ (ways.set w e)[v].key = ways[v].key := by
    rw [set_way]
    split
    next here => rw [here]; exact key
    next => exact fun valid => ⟨valid, rfl⟩
  refine ⟨fun a => ?_, ⟨fun v => ?_, fun v valid => ?_, fun v u valid valid' same => ?_⟩, ?_, fun v => ?_⟩
  · obtain ⟨v, has⟩ := ages a
    refine ⟨v, ?_⟩
    rw [set_way]
    split
    next here => rw [age, ← here, has]
    next => exact has
  · rw [set_way]
    split
    · exact empty
    · exact nothing v
  · rw [(held v valid).2]
    exact keys v (held v valid).1
  · rw [(held v valid).2, (held u valid').2] at same
    exact once v u (held v valid).1 (held u valid').1 same
  · by_cases new : e.pinned = true
    · rcases (pinned new).2 with before | room
      · exact (pinnedWays_set fun _ => before).trans limit
      · exact (pinnedWays_set_le ways w e).trans room
    · exact (pinnedWays_set fun p => absurd p new).trans limit
  · rw [set_way]
    split
    · exact fun p => (pinned p).1
    · exact whole v

theorem makeRecent_way (w v : Fin 4) (ways : TileSet) :
    (makeRecent w ways)[v] = { ways[v] with
      age := if v = w then 0 else if ways[v].age < ways[w].age then ways[v].age + 1 else ways[v].age } := by
  simp only [makeRecent, Fin.getElem_fin, Vector.getElem_ofFn]
  split
  · rfl
  · split <;> rfl

/-- R72: making a way recent keeps one way for each age. -/
theorem makeRecent_ages (w : Fin 4) {ways : TileSet} (ages : agesLegal ways) : agesLegal (makeRecent w ways) := by
  intro a
  simp only [makeRecent_way]
  rcases Nat.eq_zero_or_pos a.val with zero | positive
  · exact ⟨w, by simp [zero]⟩
  · by_cases older : a.val ≤ ways[w].age
    · obtain ⟨v, has⟩ := ages ⟨a.val - 1, by omega⟩
      have has : ways[v].age = a.val - 1 := has
      have other : v ≠ w := fun same => by rw [same] at has; omega
      refine ⟨v, ?_⟩
      rw [if_neg other, if_pos (by omega)]
      omega
    · obtain ⟨v, has⟩ := ages a
      have other : v ≠ w := fun same => by rw [same] at has; omega
      refine ⟨v, ?_⟩
      rw [if_neg other, if_neg (by omega)]
      exact has

theorem makeRecent_pinnedWays (w : Fin 4) (ways : TileSet) : pinnedWays (makeRecent w ways) = pinnedWays ways := by
  simp only [pinnedWays, makeRecent_way]

theorem makeRecent_legal {n : Fin 64} (w : Fin 4) {ways : TileSet} (h : setLegal n ways) : setLegal n (makeRecent w ways) := by
  obtain ⟨ages, ⟨nothing, keys, once⟩, limit, whole⟩ := h
  refine ⟨makeRecent_ages w ages, ⟨fun v => ?_, fun v => ?_, fun v u => ?_⟩, ?_, fun v => ?_⟩
  · rw [makeRecent_way]
    intro invalid
    have := nothing v invalid
    rw [this]
    rfl
  · rw [makeRecent_way]
    exact keys v
  · rw [makeRecent_way, makeRecent_way]
    exact once v u
  · rw [makeRecent_pinnedWays]
    exact limit
  · rw [makeRecent_way]
    exact whole v

/-- R76: a way taken for a key that the set does not hold. -/
theorem takeWay_legal {key : Word} {w : Fin 4} {ways : TileSet} (nonzero : key ≠ 0) (absent : findWay key ways = none)
    (h : setLegal (setIndex key) ways) : setLegal (setIndex key) (takeWay key w ways) := by
  obtain ⟨ages, ⟨nothing, keys, once⟩, limit, whole⟩ := makeRecent_legal w h
  have elsewhere (v : Fin 4) (valid : (makeRecent w ways)[v].valid = true) : (makeRecent w ways)[v].key ≠ key := by
    rw [makeRecent_way] at valid ⊢
    exact findWay_eq_none.1 absent v valid
  unfold takeWay
  refine ⟨fun a => ?_, ⟨fun v => ?_, fun v => ?_, fun v u => ?_⟩, ?_, fun v => ?_⟩
  · obtain ⟨v, has⟩ := ages a
    refine ⟨v, ?_⟩
    rw [set_way]
    split
    next here =>
      rw [here, makeRecent_way, if_pos rfl] at has
      exact has
    next => exact has
  · rw [set_way]
    split
    · exact nofun
    · exact nothing v
  · rw [set_way]
    split
    · exact fun _ => ⟨nonzero, rfl⟩
    · exact keys v
  · rw [set_way, set_way]
    split
    next here =>
      split
      next there => exact fun _ _ _ => here.trans there.symm
      next => exact fun _ valid same => absurd same.symm (elsewhere u valid)
    next =>
      split
      next => exact fun valid _ same => absurd same (elsewhere v valid)
      next => exact once v u
  · exact (pinnedWays_set fun pin => by cases pin).trans limit
  · rw [set_way]
    split
    · exact nofun
    · exact whole v

/-! ### The directory -/

/-- The laws of every set. -/
def dirLegal (s : State) : Prop := ∀ n : Fin 64, setLegal n s.tc.dir[n]

theorem dirLegal_of_same {s t : State} (same : t.tc.dir = s.tc.dir) (h : dirLegal s) : dirLegal t := by
  unfold dirLegal
  rw [same]
  exact h

theorem dirLegal_set {s : State} {n : Fin 64} {ways : TileSet} (new : setLegal n ways) (h : dirLegal s) (m : Fin 64) :
    setLegal m (s.tc.dir.set n ways)[m] := by
  simp only [Fin.getElem_fin, Vector.getElem_set]
  split
  next same =>
    obtain rfl : n = m := Fin.ext same
    exact new
  next => exact h m

theorem setTileSet_dir {key : Word} {ways : TileSet} {s : State} (new : setLegal (setIndex key) ways) (h : dirLegal s) :
    dirLegal (setTileSet key ways s) := dirLegal_set new h

/-- An entry that the lookup finds may change as R84, R92 and R99 have it. -/
theorem mapEntry_dir {key : Word} {f : DirEntry → DirEntry} {s : State}
    (changes : ∀ w, findWay key (tileSet key s) = some w → (tileSet key s)[w].valid = true →
      setLegal (setIndex key) (tileSet key s) → setLegal (setIndex key) ((tileSet key s).set w (f (tileSet key s)[w])))
    (h : dirLegal s) : dirLegal (mapEntry key f s) := by
  unfold mapEntry
  split
  next w found => exact setTileSet_dir (changes w found (findWay_some found).1 (h _)) h
  next => exact h

theorem allocateWay_dir {key : Word} {w : Fin 4} {s : State} (nonzero : key ≠ 0)
    (absent : findWay key (tileSet key s) = none) (h : dirLegal s) : dirLegal (allocateWay key w s) := by
  have taken := setTileSet_dir (takeWay_legal (w := w) nonzero absent (h (setIndex key))) h
  simp only [allocateWay]
  split
  · exact dirLegal_of_same (by rw [count_tc]) taken
  · exact taken

/-- An entry keeps its set legal when its sectors, its pending flag and its reserve count change and it is not pinned, or only
the pin is whole. -/
theorem setLegal_entry {n : Fin 64} {ways : TileSet} {w : Fin 4} {e : DirEntry} (h : setLegal n ways)
    (valid : ways[w].valid = true) (same : e.valid = true ∧ e.key = ways[w].key ∧ e.age = ways[w].age ∧ e.pinned = ways[w].pinned)
    (whole : ways[w].pinned = true → e.sectors = 15 ∧ e.pending = false) : setLegal n (ways.set w e) := by
  obtain ⟨valid', key, age, pinned⟩ := same
  refine setLegal_set h age (fun invalid => ?_) (fun _ => ⟨valid, key⟩) fun pin => ?_
  · rw [valid'] at invalid
    cases invalid
  · rw [pinned] at pin
    exact ⟨⟨valid', whole pin⟩, .inl pin⟩

/-- A pinned entry is whole, and not pending. -/
theorem setLegal.whole {n : Fin 64} {ways : TileSet} (h : setLegal n ways) {w : Fin 4} (pin : ways[w].pinned = true) :
    ways[w].sectors = 15 ∧ ways[w].pending = false := (h.2.2.2 w pin).2

theorem releaseEntry_dir (key : Word) {s : State} (h : dirLegal s) : dirLegal (releaseEntry key s) := by
  unfold releaseEntry
  split
  next w found =>
    have given := setTileSet_dir (setLegal_entry
      (e := { (tileSet key s)[w] with reserve := (tileSet key s)[w].reserve - 1 }) (h (setIndex key)) (findWay_some found).1
      ⟨(findWay_some found).1, rfl, rfl, rfl⟩ (h (setIndex key)).whole) h
    dsimp only
    split
    · exact given
    · exact given
  next => exact h

theorem releaseReservation_dir (i : Fin 8) {s : State} (h : dirLegal s) : dirLegal (releaseReservation i s) := by
  unfold releaseReservation
  split
  · exact releaseEntry_dir _ h
  · exact h

theorem writeSector_dir {key : Word} {w : Fin 4} (sector : Nat) (data : List Byte) {s : State}
    (valid : (tileSet key s)[w].valid = true) (h : dirLegal s) : dirLegal (writeSector key w sector data s) := by
  refine setTileSet_dir (setLegal_entry (h (setIndex key)) valid ⟨valid, rfl, rfl, rfl⟩ fun pin => ?_)
    (s := { s with tc.store := cellWrite 0 s.tc.store (sectorAddress key w sector) data }) h
  obtain ⟨sectors, pending⟩ := (h (setIndex key)).whole pin
  refine ⟨?_, pending⟩
  change (s.tc.dir[setIndex key][w]).sectors ||| _ = 15
  rw [sectors]
  exact BitVec.allOnes_or (w := 4)

theorem clearPending_legal {n : Fin 64} {ways : TileSet} {w : Fin 4} (h : setLegal n ways) (valid : ways[w].valid = true) :
    setLegal n (ways.set w (clearPending ways[w])) := by
  unfold clearPending
  split
  · exact setLegal_set h rfl (fun _ => rfl) nofun nofun
  · exact setLegal_entry h valid ⟨valid, rfl, rfl, rfl⟩ fun pin => ⟨(h.whole pin).1, rfl⟩

theorem Apart.dir {s t : State} (h : Apart s t) : dirLegal s → dirLegal t := dirLegal_of_same (by rw [h.tc])

theorem setStream_dir (i : Fin 8) (r : Stream) {s : State} (h : dirLegal s) : dirLegal (setStream i r s) := h

theorem mapStreams_dir (f : Fin 8 → Stream → Stream) {s : State} (h : dirLegal s) : dirLegal (mapStreams f s) := h

theorem setRecord_dir (side : Side) (r : FaultRecord) {s : State} (h : dirLegal s) : dirLegal (setRecord side r s) :=
  dirLegal_of_same (by rw [setRecord_tc]) h

theorem setQueue_dir (side : Side) (q : List Entry) {s : State} (h : dirLegal s) : dirLegal (setQueue side q s) :=
  dirLegal_of_same (by rw [setQueue_tc]) h

theorem setEngine_dir (side : Side) (r : Option ExecRecord) {s : State} (h : dirLegal s) : dirLegal (setEngine side r s) :=
  dirLegal_of_same (by rw [setEngine_tc]) h

/-! ### Faults -/

theorem goIdle_dir (side : Side) {s : State} (h : dirLegal s) : dirLegal (goIdle side s) :=
  dirLegal_of_same (by simp [goIdle, wakeWay]) h

theorem completeFault_dir (side : Side) {s : State} (h : dirLegal s) : dirLegal (completeFault side s) := by
  refine (trackComplete_apart side _).dir ((count_apart _ _).dir (goIdle_dir side ?_))
  refine mapStreams_dir _ (mapEntry_dir (fun w _ valid legal => ?_) h)
  exact setLegal_entry legal valid ⟨valid, rfl, rfl, rfl⟩ fun pin => ⟨(legal.whole pin).1, rfl⟩

theorem skipHead_dir (s : State) (i : Fin 8) (h : dirLegal s) : dirLegal (skipHead s i) := by
  unfold skipHead
  split
  · exact dirLegal_of_same (by simp) h
  · exact h

theorem foldl_dir {α : Type} {f : State → α → State} (each : ∀ s a, dirLegal s → dirLegal (f s a)) (l : List α) {s : State}
    (h : dirLegal s) : dirLegal (l.foldl f s) := by
  induction l generalizing s with
  | nil => exact h
  | cons a rest ih => exact ih (each s a h)

theorem clearPending_dir (key : Word) {s : State} (h : dirLegal s) : dirLegal (mapEntry key clearPending s) :=
  mapEntry_dir (fun _ _ valid legal => clearPending_legal legal valid) h

theorem setStale_dir (m : BitVec 8) {s : State} (h : dirLegal s) : dirLegal (setStale m s) :=
  (raiseEvent_apart _ _ _).dir (dirLegal_of_same (by simp) h)

theorem abandonFault_dir (side : Side) {s : State} (h : dirLegal s) : dirLegal (abandonFault side s) := by
  refine (trackLost_apart side _).dir ((count_apart _ _).dir (goIdle_dir side (clearPending_dir _ (setStale_dir _ ?_))))
  exact foldl_dir skipHead_dir _ h

theorem cancelFault_dir (side : Side) {s : State} (h : dirLegal s) : dirLegal (cancelFault side s) :=
  (trackLost_apart side _).dir ((count_apart _ _).dir (goIdle_dir side (clearPending_dir _ h)))

theorem leaveFault_dir (side : Side) (i : Fin 8) {s : State} (h : dirLegal s) : dirLegal (leaveFault side i s) := by
  unfold leaveFault
  dsimp only
  split
  · have left (r : FaultRecord) : dirLegal (setRecord side r s) := dirLegal_of_same (by simp) h
    split
    · exact cancelFault_dir side (left _)
    · exact left _
  · exact h

theorem retryFault_dir (side : Side) {s : State} (h : dirLegal s) : dirLegal (retryFault side s) :=
  dirLegal_of_same (by simp [retryFault]) h

theorem representFault_dir (side : Side) {s : State} (h : dirLegal s) : dirLegal (representFault side s) := by
  unfold representFault
  dsimp only
  split
  · exact dirLegal_of_same (by simp) h
  · exact h

theorem joinFault_dir (side : Side) (i : Fin 8) (mask : BitVec 4) {s : State} (h : dirLegal s) :
    dirLegal (joinFault side i mask s) := by
  unfold joinFault
  dsimp only
  split <;> exact dirLegal_of_same (by simp [setWait]) h

/-- R96: a fault is raised on an entry that is not pinned. -/
theorem raiseFault_dir (side : Side) (i : Fin 8) {key : Word} (mask : BitVec 4) {s : State}
    (unpinned : ∀ w, findWay key (tileSet key s) = some w → (tileSet key s)[w].pinned = false) (h : dirLegal s) :
    dirLegal (raiseFault side i key mask s) := by
  have pending : dirLegal (mapEntry key (fun e => { e with pending := true }) s) :=
    mapEntry_dir (fun w found valid legal => setLegal_entry legal valid ⟨valid, rfl, rfl, rfl⟩ fun pin => by
      rw [unpinned w found] at pin
      cases pin) h
  exact setStream_dir i _ ((trackRaise_apart side key _).dir ((count_apart .raised _).dir (setRecord_dir side _ pending)))

/-- R76: in a set in which a way is taken, the key is found there, and not pinned. -/
theorem takeWay_found {key : Word} {w v : Fin 4} {ways : TileSet} (absent : findWay key ways = none)
    (found : findWay key (takeWay key w ways) = some v) : v = w := by
  obtain ⟨valid, holds⟩ := findWay_some found
  unfold takeWay at valid holds
  rw [set_way] at valid holds
  split at valid
  next here => exact here
  next other =>
    rw [if_neg other, makeRecent_way] at holds
    rw [makeRecent_way] at valid
    exact absurd holds (findWay_eq_none.1 absent v valid)

@[simp] theorem takeWay_taken (key : Word) (w : Fin 4) (ways : TileSet) :
    (takeWay key w ways)[w] = ⟨true, key, 0, 0, false, false, 0⟩ := by
  unfold takeWay
  rw [set_way, if_pos rfl]

@[simp] theorem tileSet_allocateWay (key : Word) (w : Fin 4) (s : State) :
    tileSet key (allocateWay key w s) = takeWay key w (tileSet key s) := by
  have taken : tileSet key (setTileSet key (takeWay key w (tileSet key s)) s) = takeWay key w (tileSet key s) :=
    tileSet_setTileSet_self _ _ _
  unfold allocateWay
  dsimp only
  split
  · exact (congrArg (fun tc => tc.dir[setIndex key]) (count_tc _ _)).trans taken
  · exact taken

/-- R94 to R96: a miss of a key that is present, and not pinned, or absent. -/
theorem takeMiss_dir (side : Side) (i : Fin 8) {key : Word} (mask : BitVec 4) (present : Bool) {s : State} (nonzero : key ≠ 0)
    (unpinned : present = true → ∀ w, findWay key (tileSet key s) = some w → (tileSet key s)[w].pinned = false)
    (absent : present = false → findWay key (tileSet key s) = none) (h : dirLegal s) :
    dirLegal (takeMiss side i key mask present s) := by
  have waits (x : SubEvent) (w : StreamState) : dirLegal (setWait i w (count x s)) :=
    setStream_dir i _ ((count_apart x s).dir h)
  unfold takeMiss
  split
  · exact joinFault_dir _ i mask h
  · split
    · exact waits _ _
    · split
      next here => exact raiseFault_dir side i mask (unpinned here) h
      next gone =>
        have absent := absent (by simpa using gone)
        split
        · refine raiseFault_dir side i mask (fun v found => ?_) (allocateWay_dir nonzero absent h)
          rw [tileSet_allocateWay] at found ⊢
          rw [takeWay_found absent found, takeWay_taken]
        · exact waits _ _

/-! ### Handovers -/

/-- A reservation given back changes the reserve count of an entry alone. -/
theorem releaseReservation_entry (i : Fin 8) (s : State) (n : Fin 64) (w : Fin 4) :
    ∃ k, (releaseReservation i s).tc.dir[n][w] = { s.tc.dir[n][w] with reserve := k } := by
  have entry (key : Word) (t : State) (same : t.tc = s.tc) :
      ∃ k, (releaseEntry key t).tc.dir[n][w] = { s.tc.dir[n][w] with reserve := k } := by
    unfold releaseEntry
    split
    next v found =>
      have set : ∃ k, ((s.tc.dir.set (setIndex key) ((tileSet key s).set v
          { (tileSet key s)[v] with reserve := (tileSet key s)[v].reserve - 1 }))[n])[w] =
            { s.tc.dir[n][w] with reserve := k } := by
        simp only [Fin.getElem_fin, Vector.getElem_set]
        split
        next here =>
          obtain rfl : setIndex key = n := Fin.ext here
          have := set_way (ways := tileSet key s) (w := v)
            { (tileSet key s)[v] with reserve := (tileSet key s)[v].reserve - 1 } w
          simp only [Fin.getElem_fin] at this
          rw [this]
          split
          next there => exact there ▸ ⟨_, rfl⟩
          next => exact ⟨_, rfl⟩
        next => exact ⟨_, rfl⟩
      dsimp only
      split
      · simpa [setTileSet, tileSet, wakeWay, same] using set
      · simpa [setTileSet, tileSet, same] using set
    next => exact ⟨_, by rw [same]⟩
  unfold releaseReservation
  split
  · exact entry _ _ rfl
  · exact ⟨_, rfl⟩

theorem releaseReservation_findWay (i : Fin 8) (key : Word) (s : State) :
    findWay key (tileSet key (releaseReservation i s)) = findWay key (tileSet key s) := by
  refine findWay_congr fun w => ?_
  obtain ⟨k, entry⟩ := releaseReservation_entry i s (setIndex key) w
  have valid := congrArg DirEntry.valid entry
  have holds := congrArg DirEntry.key entry
  exact ⟨valid, holds⟩

theorem afterLookup_dir (key : Word) (l : Lookup) {s : State} (h : dirLegal s) : dirLegal (afterLookup key l s) := by
  cases l with
  | hit w => exact (count_apart _ _).dir (setTileSet_dir (makeRecent_legal w (h (setIndex key))) h)
  | sectorMiss w => exact (count_apart _ _).dir h
  | absent => exact (count_apart _ _).dir h

theorem grantStore_dir {s : State} (h : dirLegal s) : dirLegal (grantStore s) := by
  unfold grantStore
  split
  · split
    · dsimp only
      split
      · exact (count_apart _ _).dir h
      · exact h
    · exact h
  · exact h

theorem beginExecution_dir (side : Side) (r : ExecRecord) {s : State} (h : dirLegal s) :
    dirLegal (beginExecution side r s) :=
  grantStore_dir (setEngine_dir side _ (setQueue_dir side _ h))

theorem removeEntry_dir (side : Side) (r : ExecRecord) {s : State} (h : dirLegal s) : dirLegal (removeEntry side r s) :=
  dirLegal_of_same (by simp [removeEntry]) h

/-- The outcomes of a lookup (R73). -/
theorem lookupOf_sectorMiss {key : Word} {mask : BitVec 4} {s : State} {w : Fin 4} (h : lookupOf key mask s = .sectorMiss w) :
    findWay key (tileSet key s) = some w ∧ mask &&& ~~~ (tileSet key s)[w].sectors ≠ 0 := by
  unfold lookupOf at h
  split at h
  next v found =>
    split at h
    · cases h
    next lacks =>
      cases h
      exact ⟨found, lacks⟩
  · cases h

theorem lookupOf_absent {key : Word} {mask : BitVec 4} {s : State} (h : lookupOf key mask s = .absent) :
    findWay key (tileSet key s) = none := by
  unfold lookupOf at h
  split at h
  · split at h <;> cases h
  next none => exact none

theorem lookupOf_hit {key : Word} {mask : BitVec 4} {s : State} {w : Fin 4} (h : lookupOf key mask s = .hit w) :
    findWay key (tileSet key s) = some w ∧ mask &&& ~~~ (tileSet key s)[w].sectors = 0 := by
  unfold lookupOf at h
  split at h
  next v found =>
    split at h
    next holds =>
      cases h
      exact ⟨found, holds⟩
    · cases h
  · cases h

/-- R113: the handover of a PLACE that hits. -/
theorem handPlace_hit {side : Side} {r : ExecRecord} {key : Word} {y : Int} {s : State} {w : Fin 4}
    (outcome : lookupOf key (sectorMask (needLo r y) (needHi r y)) s = .hit w) :
    handPlace side r key y s =
      beginExecution side { r with
          firstSector := needLo r y, tile := sectorPixels key w (needLo r y) (needHi r y) s }
        (releaseReservation r.stream (count .hit (setTileSet key (makeRecent w (tileSet key s)) s))) := by
  simp only [handPlace, outcome, afterLookup]

theorem handPlace_sectorMiss {side : Side} {r : ExecRecord} {key : Word} {y : Int} {s : State} {w : Fin 4}
    (outcome : lookupOf key (sectorMask (needLo r y) (needHi r y)) s = .sectorMiss w) :
    handPlace side r key y s =
      takeMiss side r.stream key (sectorMask (needLo r y) (needHi r y)) true
        (releaseReservation r.stream (count .sectorMiss s)) := by
  simp only [handPlace, outcome, afterLookup]

theorem handPlace_absent {side : Side} {r : ExecRecord} {key : Word} {y : Int} {s : State}
    (outcome : lookupOf key (sectorMask (needLo r y) (needHi r y)) s = .absent) :
    handPlace side r key y s =
      takeMiss side r.stream key (sectorMask (needLo r y) (needHi r y)) false
        (releaseReservation r.stream (count .absent s)) := by
  simp only [handPlace, outcome, afterLookup]

theorem tileSet_count (key : Word) (x : SubEvent) (s : State) : tileSet key (count x s) = tileSet key s := by
  rw [tileSet, count_tc]
  rfl

theorem handPlace_dir (side : Side) (r : ExecRecord) {key : Word} (y : Int) {s : State} (nonzero : key ≠ 0) (h : dirLegal s) :
    dirLegal (handPlace side r key y s) := by
  have missed (x : SubEvent) : dirLegal (releaseReservation r.stream (count x s)) :=
    releaseReservation_dir _ ((count_apart x s).dir h)
  cases outcome : lookupOf key (sectorMask (needLo r y) (needHi r y)) s with
  | hit w =>
    rw [handPlace_hit outcome]
    exact beginExecution_dir side _ (releaseReservation_dir _ (afterLookup_dir key (.hit w) h))
  | sectorMiss w =>
    rw [handPlace_sectorMiss outcome]
    obtain ⟨here, lacks⟩ := lookupOf_sectorMiss outcome
    refine takeMiss_dir side _ _ true nonzero (fun _ v found => ?_) nofun (missed _)
    rw [releaseReservation_findWay, tileSet_count] at found
    obtain ⟨k, entry⟩ := releaseReservation_entry r.stream (count .sectorMiss s) (setIndex key) v
    have same := congrArg DirEntry.pinned entry
    rw [count_tc] at same
    refine same.trans (Bool.eq_false_iff.2 fun pin => lacks ?_)
    cases here.symm.trans found
    have whole : (tileSet key s)[w].sectors = 15 := ((h (setIndex key)).whole pin).1
    rw [whole]
    exact BitVec.and_zero
  | absent =>
    rw [handPlace_absent outcome]
    refine takeMiss_dir side _ _ false nonzero nofun (fun _ => ?_) (missed _)
    rw [releaseReservation_findWay, tileSet_count]
    exact lookupOf_absent outcome

theorem handOver_dir (side : Side) (e : Entry) {s : State} (h : dirLegal s) : dirLegal (handOver side e s) := by
  have taken (x : SubEvent) : dirLegal (removeEntry side (recordFor e (regionOf e.stream s)) (count x s)) :=
    removeEntry_dir side _ ((count_apart x s).dir h)
  simp only [handOver]
  split
  · split
    · exact releaseReservation_dir _ (taken _)
    next nonzero =>
      split
      · exact releaseReservation_dir _ (taken _)
      · exact handPlace_dir side _ _ nonzero h
  · split
    · exact taken _
    · exact beginExecution_dir side _ h
  · split
    · exact taken _
    · exact beginExecution_dir side _ h

theorem endOp_dir (op : LongOp) (x : Status) {s : State} (h : dirLegal s) : dirLegal (endOp op x s) := by
  unfold endOp
  split
  · rw [endLong_rest]
    exact h
  · exact h

theorem settle_dir {s : State} (h : dirLegal s) : dirLegal (settle s) := by
  have handed : dirLegal (handAll s) :=
    handAll_keeps (fun side e _ _ => handOver_dir side e) (fun _ h => h) (fun _ h => h) h
  unfold settle checkDrain
  split
  · exact endOp_dir _ _ (s := { handAll s with sq.quiesce := .quiesced }) handed
  · exact handed

/-! ### The operations that reach the directory -/

theorem fillPassed_dir (key : Word) (w : Fin 4) {s : State} (h : dirLegal s) : dirLegal (fillPassed key w s) := by
  unfold fillPassed
  split
  · split
    · exact completeFault_dir _ h
    · exact h
  · exact h

theorem doTile_dir (key : Word) (sector : Byte) (data : List Byte) {s : State} (h : dirLegal s) :
    dirLegal (doTile key sector data s) := by
  unfold doTile
  split
  · exact (count_apart _ _).dir h
  next good =>
    split
    · exact (count_apart _ _).dir h
    · split
      next w found =>
        have written := (count_apart .fillPresent _).dir (writeSector_dir sector.toNat data (findWay_some found).1 h)
        refine settle_dir ?_
        unfold fillPresent
        dsimp only
        split
        · exact fillPassed_dir key w written
        · exact written
      next absent =>
        unfold fillAbsent
        split
        · refine (count_apart _ _).dir (writeSector_dir _ _ ?_ (allocateWay_dir (fun zero => good (.inl zero)) absent h))
          rw [tileSet_allocateWay, takeWay_taken]
        · exact (count_apart _ _).dir h

theorem doDraw_dir (stream : Byte) (seq : Half) (commands : List Byte) {s : State} (h : dirLegal s) :
    dirLegal (doDraw stream seq commands s) := by
  have taken (side : Side) (i : Fin 8) (cs : List DrawCommand) {s : State} (h : dirLegal s) :
      dirLegal (takeFrame side i seq cs s) :=
    settle_dir ((count_apart .accepted _).dir (setStream_dir i _ (setQueue_dir side _ h)))
  have refused (i : Fin 8) {s : State} (h : dirLegal s) : dirLegal (refuseForRoom i s) :=
    setStream_dir i _ ((count_apart .noRoom s).dir h)
  have shed (side : Side) (v : Fin 8) : dirLegal (shedStream side v s) :=
    (countN_counted _ _ _).apart.dir ((count_apart .shedRun _).dir (setStream_dir v _ (setStream_dir v _ (setQueue_dir side _ h))))
  unfold doDraw
  split
  · split
    · unfold judgeDraw
      split
      · exact (count_apart _ _).dir h
      · split
        · exact (count_apart _ _).dir h
        · split
          · exact (count_apart _ _).dir h
          · dsimp only
            split
            · unfold inOrder
              split
              · exact taken _ _ _ h
              · split
                · dsimp only
                  split
                  · exact (count_apart _ _).dir (shed _ _)
                  · split
                    · exact taken _ _ _ (shed _ _)
                    · exact refused _ (shed _ _)
                · exact refused _ ((count_apart .shedNone s).dir h)
            · split
              · split
                · exact setStream_dir _ _ ((count_apart .gap s).dir h)
                · exact (count_apart _ _).dir h
              · exact (count_apart _ _).dir h
    · exact (count_apart _ _).dir h
  · exact (count_apart _ _).dir h

theorem closeStream_dir (i : Fin 8) {s : State} (h : dirLegal s) : dirLegal (closeStream i s) := by
  unfold closeStream
  refine setStream_dir i _ (releaseReservation_dir i (leaveFault_dir .b i (leaveFault_dir .a i ?_)))
  split
  · exact dirLegal_of_same (by simp [markRemovedOf]) h
  · exact h

theorem doTilePin_dir (tag : Byte) (key : Word) {s : State} (h : dirLegal s) : dirLegal (doTilePin tag key s) := by
  unfold doTilePin
  dsimp only
  split
  next w found =>
    split
    · exact h
    next whole =>
      split
      · exact h
      · split
        · exact h
        next room =>
          have found : findWay key (tileSet key s) = some w := by
            split at found
            · cases found
            · exact found
          simp only [not_or, not_not, Bool.not_eq_true] at whole
          exact setTileSet_dir (setLegal_set (h (setIndex key)) rfl
            (fun invalid => by rw [(findWay_some found).1] at invalid; cases invalid)
            (fun _ => ⟨(findWay_some found).1, rfl⟩) fun _ => ⟨⟨(findWay_some found).1, whole⟩, .inr (Nat.lt_of_not_le room)⟩) h
  · exact h

theorem unpin_dir (tag : Byte) (key : Word) {s : State} (h : dirLegal s) : dirLegal (unpin tag key s) := by
  unfold unpin
  dsimp only
  split
  next w found =>
    have found : findWay key (tileSet key s) = some w := by
      split at found
      · cases found
      · exact found
    split
    · exact setTileSet_dir (setLegal_set (h (setIndex key)) rfl
        (fun invalid => by rw [(findWay_some found).1] at invalid; cases invalid)
        (fun _ => ⟨(findWay_some found).1, rfl⟩) nofun) h
    · exact h
  · exact h

theorem emptySet_legal (n : Fin 64) : setLegal n emptySet := by
  have way (w : Fin 4) : emptySet[w] = DirEntry.invalid w.val := by simp [emptySet]
  refine ⟨fun a => ⟨a, by rw [way]; rfl⟩, ⟨fun w _ => by rw [way]; rfl, fun w => ?_, fun w v => ?_⟩, by decide, fun w => ?_⟩
  · rw [way]; exact nofun
  · rw [way]; exact nofun
  · rw [way]; exact nofun

theorem emptyDir_legal {s : State} (fresh : s.tc.dir = emptyDir) : dirLegal s := by
  intro n
  rw [fresh]
  have : emptyDir[n] = emptySet := Vector.getElem_replicate n.isLt
  rw [this]
  exact emptySet_legal n

theorem sweepSet_dir (n : Fin 64) {s : State} (h : dirLegal s) : dirLegal (sweepSet n s) := by
  have swept : dirLegal { s with tc.dir := s.tc.dir.set n emptySet, tc.sweep := n.val + 1 } :=
    dirLegal_set (emptySet_legal n) h
  unfold sweepSet
  dsimp only
  split
  · exact endOp_dir _ _ swept
  · exact swept

theorem flagOpenRewinds_dir (reason : RewindReason) {s : State} (h : dirLegal s) : dirLegal (flagOpenRewinds reason s) := by
  refine foldl_dir (fun t i h => ?_) _ h
  split
  · exact setStream_dir _ _ h
  · exact h

theorem finishExecution_dir (side : Side) (r : ExecRecord) {s : State} (h : dirLegal s) :
    dirLegal (finishExecution side r s) := by
  have marked (img : Image) : dirLegal (markBlocks (commandBlocks s r) (readToEnd img { s with fs.image := img, fs.holder := none })) :=
    ((readToEnd_apart img _).trans (markBlocks_apart _ _)).dir h
  refine grantStore_dir (setEngine_dir side none ((count_apart _ _).dir ?_))
  split
  · exact marked _
  · exact removeEntry_dir side r (marked _)

theorem stopFill_dir {s : State} (h : dirLegal s) : dirLegal (stopFill s) := by
  unfold stopFill
  split
  · exact (readToEnd_apart _ _).dir h
  · exact h

theorem teardownLayout_dir {s : State} (h : dirLegal s) : dirLegal (teardownLayout s) := by
  have stale : dirLegal (setChanged true (setStale 0xFF s)) := setStale_dir _ h
  exact grantStore_dir (stopFill_dir stale)

theorem finishTeardownFill_dir (c : Half) {s : State} (h : dirLegal s) : dirLegal (finishTeardownFill c s) :=
  grantStore_dir (((readToEnd_apart _ _).trans (markBlocks_apart _ _)).dir h)

theorem teardown_dir (s : State) : dirLegal (teardown s) := by
  refine (trackTeardown_apart _).dir (teardownLayout_dir ?_)
  exact emptyDir_legal rfl

theorem dockReset_dir (s : State) : dirLegal (dockReset s) := emptyDir_legal rfl

theorem completeItem_dir (item : TxItem) {s : State} (h : dirLegal s) : dirLegal (completeItem item s) := by
  cases item with
  | greet =>
    unfold completeItem
    dsimp only
    split <;> exact h
  | keys => exact h
  | fault side => exact setRecord_dir side _ h
  | rewind i => exact setStream_dir i _ h
  | reply => exact h
  | event k => exact (count_apart _ _).dir ((setEventSlot_apart k _ s).dir h)

theorem doRegionWrite_dir (tag : Byte) (i : Fin 8) (enabled : Bool) (ox oy rw rh background : Half) {s : State}
    (h : dirLegal s) : dirLegal (doRegionWrite tag i enabled ox oy rw rh background s) := by
  have refused (x : Status) : dirLegal (refuseLayout tag x s) := (count_apart _ _).dir h
  unfold doRegionWrite
  split
  · exact refused _
  · split
    · exact refused _
    · split
      · exact refused _
      · split
        · exact refused _
        · exact h

theorem doStreamOpen_dir (tag stream : Byte) (start : Half) {s : State} (h : dirLegal s) :
    dirLegal (doStreamOpen tag stream start s) := by
  unfold doStreamOpen
  dsimp only
  split
  · split
    · exact h
    · split <;> exact h
  · exact h

theorem moveStream_dir (side : Side) {s : State} (h : dirLegal s) : dirLegal (moveStream side s) := by
  unfold moveStream
  split
  · exact (count_apart _ _).dir (setStream_dir _ _ h)
  · exact h

theorem rebalanceFuel_dir (fuel : Nat) {s : State} (h : dirLegal s) : dirLegal (rebalanceFuel fuel s) := by
  induction fuel generalizing s with
  | zero => exact h
  | succ fuel ih =>
    unfold rebalanceFuel
    split
    · exact ih (moveStream_dir _ h)
    · split
      · exact ih (moveStream_dir _ h)
      · exact h

theorem quiesceState_dir (q : QuiesceState) {s : State} (h : dirLegal s) : dirLegal { s with sq.quiesce := q } := h

theorem finishResume_dir {s : State} (h : dirLegal s) : dirLegal (finishResume s) := by
  unfold finishResume
  exact endOp_dir _ _ (quiesceState_dir _ (flagOpenRewinds_dir _ (rebalanceFuel_dir _ h)))

theorem doResume_dir (tag : Byte) {s : State} (h : dirLegal s) : dirLegal (doResume tag s) := by
  unfold doResume
  dsimp only
  split
  · split
    · refine grantStore_dir ((count_apart .layoutApply _).dir ?_)
      split
      · exact h
      · exact setStale_dir _ h
    · exact finishResume_dir h
  · exact h

/-- What an event does keeps the directory legal. -/
theorem Session.dir {s u : State} (h : Session s u) (legal : dirLegal s) : dirLegal u := by
  induction h with
  | apart h => exact h.dir legal
  | andThen _ _ first next => exact next (first legal)
  | tearsDown s => exact teardown_dir s
  | rewinds reason s => exact flagOpenRewinds_dir reason legal
  | represents side s => exact representFault_dir side legal
  | completes item s => exact completeItem_dir item legal
  | draw stream seq commands _ _ => exact doDraw_dir stream seq commands legal
  | tile key sector data _ _ => exact doTile_dir key sector data legal
  | executionEnds busy writing => exact settle_dir (finishExecution_dir _ _ legal)
  | faultExpires expired =>
    unfold expireFault
    split
    · exact retryFault_dir _ legal
    · exact settle_dir (abandonFault_dir _ legal)
  | headerWrite tag border undocked _ =>
    unfold doHeaderWrite
    split
    · exact legal
    · exact (count_apart .layoutRefused _).dir legal
  | regionWrite tag i enabled ox oy rw rh background _ => exact doRegionWrite_dir tag i enabled ox oy rw rh background legal
  | streamWrite tag i stale _ =>
    unfold doStreamWrite
    split <;> exact legal
  | streamOpen tag stream start _ => exact doStreamOpen_dir tag stream start legal
  | streamClose tag stream _ =>
    unfold doStreamClose
    dsimp only
    split
    · split
      · exact settle_dir (closeStream_dir _ legal)
      · exact legal
    · exact legal
  | quiesce tag _ =>
    unfold doQuiesce checkDrain
    split
    · exact legal
    · split
      · exact endOp_dir _ _ legal
      · exact legal
  | resume tag _ => exact doResume_dir tag legal
  | tileFlush tag _ =>
    unfold doTileFlush
    split <;> exact legal
  | tilePin tag key _ => exact doTilePin_dir tag key legal
  | tileUnpin tag key _ => exact settle_dir (unpin_dir tag key legal)
  | dockReset tag _ => exact dockReset_dir _
  | storeErase tag page _ =>
    unfold doStoreErase
    split <;> exact legal
  | storeWrite tag offset data _ =>
    unfold doStoreWrite
    dsimp only
    split <;> exact legal
  | applyEnds applying writing =>
    exact finishResume_dir (grantStore_dir (((readToEnd_apart _ _).trans (markBlocks_apart _ _)).dir legal))
  | fillEnds filling writing => exact finishTeardownFill_dir _ legal
  | sweeps sweeping => exact sweepSet_dir _ legal
  | storeEnds status current store =>
    rw [endLong_rest]
    exact legal

theorem powerOn_dir (flash : List Host.Cell) (free : Nat) (pending : List Instr) : dirLegal (powerOn flash free pending) := by
  unfold powerOn
  refine (selectBlock_apart _).dir ?_
  split
  · exact emptyDir_legal rfl
  · exact (raiseEvent_apart _ _ _).dir (emptyDir_legal rfl)

/-- Settles O56: allocations take a key that its set does not hold, faults are raised on entries that are not whole, and no other
operation changes keys, ages or pins but as R72, R84 and R85 have it. -/
theorem theTileDirectoryStaysLegal : Obligations.TheTileDirectoryStaysLegal := fun _ _ legal stepped =>
  step_keeps (Legal := dirLegal) legal stepped (fun _ h => h) (fun _ _ h => h) (fun _ _ => powerOn_dir _ _ _)
    fun s _ h happens => (conclude_apart s _).dir (happens.session.dir h)

end Sys2Proof.Machine
end

section
/-! PROOFS. Refutation of O58: its hypotheses leave out the law of the streams (a CLOSED stream is in no waiting set, R44, R93), and the end
of a fault makes every stream of the waiting set READY, a CLOSED one too. -/

namespace Sys2Proof.Machine

/-- The first attachment, with a fault on side A at its retry limit that names the CLOSED stream 1, whose region is disabled, in its
waiting set; and the expiry of its timer waiting. -/
def strayWaiter : State :=
  { State.reset with
    lc.link := .up, lc.attachment := .attached, lc.attachNumber := 7, lc.attachCounter := 2
    tf.recA := ⟨true, 69, 1, 2, 7, some 0, false, false⟩
    sq.streams := State.reset.sq.streams.set 1 ⟨.closed, some .a, 0, none, false, none⟩
    pending := [.faultTimerExpiry .a] }

theorem strayWaiter_engines (side : Side) : engineOf side strayWaiter = none := by cases side <;> rfl

theorem strayWaiter_legal : layoutLegal strayWaiter ∧ drawsLegal strayWaiter ∧ storeServed strayWaiter := by
  refine ⟨by decide +kernel, ⟨by decide +kernel, fun side r busy => ?_⟩, by decide +kernel⟩
  rw [strayWaiter_engines] at busy
  cases busy

/-- R102: the abandonment leaves stream 1 open and its region disabled. -/
theorem strayWaiter_abandoned :
    isOpen 1 (conclude { strayWaiter with pending := [] } (expireFault .a { strayWaiter with pending := [] })) = true ∧
      (regionOf 1 (conclude { strayWaiter with pending := [] } (expireFault .a { strayWaiter with pending := [] }))).enabled =
        false := by decide +kernel

/-- Refutes O58: the abandonment of the fault opens the CLOSED stream 1 on a disabled region. -/
theorem not_layoutAndDrawsStayOnTheScreen : ¬ Obligations.LayoutAndDrawsStayOnTheScreen := by
  intro stays
  obtain ⟨⟨_, _, regions⟩, _⟩ := stays strayWaiter _ strayWaiter_legal rfl
  obtain ⟨opened, disabled⟩ := strayWaiter_abandoned
  exact Bool.false_ne_true (disabled.symm.trans (regions 1 opened))

end Sys2Proof.Machine
end

section
/-! PROOFS. The queue, the time base and reset: O1, O2, O3, O53. -/

namespace Sys2Proof.Machine

/-- Settles O1: a step takes the command at the front of the queue. -/
theorem stepRunsTheFrontCommand : Obligations.StepRunsTheFrontCommand := by
  intro c rest s queued
  unfold step
  rw [queued]

/-! ### Reset -/

theorem reset_link : State.reset.lc =
    { link := .down, alignCount := 0, framingCount := 0, failureCount := 0, lossCount := 0, assembly := none
      attachment := .unattached, attachNumber := 0, holdTimer := none, holdCause := none, holdStart := none
      attachCounter := 1, lastCause := none, lastDuration := 0, greet := none, greetRenewed := false
      keys := [], replies := [], tx := none, laneOut := [] } := rfl

theorem reset_engine (side : Side) : engineOf side State.reset = none := by cases side <;> rfl

theorem reset_queue (side : Side) : queueOf side State.reset = [] := by cases side <;> rfl

theorem reset_store : State.reset.fs.holder = none ∧ State.reset.fs.waiting = [] := ⟨rfl, rfl⟩

/-- Settles O3: the power-on values, table by table. -/
theorem resetHoldsThePowerOnValues : Obligations.ResetHoldsThePowerOnValues := by
  refine ⟨by simp [reset_link], by decide +kernel, by decide +kernel, by decide +kernel, by decide +kernel, by decide +kernel,
    ⟨fun a => ?_, rfl, rfl⟩, by decide +kernel, by decide +kernel, by decide +kernel, ⟨rfl, fun k => ?_⟩, by decide +kernel,
    by decide +kernel, by decide +kernel⟩
  · rfl
  · cases k <;> decide +kernel

/-- Settles O53: law by law. -/
theorem resetMeetsTheLaws : Obligations.ResetMeetsTheLaws := by
  have nothing : nothingToHand State.reset := fun side _ e member => by
    rw [reset_queue] at member
    cases member
  have executing : executingLegal State.reset := fun side =>
    ⟨by cases side <;> decide +kernel, fun r busy => by rw [reset_engine] at busy; cases busy⟩
  have writers : writersLegal State.reset :=
    ⟨List.nodup_nil, fun side => by simp [reset_engine, reset_store], by simp [reset_store]; rfl, by simp [reset_store]; rfl⟩
  refine ⟨by decide +kernel, by decide +kernel, by decide +kernel, by decide +kernel,
    ⟨by decide +kernel, ⟨by decide +kernel, fun side r busy => ?_⟩, by decide +kernel⟩, by decide +kernel, reset_memories,
    by decide +kernel,
    ⟨⟨by decide +kernel, by decide +kernel, by decide +kernel, executing, by decide +kernel, by decide +kernel,
      by decide +kernel, by decide +kernel, by decide +kernel, by decide +kernel⟩, nothing, writers⟩⟩
  rw [reset_engine] at busy
  cases busy

/-! ### A tick -/

/-- A tick changes of a fault record its timer alone. -/
theorem tickRecord_eq (s : State) (r : FaultRecord) :
    tickRecord s r = { r with
      timer := if s.lc.attachment = .attached ∧ r.active = true then r.timer.map fun n => n - 1 else r.timer } := by
  unfold tickRecord
  split <;> rfl

theorem mem_due (s : State) (c : Instr) :
    c ∈ due s ↔
      (c = .lossDetectorExpiry ∧ s.lc.link ≠ .down ∧ s.settings.lossLimit * 16 ≤ s.lc.lossCount) ∨
      (c = .holdTimerExpiry ∧ s.lc.holdTimer = some 0) ∨
      (∃ side, c = .faultTimerExpiry side ∧ s.lc.attachment = .attached ∧ (recordOf side s).active = true ∧
        (recordOf side s).timer = some 0) ∨
      (c = .blockTimeout ∧ ∃ f, s.pu.inFlight = some f ∧ f.timer = 0) ∨
      (c = .millisecondTick ∧ s.msTimer = 0) ∨ (c = .backlightPeriod ∧ s.pu.periodTimer = 0) := by
  have loss : lossExpired s = true ↔ s.lc.link ≠ .down ∧ s.settings.lossLimit * 16 ≤ s.lc.lossCount := by
    rw [lossExpired, Bool.and_eq_true, bne_iff_ne, decide_eq_true_eq]
    rfl
  have fault (side : Side) : faultExpires side s = true ↔
      s.lc.attachment = .attached ∧ (recordOf side s).active = true ∧ (recordOf side s).timer = some 0 := by
    simp [faultExpires, and_assoc]
  have block : (s.pu.inFlight.any fun f => f.timer == 0) = true ↔ ∃ f, s.pu.inFlight = some f ∧ f.timer = 0 := by
    simp [Option.any_eq_true]
  simp only [due, List.mem_filter, List.mem_cons, List.not_mem_nil, or_false]
  constructor
  · rintro ⟨rfl | rfl | rfl | rfl | rfl | rfl | rfl, falls⟩
    · exact .inl ⟨rfl, loss.1 falls⟩
    · exact .inr (.inl ⟨rfl, beq_iff_eq.1 falls⟩)
    · exact .inr (.inr (.inl ⟨.a, rfl, (fault .a).1 falls⟩))
    · exact .inr (.inr (.inl ⟨.b, rfl, (fault .b).1 falls⟩))
    · exact .inr (.inr (.inr (.inl ⟨rfl, block.1 falls⟩)))
    · exact .inr (.inr (.inr (.inr (.inl ⟨rfl, beq_iff_eq.1 falls⟩))))
    · exact .inr (.inr (.inr (.inr (.inr ⟨rfl, beq_iff_eq.1 falls⟩))))
  · rintro (⟨rfl, falls⟩ | ⟨rfl, falls⟩ | ⟨side, rfl, falls⟩ | ⟨rfl, falls⟩ | ⟨rfl, falls⟩ | ⟨rfl, falls⟩)
    · exact ⟨by simp, loss.2 falls⟩
    · exact ⟨by simp, beq_iff_eq.2 falls⟩
    · exact ⟨by cases side <;> simp, (fault side).2 falls⟩
    · exact ⟨by simp, block.2 falls⟩
    · exact ⟨by simp, beq_iff_eq.2 falls⟩
    · exact ⟨by simp, beq_iff_eq.2 falls⟩

theorem due_nodup (s : State) : (due s).Nodup := List.Nodup.filter _ (by decide)

/-- Settles O2: the timers run, and the expiries that fall wait in some order. -/
theorem idleStepPassesOneTick : Obligations.IdleStepPassesOneTick := by
  intro s idle
  have order := inSomeOrder_perm (s.tick + 1) (due (advance s))
  have waits : (passTick s).pending = inSomeOrder (s.tick + 1) (due (advance s)) := by
    simp only [passTick, idle, List.nil_append]
    rfl
  refine ⟨passTick s, by unfold step; rw [idle], ⟨(passTick s).tf.recA.timer, (passTick s).tf.recB.timer, (passTick s).pending, ?_⟩,
    fun side => ?_, ?_, fun c => ?_⟩
  · simp only [passTick, advance, tickRecord_eq]
  · cases side <;> exact congrArg FaultRecord.timer (tickRecord_eq s _)
  · rw [waits]
    exact order.nodup_iff.2 (due_nodup _)
  · rw [waits, order.mem_iff]
    exact mem_due (advance s) c

end Sys2Proof.Machine
end

section
/-! PROOFS. The downstream lane and departures: O6, O8, O9, O10, and what symbol groups do in DOWN and ALIGNING (O5). -/

namespace Sys2Proof.Machine

/-! ### Effects of the link on what a command ends as -/

section
variable {u v : State} {us : List SubEvent}

/-- The order of the sub-events does not matter. -/
theorem endsAs.perm {us' : List SubEvent} (h : endsAs u us v) (same : us.Perm us') : endsAs u us' v := by
  obtain ⟨rest, bookkeeping, counted⟩ := h
  refine ⟨rest, bookkeeping, fun n => ?_⟩
  obtain ⟨occurrence, others⟩ := counted n
  exact ⟨fun mode => by rw [← same.countP_eq]; exact occurrence mode, others⟩

/-- What the link alone changes passes through. -/
theorem endsAs.lc (h : endsAs u us v) (f : LinkCtl → LinkCtl)
    (lane : ∀ lc x, f { lc with tx := x } = { f lc with tx := x } := by intros; rfl)
    (tx : ∀ lc, (f lc).tx = lc.tx := by intros; rfl) : endsAs { u with lc := f u.lc } us { v with lc := f v.lc } :=
  h.map (fun s => { s with lc := f s.lc })
    (fun s c e x => congrArg (fun lc => ({ s with lc := lc, mn.counters := c, me.events := e } : State)) (lane s.lc x))
    (fun _ => rfl) (fun _ => rfl) (fun s => tx s.lc) fun _ => rfl

/-- R6: a departure discards the frame in assembly. -/
theorem endsAs.cutAssembly (h : endsAs u us v) :
    endsAs { u with lc.assembly := none } (us ++ if u.lc.assembly.isSome then [.frameCut] else []) (cutAssembly v) := by
  have same : v.lc.assembly = u.lc.assembly := by rw [h.1]
  unfold Machine.cutAssembly
  rw [same]
  split
  · exact (h.lc (fun lc => { lc with assembly := none })).count _
  next closed =>
    have closed : u.lc.assembly = none := by simpa using closed
    have unchanged : ({ u with lc.assembly := none } : State) = u := by rw [← closed]
    rw [unchanged, List.append_nil]
    exact h

/-- R11: what the attachment machine records of a departure. -/
theorem endsAs.enterHold (h : endsAs u us v) (cause : DepartCause) :
    endsAs (if u.lc.attachment = .attached then { u with
        lc.attachment := .held, lc.holdCause := some cause, lc.holdStart := some u.tick
        lc.holdTimer := some (u.settings.holdTime * 10000) } else u)
      (us ++ if u.lc.attachment = .attached then [.holdStart] else []) (enterHold cause v) := by
  have attachment : v.lc.attachment = u.lc.attachment := by rw [h.1]
  have tick : v.tick = u.tick := by rw [h.1]
  have settings : v.settings = u.settings := by rw [h.1]
  by_cases attached : u.lc.attachment = .attached
  · rw [if_pos attached, if_pos attached]
    have entered : Machine.enterHold cause v = Machine.count .holdStart { v with
        lc.attachment := .held, lc.holdCause := some cause, lc.holdStart := some u.tick
        lc.holdTimer := some (u.settings.holdTime * 10000) } := by
      unfold Machine.enterHold
      rw [if_pos (attachment.trans attached), tick, settings]
      rfl
    rw [entered]
    exact (h.lc fun lc => { lc with
      attachment := .held, holdCause := some cause, holdStart := some u.tick
      holdTimer := some (u.settings.holdTime * 10000) }).count .holdStart
  · have stays : Machine.enterHold cause v = v := by
      unfold Machine.enterHold
      rw [if_neg (attachment ▸ attached)]
    rw [if_neg attached, if_neg attached, stays, List.append_nil]
    exact h

/-- R6, R19: with no transmission there is none to cut. -/
theorem cutTx_none {s : State} (free : s.lc.tx = none) : cutTx s = s := by
  unfold cutTx
  rw [free]

/-- R6, R11: a departure from UP with no transmission in progress. -/
theorem endsAs.leaveUp (h : endsAs u us v) (cause : DepartCause) (free : v.lc.tx = none) :
    endsAs (if u.lc.attachment = .attached then { u with
        lc.assembly := none, lc.failureCount := 0, lc.framingCount := 0
        lc.attachment := .held, lc.holdCause := some cause, lc.holdStart := some u.tick
        lc.holdTimer := some (u.settings.holdTime * 10000) }
      else { u with lc.assembly := none, lc.failureCount := 0, lc.framingCount := 0 })
      (us ++ (if u.lc.assembly.isSome then [.frameCut] else []) ++
        if u.lc.attachment = .attached then [.holdStart] else []) (leaveUp cause v) := by
  have cut := h.cutAssembly.lc (fun lc => { lc with failureCount := 0, framingCount := 0 })
  have lane : (Machine.cutAssembly v).lc.tx = none := by
    unfold Machine.cutAssembly
    split
    · rw [count_lc]; exact free
    · exact free
  unfold Machine.leaveUp
  rw [cutTx_none (s := { Machine.cutAssembly v with lc.failureCount := 0, lc.framingCount := 0 }) lane]
  exact cut.enterHold cause

end

/-! ### The loss detector (R1, R6) -/

theorem exec_lossDetectorExpiry (s : State) : exec .lossDetectorExpiry s = execLossDetectorExpiry s := by rfl

theorem lossExpired_iff (s : State) :
    lossExpired s = true ↔ s.lc.link ≠ .down ∧ s.settings.lossLimit * 16 ≤ s.lc.lossCount := by
  rw [lossExpired, Bool.and_eq_true, bne_iff_ne, decide_eq_true_eq]
  rfl

theorem execLossDetectorExpiry_expired {s : State} (running : s.lc.link ≠ .down)
    (expired : s.settings.lossLimit * 16 ≤ s.lc.lossCount) :
    exec .lossDetectorExpiry s = .next (conclude s (expireLoss s)) := by
  rw [exec_lossDetectorExpiry, execLossDetectorExpiry, if_pos ((lossExpired_iff s).2 ⟨running, expired⟩)]

theorem expireLoss_up {s : State} (up : s.lc.link = .up) :
    expireLoss s = count .linkDown (leaveUp .lossDetector { s with lc.link := .down, lc.lossCount := 0 }) := by
  simp only [expireLoss]
  rw [if_pos up]

theorem expireLoss_below {s : State} (below : s.lc.link ≠ .up) :
    expireLoss s = count .linkDown (cutAssembly { s with lc.link := .down, lc.lossCount := 0 }) := by
  simp only [expireLoss]
  rw [if_neg below]

/-- Settles O8: from ALIGNING and FRAMING a cut of the frame in assembly, from UP a departure. -/
theorem lossDetectorExpiryTakesTheLinkDown : Obligations.LossDetectorExpiryTakesTheLinkDown := by
  intro s
  have down := (endsAs_refl s).lc (fun lc => { lc with link := .down, lossCount := 0 })
  refine ⟨fun early => ?_, fun expired free => ⟨fun below => ?_, fun up elsewhere => ?_, fun up attached => ?_⟩⟩
  · have : ¬ lossExpired s = true := fun h => by
      obtain ⟨running, expired⟩ := (lossExpired_iff s).1 h
      rcases early with off | short
      · exact running off
      · omega
    rw [exec_lossDetectorExpiry, execLossDetectorExpiry, if_neg this]
  · have running : s.lc.link ≠ .down ∧ s.lc.link ≠ .up := by
      rcases below with link | link <;> rw [link] <;> decide
    refine ⟨_, execLossDetectorExpiry_expired running.1 expired, ?_⟩
    rw [expireLoss_below running.2]
    exact (down.cutAssembly.count _).conclude s
  · refine ⟨_, execLossDetectorExpiry_expired (by rw [up]; decide) expired, ?_⟩
    rw [expireLoss_up up]
    have left := (down.leaveUp .lossDetector free).count .linkDown
    simp only [if_neg elsewhere, List.append_nil] at left
    exact left.conclude s
  · refine ⟨_, execLossDetectorExpiry_expired (by rw [up]; decide) expired, ?_⟩
    rw [expireLoss_up up]
    have left := (down.leaveUp .lossDetector free).count .linkDown
    simp only [if_pos attached, List.append_assoc] at left
    exact left.conclude s

/-! ### Failing frames (R4, R5) -/

theorem exec_checkFail (s : State) : exec .checkFail s = frameArrival failFrame s := by rfl

theorem failFrame_up {s : State} (up : s.lc.link = .up) :
    failFrame s =
      if 4 ≤ s.lc.failureCount + 1 then
        leaveUp .frameErrors (count .linkRealign (count .checkFail { s with lc.link := .aligning, lc.alignCount := 0 }))
      else count .checkFail { s with lc.failureCount := s.lc.failureCount + 1 } := by
  unfold failFrame
  rw [up]
  rfl

theorem failFrame_framing {s : State} (framing : s.lc.link = .framing) :
    failFrame s = count .checkFail { s with lc.framingCount := 0 } := by
  unfold failFrame
  rw [framing]

/-- R5: a failure in UP that is not the fourth in a row. -/
theorem failFrame_up_ends {s : State} (up : s.lc.link = .up) (more : s.lc.failureCount + 1 < 4) :
    endsAs { s with lc.failureCount := s.lc.failureCount + 1 } [.checkFail] (failFrame s) := by
  rw [failFrame_up up, if_neg (Nat.not_le.2 more)]
  exact (endsAs_refl _).count _

theorem failFrame_framing_ends {s : State} (framing : s.lc.link = .framing) :
    endsAs { s with lc.framingCount := 0 } [.checkFail] (failFrame s) := by
  rw [failFrame_framing framing]
  exact (endsAs_refl _).count _

/-- Settles O9: by the state of the link, and of the attachment when the link is lost. -/
theorem failingFramesLoseTheLink : Obligations.FailingFramesLoseTheLink := by
  intro s
  refine ⟨fun idle => ?_, fun framing => ?_, fun up more => ?_, fun up fourth free elsewhere => ?_,
    fun up fourth free attached => ?_⟩
  · rw [exec_checkFail, frameArrival_none]
    rcases idle with down | aligning
    · exact assembles_down down
    · exact assembles_aligning aligning
  · exact ⟨_, by rw [exec_checkFail, frameArrival_eq _ (assembles_framing framing)], (failFrame_framing_ends framing).conclude s⟩
  · exact ⟨_, by rw [exec_checkFail, frameArrival_eq _ (assembles_up up)], (failFrame_up_ends up more).conclude s⟩
  all_goals
    have lost := ((((endsAs_refl s).lc (fun lc => { lc with link := .aligning, alignCount := 0 })).count
      .checkFail).count .linkRealign).leaveUp .frameErrors (by rw [count_lc, count_lc]; exact free)
    refine ⟨_, by rw [exec_checkFail, frameArrival_eq _ (assembles_up up), failFrame_up up, if_pos fourth], ?_⟩
  · simp only [if_neg elsewhere, List.append_nil] at lost
    exact lost.conclude s
  · simp only [if_pos attached] at lost
    refine (lost.perm ?_).conclude s
    rw [List.append_assoc]
    exact List.perm_append_comm.append_left [SubEvent.checkFail, .linkRealign]

end Sys2Proof.Machine
end

section
/-! PROOFS. A departure that cuts a transmission (O10). -/

namespace Sys2Proof.Machine

/-! ### The cut (R19) -/

/-- What a cut of a transmission does beside its count: the lane, the item's renewed mark where R19 clears it, one free value. -/
def cutEffect (x : Transmission) (s : State) : State :=
  cutMark x.item (takeFree { s with
    lc.tx := none, lc.laneOut := frameGroups (cutFrame x.frame (Config.bytesSent s.free % x.frame.length)) })

theorem cutTx_some {s : State} {x : Transmission} (lane : s.lc.tx = some x) : cutTx s = count .txCut (cutEffect x s) := by
  unfold cutTx
  rw [lane]
  rfl

theorem cutEffect_eq (x : Transmission) (s : State) :
    cutEffect x s = { s with
      lc.tx := none, lc.laneOut := frameGroups (cutFrame x.frame (Config.bytesSent s.free % x.frame.length))
      lc.greetRenewed := s.lc.greetRenewed && x.item != .greet
      me.events := (cutEffect x s).me.events, free := s.free + 1 } := by
  have stays : (s.lc.greetRenewed && true) = s.lc.greetRenewed := Bool.and_true _
  obtain ⟨item, frame⟩ := x
  cases item with
  | greet => simp only [cutEffect, cutMark, takeFree, bne_self_eq_false, Bool.and_false]
  | keys => simp only [cutEffect, cutMark, takeFree, show (TxItem.keys != .greet) = true from rfl, stays]
  | fault side => simp only [cutEffect, cutMark, takeFree, show (TxItem.fault side != .greet) = true from rfl, stays]
  | rewind i => simp only [cutEffect, cutMark, takeFree, show (TxItem.rewind i != .greet) = true from rfl, stays]
  | reply => simp only [cutEffect, cutMark, takeFree, show (TxItem.reply != .greet) = true from rfl, stays]
  | event k =>
    simp only [cutEffect, cutMark, takeFree, setEventSlot, show (TxItem.event k != .greet) = true from rfl, stays]

theorem eventSlot_of_events {s t : State} (same : t.me.events = s.me.events) (k : EventKind) :
    eventSlot k t = eventSlot k s := by simp only [eventSlot, same]

/-- Of the pending set a cut clears the renewed mark of the kind it cuts. -/
theorem eventSlot_cutEffect (x : Transmission) (s : State) (k : EventKind) :
    eventSlot k (cutEffect x s) = { eventSlot k s with renewed := (eventSlot k s).renewed && x.item != .event k } := by
  have same (h : (cutEffect x s).me.events = s.me.events) (other : (x.item != .event k) = true) :
      eventSlot k (cutEffect x s) = { eventSlot k s with renewed := (eventSlot k s).renewed && x.item != .event k } := by
    rw [other, Bool.and_true]
    exact eventSlot_of_events h k
  obtain ⟨item, frame⟩ := x
  cases item with
  | greet => exact same rfl rfl
  | keys => exact same rfl rfl
  | fault side => exact same rfl rfl
  | rewind i => exact same rfl rfl
  | reply => exact same rfl rfl
  | event m =>
    by_cases here : m = k
    · subst here
      simp only [bne_self_eq_false, Bool.and_false]
      exact eventSlot_setEventSlot_self _ _ _
    · have other : (TxItem.event m != .event k) = true := by simpa using here
      simp only [other, Bool.and_true]
      exact eventSlot_setEventSlot_ne here _ _

section
variable {u v : State} {us : List SubEvent} {x : Transmission}

/-- What was shown of a command stays shown when the transmission that it found is cut. -/
theorem endsAs.cutEffect (h : endsAs u us v) (lane : u.lc.tx = some x) :
    endsAs (cutEffect x u) us (cutEffect x v) := by
  obtain ⟨rest, ⟨selections, tracker, events, kept⟩, counted⟩ := h
  have starts (k : EventKind) : ¬ eventStarts k u v := fun ⟨free, _⟩ => by rw [lane] at free; cases free
  have off (k : EventKind) : ¬ eventStarts k (Machine.cutEffect x u) (Machine.cutEffect x v) := fun ⟨_, on⟩ => by
    rw [cutEffect_eq x v] at on
    cases on
  have mn (s : State) : (Machine.cutEffect x s).mn = s.mn := by rw [cutEffect_eq]
  have settings (s : State) : (Machine.cutEffect x s).settings = s.settings := by rw [cutEffect_eq]
  refine ⟨?_, ⟨fun n => ?_, ?_, fun k other => ?_, fun busy => ?_⟩, ?_⟩
  · obtain ⟨c, e, y, rfl⟩ : ∃ c e y, v = { u with mn.counters := c, me.events := e, lc.tx := y } := ⟨_, _, _, rest⟩
    rw [cutEffect_eq x u, cutEffect_eq x]
  · rw [mn, mn]; exact selections n
  · rw [mn, mn]; exact tracker
  · obtain ⟨pending, detail, renewed, renewal⟩ := events k other
    rw [if_neg (starts k)] at renewal
    rw [if_neg (off k), eventSlot_cutEffect, eventSlot_cutEffect]
    exact ⟨pending, detail, congrArg (· && _) renewed, renewal⟩
  · rw [cutEffect_eq] at busy
    cases busy
  · unfold countedUnder saturatedIn
    rw [mn, mn, settings]
    exact counted

theorem endsAs.cutTx (h : endsAs u us v) (lane : u.lc.tx = some x) :
    endsAs (Machine.cutEffect x u) (us ++ [.txCut]) (cutTx v) := by
  have same : v.lc.tx = some x := (h.2.1.2.2.2 (by rw [lane]; rfl)).trans lane
  rw [cutTx_some same]
  exact (h.cutEffect lane).count _

/-- R6, R11, R19: the state after a departure from UP that cuts a transmission. -/
def departed (cause : DepartCause) (x : Transmission) (s : State) : State :=
  let t := Machine.cutEffect x { s with lc.assembly := none, lc.failureCount := 0, lc.framingCount := 0 }
  if t.lc.attachment = .attached then { t with
    lc.attachment := .held, lc.holdCause := some cause, lc.holdStart := some t.tick
    lc.holdTimer := some (t.settings.holdTime * 10000) } else t

theorem endsAs.leaveUp_cut (h : endsAs u us v) (cause : DepartCause) (lane : u.lc.tx = some x) :
    endsAs (departed cause x u)
      (us ++ (if u.lc.assembly.isSome then [.frameCut] else []) ++ [.txCut] ++
        if u.lc.attachment = .attached then [.holdStart] else []) (Machine.leaveUp cause v) := by
  have cut := ((h.cutAssembly.lc fun lc => { lc with failureCount := 0, framingCount := 0 }).cutTx (x := x) lane).enterHold cause
  have attachment : (Machine.cutEffect x { u with lc.assembly := none, lc.failureCount := 0, lc.framingCount := 0 }).lc.attachment =
      u.lc.attachment := by rw [cutEffect_eq]
  rw [attachment] at cut
  unfold departed
  dsimp only
  rw [attachment]
  exact cut

end

/-- A departure in its fields. -/
theorem departed_eq (cause : DepartCause) (x : Transmission) (s : State) :
    departed cause x s = { s with
      lc.assembly := none, lc.failureCount := 0, lc.framingCount := 0, lc.tx := none
      lc.laneOut := (departed cause x s).lc.laneOut
      lc.greetRenewed := s.lc.greetRenewed && x.item != .greet
      lc.attachment := if s.lc.attachment = .attached then .held else s.lc.attachment
      lc.holdCause := if s.lc.attachment = .attached then some cause else s.lc.holdCause
      lc.holdStart := if s.lc.attachment = .attached then some s.tick else s.lc.holdStart
      lc.holdTimer := if s.lc.attachment = .attached then some (s.settings.holdTime * 10000) else s.lc.holdTimer
      me.events := (departed cause x s).me.events, free := s.free + 1 } := by
  simp only [departed]
  rw [cutEffect_eq]
  by_cases attached : s.lc.attachment = .attached
  · simp only [attached, if_true]
  · simp only [attached, if_false]

theorem departed_events (cause : DepartCause) (x : Transmission) (s : State) (k : EventKind) :
    eventSlot k (departed cause x s) =
      { eventSlot k s with renewed := (eventSlot k s).renewed && x.item != .event k } := by
  have cut := eventSlot_cutEffect x { s with lc.assembly := none, lc.failureCount := 0, lc.framingCount := 0 } k
  simp only [departed]
  split
  · exact cut
  · exact cut

theorem departed_lane (cause : DepartCause) (x : Transmission) (s : State) : cutOnLane x.frame (departed cause x s).lc.laneOut := by
  have cut : cutOnLane x.frame
      (cutEffect x { s with lc.assembly := none, lc.failureCount := 0, lc.framingCount := 0 }).lc.laneOut := by
    rw [cutEffect_eq]
    exact ⟨_, rfl, fun some' => Nat.mod_lt _ some'⟩
  simp only [departed]
  split
  · exact cut
  · exact cut

/-- The lane stays free at the end of an event that leaves the link below UP. -/
theorem conclude_lane_free {before s : State} (below : s.lc.link ≠ .up) (free : s.lc.tx = none) :
    (conclude before s).lc.tx = none := by
  have counted : (countEdges before s).lc = s.lc := by simp
  have mayNot : mayTransmit (countEdges before s) = false := by
    unfold mayTransmit
    rw [counted]
    simp [below]
  unfold conclude arbitrate
  rw [if_neg (by rw [mayNot]; decide), counted]
  exact free

/-- What both departures have in common: the state v ends as the departure of b, b the state s with the link below UP. -/
theorem departs {s b v : State} {x : Transmission} {cause : DepartCause} {us : List SubEvent} {link : LinkState} {align loss : Nat}
    (below : link ≠ .up) (base : b = { s with lc.link := link, lc.alignCount := align, lc.lossCount := loss })
    (ends : endsAs (departed cause x b) us v) (free : v.lc.tx = none) :
    (conclude s v).lc.tx = none ∧ cutOnLane x.frame (conclude s v).lc.laneOut ∧
      ((conclude s v).lc.link = link ∧ (conclude s v).lc.alignCount = align ∧ (conclude s v).lc.framingCount = 0 ∧
        (conclude s v).lc.failureCount = 0 ∧ (conclude s v).lc.lossCount = loss ∧ (conclude s v).lc.assembly = none) ∧
      (s.lc.attachment = .attached → (conclude s v).lc.attachment = .held ∧ (conclude s v).lc.holdCause = some cause ∧
        (conclude s v).lc.holdStart = some s.tick ∧ (conclude s v).lc.holdTimer = some (s.settings.holdTime * 10000)) ∧
      (s.lc.attachment ≠ .attached → (conclude s v).lc.attachment = s.lc.attachment ∧
        (conclude s v).lc.holdCause = s.lc.holdCause ∧ (conclude s v).lc.holdStart = s.lc.holdStart ∧
        (conclude s v).lc.holdTimer = s.lc.holdTimer) ∧
      ((conclude s v).lc.attachNumber = s.lc.attachNumber ∧ (conclude s v).lc.attachCounter = s.lc.attachCounter ∧
        (conclude s v).lc.lastCause = s.lc.lastCause ∧ (conclude s v).lc.lastDuration = s.lc.lastDuration) ∧
      ((conclude s v).tick = s.tick ∧ (conclude s v).msTimer = s.msTimer ∧ (conclude s v).pending = s.pending) ∧
      (conclude s v).lc.keys = s.lc.keys ∧ (conclude s v).lc.replies = s.lc.replies ∧ (conclude s v).lc.greet = s.lc.greet ∧
      (conclude s v).lc.greetRenewed = (s.lc.greetRenewed && x.item != .greet) ∧
      (∀ k : EventKind, k ≠ .monitorSaturated → (eventSlot k (conclude s v)).pending = (eventSlot k s).pending ∧
        (eventSlot k (conclude s v)).detail = (eventSlot k s).detail ∧
        (eventSlot k (conclude s v)).renewed = ((eventSlot k s).renewed && x.item != .event k) ∧
        (eventSlot k (conclude s v)).renewal = (eventSlot k s).renewal) ∧
      (conclude s v).sq = s.sq ∧ (conclude s v).tf = s.tf ∧ (conclude s v).lu = s.lu ∧ (conclude s v).de = s.de ∧
      (conclude s v).tc = s.tc ∧ (conclude s v).fs = s.fs ∧ (conclude s v).pu = s.pu ∧ (conclude s v).ks = s.ks ∧
      (conclude s v).me.inProgress = s.me.inProgress ∧ (conclude s v).settings = s.settings ∧
      (conclude s v).flash = s.flash ∧ (conclude s v).mn.tracker = s.mn.tracker ∧ countedAs us s (conclude s v) := by
  have lane := departed_lane cause x b
  have events := departed_events cause x b
  have off : v.lc.link ≠ .up := by
    rw [ends.1, departed_eq, base]
    exact below
  have ended := conclude_lane_free (before := s) off free
  obtain ⟨rest, ⟨_, _, kept, _⟩, counted⟩ := ends.conclude s
  have slots (k : EventKind) : eventSlot k (departed cause x b) =
      { eventSlot k s with renewed := (eventSlot k s).renewed && x.item != .event k } := by
    rw [events, base]
    rfl
  have none (k : EventKind) : ¬ eventStarts k (departed cause x b) (conclude s v) := fun ⟨_, on⟩ => by
    rw [ended] at on
    cases on
  have count : countedAs us s (conclude s v) := by
    have mn : (departed cause x b).mn = s.mn := by rw [departed_eq, base]
    have settings : (departed cause x b).settings = s.settings := by rw [departed_eq, base]
    unfold countedUnder saturatedIn at counted
    rw [mn, settings] at counted
    exact counted
  have slot (k : EventKind) (other : k ≠ .monitorSaturated) := by
    have := kept k other
    rw [if_neg (none k), slots] at this
    exact this
  refine ⟨ended, by rw [rest]; exact lane, ?_⟩
  rw [departed_eq] at rest
  refine ⟨?_, ?_, ?_, ?_, ?_, ?_, ?_, ?_, ?_, slot, ?_, ?_, ?_, ?_, ?_, ?_, ?_, ?_, ?_, ?_, ?_, ?_, count⟩
  · rw [rest, base]; exact ⟨rfl, rfl, rfl, rfl, rfl, rfl⟩
  · intro attached
    rw [rest, base]
    simp only [attached, if_true, and_self]
  · intro elsewhere
    rw [rest, base]
    simp only [elsewhere, if_false, and_self]
  · rw [rest, base]; exact ⟨rfl, rfl, rfl, rfl⟩
  · rw [rest, base]; exact ⟨rfl, rfl, rfl⟩
  all_goals rw [rest, base]

/-- The counts of a departure, in the order of the steps that make them and in that of the statement. -/
theorem departure_counts_perm (before cuts hold after : List SubEvent) (u : SubEvent) :
    (before ++ cuts ++ [u] ++ hold ++ after).Perm (hold ++ cuts ++ u :: (before ++ after)) := by
  rw [List.perm_iff_count]
  intro w
  simp only [List.count_append, List.count_cons, List.count_nil]
  omega

/-- Settles O10: both departures are that of the state with the link below UP. -/
theorem departuresCutTheTransmission : Obligations.DeparturesCutTheTransmission := by
  intro c s x up lane cause
  rcases cause with ⟨rfl, expired⟩ | ⟨rfl, fourth⟩
  · have left := (((endsAs_refl s).lc fun lc => { lc with link := .down, lossCount := 0 }).leaveUp_cut .lossDetector lane).count
      .linkDown
    refine ⟨_, execLossDetectorExpiry_expired (by rw [up]; decide) expired, ?_⟩
    rw [expireLoss_up up]
    exact departs (link := .down) (align := s.lc.alignCount) (loss := 0) (by decide) rfl 
      (left.perm (departure_counts_perm [] _ _ [.linkDown] _)) (by rw [count_lc]; exact leaveUp_tx _ _)
  · have left := ((((endsAs_refl s).lc fun lc => { lc with link := .aligning, alignCount := 0 }).count
      .checkFail).count .linkRealign).leaveUp_cut .frameErrors lane
    refine ⟨_, by rw [exec_checkFail, frameArrival_eq _ (assembles_up up), failFrame_up up, if_pos fourth], ?_⟩
    have order := departure_counts_perm [.checkFail, .linkRealign] (if s.lc.assembly.isSome then [.frameCut] else [])
      (if s.lc.attachment = .attached then [.holdStart] else []) [] .txCut
    rw [List.append_nil] at order
    exact departs (link := .aligning) (align := 0) (loss := s.lc.lossCount) (by decide) rfl (left.perm order) (leaveUp_tx _ _)

end Sys2Proof.Machine
end

section
/-! PROOFS. Frame commands by what they share (R4, R5, R16, R155): every frame command is the arrival of its frame, every request
the arrival of a request; the settlements of O11, O12 and O13. -/

namespace Sys2Proof.Machine

/-! ### The arrival that a command is -/

/-- A command that no frame of its kind can hold is a BAD_FRAME (R16). -/
theorem wf_false_iff (c : Instr) : c.wf = false ↔
    (∃ stream seq commands, c = .draw stream seq commands ∧ (commands = [] ∨ 157 < commands.length)) ∨
    (∃ key sector data, c = .tile key sector data ∧ data.length ≠ 128) ∨
    (∃ tag table entry contents, c = .tableWrite tag table entry contents ∧ 155 < contents.length) ∨
    (∃ tag offset data, c = .storeWrite tag offset data ∧ 156 < data.length) := by
  constructor
  · intro bad
    cases c with
    | draw stream seq commands =>
      refine .inl ⟨_, _, _, rfl, ?_⟩
      simp only [Instr.wf, Bool.and_eq_false_iff, decide_eq_false_iff_not] at bad
      rcases bad with none | long
      · exact .inl (List.length_eq_zero_iff.1 (by omega))
      · exact .inr (by omega)
    | tile key sector data => exact .inr (.inl ⟨_, _, _, rfl, by simpa [Instr.wf] using bad⟩)
    | tableWrite tag table entry contents => exact .inr (.inr (.inl ⟨_, _, _, _, rfl, by simpa [Instr.wf] using bad⟩))
    | storeWrite tag offset data => exact .inr (.inr (.inr ⟨_, _, _, rfl, by simpa [Instr.wf] using bad⟩))
    | _ => exact absurd (show true = false from bad) (by decide)
  · rintro (⟨_, _, commands, rfl, none | long⟩ | ⟨_, _, _, rfl, other⟩ | ⟨_, _, _, _, rfl, long⟩ | ⟨_, _, _, rfl, long⟩)
    · rw [none]; rfl
    · simp [Instr.wf, long]
    · simpa [Instr.wf] using other
    · simpa [Instr.wf] using long
    · simpa [Instr.wf] using long

theorem exec_unspellable {c : Instr} (bad : c.wf = false) (s : State) :
    exec c s = frameArrival (passFrame (count .badFrame)) s := by
  rcases (wf_false_iff c).1 bad with
    ⟨stream, seq, commands, rfl, length⟩ | ⟨key, sector, data, rfl, length⟩ | ⟨tag, table, entry, contents, rfl, length⟩ |
      ⟨tag, offset, data, rfl, length⟩
  · have unfit : ¬ (1 ≤ commands.length ∧ commands.length ≤ 157) := by
      rcases length with none | long
      · simp [none]
      · omega
    show execDraw stream seq commands s = _
    unfold execDraw
    rw [if_neg unfit]
  · show execTile key sector data s = _
    unfold execTile
    rw [if_neg length]
  · show execTableWrite tag table entry contents s = _
    exact if_neg (by omega)
  · show execStoreWrite tag offset data s = _
    exact if_neg (by omega)

theorem exec_draw_fits {commands : List Byte} (some' : commands ≠ []) (short : commands.length ≤ 157) (stream : Byte) (seq : Half)
    (s : State) :
    exec (.draw stream seq commands) s = frameArrival (passFrame (ifAttached (doDraw stream seq commands))) s := by
  show execDraw stream seq commands s = _
  unfold execDraw
  rw [if_pos ⟨List.length_pos_iff.2 some', short⟩]

theorem exec_tile {data : List Byte} (length : data.length = 128) (key : Word) (sector : Byte) (s : State) :
    exec (.tile key sector data) s = frameArrival (passFrame (ifAttached (doTile key sector data))) s := by
  show execTile key sector data s = _
  unfold execTile
  rw [if_pos length]

theorem exec_tableWrite {contents : List Byte} (short : contents.length ≤ 155) (tag table : Byte) (entry : Half) (s : State) :
    exec (.tableWrite tag table entry contents) s = requestArrival tag 2 (doTableWrite tag table entry contents) s := by
  show execTableWrite tag table entry contents s = _
  exact if_pos short

/-- R155: a management request that a frame can hold is the arrival of a request with its tag and kind. -/
theorem exec_request {c : Instr} {tag kind : Byte} (request : requestOf c = some (tag, kind)) (good : c.wf = true) :
    ∃ run, ∀ s, exec c s = requestArrival tag kind run s := by
  cases c with
  | tableWrite t table entry contents =>
    cases request
    exact ⟨_, exec_tableWrite (by simpa [Instr.wf] using good) _ _ _⟩
  | storeWrite t offset data =>
    cases request
    exact ⟨_, exec_storeWrite (by simpa [Instr.wf] using good) _ _⟩
  | powerOnReset | symbolGroup | lossDetectorExpiry | checkFail | idle | badFrame | hello | holdTimerExpiry | draw | executionEnd
  | tile | faultTimerExpiry | transmissionComplete | layoutApplyEnd | teardownFillEnd | sweepStep | eraseDone | programDone
  | acknowledgement | blockTimeout | scan | millisecondTick | backlightPeriod => cases request
  | _ =>
    cases request
    exact ⟨_, fun _ => rfl⟩

/-- R16: a command of a kind that only an ATTACHED attachment takes. -/
theorem exec_attached {c : Instr} (good : c.wf = true)
    (kind : (requestOf c).isSome = true ∨ (∃ stream seq commands, c = .draw stream seq commands) ∨
      ∃ key sector data, c = .tile key sector data) :
    ∃ run, ∀ s, exec c s = frameArrival (passFrame (ifAttached run)) s := by
  rcases kind with request | ⟨stream, seq, commands, rfl⟩ | ⟨key, sector, data, rfl⟩
  · obtain ⟨⟨tag, kind⟩, request⟩ := Option.isSome_iff_exists.1 request
    obtain ⟨run, arrives⟩ := exec_request request good
    exact ⟨_, arrives⟩
  · simp only [Instr.wf, Bool.and_eq_true, decide_eq_true_eq] at good
    exact ⟨_, exec_draw_fits (List.length_pos_iff.1 good.1) good.2 _ _⟩
  · exact ⟨_, exec_tile (by simpa [Instr.wf] using good) _ _⟩

/-- Every frame command: one that spells a payload, BAD_FRAME, or a request. -/
theorem isFrame_iff (c : Instr) : isFrame c = true ↔ c = .badFrame ∨ (payloadOf c).isSome = true ∨ (requestOf c).isSome = true := by
  unfold isFrame
  rw [Bool.or_eq_true, Bool.or_eq_true, beq_iff_eq, or_assoc]

/-- What has a payload: HELLO, IDLE, DRAW, TILE, and a request with arguments. -/
theorem payloadOf_cases {c : Instr} (spelled : (payloadOf c).isSome = true) :
    (∃ n, c = .hello n) ∨ c = .idle ∨ (∃ stream seq commands, c = .draw stream seq commands) ∨
      (∃ key sector data, c = .tile key sector data) ∨ (requestOf c).isSome = true := by
  by_contra h
  simp only [not_or, not_exists, Bool.not_eq_true, Option.isSome_eq_false_iff, Option.isNone_iff_eq_none] at h
  obtain ⟨hello, idle, draw, tile, request⟩ := h
  rw [payloadOf_none request hello idle draw tile] at spelled
  cases spelled

/-- R4, R5: a frame command is the arrival of a passing frame. -/
theorem exec_frame {c : Instr} (frame : isFrame c = true) : ∃ dispatch, ∀ s, exec c s = frameArrival (passFrame dispatch) s := by
  rcases good : c.wf with _ | _
  · exact ⟨_, exec_unspellable good⟩
  · have attached := exec_attached good
    rcases (isFrame_iff c).1 frame with rfl | payload | request
    · exact ⟨count .badFrame, fun _ => rfl⟩
    · rcases payloadOf_cases payload with ⟨n, rfl⟩ | rfl | draw | tile | request
      · exact ⟨takeHello n, fun _ => rfl⟩
      · exact ⟨id, fun _ => rfl⟩
      · obtain ⟨run, arrives⟩ := attached (.inr (.inl draw))
        exact ⟨_, arrives⟩
      · obtain ⟨run, arrives⟩ := attached (.inr (.inr tile))
        exact ⟨_, arrives⟩
      · obtain ⟨run, arrives⟩ := attached (.inl request)
        exact ⟨_, arrives⟩
    · obtain ⟨run, arrives⟩ := attached (.inl request)
      exact ⟨_, arrives⟩

/-! ### Passing frames outside UP (R4) -/

theorem passFrame_framing_ends (dispatch : State → State) {s : State} (framing : s.lc.link = .framing) :
    (s.lc.framingCount + 1 < 4 →
      endsAs { s with lc.framingCount := s.lc.framingCount + 1 } [] (passFrame dispatch s)) ∧
    (4 ≤ s.lc.framingCount + 1 →
      endsAs { s with lc.link := .up, lc.framingCount := s.lc.framingCount + 1, lc.failureCount := 0 } [.linkUp]
        (passFrame dispatch s)) := by
  rw [passFrame_framing dispatch framing]
  refine ⟨fun fewer => ?_, fun enough => ?_⟩
  · rw [if_neg (Nat.not_le.2 fewer)]
    exact endsAs_refl _
  · rw [if_pos enough]
    exact (endsAs_refl _).count _

theorem spelled_isSome (c : Instr) : (spelled c).isSome = (payloadOf c).isSome := Option.isSome_map

/-- Settles O11: every frame command is the arrival of a passing frame, and outside UP its dispatch does not matter. -/
theorem passingFramesReachUp : Obligations.PassingFramesReachUp := by
  refine ⟨fun c => ?_, fun c s frame => ?_⟩
  · rw [isFrame_iff, spelled_isSome]
    constructor
    · rintro (bad | payload | request)
      · exact .inl bad
      · exact .inr (.inr payload)
      · obtain ⟨⟨tag, kind⟩, request⟩ := Option.isSome_iff_exists.1 request
        rcases argsOf_request request with bad | args
        · exact .inr (.inl ⟨_, _, bad⟩)
        · obtain ⟨args, known⟩ := Option.isSome_iff_exists.1 args
          exact .inr (.inr (by rw [payloadOf_request request known]; rfl))
    · rintro (bad | ⟨tag, kind, rfl⟩ | payload)
      · exact .inl bad
      · exact .inr (.inr rfl)
      · exact .inr (.inl payload)
  · obtain ⟨dispatch, arrives⟩ := exec_frame frame
    rw [arrives]
    refine ⟨fun below => frameArrival_none _ ?_, fun framing fewer => ?_, fun framing enough => ?_⟩
    · rcases below with down | aligning
      · exact assembles_down down
      · exact assembles_aligning aligning
    · exact ⟨_, frameArrival_eq _ (assembles_framing framing), ((passFrame_framing_ends dispatch framing).1 fewer).conclude s⟩
    · exact ⟨_, frameArrival_eq _ (assembles_framing framing), ((passFrame_framing_ends dispatch framing).2 enough).conclude s⟩

/-! ### Frames in UP without an effect (R16) -/

/-- Settles O12: IDLE, BAD_FRAME and what no frame can hold; and what an attachment other than ATTACHED does not take. -/
theorem framesWithoutAnEffect : Obligations.FramesWithoutAnEffect := by
  have bad {s : State} (up : s.lc.link = .up) :
      ∃ t, frameArrival (passFrame (count .badFrame)) s = .next t ∧ endsAs (passed s) [.badFrame] t :=
    frame_up_ends up ((endsAs_refl (passed s)).count .badFrame)
  refine ⟨wf_false_iff, fun s up => ⟨?_, bad up, fun c unspellable => ?_⟩, fun c s up elsewhere good kind => ?_⟩
  · exact frame_up_ends up (endsAs_refl (passed s))
  · rw [exec_unspellable unspellable]
    exact bad up
  · obtain ⟨run, arrives⟩ := exec_attached good kind
    rw [arrives]
    have dropped : ifAttached run (passed s) = count .notAttached (passed s) := ifAttached_no run elsewhere
    exact frame_up_ends up (dropped ▸ (endsAs_refl (passed s)).count .notAttached)

/-! ### Requests that are not carried out (R155) -/

/-- A request's tag and kind are the first bytes of its payload. -/
theorem requestOf_iff (c : Instr) (tag kind : Byte) : requestOf c = some (tag, kind) ↔ c = .badRequest tag kind ∨
    ∃ bs, spelled c = some bs ∧ byteAt bs 0 = 5 ∧ byteAt bs 2 = tag ∧ byteAt bs 3 = kind := by
  constructor
  · intro request
    rcases argsOf_request request with bad | args
    · exact .inl bad
    · obtain ⟨args, known⟩ := Option.isSome_iff_exists.1 args
      exact .inr ⟨_, spelled_of_payload (payloadOf_request request known), rfl, rfl, rfl⟩
  · rintro (rfl | ⟨bs, spelt, five, tagged, kinded⟩)
    · rfl
    · have payload : (payloadOf c).isSome = true := by rw [← spelled_isSome, spelt]; rfl
      rcases payloadOf_cases payload with ⟨n, rfl⟩ | rfl | ⟨stream, seq, commands, rfl⟩ | ⟨key, sector, data, rfl⟩ | request
      · cases spelt; exact absurd five (show (1 : Byte) ≠ 5 by decide)
      · cases spelt; exact absurd five (show (2 : Byte) ≠ 5 by decide)
      · cases spelt; exact absurd five (show (3 : Byte) ≠ 5 by decide)
      · cases spelt; exact absurd five (show (4 : Byte) ≠ 5 by decide)
      · obtain ⟨⟨tag', kind'⟩, request⟩ := Option.isSome_iff_exists.1 request
        rcases argsOf_request request with rfl | args
        · cases payload
        · obtain ⟨args, known⟩ := Option.isSome_iff_exists.1 args
          rw [spelled_of_payload (payloadOf_request request known)] at spelt
          cases spelt
          rw [request]
          exact congrArg some (Prod.ext tagged kinded)

/-- Settles O13: with no reply slot free, and with a request in progress. -/
theorem requestsThatAreNotTaken : Obligations.RequestsThatAreNotTaken := by
  refine ⟨requestOf_iff, fun c tag kind s request good up attached => ?_⟩
  obtain ⟨run, arrives⟩ := exec_request request good
  have met : ifAttached (takeRequest tag kind run) (passed s) = takeRequest tag kind run (passed s) := ifAttached_yes _ attached
  rw [arrives]
  refine ⟨fun full => frame_up_ends up ?_, fun busy room => frame_up_ends up ?_⟩
  · have discarded : takeRequest tag kind run (passed s) = count .reqDiscarded (passed s) := takeRequest_discarded _ _ _ full
    rw [met, discarded]
    exact (endsAs_refl (passed s)).count _
  · have answered : takeRequest tag kind run (passed s) = count .reqBusy (answer tag kind .busy (passed s)) :=
      takeRequest_busy _ _ _ busy room
    rw [met, answered]
    exact ((endsAs_refl (passed s)).postReply tag kind .busy []).count .reqBusy

end Sys2Proof.Machine
end

section
/-! PROOFS. Symbol groups (R1 to R3): alignment in DOWN and ALIGNING, the assembly of frames, and the first scans; the settlements of
O5 and O6. -/

namespace Sys2Proof.Machine

/-! ### A symbol group by the state of the link -/

theorem exec_symbolGroup (g : SymbolGroup) (s : State) : exec (.symbolGroup g) s = .next (conclude s (takeGroup g s)) := by rfl

theorem groupValid_iff (g : SymbolGroup) : groupValid g = true ↔ g ≠ .invalid := by cases g <;> simp [groupValid]

theorem restartLoss_valid {g : SymbolGroup} (valid : g ≠ .invalid) (s : State) : restartLoss g s = { s with lc.lossCount := 0 } :=
  if_pos ((groupValid_iff g).2 valid)

theorem restartLoss_invalid (s : State) : restartLoss .invalid s = s := rfl

@[simp] theorem restartLoss_link (g : SymbolGroup) (s : State) : (restartLoss g s).lc.link = s.lc.link := by
  unfold restartLoss
  split <;> rfl

theorem takeGroup_down (g : SymbolGroup) {s : State} (down : s.lc.link = .down) : takeGroup g s = downGroup g (restartLoss g s) := by
  simp only [takeGroup, restartLoss_link, down]

theorem takeGroup_aligning (g : SymbolGroup) {s : State} (aligning : s.lc.link = .aligning) :
    takeGroup g s = alignGroup g (restartLoss g s) := by
  simp only [takeGroup, restartLoss_link, aligning]

theorem assembles_iff (s : State) : assembles s = true ↔ s.lc.link = .framing ∨ s.lc.link = .up := by
  rw [assembles, Bool.or_eq_true, beq_iff_eq, beq_iff_eq]

theorem takeGroup_assembles (g : SymbolGroup) {s : State} (open' : s.lc.link = .framing ∨ s.lc.link = .up) :
    takeGroup g s = assembleGroup g (restartLoss g s) := by
  rcases open' with framing | up
  · simp only [takeGroup, restartLoss_link, framing]
  · simp only [takeGroup, restartLoss_link, up]

/-- A group's arrival ends as its taking does. -/
theorem group_ends {g : SymbolGroup} {s u : State} {us : List SubEvent} (h : endsAs u us (takeGroup g s)) :
    ∃ t, exec (.symbolGroup g) s = .next t ∧ endsAs u us t := ⟨_, exec_symbolGroup g s, h.conclude s⟩

/-! ### Alignment (R2) -/

theorem downGroup_valid {g : SymbolGroup} (valid : g ≠ .invalid) (s : State) :
    downGroup g s = { s with lc.link := .aligning, lc.alignCount := 1 } := if_pos ((groupValid_iff g).2 valid)

theorem downGroup_invalid (s : State) : downGroup .invalid s = s := rfl

theorem alignGroup_invalid (s : State) : alignGroup .invalid s = { s with lc.alignCount := 0 } := rfl

theorem alignGroup_fewer {g : SymbolGroup} (valid : g ≠ .invalid) {s : State} (fewer : s.lc.alignCount + 1 < 64) :
    alignGroup g s = { s with lc.alignCount := s.lc.alignCount + 1 } := by
  unfold alignGroup
  rw [if_pos ((groupValid_iff g).2 valid)]
  exact if_neg (Nat.not_le.2 fewer)

theorem alignGroup_enough {g : SymbolGroup} (valid : g ≠ .invalid) {s : State} (enough : 64 ≤ s.lc.alignCount + 1) :
    alignGroup g s = { s with
      lc.link := .framing, lc.alignCount := s.lc.alignCount + 1, lc.framingCount := 0, lc.assembly := none } := by
  unfold alignGroup
  rw [if_pos ((groupValid_iff g).2 valid)]
  exact if_pos enough

/-! ### The first scans (R137) -/

theorem doKeymapWrite_scans (tag : Byte) (entry : Half) (cls value : Byte) (s : State) :
    (doKeymapWrite tag entry cls value s).ks.scans = s.ks.scans := by
  unfold doKeymapWrite
  split
  · split <;> rfl
  · rfl

theorem doSettingsWrite_scans (tag : Byte) (r : Settings) (s : State) : (doSettingsWrite tag r s).ks.scans = s.ks.scans := by
  simp only [doSettingsWrite, clampCounts, mapKeys, answer, postReply]

theorem Happens.scanned {s u : State} (happens : Happens s u) : 2 ≤ s.ks.scans → 2 ≤ u.ks.scans := by
  refine Happens.keys (Legal := fun t => 2 ≤ t.ks.scans) (fun legal same => same.1 ▸ legal) (fun tag entry cls value s legal => ?_)
    (fun tag a b c d e f g h s legal => ?_) (fun contacts s legal => ?_) happens
  · rw [doKeymapWrite_scans]
    exact legal
  · rw [doSettingsWrite_scans]
    exact legal
  · simp only [scanKeys, Config.firstScans]
    omega

/-- A command ends with the link DOWN. -/
def endsDown (x : Result) : Prop := ∃ t, x = .next t ∧ t.lc.link = .down

section
variable {s u : State} (down : s.lc.link = .down)
include down

theorem endsDown_same : endsDown (.next s) := ⟨s, rfl, down⟩

/-- What leaves the records of Own alone leaves the link. -/
theorem endsDown_own (same : own u = own s) : endsDown (.next (conclude s u)) :=
  ⟨_, rfl, (congrArg Own.link ((conclude_own s u).trans same)).trans down⟩

theorem endsDown_keys (same : u.lc.link = s.lc.link) : endsDown (.next (conclude s u)) :=
  ⟨_, rfl, (congrArg Own.link (conclude_own s u)).trans (same.trans down)⟩

theorem frame_endsDown (effect : State → State) : endsDown (frameArrival effect s) :=
  ⟨s, frameArrival_none effect (assembles_down down), down⟩

theorem executionEnd_endsDown (side : Side) : endsDown (execExecutionEnd side s) := by
  unfold execExecutionEnd
  split
  · split
    · exact endsDown_own down ((finishExecution_kept _ _ _).trans (settle_kept _)).own
    · exact endsDown_same down
  · exact endsDown_same down

theorem layoutApplyEnd_endsDown : endsDown (execLayoutApplyEnd s) := by
  unfold execLayoutApplyEnd
  split
  · split
    · exact endsDown_own down ((finishApply_kept _ _).trans (finishResume_kept _)).own
    · exact endsDown_same down
  · exact endsDown_same down

theorem teardownFillEnd_endsDown : endsDown (execTeardownFillEnd s) := by
  unfold execTeardownFillEnd
  split
  · split
    · exact endsDown_own down (finishTeardownFill_kept _ _).own
    · exact endsDown_same down
  · exact endsDown_same down

theorem eraseDone_endsDown : endsDown (execEraseDone s) := by
  unfold execEraseDone
  split
  · exact endsDown_keys down (congrArg Own.link (((count_kept _ { s with flash := _ }).trans (endLong_kept _ _)).own))
  · exact endsDown_same down

theorem programDone_endsDown : endsDown (execProgramDone s) := by
  unfold execProgramDone
  split
  · refine endsDown_keys down ?_
    simp only [finishProgram]
    split
    · exact congrArg Own.link (((count_kept _ { s with flash := _ }).trans (endLong_kept _ _)).own)
    · exact congrArg Own.link ((((count_kept _ { s with flash := _ }).trans (count_kept _ _)).trans (endLong_kept _ _)).own)
  · exact endsDown_same down

theorem acknowledgement_endsDown (echo : Byte) : endsDown (execAcknowledgement echo s) := by
  unfold execAcknowledgement
  split
  · split
    · exact endsDown_own down (completeBlock_own _)
    · exact endsDown_own down (count_own _ _)
  · exact endsDown_own down (count_own _ _)

theorem blockTimeout_endsDown : endsDown (execBlockTimeout s) := by
  unfold execBlockTimeout
  split
  · split
    · exact endsDown_own down (timeOutBlock_own _ _)
    · exact endsDown_same down
  · exact endsDown_same down

theorem transmissionComplete_endsDown : endsDown (execTransmissionComplete s) := by
  unfold execTransmissionComplete
  split
  · exact endsDown_own down (completeItem_own _ _)
  · exact endsDown_same down

theorem endsDown_ite {p : Prop} [Decidable p] (link : p → u.lc.link = s.lc.link) :
    endsDown (if p then .next (conclude s u) else .next s) := by
  split
  next holds => exact endsDown_keys down (link holds)
  next => exact endsDown_same down

/-- A command other than a symbol group leaves the link DOWN when it finds it so. -/
theorem exec_endsDown {c : Instr} (notGroup : ∀ g, c ≠ .symbolGroup g) : endsDown (exec c s) := by
  by_cases frame : isFrame c = true
  · obtain ⟨dispatch, arrives⟩ := exec_frame frame
    rw [arrives]
    exact frame_endsDown down _
  cases c with
  | powerOnReset => exact ⟨_, rfl, powerOn_link _ _ _⟩
  | symbolGroup g => exact absurd rfl (notGroup g)
  | checkFail => exact frame_endsDown down _
  | lossDetectorExpiry => exact endsDown_ite down fun expired => absurd down ((lossExpired_iff s).1 expired).1
  | holdTimerExpiry => exact endsDown_ite down fun _ => congrArg Own.link (teardown_own s)
  | executionEnd side => exact executionEnd_endsDown down side
  | faultTimerExpiry side => exact endsDown_ite down fun _ => congrArg Own.link (expireFault_own side s)
  | transmissionComplete => exact transmissionComplete_endsDown down
  | layoutApplyEnd => exact layoutApplyEnd_endsDown down
  | teardownFillEnd => exact teardownFillEnd_endsDown down
  | sweepStep =>
    simp only [exec, execSweepStep]
    split
    · exact endsDown_own down (sweepSet_kept _ _).own
    · exact endsDown_same down
  | eraseDone => exact eraseDone_endsDown down
  | programDone => exact programDone_endsDown down
  | acknowledgement echo => exact acknowledgement_endsDown down echo
  | blockTimeout => exact blockTimeout_endsDown down
  | scan contacts => exact endsDown_ite down fun _ => by rw [(scanKeys_scanned contacts s).rest]
  | millisecondTick => exact endsDown_ite down fun _ => by rw [(countMillisecond_counted s).rest]
  | backlightPeriod => exact endsDown_ite down fun _ => rfl
  | _ => exact absurd rfl frame

end

/-- R137: with two scans taken they stay taken, but for a reset, which takes the link DOWN; with fewer the link is DOWN, and only a
valid group would move it. -/
theorem scansFirst_step (c : Instr) (s : State) (first : scansFirst s)
    (groups : s.lc.link = .down → ∀ g, c = .symbolGroup g → g ≠ .invalid → 2 ≤ s.ks.scans) :
    ∃ t, exec c s = .next t ∧ scansFirst t := by
  have kept {u : State} (scans : 2 ≤ u.ks.scans) : scansFirst (conclude s u) := fun _ =>
    (congrArg KeyScanner.scans (congrArg Own.ks (conclude_own s u))) ▸ scans
  by_cases power : c = .powerOnReset
  · subst power
    exact ⟨_, rfl, fun link => absurd (powerOn_link _ _ _) link⟩
  by_cases scanned : 2 ≤ s.ks.scans
  · rcases exec_ends c power s with same | ⟨u, happens, ended⟩
    · exact ⟨s, same, first⟩
    · exact ⟨_, ended, kept (happens.scanned scanned)⟩
  have down : s.lc.link = .down := by
    by_contra link
    exact scanned (first link)
  have ended : endsDown (exec c s) := by
    by_cases group : ∃ g, c = .symbolGroup g
    · obtain ⟨g, rfl⟩ := group
      have bad : g = .invalid := by
        by_contra valid
        exact scanned (groups down g rfl valid)
      subst bad
      rw [exec_symbolGroup, takeGroup_down _ down]
      exact endsDown_own down rfl
    · exact exec_endsDown down fun g same => group ⟨g, same⟩
  obtain ⟨t, next, link⟩ := ended
  exact ⟨t, next, fun off => absurd link off⟩

/-- Settles O5. -/
theorem groupsAlignTheLink : Obligations.GroupsAlignTheLink := by
  refine ⟨fun g s => ⟨fun down bad => ?_, fun down valid => ?_, fun aligning bad => ?_, fun aligning valid fewer => ?_,
    fun aligning valid enough => ?_⟩, scansFirst_step⟩
  · subst bad
    exact group_ends (takeGroup_down _ down ▸ endsAs_refl s)
  · refine group_ends ?_
    rw [takeGroup_down g down, restartLoss_valid valid, downGroup_valid valid]
    exact endsAs_refl _
  · subst bad
    refine group_ends ?_
    rw [takeGroup_aligning _ aligning, alignGroup_invalid]
    exact endsAs_refl _
  · refine group_ends ?_
    rw [takeGroup_aligning g aligning, restartLoss_valid valid, alignGroup_fewer valid (s := { s with lc.lossCount := 0 }) fewer]
    exact endsAs_refl _
  · refine group_ends ?_
    rw [takeGroup_aligning g aligning, restartLoss_valid valid, alignGroup_enough valid (s := { s with lc.lossCount := 0 }) enough]
    exact endsAs_refl _

/-! ### The assembly of frames (R3) -/

/-- The bookkeeping of an event sees of the state before it what the conditions of the Monitor read. -/
theorem conclude_before {b b' : State} (same : ∀ c, holds b c = holds b' c) (v : State) : conclude b v = conclude b' v := by
  simp only [conclude, countEdges, same]

theorem checkFail_eq {s t : State} (open' : t.lc.link = .framing ∨ t.lc.link = .up) (same : ∀ c, holds s c = holds t c) :
    exec .checkFail t = .next (conclude s (failFrame t)) := by
  rw [exec_checkFail, frameArrival_eq _ ((assembles_iff t).2 open'), conclude_before same]

theorem holds_receive (assembly : Option (List Byte)) (loss : Nat) (s : State) (c : Condition) :
    holds s c = holds { s with lc.assembly := assembly, lc.lossCount := loss } c := by cases c <;> rfl

theorem le16_half (lo hi : Byte) : le16 (half lo hi) = [lo, hi] := by
  rw [le16, half, BitVec.extractLsb'_append_eq_right, BitVec.extractLsb'_append_eq_left]

theorem half_le16 (v : Half) : half (v.extractLsb' 0 8) (v.extractLsb' 8 8) = v := BitVec.extractLsb'_append_extractLsb'

theorem byteAt_append_right (xs ys : List Byte) (i : Nat) : byteAt (xs ++ ys) (xs.length + i) = byteAt ys i := by
  rw [byteAt, byteAt, List.getD_eq_getElem?_getD, List.getD_eq_getElem?_getD, List.getElem?_append_right (Nat.le_add_right _ _),
    Nat.add_sub_cancel_left]

theorem halfAt_append_right (xs ys : List Byte) (i : Nat) : halfAt (xs ++ ys) (xs.length + i) = halfAt ys i := by
  rw [halfAt, Nat.add_assoc, byteAt_append_right, byteAt_append_right, halfAt]

/-- A list of at least two bytes, its last two apart. -/
theorem exists_last_two {bs : List Byte} {n : Nat} (long : bs.length = n + 2) :
    ∃ (front : List Byte) (lo hi : Byte), bs = front ++ [lo, hi] ∧ front.length = n := by
  obtain ⟨lo, hi, last⟩ := List.length_eq_two.1 (show (bs.drop n).length = 2 by rw [List.length_drop]; omega)
  exact ⟨bs.take n, lo, hi, by rw [← last, List.take_append_drop], by rw [List.length_take]; omega⟩

/-- R3: the check of a frame by its header, its payload and the two bytes that close it. -/
theorem framePasses_split (kind size : Byte) (payload : List Byte) (lo hi : Byte) :
    framePasses ([kind, size] ++ payload ++ [lo, hi]) = true ↔
      payload.length = size.toNat ∧ payload.length ≤ 160 ∧ half lo hi = frameCheck ([kind, size] ++ payload) := by
  have sized : byteAt ([kind, size] ++ payload ++ [lo, hi]) 1 = size := rfl
  have front : ([kind, size] ++ payload).length = payload.length + 2 := by simp
  have long : ([kind, size] ++ payload ++ [lo, hi]).length = payload.length + 4 := by simp
  simp only [framePasses, Bool.and_eq_true, decide_eq_true_eq, beq_iff_eq, Config.maxPayload, sized, long]
  constructor
  · rintro ⟨⟨⟨_, same⟩, short⟩, passes⟩
    have length : payload.length = size.toNat := Nat.add_right_cancel same
    rw [← length, ← front, List.take_left] at passes
    exact ⟨length, length ▸ short, (halfAt_append_right _ [lo, hi] 0).symm.trans passes⟩
  · rintro ⟨length, short, passes⟩
    rw [← length, ← front, List.take_left]
    exact ⟨⟨⟨Nat.le_add_left _ _, rfl⟩, short⟩, (halfAt_append_right _ [lo, hi] 0).trans passes⟩

/-- R3: which frames pass: their length is the one they give, at most 160 bytes of payload, and their check is the one computed. -/
theorem framePasses_iff (bs : List Byte) : framePasses bs = true ↔ ∃ (head payload : List Byte) (kind : Byte),
    head = [kind, BitVec.ofNat 8 payload.length] ∧ payload.length ≤ 160 ∧
      bs = head ++ payload ++ le16 (frameCheck (head ++ payload)) := by
  constructor
  · intro passes
    have whole : 4 ≤ bs.length := by
      simp only [framePasses, Bool.and_eq_true, decide_eq_true_eq] at passes
      exact passes.1.1.1
    obtain ⟨front, lo, hi, rfl, long⟩ := exists_last_two (show bs.length = bs.length - 2 + 2 by omega)
    have two : 2 ≤ front.length := by simpa using whole
    obtain _ | ⟨kind, _ | ⟨size, payload⟩⟩ := front
    · exact absurd two (by decide)
    · exact absurd two (Nat.not_succ_le_self 1)
    obtain ⟨length, short, check⟩ := (framePasses_split kind size payload lo hi).1 passes
    have head : [kind, BitVec.ofNat 8 payload.length] = [kind, size] := by rw [length, BitVec.ofNat_toNat]; rfl
    exact ⟨_, payload, kind, rfl, short, by rw [head, ← check, le16_half]; rfl⟩
  · rintro ⟨head, payload, kind, rfl, short, rfl⟩
    have small : (BitVec.ofNat 8 payload.length).toNat = payload.length := Nat.mod_eq_of_lt (by omega)
    exact (framePasses_split _ _ _ _ _).2 ⟨small.symm, short, half_le16 _⟩

/-! ### Groups while frames are assembled (R3) -/

section
variable {s : State} (open' : s.lc.link = .framing ∨ s.lc.link = .up)
include open'

/-- A group that leaves the state as its valid arrival does. -/
theorem valid_ends {g : SymbolGroup} (valid : g ≠ .invalid)
    (same : assembleGroup g { s with lc.lossCount := 0 } = { s with lc.lossCount := 0 }) :
    ∃ t, exec (.symbolGroup g) s = .next t ∧ endsAs { s with lc.lossCount := 0 } [] t := by
  refine group_ends ?_
  rw [takeGroup_assembles g open', restartLoss_valid valid, same]
  exact endsAs_refl _

theorem openFrame_assembling : openFrame s = { s with lc.assembly := some [] } := if_pos ((assembles_iff s).2 open')

/-- A frame that fails while it is open: the arrival of a failing frame. -/
theorem group_fails {g : SymbolGroup} (valid : g ≠ .invalid)
    (fails : assembleGroup g { s with lc.lossCount := 0 } = failFrame { s with lc.assembly := none, lc.lossCount := 0 }) :
    exec (.symbolGroup g) s = exec .checkFail { s with lc.assembly := none, lc.lossCount := 0 } := by
  rw [checkFail_eq (t := { s with lc.assembly := none, lc.lossCount := 0 }) open' (holds_receive _ _ s), exec_symbolGroup,
    takeGroup_assembles g open', restartLoss_valid valid, fails]

end

section
variable (s : State)

theorem assembleGroup_filler : assembleGroup .filler s = s := by
  unfold assembleGroup
  cases s.lc.assembly <;> rfl

/-- R3: with no frame open only a start delimiter has an effect. -/
theorem assembleGroup_closed (closed : s.lc.assembly = none) :
    assembleGroup .startDelimiter s = openFrame s ∧ assembleGroup .invalid s = s ∧ assembleGroup .endDelimiter s = s ∧
      ∀ b, assembleGroup (.data b) s = s := by
  simp only [assembleGroup, closed, true_and, implies_true]

/-- R3: what a group does to an open frame. -/
theorem assembleGroup_open {bs : List Byte} (filling : s.lc.assembly = some bs) :
    assembleGroup .startDelimiter s = openFrame (failOpen s) ∧ assembleGroup .invalid s = failOpen s ∧
      assembleGroup .endDelimiter s = closeFrame bs s ∧ ∀ b, assembleGroup (.data b) s = appendByte bs b s := by
  simp only [assembleGroup, filling, true_and, implies_true]

end

theorem failFrame_framing_start {s : State} (framing : s.lc.link = .framing) :
    endsAs { s with lc.framingCount := 0, lc.assembly := some [] } [.checkFail] (openFrame (failFrame s)) := by
  rw [failFrame_framing framing, openFrame_assembling (.inl (by rw [count_lc]; exact framing))]
  exact ((endsAs_refl { s with lc.framingCount := 0 }).count .checkFail).lc fun lc => { lc with assembly := some [] }

theorem failFrame_up_start {s : State} (up : s.lc.link = .up) (more : s.lc.failureCount + 1 < 4) :
    endsAs { s with lc.failureCount := s.lc.failureCount + 1, lc.assembly := some [] } [.checkFail] (openFrame (failFrame s)) := by
  rw [failFrame_up up, if_neg (Nat.not_le.2 more), openFrame_assembling (.inr (by rw [count_lc]; exact up))]
  exact ((endsAs_refl { s with lc.failureCount := s.lc.failureCount + 1 }).count .checkFail).lc fun lc =>
    { lc with assembly := some [] }

theorem leaveUp_link (cause : DepartCause) (s : State) : (leaveUp cause s).lc.link = s.lc.link :=
  (congrArg Own.link (leaveUp_own cause s)).trans (by split <;> rfl)

/-- R5: the fourth failure in a row takes the link out of UP, and no frame is opened. -/
theorem failFrame_up_fourth {s : State} (up : s.lc.link = .up) (fourth : 4 ≤ s.lc.failureCount + 1) :
    openFrame (failFrame s) = failFrame s := by
  have link : (failFrame s).lc.link = .aligning := by
    rw [failFrame_up up, if_pos fourth, leaveUp_link, count_lc, count_lc]
  unfold openFrame
  rw [assembles_aligning link]
  rfl

/-- Settles O6: by whether a frame is open, and by the group. -/
theorem groupsAssembleFrames : Obligations.GroupsAssembleFrames := by
  refine ⟨framePasses_iff, fun s open' => ⟨fun closed => ?_, ?_, fun bs filling => ?_⟩⟩
  · obtain ⟨start, bad, last, data⟩ := assembleGroup_closed { s with lc.lossCount := 0 } closed
    refine ⟨group_ends ?_, group_ends ?_, valid_ends open' (by decide) last, fun b => valid_ends open' (by simp) (data b)⟩
    · rw [takeGroup_assembles _ open', restartLoss_valid (by decide), start, openFrame_assembling (s := { s with lc.lossCount := 0 }) open']
      exact endsAs_refl _
    · rw [takeGroup_assembles _ open', restartLoss_invalid, (assembleGroup_closed s closed).2.1]
      exact endsAs_refl _
  · exact valid_ends open' (by decide) (assembleGroup_filler _)
  · obtain ⟨start, _, last, data⟩ := assembleGroup_open { s with lc.lossCount := 0 } filling
    obtain ⟨_, bad, _, _⟩ := assembleGroup_open s filling
    have starts : takeGroup .startDelimiter s = openFrame (failFrame { s with lc.assembly := none, lc.lossCount := 0 }) := by
      rw [takeGroup_assembles _ open', restartLoss_valid (by decide), start]
      rfl
    refine ⟨fun b room => group_ends ?_, fun b full => group_fails open' (by simp) ?_, ?_,
      fun wrong => group_fails open' (by decide) ?_, fun framing => group_ends ?_, fun up more => group_ends ?_,
      fun up fourth => ?_⟩
    · rw [takeGroup_assembles _ open', restartLoss_valid (by simp), data, appendByte,
        if_neg (show ¬ Config.maxFrameBytes < bs.length + 1 from Nat.not_lt.2 room)]
      exact endsAs_refl _
    · rw [data, appendByte, if_pos (show Config.maxFrameBytes < bs.length + 1 from Nat.lt_succ_of_le full)]
      rfl
    · rw [checkFail_eq (t := { s with lc.assembly := none }) open' (holds_receive none s.lc.lossCount s), exec_symbolGroup,
        takeGroup_assembles _ open', restartLoss_invalid, bad]
      rfl
    · rw [last, closeFrame, if_neg (by simp [wrong])]
    · rw [starts]
      exact failFrame_framing_start framing
    · rw [starts]
      exact failFrame_up_start up more
    · rw [checkFail_eq (t := { s with lc.assembly := none, lc.lossCount := 0 }) open' (holds_receive none 0 s), exec_symbolGroup,
        starts, failFrame_up_fourth (s := { s with lc.assembly := none, lc.lossCount := 0 }) up fourth]

end Sys2Proof.Machine
end

section
/-! PROOFS. The upstream lane (R17 to R19, R163): what completes on it and what the arbiter puts on it; the settlements of O17 and
O18. -/

namespace Sys2Proof.Machine

/-! ### Counting where no counter is selected -/

theorem addWhere_none {p : Counter → Bool} {s : State} (none : ∀ n : Fin 4, p s.mn.counters[n] = false) (fuel k : Nat) :
    addWhere fuel p k s = s := by
  have same : addCounters p k s = s := by
    have counters : (Vector.ofFn fun i : Fin 4 => if p s.mn.counters[i] then s.mn.counters[i].add k else s.mn.counters[i]) =
        s.mn.counters := by
      ext i bound
      rw [Vector.getElem_ofFn, if_neg (by rw [none ⟨i, bound⟩]; decide)]
      rfl
    simp only [addCounters]
    rw [counters]
  have full : newlySaturated p k s = [] := by
    refine List.filter_eq_nil_iff.2 fun i _ both => ?_
    rw [none i] at both
    cases both
  cases fuel with
  | zero => rfl
  | succ fuel => rw [addWhere, full, List.foldl_nil, same]

/-- R171: with no condition passing from not holding to holding the end of an event counts nothing. -/
theorem countEdges_none {before after : State} (same : ∀ c, holds before c = holds after c) : countEdges before after = after := by
  refine addWhere_none (fun n => ?_) 5 1
  rw [same]
  cases holds after after.mn.counters[n].condition <;> simp

/-! ### Items sent (R19) -/

/-- R163: the slot of a kind whose EVENT frame has left. -/
def eventSent (k : EventKind) (e : EventSlot) : EventSlot :=
  if e.renewed then { e with renewed := false, detail := if k.accumulates then e.renewal else e.detail }
  else { e with pending := false, detail := 0 }

theorem completeItem_event (k : EventKind) (s : State) :
    completeItem (.event k) s = count .eventSent (setEventSlot k (eventSent k (eventSlot k s)) s) := rfl

theorem exec_transmissionComplete {s : State} {x : Transmission} (sending : s.lc.tx = some x) :
    exec .transmissionComplete s =
      .next (conclude s (completeItem x.item { s with lc.tx := none, lc.laneOut := frameGroups x.frame })) := by
  show execTransmissionComplete s = _
  unfold execTransmissionComplete
  rw [sending]

theorem exec_transmissionComplete_none {s : State} (free : s.lc.tx = none) : exec .transmissionComplete s = .next s := by
  show execTransmissionComplete s = _
  unfold execTransmissionComplete
  rw [free]

/-- An item that is no event leaves the lane without a count. -/
theorem itemSent_ends {s u : State} {x : Transmission} (sending : s.lc.tx = some x)
    (completes : completeItem x.item { s with lc.tx := none, lc.laneOut := frameGroups x.frame } = u) :
    ∃ t, exec .transmissionComplete s = .next t ∧ endsAs u [] t := by
  refine ⟨_, exec_transmissionComplete sending, ?_⟩
  rw [completes]
  exact (endsAs_refl u).conclude s

theorem eventSent_eq (k : EventKind) (e : EventSlot) : eventSent k e =
    ⟨e.renewed && e.pending, if e.renewed then (if k.accumulates then e.renewal else e.detail) else 0, false, e.renewal⟩ := by
  obtain ⟨pending, detail, renewed, renewal⟩ := e
  cases renewed <;> rfl

theorem accumulates_iff (k : EventKind) : k.accumulates = true ↔ k = .regionStale ∨ k = .monitorSaturated := by
  cases k <;> simp [EventKind.accumulates]

/-- What the bookkeeping keeps of every slot when nothing is counted on the way: the renewal mask is emptied at the start of a
transmission, nothing else changes. -/
theorem arbitrate_slot (s : State) (k : EventKind) : eventSlot k (arbitrate s) =
    { eventSlot k s with renewal := if eventStarts k s (arbitrate s) then 0 else (eventSlot k s).renewal } :=
  (arbitrate_selected s).slots k

theorem EventSlot.ext_fields {e e' : EventSlot} (pending : e'.pending = e.pending) (detail : e'.detail = e.detail)
    (renewed : e'.renewed = e.renewed) {renewal : BitVec 24} (last : e'.renewal = renewal) : e' = { e with renewal := renewal } := by
  obtain ⟨_, _, _, _⟩ := e'
  subst pending detail renewed last
  rfl

/-- R163, R19: an EVENT frame has left whole. -/
theorem eventSent_ends {s : State} {k : EventKind} {f : List Byte} (sending : s.lc.tx = some ⟨.event k, f⟩)
    (unselected : k = .monitorSaturated → ∀ n : Fin 4, s.mn.counters[n].selects .eventSent = false) :
    ∃ t, exec .transmissionComplete s = .next t ∧
      endsAs (setEventSlot k (eventSent k (eventSlot k s)) { s with lc.tx := none, lc.laneOut := wholeOnLane f }) [.eventSent] t ∧
      ∀ j : EventKind, j = k ∨ j ≠ .monitorSaturated → eventSlot j t =
        { (if j = k then eventSent k (eventSlot k s) else eventSlot j s) with
          renewal := if (t.lc.tx.any fun x => x.item == .event j) = true then 0 else (eventSlot j s).renewal } := by
  have sent := ((endsAs_refl (setEventSlot k (eventSent k (eventSlot k s)) { s with
    lc.tx := none, lc.laneOut := wholeOnLane f })).count .eventSent).conclude s
  refine ⟨_, exec_transmissionComplete sending, sent, fun j known => ?_⟩
  have slot : eventSlot j (setEventSlot k (eventSent k (eventSlot k s)) { s with lc.tx := none, lc.laneOut := wholeOnLane f }) =
      if j = k then eventSent k (eventSlot k s) else eventSlot j s := by
    by_cases same : j = k
    · subst same
      rw [eventSlot_setEventSlot_self, if_pos rfl]
    · rw [eventSlot_setEventSlot_ne (Ne.symm same), if_neg same]
      rfl
  have renewal : (if j = k then eventSent k (eventSlot k s) else eventSlot j s).renewal = (eventSlot j s).renewal := by
    by_cases same : j = k
    · rw [if_pos same, eventSent_eq, same]
    · rw [if_neg same]
  have starts (t : State) : eventStarts j (setEventSlot k (eventSent k (eventSlot k s)) { s with
      lc.tx := none, lc.laneOut := wholeOnLane f }) t ↔ (t.lc.tx.any fun x => x.item == .event j) = true := and_iff_right rfl
  rw [← renewal, ← slot]
  by_cases other : j = .monitorSaturated
  · have quiet : completeItem (.event k) { s with lc.tx := none, lc.laneOut := frameGroups f } =
        setEventSlot k (eventSent k (eventSlot k s)) { s with lc.tx := none, lc.laneOut := wholeOnLane f } := by
      have saturated : k = .monitorSaturated := by
        rcases known with same | notSaturated
        · exact same.symm.trans other
        · exact absurd other notSaturated
      exact addWhere_none (s := setEventSlot k (eventSent k (eventSlot k s)) { s with
        lc.tx := none, lc.laneOut := wholeOnLane f }) (unselected saturated) 5 1
    rw [quiet, conclude, countEdges_none (fun c => by cases c <;> rfl), arbitrate_slot]
    simp only [starts]
  · obtain ⟨_, ⟨_, _, events, _⟩, _⟩ := sent
    obtain ⟨pending, detail, renewed, renews⟩ := events j other
    simp only [starts] at renews
    exact EventSlot.ext_fields pending detail renewed renews

theorem faultSent_eq (r : FaultRecord) :
    (if r.renewed then { r with renewed := false } else { r with send := false }) =
      { r with renewed := false, send := r.renewed && r.send } := by
  obtain ⟨active, key, needed, waiting, tries, timer, send, renewed⟩ := r
  cases renewed <;> rfl

theorem rewindSent_eq (r : Stream) :
    (if r.renewed then { r with renewed := false } else { r with rewind := none }) =
      { r with renewed := false, rewind := if r.renewed then r.rewind else none } := by
  obtain ⟨state, side, expected, rewind, renewed, reservation⟩ := r
  cases renewed <;> rfl

/-- Settles O17: by the item sent. -/
theorem transmissionCompleteRemovesItsItem : Obligations.TransmissionCompleteRemovesItsItem := by
  refine ⟨fun s => ⟨exec_transmissionComplete_none, fun f sending => ?_, fun f sending => ?_, fun f side sending => ?_,
    fun f i sending => ?_, fun f sending => ?_⟩, fun s k f sending unselected => ?_, fun s g free => ?_⟩
  · refine itemSent_ends sending ?_
    cases renewed : s.lc.greetRenewed <;> simp [completeItem, renewed, frameGroups]
  · exact itemSent_ends sending rfl
  · exact itemSent_ends sending (congrArg (fun r => setRecord side r _) (faultSent_eq (recordOf side s)))
  · exact itemSent_ends sending (congrArg (fun r => setStream i r _) (rewindSent_eq (streamOf i s)))
  · exact itemSent_ends sending rfl
  · obtain ⟨t, next, ⟨rest, ⟨selections, tracker, _, _⟩, counted⟩, slots⟩ := eventSent_ends sending unselected
    refine ⟨t, next, by rw [rest]; rfl, ?_, ?_, ?_, ?_, ?_, ?_, counted, by rw [rest]; rfl, tracker, ?_⟩
    · rw [slots k (.inl rfl), if_pos rfl, eventSent_eq]
    · rw [slots k (.inl rfl), if_pos rfl, eventSent_eq]
    · intro renewed
      rw [slots k (.inl rfl), if_pos rfl, eventSent_eq]
      simp only [renewed, if_true, accumulates_iff]
    · intro once
      rw [slots k (.inl rfl), if_pos rfl, eventSent_eq]
      simp only [once, Bool.false_eq_true, if_false]
    · intro j other notSaturated
      rw [slots j (.inr notSaturated), if_neg other]
      exact ⟨rfl, rfl, rfl⟩
    · intro j known
      rw [slots j known]
    · rw [rest]
      rfl
  · rw [laneCarries, free]
    exact beq_iff_eq

/-! ### What the arbiter puts on the lane (R17, R18) -/

/-- The lane is as it was, or free. -/
def laneFreed (s u : State) : Prop := u.lc.tx = s.lc.tx ∨ u.lc.tx = none

theorem laneFreed.trans {s t u : State} (h : laneFreed s t) (g : laneFreed t u) : laneFreed s u := by
  rcases g with same | free
  · rcases h with kept | free
    · exact .inl (same.trans kept)
    · exact .inr (same.trans free)
  · exact .inr free

theorem Kept.laneFreed {s t : State} (h : Kept s t) : laneFreed s t := .inl h.same_tx

theorem cutAssembly_tx (s : State) : (cutAssembly s).lc.tx = s.lc.tx := by
  unfold cutAssembly
  split
  · rw [count_lc]
  · rfl

theorem expireLoss_laneFreed (s : State) : laneFreed s (expireLoss s) := by
  refine laneFreed.trans ?_ (count_kept _ _).laneFreed
  split
  · exact .inr (leaveUp_tx _ _)
  · exact .inl (cutAssembly_tx _)

theorem failFrame_laneFreed (s : State) : laneFreed s (failFrame s) := by
  unfold failFrame
  split
  · exact .inl (by rw [count_lc])
  · split
    · exact .inr (leaveUp_tx _ _)
    · exact .inl (by rw [count_lc])
  · exact .inl rfl
  · exact .inl rfl

theorem freshAttach_tx (number : Word) (s : State) : (freshAttach number s).lc.tx = s.lc.tx := by
  rw [freshAttach, flagGreet_tx]
  split <;> rfl

theorem queueReport_tx (r : Report) (s : State) : (queueReport r s).lc.tx = s.lc.tx := by
  unfold queueReport
  split
  · rfl
  · split <;> rw [count_lc]

theorem reattach_tx (s : State) : (reattach s).lc.tx = s.lc.tx := by
  rw [reattach, count_lc, raiseEvent_lc, reattachSnapshot, queueReport_tx, count_lc]
  exact (((flagOpenRewinds_kept .reattach _).trans (representFault_kept .a _)).trans (representFault_kept .b _)).same_tx.trans
    (flagGreet_tx _ _)

/-- R13: a HELLO of another tablet ends the session, and with it what is on the lane. -/
theorem takeHello_other {number : Word} {s : State} (attached : s.lc.attachment ≠ .unattached)
    (other : number ≠ s.lc.attachNumber) : takeHello number s = freshAttach number (teardown s) := by
  unfold takeHello
  split
  next unattached => exact absurd unattached attached
  next => rw [if_neg other]
  next => rw [if_neg other]

theorem takeHello_laneFreed (number : Word) (s : State) : laneFreed s (takeHello number s) := by
  have again : laneFreed s (freshAttach number (teardown s)) := .inr ((freshAttach_tx _ _).trans (teardown_tx s))
  unfold takeHello
  split
  · exact .inl (freshAttach_tx _ _)
  · split
    · exact .inl (flagGreet_tx _ _)
    · exact again
  · split
    · exact .inl (reattach_tx s)
    · exact again

theorem Happens.laneFreed {s u : State} (h : Happens s u) : laneFreed s u := by
  induction h with
  | nothing => exact .inl rfl
  | andThen _ _ first next => exact first.trans next
  | counted x s => exact (count_kept x s).laneFreed
  | lossRestarts g s =>
    unfold restartLoss
    split <;> exact .inl rfl
  | groupDown g down =>
    unfold downGroup
    split <;> exact .inl rfl
  | groupAligning g aligning =>
    unfold alignGroup
    split
    · split <;> exact .inl rfl
    · exact .inl rfl
  | assembly a assembling => exact .inl rfl
  | fails assembling => exact failFrame_laneFreed _
  | framing framing =>
    rw [passFrame_framing _ framing]
    split
    · exact .inl (by rw [count_lc])
    · exact .inl rfl
  | passes up => exact .inl rfl
  | lossExpires expired => exact expireLoss_laneFreed _
  | hello number up => exact takeHello_laneFreed number _
  | holdExpires expired => exact .inr (teardown_tx _)
  | transmitted sending => exact .inr (completeItem_tx _ _)
  | draw stream seq commands _ _ => exact (doDraw_kept stream seq commands _).laneFreed
  | tile key sector data _ _ => exact (doTile_kept key sector data _).laneFreed
  | executionEnds busy writing => exact ((finishExecution_kept _ _ _).trans (settle_kept _)).laneFreed
  | faultExpires expired => exact (expireFault_kept _ _).laneFreed
  | busy tag kind _ _ => exact (answer_kept tag kind _ _).laneFreed
  | answered tag kind status _ => exact (answer_kept tag kind status _).laneFreed
  | tableRead tag table first number _ => exact (doTableRead_kept tag table first number _).laneFreed
  | headerWrite tag border undocked _ => exact (doHeaderWrite_kept tag border undocked _).laneFreed
  | regionWrite tag i enabled ox oy rw rh background _ => exact (doRegionWrite_kept tag i enabled ox oy rw rh background _).laneFreed
  | streamWrite tag i stale _ => exact (doStreamWrite_kept tag i stale _).laneFreed
  | keymapWrite tag entry cls value _ =>
    unfold doKeymapWrite
    split
    · split <;> exact .inl rfl
    · exact .inl rfl
  | settingsWrite tag a b c d e f g h _ => exact .inl rfl
  | panelWrite tag width height level _ => exact (doPanelWrite_kept tag width height level _).laneFreed
  | streamOpen tag stream start _ => exact (doStreamOpen_kept tag stream start _).laneFreed
  | streamClose tag stream _ => exact (doStreamClose_kept tag stream _).laneFreed
  | quiesce tag _ => exact (doQuiesce_kept tag _).laneFreed
  | resume tag _ => exact (doResume_kept tag _).laneFreed
  | tileFlush tag _ => exact (doTileFlush_kept tag _).laneFreed
  | tilePin tag key _ => exact (doTilePin_kept tag key _).laneFreed
  | tileUnpin tag key _ => exact (doTileUnpin_kept tag key _).laneFreed
  | panelRestart tag _ => exact (doPanelRestart_kept tag _).laneFreed
  | dockReset tag _ => exact dockReset_tx _
  | storeErase tag page _ => exact (doStoreErase_kept tag page _).laneFreed
  | storeWrite tag offset data _ => exact (doStoreWrite_kept tag offset data _).laneFreed
  | storeRead tag offset number _ => exact (doStoreRead_kept tag offset number _).laneFreed
  | monitorSet tag entry mode group unitMask condition _ =>
    unfold doMonitorSet
    split
    · split <;> exact .inl rfl
    · split <;> exact .inl rfl
  | applyEnds applying writing => exact ((finishApply_kept _ _).trans (finishResume_kept _)).laneFreed
  | fillEnds filling writing => exact (finishTeardownFill_kept _ _).laneFreed
  | sweeps sweeping => exact (sweepSet_kept _ _).laneFreed
  | erases current op => exact .inl ((((count_kept _ _).trans (endLong_kept _ _))).same_tx)
  | programs current op =>
    simp only [finishProgram]
    split
    · exact .inl (((count_kept _ _).trans (endLong_kept _ _)).same_tx)
    · exact .inl ((((count_kept _ _).trans (count_kept _ _)).trans (endLong_kept _ _)).same_tx)
  | acknowledged sent =>
    exact .inl ((selectBlock_tallies _).saturates.lane.trans (by rw [count_lc, endReading_rest]))
  | timesOut sent ended =>
    refine .inl ?_
    simp only [timeOutBlock]
    split
    · rw [(selectBlock_tallies _).saturates.lane, count_lc, endReading_rest]
    · rw [raiseEvent_lc, count_lc, count_lc, endReading_rest]
  | scans contacts due => exact .inl (by rw [(scanKeys_scanned contacts _).rest])
  | millisecond due => exact .inl (by rw [(countMillisecond_counted _).rest])
  | period due => exact .inl rfl

/-- R18: what the arbiter puts on a lane that is free. -/
theorem arbitrate_starts {v : State} {x : Transmission} (free : v.lc.tx = none) (starts : (arbitrate v).lc.tx = some x) :
    v.lc.link = .up ∧ v.lc.attachment = .attached ∧ nextItem v = some x.item ∧ x.frame = frameOf x.item v := by
  unfold arbitrate at starts
  split at starts
  next may =>
    simp only [mayTransmit, Bool.and_eq_true, beq_iff_eq] at may
    split at starts
    next item next =>
      rw [emptyRenewal_lc] at starts
      cases starts
      exact ⟨may.1.2, may.2, next, rfl⟩
    next => rw [free] at starts; cases starts
  next => rw [free] at starts; cases starts

theorem cutAllButGreet_tx {s : State} (cut : ∀ y, s.lc.tx = some y → y.item ≠ .greet) : (cutAllButGreet s).lc.tx = none := by
  unfold cutAllButGreet
  split
  · exact cutTx_tx s
  next kept =>
    rcases lane : s.lc.tx with _ | y
    · rfl
    · exact absurd (by rw [lane]; simpa using cut y lane) kept

/-- R20: DOCK_RESET leaves the lane as its cut does. -/
theorem doDockReset_tx (tag : Byte) (s : State) : (doDockReset tag s).lc.tx = (cutAllButGreet s).lc.tx :=
  ((resetStreams_kept { cutAllButGreet s with lc.keys := [], lc.replies := [] }).trans
    ((resetCache_kept _).trans (resetFaults_kept _))).same_tx

theorem powerOn_tx (flash : List Host.Cell) (free : Nat) (pending : List Instr) : (powerOn flash free pending).lc.tx = none := by
  unfold powerOn
  refine (selectBlock_tallies _).saturates.lane.trans ?_
  split
  · rfl
  · exact (raiseEvent_kept (by decide) _ _).same_tx

/-- A command that ends with a transmission of its own starts it at the end of its event. -/
theorem exec_starts {c : Instr} {s t : State} {x : Transmission} (next : exec c s = .next t) (sending : t.lc.tx = some x)
    (own : s.lc.tx ≠ some x ∨ c = .transmissionComplete ∨
      (∃ n, c = .hello n ∧ s.lc.link = .up ∧ s.lc.attachment ≠ .unattached ∧ n ≠ s.lc.attachNumber) ∨
      (∃ tag, c = .dockReset tag ∧ takesRequest s ∧ ∀ y, s.lc.tx = some y → y.item ≠ .greet)) :
    ∃ v, v.lc.tx = none ∧ t = arbitrate v := by
  have ended {u : State} (free : u.lc.tx = none) (ends : exec c s = .next (conclude s u)) : ∃ v, v.lc.tx = none ∧ t = arbitrate v := by
    rw [ends] at next
    cases next
    exact ⟨countEdges s u, by rw [countEdges_lc]; exact free, rfl⟩
  rcases own with other | rfl | ⟨n, rfl, up, attached, other⟩ | ⟨tag, rfl, taken, cut⟩
  · by_cases power : c = .powerOnReset
    · subst power
      cases next
      rw [powerOn_tx] at sending
      cases sending
    rcases exec_ends c power s with same | ⟨u, happens, ends⟩
    · rw [same] at next
      cases next
      exact absurd sending other
    · refine ended ?_ ends
      rcases happens.laneFreed with same | free
      · rcases lane : u.lc.tx with _ | y
        · rfl
        · rw [ends] at next
          cases next
          rw [conclude_tx s u (by rw [lane]; rfl), same] at sending
          exact absurd sending other
      · exact free
  · rcases lane : s.lc.tx with _ | y
    · rw [exec_transmissionComplete_none lane] at next
      cases next
      rw [lane] at sending
      cases sending
    · exact ended (completeItem_tx _ _) (exec_transmissionComplete lane)
  · refine ended (u := takeHello n (passed s)) ?_ ?_
    · rw [takeHello_other (s := passed s) attached other, freshAttach_tx]
      exact teardown_tx _
    · rw [exec_hello, execHello, frameArrival_eq _ (assembles_up up), passFrame_up _ up]
  · refine ended ?_ (requestArrival_taken tag 0x0B (doDockReset tag) taken)
    rw [doDockReset_tx]
    refine cutAllButGreet_tx fun y lane => cut y ?_
    rw [count_lc] at lane
    exact lane

/-! ### The first class with something waiting (R18) -/

section
variable {v : State} {item : TxItem} (next : nextItem v = some item)
include next

theorem nextItem_greet (waits : v.lc.greet.isSome = true) : item = .greet := by
  rw [nextItem, if_pos waits] at next
  exact (Option.some.inj next).symm

theorem nextItem_keys (greet : v.lc.greet = none) (waits : v.lc.keys ≠ []) : item = .keys := by
  rw [nextItem, if_neg (by rw [greet]; decide), if_pos (by simpa using waits)] at next
  exact (Option.some.inj next).symm

theorem nextItem_faultA (greet : v.lc.greet = none) (keys : v.lc.keys = []) (waits : v.tf.recA.send = true) : item = .fault .a := by
  rw [nextItem, if_neg (by rw [greet]; decide), if_neg (by rw [keys]; decide), if_pos waits] at next
  exact (Option.some.inj next).symm

theorem nextItem_faultB (greet : v.lc.greet = none) (keys : v.lc.keys = []) (faultA : v.tf.recA.send = false)
    (waits : v.tf.recB.send = true) : item = .fault .b := by
  rw [nextItem, if_neg (by rw [greet]; decide), if_neg (by rw [keys]; decide), if_neg (by rw [faultA]; decide),
    if_pos waits] at next
  exact (Option.some.inj next).symm

theorem nextItem_later (greet : v.lc.greet = none) (keys : v.lc.keys = []) (faultA : v.tf.recA.send = false)
    (faultB : v.tf.recB.send = false) :
    (match nextRewind v with
      | some i => some (.rewind i)
      | none => if !v.lc.replies.isEmpty then some .reply else (nextEvent v).map .event) = some item := by
  rw [nextItem, if_neg (by rw [greet]; decide), if_neg (by rw [keys]; decide), if_neg (by rw [faultA]; decide),
    if_neg (by rw [faultB]; decide)] at next
  exact next

end

theorem nextRewind_some {v : State} {i : Fin 8} (waits : (streamOf i v).rewind.isSome = true)
    (lower : ∀ j : Fin 8, j < i → (streamOf j v).rewind = none) : nextRewind v = some i := by
  refine List.find?_eq_some_iff_getElem.2 ⟨waits, i.val, by simp, by simp, fun j below => ?_⟩
  rw [List.getElem_finRange, lower _ below]
  rfl

theorem nextRewind_none {v : State} (flagless : ∀ i : Fin 8, (streamOf i v).rewind = none) : nextRewind v = none :=
  List.find?_eq_none.2 fun i _ => by rw [flagless i]; decide

/-- The kinds stand in the order of their numbers. -/
theorem kinds_by_number (j : EventKind) :
    [EventKind.linkResumed, .regionStale, .backlight, .panelHalted, .monitorSaturated, .storeDefaulted][j.number.val]? = some j := by
  cases j <;> rfl

theorem nextEvent_some {v : State} {k : EventKind} (next : nextEvent v = some k) :
    (eventSlot k v).pending = true ∧ ∀ j : EventKind, j.number < k.number → (eventSlot j v).pending = false := by
  obtain ⟨pending, n, bound, here, before⟩ := List.find?_eq_some_iff_getElem.1 next
  have number : k.number.val = n := by
    have distinct : ∀ (n : Nat) (bound : n < 6),
        ([EventKind.linkResumed, .regionStale, .backlight, .panelHalted, .monitorSaturated, .storeDefaulted][n]).number.val = n := by
      decide
    rw [← here]
    exact distinct n bound
  refine ⟨pending, fun j below => ?_⟩
  have earlier := before j.number.val (number ▸ below)
  obtain ⟨inList, found⟩ := List.getElem?_eq_some_iff.1 (kinds_by_number j)
  rw [found] at earlier
  simpa using earlier

/-- R18: the first class with something waiting, in a state that agrees with the one at the selection in what is sent. -/
theorem firstClass {v t : State} {item : TxItem} (next : nextItem v = some item) (lc : t.lc.greet = v.lc.greet ∧ t.lc.keys = v.lc.keys ∧
      t.lc.replies = v.lc.replies) (tf : t.tf = v.tf) (sq : t.sq = v.sq)
    (events : ∀ k, (eventSlot k t).pending = (eventSlot k v).pending) :
    (t.lc.greet.isSome = true → item = .greet) ∧
      (t.lc.greet = none → t.lc.keys ≠ [] → item = .keys) ∧
      (t.lc.greet = none → t.lc.keys = [] →
        (t.tf.recA.send = true → item = .fault .a) ∧
        (t.tf.recA.send = false → t.tf.recB.send = true → item = .fault .b) ∧
        (t.tf.recA.send = false → t.tf.recB.send = false →
          (∀ i : Fin 8, (streamOf i t).rewind.isSome = true → (∀ j : Fin 8, j < i → (streamOf j t).rewind = none) →
            item = .rewind i) ∧
          ((∀ i : Fin 8, (streamOf i t).rewind = none) →
            (t.lc.replies ≠ [] → item = .reply) ∧
            (t.lc.replies = [] → ∃ k, item = .event k ∧ (eventSlot k t).pending = true ∧
              ∀ j : EventKind, j.number < k.number → (eventSlot j t).pending = false)))) := by
  obtain ⟨greet, keys, replies⟩ := lc
  have streams (i : Fin 8) : streamOf i t = streamOf i v := by rw [streamOf, sq, streamOf]
  simp only [greet, keys, replies, tf, streams, events]
  refine ⟨nextItem_greet next, nextItem_keys next, fun none empty => ⟨nextItem_faultA next none empty,
    nextItem_faultB next none empty, fun faultA faultB => ?_⟩⟩
  have later := nextItem_later next none empty faultA faultB
  refine ⟨fun i waits lower => ?_, fun flagless => ?_⟩
  · rw [nextRewind_some waits lower] at later
    exact (Option.some.inj later).symm
  · rw [nextRewind_none flagless] at later
    refine ⟨fun waits => ?_, fun noReply => ?_⟩
    · rw [if_pos (by simpa using waits)] at later
      exact (Option.some.inj later).symm
    · rw [if_neg (by rw [noReply]; decide)] at later
      obtain ⟨k, first, rfl⟩ := Option.map_eq_some_iff.1 later
      exact ⟨k, rfl, nextEvent_some first⟩

/-! ### What is sent (sections 11.1, 11.5) -/

theorem status_code (x : Status) : ∃ n : Fin 15,
    [Status.ok, .busy, .badRequest, .badTable, .badIndex, .badValue, .readOnly, .notQuiesced, .streamIsOpen,
      .streamClosed, .regionDisabled, .overlap, .notPresent, .pinLimit, .storeMismatch][n.val]? = some x ∧
    x.code = BitVec.ofNat 8 n.val := by
  cases x
  · exact ⟨0, rfl, rfl⟩
  · exact ⟨1, rfl, rfl⟩
  · exact ⟨2, rfl, rfl⟩
  · exact ⟨3, rfl, rfl⟩
  · exact ⟨4, rfl, rfl⟩
  · exact ⟨5, rfl, rfl⟩
  · exact ⟨6, rfl, rfl⟩
  · exact ⟨7, rfl, rfl⟩
  · exact ⟨8, rfl, rfl⟩
  · exact ⟨9, rfl, rfl⟩
  · exact ⟨10, rfl, rfl⟩
  · exact ⟨11, rfl, rfl⟩
  · exact ⟨12, rfl, rfl⟩
  · exact ⟨13, rfl, rfl⟩
  · exact ⟨14, rfl, rfl⟩

theorem crcByte_eq (r : Half) (b : Byte) : crcByte r b = (List.range 8).foldl
    (fun (r : Half) _ => if r.getLsbD 15 = true then (r <<< 1) ^^^ 0x1021 else r <<< 1) (r ^^^ (b.setWidth 16 <<< 8)) := by
  have raised : (b ++ (0 : Byte) : Half) = b.setWidth 16 <<< 8 := by
    revert b
    decide
  rw [crcByte, raised]
  rfl

/-- R18: a REWIND is sent for a stream that has one flagged. -/
theorem nextItem_rewind {v : State} {i : Fin 8} (next : nextItem v = some (.rewind i)) : (streamOf i v).rewind.isSome = true := by
  unfold nextItem at next
  split at next; · cases next
  split at next; · cases next
  split at next; · cases next
  split at next; · cases next
  split at next
  next j first =>
    cases next
    exact List.find?_some (p := fun i => (streamOf i v).rewind.isSome) first
  next =>
    split at next
    · cases next
    · obtain ⟨k, _, other⟩ := Option.map_eq_some_iff.1 next
      cases other

/-- A frame's kind byte and payload by its item (section 11.5), in a state that agrees with the one at the selection in what is
sent. -/
def spellsItem (b : Nat → Byte) (t : State) (item : TxItem) (kind : Byte) (payload : List Byte) : Prop :=
  (item = .greet → kind = 0x11 ∧ ∀ o, t.lc.greet = some o → payload =
    (if o = .newSession then 1 else if o = .resumed then 2 else 3) :: le32 t.lc.attachNumber ++ le16 0x0A47 ++
      le16 4120 ++ [1, b t.lu.width, b t.lu.height, if t.lu.imageUsed = true then 1 else 0]) ∧
  (item = .keys → kind = 0x12 ∧ ∀ r rest, t.lc.keys = r :: rest → payload =
    [r.mods, if r.overflow = true then 1 else 0, b r.codes.length] ++ r.codes ++
      List.replicate (8 - r.codes.length) 0) ∧
  (∀ (side : Side) (r : FaultRecord), item = .fault side → r = recordOf side t → kind = 0x13 ∧ payload =
    (if side = .a then 0 else 1) :: le32 r.key ++ [r.needed.setWidth 8, b r.tries]) ∧
  (∀ (i : Fin 8) (r : Stream), item = .rewind i → r = streamOf i t → kind = 0x14 ∧ payload =
    b i.val :: le16 r.expected ++
      [if r.rewind = some .gap then 1 else if r.rewind = some .shed then 2
       else if r.rewind = some .quiesceEnd then 3 else 4]) ∧
  (item = .reply → kind = 0x15 ∧ ∀ r rest, t.lc.replies = r :: rest → ∃ n : Fin 15,
    [Status.ok, .busy, .badRequest, .badTable, .badIndex, .badValue, .readOnly, .notQuiesced, .streamIsOpen,
      .streamClosed, .regionDisabled, .overlap, .notPresent, .pinLimit, .storeMismatch][n.val]? = some r.status ∧
    payload = [r.tag, r.kind, b n.val] ++ r.data) ∧
  (∀ (k : EventKind) (d : BitVec 24), item = .event k → d = (eventSlot k t).detail → kind = 0x16 ∧ ∃ n : Fin 6,
    [EventKind.linkResumed, .regionStale, .backlight, .panelHalted, .monitorSaturated, .storeDefaulted][n.val]? = some k ∧
    payload = [b n.val, d.setWidth 8, (d >>> 8).setWidth 8, (d >>> 16).setWidth 8])

/-- The kind byte of an item's frame and its payload (sections 11.2, 11.5). -/
def itemPayload (item : TxItem) (v : State) : Byte × List Byte :=
  match item with
  | .greet => (0x11, (v.lc.greet.map GreetOutcome.code).getD 0 :: le32 v.lc.attachNumber ++ identBytes v)
  | .keys => (0x12, keysBytes (v.lc.keys.headD Report.empty))
  | .fault side => (0x13, faultBytes side (recordOf side v))
  | .rewind i => (0x14, rewindBytes i (streamOf i v))
  | .reply => (0x15, (v.lc.replies.head?.map replyBytes).getD [])
  | .event k => (0x16, eventBytes k (eventSlot k v))

theorem frameOf_eq (item : TxItem) (v : State) : frameOf item v = buildFrame (itemPayload item v).1 (itemPayload item v).2 := by
  cases item <;> rfl

theorem greet_code (o : GreetOutcome) : o.code = if o = .newSession then 1 else if o = .resumed then 2 else 3 := by
  cases o <;> rfl

theorem rewind_code {o : Option RewindReason} (flagged : o.isSome = true) : (o.map RewindReason.code).getD 0 =
    if o = some .gap then 1 else if o = some .shed then 2 else if o = some .quiesceEnd then 3 else 4 := by
  obtain ⟨reason, rfl⟩ := Option.isSome_iff_exists.1 flagged
  cases reason <;> rfl

/-- The low byte of a number shifted down. -/
theorem extractLsb'_eq_shift (d : BitVec 24) (n : Nat) : d.extractLsb' n 8 = (d >>> n).setWidth 8 := by
  ext i bound
  simp

theorem itemPayload_spells {v : State} {item : TxItem} {b : Nat → Byte} (bytes : ∀ k, b k = BitVec.ofNat 8 k)
    (next : nextItem v = some item) : spellsItem b v item (itemPayload item v).1 (itemPayload item v).2 := by
  unfold spellsItem
  cases item with
  | greet =>
    refine ⟨fun _ => ⟨rfl, fun o greet => ?_⟩, (by nofun), (by nofun), (by nofun), (by nofun), (by nofun)⟩
    rw [← greet_code, bytes, bytes]
    simp only [itemPayload, greet, Option.map_some, Option.getD_some, identBytes, List.append_assoc, List.cons_append]
    rfl
  | keys =>
    refine ⟨(by nofun), fun _ => ⟨rfl, fun r rest queue => ?_⟩, (by nofun), (by nofun), (by nofun), (by nofun)⟩
    rw [bytes]
    simp only [itemPayload, queue, List.append_assoc]
    rfl
  | fault side =>
    refine ⟨(by nofun), (by nofun), ?_, (by nofun), (by nofun), (by nofun)⟩
    rintro side r ⟨⟩ rfl
    refine ⟨rfl, ?_⟩
    rw [bytes]
    cases side <;> rfl
  | rewind i =>
    refine ⟨(by nofun), (by nofun), (by nofun), ?_, (by nofun), (by nofun)⟩
    rintro i r ⟨⟩ rfl
    refine ⟨rfl, ?_⟩
    rw [bytes, ← rewind_code (nextItem_rewind next)]
    rfl
  | reply =>
    refine ⟨(by nofun), (by nofun), (by nofun), (by nofun), fun _ => ⟨rfl, fun r rest queue => ?_⟩, (by nofun)⟩
    obtain ⟨n, known, code⟩ := status_code r.status
    refine ⟨n, known, ?_⟩
    rw [bytes, ← code]
    simp only [itemPayload, queue]
    rfl
  | event k =>
    refine ⟨(by nofun), (by nofun), (by nofun), (by nofun), (by nofun), ?_⟩
    rintro k d ⟨⟩ rfl
    refine ⟨rfl, k.number, kinds_by_number k, ?_⟩
    rw [bytes]
    simp only [itemPayload, eventBytes, extractLsb'_eq_shift]
    rfl

/-- What an item spells depends on what the items hold. -/
theorem spellsItem_congr {b : Nat → Byte} {t v : State} {item : TxItem} {kind : Byte} {payload : List Byte}
    (lc : t.lc.greet = v.lc.greet ∧ t.lc.attachNumber = v.lc.attachNumber ∧ t.lc.keys = v.lc.keys ∧ t.lc.replies = v.lc.replies)
    (lu : t.lu = v.lu) (tf : t.tf = v.tf) (sq : t.sq = v.sq) (details : ∀ k, (eventSlot k t).detail = (eventSlot k v).detail)
    (spelled : spellsItem b v item kind payload) : spellsItem b t item kind payload := by
  obtain ⟨greet, number, keys, replies⟩ := lc
  have streams (i : Fin 8) : streamOf i t = streamOf i v := by rw [streamOf, sq, streamOf]
  have records (side : Side) : recordOf side t = recordOf side v := by cases side <;> simp only [recordOf, tf]
  unfold spellsItem at spelled ⊢
  simpa only [greet, number, keys, replies, lu, streams, records, details] using spelled

/-- Settles O18: a transmission that a command starts is selected from what waits at the end of its event. -/
theorem theArbiterServesTheFirstClass : Obligations.TheArbiterServesTheFirstClass := by
  refine ⟨fun c s t x b bytes ended sending own => ?_, rfl, fun bs byte => ?_⟩
  · obtain ⟨v, free, rfl⟩ := exec_starts ended sending own
    obtain ⟨up, attached, next, frame⟩ := arbitrate_starts free sending
    have slots (k : EventKind) := arbitrate_slot v k
    refine ⟨by rw [arbitrate_link]; exact up, by rw [arbitrate_attachment]; exact attached,
      ⟨(itemPayload x.item v).1, (itemPayload x.item v).2, ?_, ?_⟩,
      firstClass next ⟨arbitrate_greet v, arbitrate_keys v, arbitrate_replies v⟩ (arbitrate_tf v) (arbitrate_sq v)
        fun k => by rw [slots]⟩
    · rw [frame, frameOf_eq, bytes]
      rfl
    · exact spellsItem_congr ⟨arbitrate_greet v, arbitrate_attachNumber v, arbitrate_keys v, arbitrate_replies v⟩ (arbitrate_lu v)
        (arbitrate_tf v) (arbitrate_sq v) (fun k => by rw [slots]) (itemPayload_spells bytes next)
  · simp only [frameCheck, List.foldl_append, List.foldl_cons, List.foldl_nil, crcByte_eq]

end Sys2Proof.Machine
end

section
/-! PROOFS. Writes of the layout, of STREAM, KEYMAP and SETTINGS entries, and the flush of the tile directory (R29 to R31, R36, R86,
R87, R140, R148, R160): the settlements of O33, O34 and O42. -/

namespace Sys2Proof.Machine

/-! ### Effects on what a command ends as -/

section
variable {u v : State} {us : List SubEvent}

/-- What the Layout Unit's record alone changes passes through. -/
theorem endsAs.lu (h : endsAs u us v) (f : LayoutUnit → LayoutUnit) : endsAs { u with lu := f u.lu } us { v with lu := f v.lu } :=
  h.map (fun s => { s with lu := f s.lu }) (fun _ _ _ _ => rfl) (fun _ => rfl) (fun _ => rfl) (fun _ => rfl) fun _ => rfl

theorem endsAs.ks (h : endsAs u us v) (f : KeyScanner → KeyScanner) : endsAs { u with ks := f u.ks } us { v with ks := f v.ks } :=
  h.map (fun s => { s with ks := f s.ks }) (fun _ _ _ _ => rfl) (fun _ => rfl) (fun _ => rfl) (fun _ => rfl) fun _ => rfl

theorem endsAs.tc (h : endsAs u us v) (f : TileCache → TileCache) : endsAs { u with tc := f u.tc } us { v with tc := f v.tc } :=
  h.map (fun s => { s with tc := f s.tc }) (fun _ _ _ _ => rfl) (fun _ => rfl) (fun _ => rfl) (fun _ => rfl) fun _ => rfl

theorem endsAs.inProgress (h : endsAs u us v) (r : Option Request) :
    endsAs { u with me.inProgress := r } us { v with me.inProgress := r } :=
  h.map (fun s => { s with me.inProgress := r }) (fun _ _ _ _ => rfl) (fun _ => rfl) (fun _ => rfl) (fun _ => rfl) fun _ => rfl

end

/-! ### Layout writes (R27, R29 to R31) -/

/-- R27: two rectangles that are not empty overlap exactly where they share a pixel. -/
theorem rectsOverlap_iff {ox oy rw rh ox' oy' rw' rh' : Half} (w : 1 ≤ rw.toNat) (h : 1 ≤ rh.toNat) (w' : 1 ≤ rw'.toNat)
    (h' : 1 ≤ rh'.toNat) : rectsOverlap ox oy rw rh ox' oy' rw' rh' = true ↔ ∃ px py : Nat,
      (ox.toNat ≤ px ∧ px < ox.toNat + rw.toNat ∧ oy.toNat ≤ py ∧ py < oy.toNat + rh.toNat) ∧
      (ox'.toNat ≤ px ∧ px < ox'.toNat + rw'.toNat ∧ oy'.toNat ≤ py ∧ py < oy'.toNat + rh'.toNat) := by
  simp only [rectsOverlap, Bool.and_eq_true, decide_eq_true_eq]
  constructor
  · intro overlap
    exact ⟨max ox.toNat ox'.toNat, max oy.toNat oy'.toNat, by omega, by omega⟩
  · rintro ⟨px, py, inside, inside'⟩
    omega

theorem regionFits_iff (width height : Nat) (ox oy rw rh : Half) : regionFits width height ox oy rw rh = true ↔
    16 ≤ rw.toNat ∧ 16 ≤ rh.toNat ∧ ox.toNat + rw.toNat ≤ 16 * width ∧ oy.toNat + rh.toNat ≤ 16 * height := by
  simp only [regionFits, Bool.and_eq_true, decide_eq_true_eq, and_assoc]

theorem overlapsOther_iff (i : Fin 8) (ox oy rw rh : Half) (s : State) : overlapsOther i ox oy rw rh s = true ↔
    ¬ ∀ j : Fin 8, j ≠ i → (regionOf j s).enabled = true →
      rectsOverlap ox oy rw rh (regionOf j s).ox (regionOf j s).oy (regionOf j s).rw (regionOf j s).rh = false := by
  simp only [overlapsOther, List.any_eq_true, List.mem_finRange, true_and, Bool.and_eq_true, bne_iff_ne, not_forall,
    Bool.not_eq_false, exists_prop, and_assoc]

/-- A layout write that is refused is counted and answered (R30). -/
theorem layout_refused {tag kind : Byte} {run : State → State} {status : Status} {s : State} (taken : takesRequest s)
    (h : run (count .reqTaken (passed s)) = refuseLayout tag status (count .reqTaken (passed s))) :
    ∃ t, requestArrival tag kind run s = .next t ∧ endsAs (replied tag 0x02 status [] s) [.reqTaken, .layoutRefused] t :=
  request_ends taken (h ▸ ((taken_ends (passed s)).count .layoutRefused).answer tag 0x02 status)

theorem exec_headerWrite (tag : Byte) (border undocked : Half) (s : State) : exec (.layoutHeaderWrite tag border undocked) s =
    requestArrival tag 2 (doHeaderWrite tag border undocked) s := by rfl

theorem exec_regionWrite (tag : Byte) (i : Fin 8) (enabled : Bool) (ox oy rw rh background : Half) (s : State) :
    exec (.layoutRegionWrite tag i enabled ox oy rw rh background) s =
      requestArrival tag 2 (doRegionWrite tag i enabled ox oy rw rh background) s := by rfl

/-- Settles O33: the checks of R30 in their order, on the state in which the request has been counted. -/
theorem layoutWritesNeedAQuiescedScreen : Obligations.LayoutWritesNeedAQuiescedScreen := by
  refine ⟨fun ox oy rw rh ox' oy' rw' rh' w h w' h' => rectsOverlap_iff w h w' h', fun tag s taken =>
    ⟨fun border undocked => ?_, fun i enabled ox oy rw rh background fits free fitting freeing => ?_⟩⟩
  · rw [exec_headerWrite]
    have quiesce : (count .reqTaken (passed s)).sq.quiesce = s.sq.quiesce := by rw [count_sq]; rfl
    refine ⟨fun quiesced => request_ends taken ?_, fun running => layout_refused taken ?_⟩
    · rw [doHeaderWrite, if_pos (quiesce.trans quiesced)]
      exact ((taken_ends (passed s)).lu fun lu =>
        { lu with border := border, undocked := undocked, headerChanged := true }).answer tag 2 .ok
    · rw [doHeaderWrite, if_neg (quiesce ▸ running)]
  · rw [exec_regionWrite]
    have checks : doRegionWrite tag i enabled ox oy rw rh background (count .reqTaken (passed s)) =
        if s.sq.quiesce ≠ .quiesced then refuseLayout tag .notQuiesced (count .reqTaken (passed s))
        else if enabled && !regionFits s.lu.width s.lu.height ox oy rw rh then
          refuseLayout tag .badValue (count .reqTaken (passed s))
        else if enabled && overlapsOther i ox oy rw rh s then refuseLayout tag .overlap (count .reqTaken (passed s))
        else if !enabled && isOpen i s then refuseLayout tag .streamIsOpen (count .reqTaken (passed s))
        else answer tag 2 .ok (setRegion i ⟨enabled, ox, oy, rw, rh, background, true, (regionOf i s).stale⟩
          (count .reqTaken (passed s))) := by
      have regions (j : Fin 8) : regionOf j (count .reqTaken (passed s)) = regionOf j s := by rw [regionOf_count, regionOf_passed]
      simp only [doRegionWrite, overlapsOther, regions, count_sq, count_lu, isOpen_count, isOpen_passed]
      rfl
    have unfit : regionFits s.lu.width s.lu.height ox oy rw rh = true ↔ fits := (regionFits_iff _ _ _ _ _ _).trans fitting.symm
    have overlap : overlapsOther i ox oy rw rh s = true ↔ ¬ free := (overlapsOther_iff i ox oy rw rh s).trans (not_congr freeing.symm)
    refine ⟨fun running => layout_refused taken ?_, fun quiesced on unfit' => layout_refused taken ?_,
      fun quiesced on fit taken' => layout_refused taken ?_, fun quiesced off opened => layout_refused taken ?_,
      fun quiesced good => request_ends taken ?_⟩
    · rw [checks, if_pos running]
    · have bad : regionFits s.lu.width s.lu.height ox oy rw rh = false := by rw [← Bool.not_eq_true, unfit]; exact unfit'
      rw [checks, if_neg (not_not_intro quiesced), if_pos (by rw [on, bad]; rfl)]
    · rw [checks, if_neg (not_not_intro quiesced), if_neg (by rw [unfit.2 fit]; simp), if_pos (by rw [on, overlap.2 taken']; rfl)]
    · rw [checks, if_neg (not_not_intro quiesced), if_neg (by simp [off]), if_neg (by simp [off]), if_pos (by rw [off, opened]; rfl)]
    · have noOverlap (apart : free) : overlapsOther i ox oy rw rh s = false := by
        rw [← Bool.not_eq_true, overlap]
        exact not_not_intro apart
      have accepted : doRegionWrite tag i enabled ox oy rw rh background (count .reqTaken (passed s)) = answer tag 2 .ok
          (setRegion i ⟨enabled, ox, oy, rw, rh, background, true, (regionOf i s).stale⟩ (count .reqTaken (passed s))) := by
        rcases good with ⟨on, fit, apart⟩ | ⟨off, closed⟩
        · rw [checks, if_neg (not_not_intro quiesced), if_neg (by rw [unfit.2 fit]; simp), if_neg (by rw [noOverlap apart]; simp),
            if_neg (by simp [on])]
        · rw [checks, if_neg (not_not_intro quiesced), if_neg (by simp [off]), if_neg (by simp [off]), if_neg (by simp [closed])]
      rw [accepted]
      exact ((taken_ends (passed s)).setRegion i _).answer tag 2 .ok

/-! ### STREAM, KEYMAP and SETTINGS writes (R36, R140, R148, R160) -/

theorem exec_streamWrite (tag : Byte) (i : Fin 8) (stale : Bool) (s : State) :
    exec (.streamWrite tag i stale) s = requestArrival tag 2 (doStreamWrite tag i stale) s := by rfl

theorem exec_keymapWrite (tag : Byte) (entry : Half) (cls value : Byte) (s : State) :
    exec (.keymapWrite tag entry cls value) s = requestArrival tag 2 (doKeymapWrite tag entry cls value) s := by rfl

theorem exec_settingsWrite (tag a b : Byte) (c : Half) (d e f g h : Byte) (s : State) :
    exec (.settingsWrite tag a b c d e f g h) s = requestArrival tag 2 (doSettingsWrite tag (settingsOf a b c d e f g h)) s := by rfl

/-- R148: the class and value bytes that name no entry. -/
theorem keyEntryOf_bad {cls value : Byte} (bad : 4 < cls.toNat ∨ (cls = 1 ∧ value = 0) ∨ (cls = 2 ∧ 7 < value.toNat) ∨
    (cls = 3 ∧ value ≠ 1 ∧ value ≠ 2) ∨ (cls = 4 ∧ value ≠ 1 ∧ value ≠ 2)) : keyEntryOf cls value = none := by
  rcases bad with beyond | ⟨rfl, rfl⟩ | ⟨rfl, beyond⟩ | ⟨rfl, off, off'⟩ | ⟨rfl, off, off'⟩
  · have named {n : Byte} (small : n.toNat ≤ 4) : cls ≠ n := fun same => by rw [same] at beyond; omega
    rw [keyEntryOf, if_neg (named (by decide)), if_neg (named (by decide)), if_neg (named (by decide)),
      if_neg (named (by decide)), if_neg (named (by decide))]
  · rfl
  · exact if_neg (show ¬ value.toNat < 8 by omega)
  · exact (if_neg off).trans (if_neg off')
  · exact (if_neg off).trans (if_neg off')

/-- R144, R148: the entry that class and value bytes name. -/
theorem keyEntryOf_good {cls value : Byte} {e : KeyEntry} (good : (cls = 0 ∧ e = .none) ∨ (cls = 1 ∧ value ≠ 0 ∧ e = .ordinary value) ∨
    (cls = 2 ∧ ∃ m : Fin 8, value.toNat = m.val ∧ e = .modifier m) ∨
    (cls = 3 ∧ ((value = 1 ∧ e = .layer 1) ∨ (value = 2 ∧ e = .layer 2))) ∨
    (cls = 4 ∧ ((value = 1 ∧ e = .localAction .backlightUp) ∨ (value = 2 ∧ e = .localAction .backlightDown)))) :
    keyEntryOf cls value = some e := by
  rcases good with ⟨rfl, rfl⟩ | ⟨rfl, code, rfl⟩ | ⟨rfl, m, index, rfl⟩ | ⟨rfl, ⟨rfl, rfl⟩ | ⟨rfl, rfl⟩⟩ |
    ⟨rfl, ⟨rfl, rfl⟩ | ⟨rfl, rfl⟩⟩
  · rfl
  · exact if_neg code
  · have within : value.toNat < 8 := index ▸ m.isLt
    have same : Fin.ofNat 8 value.toNat = m := by
      rw [index]
      exact Fin.ext (Nat.mod_eq_of_lt m.isLt)
    exact (if_pos within).trans (by rw [same])
  all_goals rfl

theorem set_eq_ofFn {n : Nat} {α : Type} (xs : Vector α n) {k : Nat} (bound : k < n) (a : α) :
    xs.set k a = Vector.ofFn fun j : Fin n => if j.val = k then a else xs[j] := by
  ext i h
  rw [Vector.getElem_set, Vector.getElem_ofFn]
  simp only [eq_comm]
  rfl

theorem settingsOf_eq (a b : Byte) (c : Half) (d e f g h : Byte) : settingsOf a b c d e f g h =
    { lossLimit := min 15 (max 1 a.toNat), holdTime := max 1 b.toNat
      scanPeriod := min 4000 (max 500 (c.toNat - c.toNat % 250))
      depth := min 15 (max 1 d.toNat), faultTimeout := max 1 e.toNat
      retryLimit := min 7 f.toNat, shedThreshold := min 16 (max 2 g.toNat)
      enables := h.setWidth 6 } := by
  have hold := b.isLt
  have timeout := e.isLt
  simp only [settingsOf, clamp, clampScan, Settings.mk.injEq, true_and, and_true]
  omega

/-- What changes no counter, no event and no transmission passes through, the settings with it. -/
theorem endsUnder_map {enable : Bool} {u v : State} {us : List SubEvent} (h : endsUnder enable u us v) (f : State → State)
    (hf : ∀ (s : State) c e x,
      f { s with mn.counters := c, me.events := e, lc.tx := x } = { f s with mn.counters := c, me.events := e, lc.tx := x })
    (hm : ∀ s, (f s).mn = s.mn) (he : ∀ s, (f s).me.events = s.me.events) (ht : ∀ s, (f s).lc.tx = s.lc.tx) :
    endsUnder enable (f u) us (f v) := by
  obtain ⟨rest, ⟨selections, tracker, events, lane⟩, counted⟩ := h
  have slot (k : EventKind) (s : State) : eventSlot k (f s) = eventSlot k s := by
    unfold eventSlot
    rw [he]
  refine ⟨?_, ⟨fun n => ?_, ?_, fun k other => ?_, fun busy => ?_⟩, fun n => ?_⟩
  · rw [hm v, he v, ht v]
    conv_lhs => rw [rest]
    exact hf u _ _ _
  · rw [hm, hm]
    exact selections n
  · rw [hm, hm]
    exact tracker
  · unfold eventStarts
    rw [slot, slot, ht, ht]
    exact events k other
  · rw [ht, ht]
    rw [ht] at busy
    exact lane busy
  · unfold saturatedIn
    rw [hm, hm]
    exact counted n

/-- The selection of the arbiter is bookkeeping. -/
theorem endsUnder_arbitrate {enable : Bool} {u v : State} {us : List SubEvent} (h : endsUnder enable u us v) :
    endsUnder enable u us (arbitrate v) := by
  have chosen := arbitrate_selected v
  refine ⟨rest_trans h.1 ?_, h.2.1.trans chosen.bookkeeping, fun n => ?_⟩
  · rw [arbitrate_mn]
    exact chosen.rest
  · unfold saturatedIn
    rw [arbitrate_mn]
    exact h.2.2 n

/-- R140: the positions with their counts brought within a debounce depth. -/
def clampedKeys (depth : Nat) (positions : Vector KeyPosition 128) : Vector KeyPosition 128 :=
  Vector.ofFn fun p : Fin 128 => { positions[p] with count := min positions[p].count depth }

theorem doSettingsWrite_eq (tag : Byte) (r : Settings) (s : State) : doSettingsWrite tag r s =
    answer tag 2 .ok { s with settings := r, ks.positions := clampedKeys r.depth s.ks.positions } := by rfl

/-- A STREAM write that leaves the stale flag changes nothing of the region. -/
theorem setRegion_self (i : Fin 8) (s : State) : setRegion i (regionOf i s) s = s := by
  have same : s.lu.regions.set i (regionOf i s) = s.lu.regions := Vector.set_getElem_self _
  unfold setRegion
  rw [same]

/-- Settles O34. -/
theorem streamKeymapAndSettingsWrites : Obligations.StreamKeymapAndSettingsWrites := by
  refine ⟨fun tag s taken => ⟨fun i stale => ?_, fun entry cls value => ⟨fun beyond => ?_, fun within => ⟨fun bad => ?_,
    fun e good => ?_⟩⟩⟩, fun tag a b c d e f g h s taken => ?_⟩
  · rw [exec_streamWrite]
    have write : doStreamWrite tag i stale (count .reqTaken (passed s)) = answer tag 2 .ok
        (setRegion i { regionOf i s with stale := (regionOf i s).stale && stale } (count .reqTaken (passed s))) := by
      have region : regionOf i (count .reqTaken (passed s)) = regionOf i s := by rw [regionOf_count, regionOf_passed]
      rw [doStreamWrite, ← region]
      cases stale
      · rw [Bool.and_false]
        rfl
      · rw [Bool.and_true, setRegion_self]
        rfl
    exact request_ends taken (write ▸ ((taken_ends (passed s)).setRegion i _).answer tag 2 .ok)
  · exact request_replied taken (dif_neg (Nat.not_lt.2 beyond))
  · refine request_replied taken ((dif_pos within).trans ?_)
    rw [keyEntryOf_bad bad]
    rfl
  · refine request_ends taken ?_
    rw [doKeymapWrite, dif_pos within, keyEntryOf_good good, ← set_eq_ofFn s.ks.keymap within e]
    exact ((taken_ends (passed s)).ks fun ks => { ks with keymap := ks.keymap.set entry.toNat e }).answer tag 2 .ok
  · rw [exec_settingsWrite, requestArrival_taken _ _ _ taken, settingsOf_eq, doSettingsWrite_eq]
    refine ⟨_, rfl, ?_⟩
    rw [conclude, countEdges_none fun condition => ?_]
    · exact endsUnder_arbitrate (endsUnder_map (taken_ends (passed s)) (fun v => answer tag 2 .ok { v with
          settings := _, ks.positions := clampedKeys (min 15 (max 1 d.toNat)) v.ks.positions })
        (fun _ _ _ _ => rfl) (fun _ => rfl) (fun _ => rfl) (fun _ => rfl))
    · have counted (v : State) : holds v condition = holds (count .reqTaken v) condition := by
        cases condition <;> simp only [holds, count_sq, count_de, count_lc]
      exact counted (passed s)

/-! ### The flush (R86, R87, R89) -/

theorem exec_tileFlush (tag : Byte) (s : State) : exec (.tileFlush tag) s = requestArrival tag 7 (doTileFlush tag) s := by rfl

theorem exec_sweepStep {s : State} (h : s.tc.sweep < 64) : exec .sweepStep s = .next (conclude s (sweepSet ⟨s.tc.sweep, h⟩ s)) :=
  dif_pos h

/-- Settles O42. -/
theorem theFlushSweepEmptiesTheDirectory : Obligations.TheFlushSweepEmptiesTheDirectory := by
  refine ⟨fun tag s taken => ⟨fun running => ?_, fun quiesced => ?_⟩, fun s done => dif_neg (Nat.not_lt.2 done),
    fun s n pointer u swept => ?_⟩
  · rw [exec_tileFlush]
    have quiesce : (count .reqTaken (passed s)).sq.quiesce = s.sq.quiesce := by rw [count_sq]; rfl
    exact request_replied taken (if_neg (quiesce ▸ running))
  · rw [exec_tileFlush]
    have quiesce : (count .reqTaken (passed s)).sq.quiesce = s.sq.quiesce := by rw [count_sq]; rfl
    refine request_ends taken ?_
    rw [doTileFlush, if_pos (quiesce.trans quiesced)]
    exact ((taken_ends (passed s)).tc fun tc => { tc with sweep := 0 }).beginLong tag 7 .tileFlush
  · have runs : s.tc.sweep < 64 := pointer ▸ n.isLt
    have step : exec .sweepStep s = .next (conclude s (if n.val + 1 = 64 then endOp .tileFlush .ok u else u)) := by
      have index : (⟨s.tc.sweep, runs⟩ : Fin 64) = n := Fin.ext pointer
      rw [exec_sweepStep runs, index, swept]
      rfl
    have progress : u.me.inProgress = s.me.inProgress := by rw [swept]
    refine ⟨fun more => ⟨_, step, ?_⟩, fun tag kind last request => ⟨_, step, ?_⟩, fun last none => ⟨_, step, ?_⟩⟩
    · rw [if_neg (by omega)]
      exact (endsAs_refl u).conclude s
    · have replies : u.lc.replies = s.lc.replies := by rw [swept]
      have ended : endOp .tileFlush .ok u = { u with me.inProgress := Option.none, lc.replies := u.lc.replies ++ [⟨tag, kind, .ok, []⟩] } := by
        unfold endOp endLong
        rw [progress, request]
        rfl
      rw [if_pos (by omega), ended, replies]
      exact (endsAs_refl _).conclude s
    · have ended : endOp .tileFlush .ok u = u := by
        unfold endOp
        rw [progress, none]
        rfl
      rw [if_pos (by omega), ended]
      exact (endsAs_refl u).conclude s

end Sys2Proof.Machine
end

section
/-! PROOFS. The ends of an erase and of a program (R166, R167): the settlement of O46. -/

namespace Sys2Proof.Machine

section
variable {u v : State} {us : List SubEvent} {tag kind : Byte} {op : LongOp} {silent : Bool}

theorem endsAs.flash (h : endsAs u us v) (m : List Host.Cell) : endsAs { u with flash := m } us { v with flash := m } :=
  h.map (fun s => { s with flash := m }) (fun _ _ _ _ => rfl) (fun _ => rfl) (fun _ => rfl) (fun _ => rfl) fun _ => rfl

/-- R156, R157: the end of a long request queues its reply, unless a teardown has taken it. -/
theorem endsAs.endLong (h : endsAs u us v) (request : v.me.inProgress = some ⟨tag, kind, op, silent⟩) (status : Status) :
    endsAs { u with
      me.inProgress := none
      lc.replies := if silent then u.lc.replies else u.lc.replies ++ [⟨tag, kind, status, []⟩] } us (endLong status v) := by
  unfold Machine.endLong
  rw [request]
  cases silent
  · exact (h.inProgress none).answer tag kind status
  · exact h.inProgress none

end

theorem endLong_flash (status : Status) (s : State) : (endLong status s).flash = s.flash := by
  unfold endLong
  split
  · split <;> rfl
  · rfl

/-- R166: what every byte of the store holds after an erase. -/
theorem cellRead_erasePage (page : Nat) (m : List Host.Cell) (a : Nat) : cellRead 255 (erasePage page m) a =
    if 1024 * page ≤ a ∧ a < 1024 * page + 1024 then 255 else cellRead 255 m a := by
  have size : (List.replicate Config.pageBytes (255 : Byte)).length = 1024 := List.length_replicate
  split
  · next inside =>
    obtain ⟨i, rfl⟩ := Nat.exists_eq_add_of_le inside.1
    refine (cellRead_cellWrite_inside 255 m (1024 * page) (List.replicate Config.pageBytes 255) i (by omega)).trans ?_
    rw [List.getElem_replicate]
  · next outside =>
    exact cellRead_cellWrite_outside 255 m (1024 * page) (List.replicate Config.pageBytes 255) a (by omega)

theorem programmed_length (m : List Host.Cell) (offset : Nat) (data : List Byte) : (programmed m offset data).length = data.length := by
  rw [programmed, List.length_zipWith, cellBlock_length, Nat.min_self]

theorem programmed_getElem (m : List Host.Cell) (offset : Nat) (data : List Byte) (i : Nat) (h : i < (programmed m offset data).length) :
    (programmed m offset data)[i] = cellRead 255 m (offset + i) &&& byteAt data i := by
  have within : i < data.length := programmed_length m offset data ▸ h
  have byte : byteAt data i = data[i] := by rw [byteAt, List.getD_eq_getElem _ _ within]
  simp only [programmed, List.getElem_zipWith, cellBlock_getElem, byte]

/-- R167: a program leaves the bytes sent exactly where it had no bit to set. -/
theorem programmed_eq_iff (m : List Host.Cell) (offset : Nat) (data : List Byte) : programmed m offset data = data ↔
    ∀ i : Nat, i < data.length → cellRead 255 m (offset + i) &&& byteAt data i = byteAt data i := by
  have byte {i : Nat} (within : i < data.length) : byteAt data i = data[i] := by rw [byteAt, List.getD_eq_getElem _ _ within]
  constructor
  · intro same i within
    rw [← programmed_getElem m offset data i (by rwa [programmed_length])]
    simp only [same, byte within]
  · intro clear
    refine List.ext_getElem (programmed_length m offset data) fun i _ within => ?_
    rw [programmed_getElem, clear i within, byte within]

theorem exec_eraseDone {s : State} {tag kind : Byte} {page : Nat} {silent : Bool}
    (h : s.me.inProgress = some ⟨tag, kind, .erase page, silent⟩) :
    exec .eraseDone s = .next (conclude s (finishErase page s)) := by
  show execEraseDone s = _
  rw [execEraseDone, h]

theorem exec_programDone {s : State} {tag kind : Byte} {offset : Nat} {data : List Byte} {silent : Bool}
    (h : s.me.inProgress = some ⟨tag, kind, .program offset data, silent⟩) :
    exec .programDone s = .next (conclude s (finishProgram offset data s)) := by
  show execProgramDone s = _
  rw [execProgramDone, h]

/-- Settles O46. -/
theorem eraseAndProgramEnds : Obligations.EraseAndProgramEnds := by
  intro s tag kind silent
  refine ⟨fun page request => ⟨?_, _, exec_eraseDone request, ?_, fun a => ?_⟩, fun offset data request => ⟨?_, fun good exact => ?_⟩,
    fun idle => ⟨?_, ?_⟩⟩
  · show execProgramDone s = _
    rw [execProgramDone, request]
  · have flash : (conclude s (finishErase page s)).flash = erasePage page s.flash := by
      rw [conclude_flash, finishErase, endLong_flash, count_flash]
    rw [flash]
    exact (((endsAs_refl s).flash (erasePage page s.flash)).count .eraseDone).endLong (by simpa using request) .ok |>.conclude s
  · have flash : (conclude s (finishErase page s)).flash = erasePage page s.flash := by
      rw [conclude_flash, finishErase, endLong_flash, count_flash]
    rw [flash]
    exact cellRead_erasePage page s.flash a
  · show execEraseDone s = _
    rw [execEraseDone, request]
  · have flash : (conclude s (finishProgram offset data s)).flash = programBytes offset data s.flash := by
      rw [conclude_flash, finishProgram]
      split <;> simp only [endLong_flash, count_flash]
    have ended := ((endsAs_refl s).flash (programBytes offset data s.flash)).count .programDone
    have whole : good ↔ programmed s.flash offset data = data := exact.trans (programmed_eq_iff s.flash offset data).symm
    refine ⟨_, exec_programDone request, fun same => ?_, fun differs => ?_, fun i within => ?_, fun a outside => ?_⟩
    · rw [flash, finishProgram, if_pos (whole.1 same)]
      exact (ended.endLong (by simpa using request) .ok).conclude s
    · rw [flash, finishProgram, if_neg (mt whole.2 differs)]
      exact ((ended.count .programMismatch).endLong (by simpa using request) .storeMismatch).conclude s
    · have inside : i < (programmed s.flash offset data).length := by rwa [programmed_length]
      rw [flash, programBytes, cellRead_cellWrite_inside 255 s.flash offset _ i inside, programmed_getElem]
    · rw [flash]
      exact cellRead_cellWrite_outside 255 s.flash offset _ a (by rwa [programmed_length])
  · show execEraseDone s = _
    rw [execEraseDone, idle]
  · show execProgramDone s = _
    rw [execProgramDone, idle]

end Sys2Proof.Machine
end

section
/-! PROOFS. DOCK_RESET in every block (R20, R161): the settlement of O44. -/

namespace Sys2Proof.Machine

theorem count_eq (u : SubEvent) (s : State) :
    count u s = { s with mn.counters := (count u s).mn.counters, me.events := (count u s).me.events } := (count_counted u s).rest

/-- R161: the blocks that DOCK_RESET empties, written out. -/
def docked (tag : Byte) (s : State) : State := { s with
  lc.keys := [], lc.replies := [⟨tag, 0x0B, .ok, []⟩]
  sq.streams := Vector.ofFn fun i : Fin 8 => closedRecord (streamOf i s)
  sq.queueA := [], sq.queueB := [], sq.quiesce := .running
  de.engineA := s.de.engineA.map fun r => { r with removed := true }
  de.engineB := s.de.engineB.map fun r => { r with removed := true }
  tc.dir := emptyDir, tc.sweep := 64
  tf := ⟨FaultRecord.idle, FaultRecord.idle⟩
  me.events := Vector.replicate 6 EventSlot.clear
  mn := Monitor.initial }

theorem doDockReset_eq (tag : Byte) (s : State) : doDockReset tag s = docked tag (cutAllButGreet s) := by rfl

/-- What had been counted and raised before is gone with the Monitor and the pending set (log 32). -/
theorem docked_counted (tag : Byte) {s t : State} (counted : t = { s with mn.counters := t.mn.counters, me.events := t.me.events }) :
    docked tag t = docked tag s := by
  rw [counted]
  rfl

theorem cutAllButGreet_keeps {s : State} (keeps : ∀ x, s.lc.tx = some x → x.item = .greet) : cutAllButGreet s = s := by
  unfold cutAllButGreet
  refine if_neg ?_
  cases lane : s.lc.tx with
  | none => simp
  | some x => simp [keeps x lane]

theorem cutAllButGreet_cuts {s : State} {x : Transmission} (lane : s.lc.tx = some x) (other : x.item ≠ .greet) :
    cutAllButGreet s = count .txCut (cutEffect x s) := by
  unfold cutAllButGreet
  rw [if_pos (by simp [lane, other]), cutTx_some lane]

/-- A cut of a transmission that is not a GREET touches, in what DOCK_RESET keeps, the lane alone. -/
theorem docked_cutEffect (tag : Byte) (x : Transmission) (other : x.item ≠ .greet) (s : State) :
    docked tag (cutEffect x s) =
      { docked tag s with lc.tx := none, lc.laneOut := (cutEffect x s).lc.laneOut, free := s.free + 1 } := by
  have mark : (s.lc.greetRenewed && x.item != .greet) = s.lc.greetRenewed := by simp [other]
  rw [cutEffect_eq, mark]
  rfl

/-- Settles O44: what DOCK_RESET writes does not depend on what was counted before it. -/
theorem dockResetKeepsTheSession : Obligations.DockResetKeepsTheSession := by
  intro tag s u taken effect
  have effect : u = docked tag (passed s) := effect
  have run : exec (.dockReset tag) s = .next (conclude s (doDockReset tag (count .reqTaken (passed s)))) :=
    requestArrival_taken tag 0x0B (doDockReset tag) taken
  have lane : (count .reqTaken (passed s)).lc.tx = s.lc.tx := by
    rw [count_lc]
    rfl
  refine ⟨fun keeps => ⟨_, run, ?_⟩, fun x some' other => ⟨_, run, ?_, ?_⟩⟩
  · have same : doDockReset tag (count .reqTaken (passed s)) = u := by
      rw [doDockReset_eq, cutAllButGreet_keeps (by rwa [lane]), docked_counted tag (count_eq _ _), effect]
    rw [same]
    exact (endsAs_refl u).conclude s
  all_goals
    have cut : doDockReset tag (count .reqTaken (passed s)) = { u with
        lc.tx := none, lc.laneOut := (cutEffect x (count .reqTaken (passed s))).lc.laneOut, free := s.free + 1 } := by
      have free : (count .reqTaken (passed s)).free = s.free := by
        rw [count_eq]
        rfl
      rw [doDockReset_eq, cutAllButGreet_cuts (lane.trans some') other, docked_counted tag (count_eq _ _), docked_cutEffect tag x other,
        docked_counted tag (count_eq _ _), free, effect]
    rw [conclude_laneOut]
  · rw [cut]
    exact (endsAs_refl _).conclude s
  · rw [cut, cutEffect_eq]
    exact ⟨_, rfl, fun nonempty => Nat.mod_lt _ nonempty⟩

end Sys2Proof.Machine
end

section
/-! PROOFS. MONITOR_SET (R170, R172): the settlement of O47. -/

namespace Sys2Proof.Machine

/-! ### The slot of MONITOR_SATURATED after an event -/

/-- R162, R171: the raises of an event, and the start of an EVENT transmission at its end, as the slot of MONITOR_SATURATED shows
them. -/
theorem saturationRaised_of {s v t : State} {full : BitVec 24} {e : EventSlot} (chosen : Selected v t)
    (saturated : e = saturatedSlot (eventEnabled .monitorSaturated s) (eventOnLane .monitorSaturated s) full
      (eventSlot .monitorSaturated s))
    (pending : (eventSlot .monitorSaturated v).pending = e.pending) (detail : (eventSlot .monitorSaturated v).detail = e.detail)
    (marks : s.lc.tx = none ∨ t.lc.tx = s.lc.tx →
      eventSlot .monitorSaturated v = e ∧ (eventStarts .monitorSaturated v t ↔ eventStarts .monitorSaturated s t)) :
    saturationRaised full s t := by
  intro raise own raised sending
  have enable : eventEnabled .monitorSaturated s = s.settings.enables.getLsbD 4 := rfl
  have lane : eventOnLane .monitorSaturated s = own := sending.symm
  have shown : (eventSlot .monitorSaturated t).pending = e.pending ∧ (eventSlot .monitorSaturated t).detail = e.detail := by
    rw [chosen.slots]
    exact ⟨pending, detail⟩
  have marked (free : s.lc.tx = none ∨ t.lc.tx = s.lc.tx) : (eventSlot .monitorSaturated t).renewed = e.renewed ∧
      (eventSlot .monitorSaturated t).renewal = if eventStarts .monitorSaturated s t then 0 else e.renewal := by
    rw [chosen.slots, (marks free).1]
    exact ⟨rfl, if_congr (marks free).2 rfl rfl⟩
  rw [shown.1, shown.2]
  by_cases raises : raise = true
  · have both : eventEnabled .monitorSaturated s = true ∧ full ≠ 0 := by
      rw [raises] at raised
      simpa [enable] using raised.symm
    rw [saturatedSlot, if_pos both, lane] at saturated
    rw [raises, saturated]
    refine ⟨by simp [raisedSlot], by simp [raisedSlot, EventKind.accumulates], fun free => ?_⟩
    rw [(marked free).1, (marked free).2, saturated]
    exact ⟨by simp [raisedSlot], by simp [raisedSlot, EventKind.accumulates]⟩
  · have neither : ¬ (eventEnabled .monitorSaturated s = true ∧ full ≠ 0) := fun both => raises (by
      rw [raised, ← enable, both.1]
      simpa using both.2)
    have off : raise = false := by simpa using raises
    rw [saturatedSlot, if_neg neither] at saturated
    rw [off, saturated]
    refine ⟨by simp, by simp, fun free => ?_⟩
    rw [(marked free).1, (marked free).2, saturated]
    exact ⟨by simp, by simp⟩

/-! ### The codes of section 11.8 -/

/-- A code and the list of what its values name, one in the order of the other, agree. -/
theorem code_iff {α : Type} {named : List α} {code : α → Byte} (coded : ∀ n : Fin named.length, code named[n] = BitVec.ofNat 8 n.val)
    (listed : ∀ a, named[(code a).toNat]? = some a) (b : Byte) (a : α) : named[b.toNat]? = some a ↔ code a = b := by
  refine ⟨fun h => ?_, fun h => h ▸ listed a⟩
  obtain ⟨bound, rfl⟩ := List.getElem?_eq_some_iff.1 h
  exact (coded ⟨b.toNat, bound⟩).trans (BitVec.ofNat_toNat 8 b)

theorem groupOfCode_iff : ∀ (b : Byte) (g : Group), groupOfCode b = some g ↔ groupCode g = b :=
  code_iff (by decide) fun g => by cases g <;> rfl

theorem modeOfCode_iff : ∀ (b : Byte) (m : CounterMode), modeOfCode b = some m ↔ modeCode m = b :=
  code_iff (by decide) fun m => by cases m <;> rfl

theorem conditionOfCode_iff : ∀ (b : Byte) (k : Condition), conditionOfCode b = some k ↔ conditionCode k = b :=
  code_iff (by decide) fun k => by cases k <;> rfl

/-- A table of the sub-events of a group lists each at its bit. -/
theorem units_of_table {g : Group} {us : List SubEvent} (h : ∀ n : Fin us.length, us[n].group = g ∧ us[n].bit = n.val) {n : Nat}
    {u : SubEvent} (unit : us[n]? = some u) : u.group = g ∧ u.bit = n := by
  obtain ⟨bound, rfl⟩ := List.getElem?_eq_some_iff.1 unit
  exact h ⟨n, bound⟩

/-- R170: the selection that known codes and a unit mask within the group name. -/
theorem selectionOf_good {m : CounterMode} {g : Group} {k : Condition} {unitMask : Word} (within : unitMask.toNat < 2 ^ groupSize g) :
    selectionOf (modeCode m) (groupCode g) unitMask (conditionCode k) = some ⟨0, m, g, unitMask, k⟩ := by
  rw [selectionOf, (modeOfCode_iff _ m).2 rfl, (groupOfCode_iff _ g).2 rfl, (conditionOfCode_iff _ k).2 rfl]
  exact if_pos within

/-- R170: the arguments that are refused. -/
theorem selectionOf_bad {mode group condition : Byte} {unitMask : Word} (bad : 2 < mode.toNat ∨ 7 < group.toNat ∨ 4 < condition.toNat ∨
    ∃ g, groupOfCode group = some g ∧ 2 ^ groupSize g ≤ unitMask.toNat) : selectionOf mode group unitMask condition = none := by
  unfold selectionOf
  split
  · next m g k named named' named'' =>
    refine if_neg (Nat.not_lt.2 ?_)
    rcases bad with beyond | beyond | beyond | ⟨g', code, wide⟩
    · rw [modeOfCode, List.getElem?_eq_none (Nat.succ_le_of_lt beyond)] at named
      cases named
    · rw [groupOfCode, List.getElem?_eq_none (Nat.succ_le_of_lt beyond)] at named'
      cases named'
    · rw [conditionOfCode, List.getElem?_eq_none (Nat.succ_le_of_lt beyond)] at named''
      cases named''
    · rw [named'] at code
      cases code
      exact wide
  · rfl

/-! ### The request -/

theorem exec_monitorSet (tag entry mode group : Byte) (unitMask : Word) (condition : Byte) (s : State) :
    exec (.monitorSet tag entry mode group unitMask condition) s =
      requestArrival tag 15 (doMonitorSet tag entry mode group unitMask condition) s := by rfl

/-- R172: the results of the latency tracker cleared, whatever fault it follows. -/
theorem endsAs.clearLatency {u v : State} {us : List SubEvent} (h : endsAs u us v) :
    endsAs { u with mn.tracker := ⟨u.mn.tracker.armed, 0, 0, 0, 0⟩ } us { v with mn.tracker := ⟨v.mn.tracker.armed, 0, 0, 0, 0⟩ } := by
  obtain ⟨rest, ⟨selections, tracker, events, lane⟩, counted⟩ := h
  obtain ⟨c, e, x, rfl⟩ : ∃ c e x, v = { u with mn.counters := c, me.events := e, lc.tx := x } := ⟨_, _, _, rest⟩
  exact ⟨rfl, ⟨selections, rfl, events, lane⟩, counted⟩

/-- R170: the state with one counter's selection replaced. -/
def selected (n : Fin 4) (c : Counter) (s : State) : State := { s with mn.counters := s.mn.counters.set n c }

/-- What leaves the streams, the engines and the attachment leaves every condition (R171). -/
theorem holds_of_same {s t : State} (sq : t.sq = s.sq) (de : t.de = s.de) (attachment : t.lc.attachment = s.lc.attachment)
    (c : Condition) : holds s c = holds t c := by
  cases c <;> simp only [holds, sq, de, attachment]

/-- Settles O47. -/
theorem monitorSetReplacesASelection : Obligations.MonitorSetReplacesASelection := by
  refine ⟨fun c u => ?_, fun b m => (modeOfCode_iff b m).symm, fun b k => (conditionOfCode_iff b k).symm,
    fun b g => (groupOfCode_iff b g).symm, groupOfCode_iff, fun g us named => ?_,
    fun tag entry mode group condition unitMask s taken => ⟨fun beyond => ?_, fun tracker => ?_, fun n index => ⟨fun bad => ?_,
      fun m g k mode' group' condition' within => ?_⟩⟩⟩
  · simp only [Counter.selects, Bool.and_eq_true, beq_iff_eq, and_assoc]
  · cases g <;> (cases named; exact ⟨rfl, fun n u unit => units_of_table (by decide) unit⟩)
  · exact request_replied taken ((dif_neg (by omega)).trans (if_neg (by omega)))
  · rw [exec_monitorSet, tracker]
    exact request_ends taken (((taken_ends (passed s)).clearLatency).answer tag 0x0F .ok)
  · refine request_replied taken ((dif_pos (show entry.toNat < 4 by omega)).trans ?_)
    rw [selectionOf_bad bad]
    rfl
  · have bound : entry.toNat < 4 := by omega
    have ends := taken_ends (passed s)
    have tallied := count_tallies .reqTaken (passed s)
    have set : doMonitorSet tag entry mode group unitMask condition (count .reqTaken (passed s)) =
        answer tag 0x0F .ok (selected n ⟨0, m, g, unitMask, k⟩ (count .reqTaken (passed s))) := by
      rw [doMonitorSet, dif_pos bound, ← mode', ← group', ← condition', selectionOf_good within]
      simp only [index]
      rfl
    rw [exec_monitorSet, requestArrival_taken _ _ _ taken, set]
    generalize count .reqTaken (passed s) = v at ends tallied
    have edges : conclude s (answer tag 0x0F .ok (selected n ⟨0, m, g, unitMask, k⟩ v)) =
        arbitrate (answer tag 0x0F .ok (selected n ⟨0, m, g, unitMask, k⟩ v)) := by
      have sq : v.sq = s.sq := by rw [ends.1]; rfl
      have de : v.de = s.de := by rw [ends.1]; rfl
      have attachment : v.lc.attachment = s.lc.attachment := by rw [ends.1]; rfl
      exact congrArg arbitrate (countEdges_none (holds_of_same sq de attachment))
    have chosen := arbitrate_selected (answer tag 0x0F .ok (selected n ⟨0, m, g, unitMask, k⟩ v))
    obtain ⟨rest, ⟨selections, tracker, events, lane⟩, counts⟩ := ends
    obtain ⟨_, _, events', lane'⟩ := chosen.bookkeeping
    have counters := chosen.same_mn
    rw [edges]
    refine ⟨_, rfl, rest_trans (v := answer tag 0x0F .ok (selected n ⟨0, m, g, unitMask, k⟩ v)) ?_ ?_, ?_, events.trans events' lane lane', fun busy => ?_, ?_, v, selections, counts, tallied.edges,
      fun j other => ?_, fun full names => ?_⟩
    · obtain ⟨c, e, x, rfl⟩ : ∃ c e x, v = { passed s with mn.counters := c, me.events := e, lc.tx := x } := ⟨_, _, _, rest⟩
      rfl
    · rw [counters]
      exact chosen.rest
    · rw [counters]
      exact tracker
    · have held : v.lc.tx = s.lc.tx := lane busy
      exact (lane' ((congrArg Option.isSome held).trans busy)).trans held
    · rw [counters]
      exact Vector.getElem_set_self n.isLt
    · rw [counters]
      exact Vector.getElem_set_ne n.isLt j.isLt fun same => other (Fin.ext same.symm)
    · have slot := tallied.saturates.slot full fun b =>
        (names b).trans (exists_congr fun j => and_congr_right fun _ => (iff_of_eq (false_or _)).symm)
      have tx : v.lc.tx = s.lc.tx := tallied.saturates.lane
      refine saturationRaised_of chosen slot rfl rfl fun _ => ⟨rfl, ?_⟩
      rw [eventStarts, eventStarts, show (answer tag 0x0F .ok (selected n ⟨0, m, g, unitMask, k⟩ v)).lc.tx = s.lc.tx from tx]

end Sys2Proof.Machine
end

section
/-! PROOFS. The Monitor over an event (R162, R171), the millisecond and the backlight period (R133): the settlement of O52. -/

namespace Sys2Proof.Machine

/-! ### Counters over an event -/

/-- Before the end of an event, counters keep their selections, and those in CONDITION_EDGE mode their values (R171). -/
structure Steady (s t : State) : Prop where
  selections : selectionsKept s t
  edges : ∀ n : Fin 4, s.mn.counters[n].mode = .conditionEdge → t.mn.counters[n].value = s.mn.counters[n].value

theorem Steady.trans {s t u : State} (h : Steady s t) (g : Steady t u) : Steady s u where
  selections := h.selections.trans g.selections
  edges n edge := by rw [g.edges n (by rw [(h.selections n).1]; exact edge), h.edges n edge]

theorem Steady.of_same {s t : State} (same : t.mn.counters = s.mn.counters) : Steady s t :=
  ⟨fun n => by rw [same]; exact ⟨rfl, rfl, rfl, rfl⟩, fun n _ => by rw [same]⟩

theorem Tallies.steady {s t : State} (h : Tallies s t) : Steady s t := ⟨h.saturates.selections, h.edges⟩

/-- What an event shows of MONITOR_SATURATED: its pending flag and detail as the saturated counters leave them, and the whole slot
where its own EVENT transmission was not ended or cut. -/
structure Marks (s t : State) : Prop where
  enables : t.settings.enables = s.settings.enables
  free : s.lc.tx = none → t.lc.tx = none
  lane : eventOnLane .monitorSaturated t = true → eventOnLane .monitorSaturated s = true
  values : ∀ n : Fin 4, ∃ k, t.mn.counters[n].value = addedTo s.mn.counters[n].value k
  shown : ∀ m, names m (comesFull s t) → ∀ e, e = saturatedSlot (eventEnabled .monitorSaturated s)
      (eventOnLane .monitorSaturated s) m (eventSlot .monitorSaturated s) →
    (eventSlot .monitorSaturated t).pending = e.pending ∧ (eventSlot .monitorSaturated t).detail = e.detail ∧
      (eventOnLane .monitorSaturated t = eventOnLane .monitorSaturated s → eventSlot .monitorSaturated t = e)

/-- The pending flag and the detail that raises leave do not depend on the marks. -/
theorem saturatedSlot_shown (enable own own' : Bool) (m : BitVec 24) {e e' : EventSlot} (pending : e.pending = e'.pending)
    (detail : e.detail = e'.detail) : (saturatedSlot enable own m e).pending = (saturatedSlot enable own' m e').pending ∧
      (saturatedSlot enable own m e).detail = (saturatedSlot enable own' m e').detail := by
  unfold saturatedSlot
  split
  · simp [raisedSlot, EventKind.accumulates, pending, detail]
  · exact ⟨pending, detail⟩

theorem Marks.trans {s t u : State} (h : Marks s t) (g : Marks t u) : Marks s u where
  enables := g.enables.trans h.enables
  free := g.free ∘ h.free
  lane := h.lane ∘ g.lane
  values n := by
    obtain ⟨a, ha⟩ := h.values n
    obtain ⟨b, hb⟩ := g.values n
    exact ⟨a + b, by rw [hb, ha, addedTo_addedTo]⟩
  shown m named e saturated := by
    obtain ⟨a, ha⟩ := exists_names (comesFull s t)
    obtain ⟨b, hb⟩ := exists_names (comesFull t u)
    have enable : eventEnabled .monitorSaturated t = eventEnabled .monitorSaturated s := by simp only [eventEnabled, h.enables]
    have union : m = a ||| b := named.unique ((ha.union hb).same fun n => (comesFull_trans h.values g.values n).symm)
    obtain ⟨pending, detail, whole⟩ := h.shown a ha _ rfl
    obtain ⟨pending', detail', whole'⟩ := g.shown b hb _ rfl
    have shown := saturatedSlot_shown (eventEnabled .monitorSaturated s) (eventOnLane .monitorSaturated t)
      (eventOnLane .monitorSaturated s) b pending detail
    rw [saturatedSlot_union, ← union, ← saturated] at shown
    rw [enable] at pending' detail' whole'
    refine ⟨pending'.trans shown.1, detail'.trans shown.2, fun same => ?_⟩
    have between : eventOnLane .monitorSaturated t = eventOnLane .monitorSaturated s := by
      have down := g.lane
      have up := h.lane
      rw [same] at down
      cases on : eventOnLane .monitorSaturated s with
      | true => exact down on
      | false =>
        rw [on] at up
        exact Bool.eq_false_iff.2 fun on' => Bool.false_ne_true (up on')
    rw [whole' (same.trans between.symm), whole between, between, saturatedSlot_union, ← union, saturated]

theorem Saturates.marks {s t : State} (h : Saturates (fun _ => False) s t) : Marks s t where
  enables := h.enables
  free none := h.lane.trans none
  lane on := by simpa only [eventOnLane, h.lane] using on
  values := h.values
  shown m named e saturated := by
    have slot := h.slot m (named.same fun n => (iff_of_eq (false_or _)).symm)
    rw [← saturated] at slot
    rw [slot]
    exact ⟨rfl, rfl, fun _ => rfl⟩

/-- R171: whether a condition of edge-counting passed, judged by the states before and after an event (log 6). -/
abbrev edgesCounted (s t : State) : Prop :=
  ∀ n : Fin 4, s.mn.counters[n].mode = .conditionEdge → t.mn.counters[n].value =
    if holds s s.mn.counters[n].condition = false ∧ holds t s.mn.counters[n].condition = true then
      min (s.mn.counters[n].value + 1) 4294967295
    else s.mn.counters[n].value

/-- The end of an event counts the edges. -/
theorem Steady.concluded {s u : State} (h : Steady s u) : edgesCounted s (conclude s u) := by
  intro n edge
  obtain ⟨mode, _, _, condition⟩ := h.selections n
  have unselected : u.mn.counters[n].selects .eventRaised = false := Counter.selects_of_mode _ _ (by rw [mode, edge]; decide)
  have kept : holds (conclude s u) = holds u := funext fun c =>
    (holds_of_same (conclude_sq s u) (conclude_de s u) (conclude_attachment s u) c).symm
  have counted := conclude_added s u n
  simp only [mode, edge, condition, h.edges n edge, unselected, beq_self_eq_true, Bool.true_and, Bool.and_eq_true, Bool.not_eq_true',
    Bool.false_eq_true, and_false, if_false, Nat.add_zero] at counted
  rw [counted, kept]
  split
  · rfl
  · rfl

/-- An event that ends or cuts the own transmission of MONITOR_SATURATED leaves the lane free with the link below UP. -/
abbrev laneLost (s u : State) : Prop :=
  eventOnLane .monitorSaturated s = true → eventOnLane .monitorSaturated u = true ∨ (u.lc.link ≠ .up ∧ u.lc.tx = none)

/-- The raises of an event and of the edges at its end. -/
theorem Marks.concluded {s u : State} (h : Marks s u) (lost : laneLost s u) (full : BitVec 24)
    (named : ∀ k : Nat, full.getLsbD k = true ↔
      ∃ n : Fin 4, n.val = k ∧ s.mn.counters[n].value < 4294967295 ∧ (conclude s u).mn.counters[n].value = 4294967295) :
    saturationRaised full s (conclude s u) := by
  have edges : Saturates (fun _ => False) u (countEdges s u) := addWhere_saturates 5 _ Nat.one_pos u
  have marks := h.trans edges.marks
  have chosen := arbitrate_selected (countEdges s u)
  have named : names full (comesFull s (countEdges s u)) := fun k => by
    rw [named k]
    simp only [comesFull, conclude, arbitrate_mn]
  obtain ⟨pending, detail, whole⟩ := marks.shown full named _ rfl
  refine saturationRaised_of chosen rfl pending detail fun free => ?_
  have off {t : State} (none : t.lc.tx = none) : eventOnLane .monitorSaturated t = false := by simp [eventOnLane, none]
  rcases free with none | same
  · have none' := marks.free none
    refine ⟨whole ((off none').trans (off none).symm), ?_⟩
    rw [eventStarts, eventStarts, none, none']
  · have sending (t : State) (again : t.lc.tx = s.lc.tx) (own : eventOnLane .monitorSaturated s = true) : t.lc.tx ≠ none := fun none =>
      Bool.false_ne_true ((off (again.symm.trans none)).symm.trans own)
    have on (starts : (arbitrate (countEdges s u)).lc.tx.any (fun x => x.item == .event .monitorSaturated) = true) :
        eventOnLane .monitorSaturated s = true := by 
        have same : (arbitrate (countEdges s u)).lc.tx = s.lc.tx := same
        rwa [same] at starts
    have idle : ¬ eventStarts .monitorSaturated s (arbitrate (countEdges s u)) := fun starts =>
      sending s rfl (on starts.2) starts.1
    by_cases own : eventOnLane .monitorSaturated s = true
    · rcases lost own with own' | ⟨below, none⟩
      · have own' : eventOnLane .monitorSaturated (countEdges s u) = true := by simpa only [eventOnLane, edges.lane] using own'
        refine ⟨whole (own'.trans own.symm), iff_of_false (fun starts => ?_) idle⟩
        exact Bool.false_ne_true ((off starts.1).symm.trans own')
      · exact absurd (conclude_lane_free below none) (sending _ same own)
    · have none : eventOnLane .monitorSaturated (countEdges s u) = false := Bool.eq_false_iff.2 fun on' => own (marks.lane on')
      exact ⟨whole (none.trans (Bool.eq_false_iff.2 own).symm), iff_of_false (fun starts => own (on starts.2)) idle⟩

/-! ### Events by command -/

/-- What a command other than a reset or a MONITOR_SET leaves: nothing has changed, or an event whose edges and raises are counted;
the raises where p holds. -/
def Judged (p : Prop) (s : State) (x : Result) : Prop :=
  x = .next s ∨ ∃ u, x = .next (conclude s u) ∧ Steady s u ∧
    (p → u.settings.enables = s.settings.enables → Marks s u ∧ laneLost s u)

theorem Judged.of {p : Prop} {s u : State} (h : Tallies s u) : Judged p s (.next (conclude s u)) :=
  .inr ⟨u, rfl, h.steady, fun _ _ => ⟨h.saturates.marks, fun own => .inl (by simpa only [eventOnLane, h.saturates.lane] using own)⟩⟩

theorem Judged.same {p : Prop} (s : State) : Judged p s (.next s) := .inl rfl

theorem Judged.ite {p q : Prop} [Decidable q] {s u : State} (h : Tallies s u) :
    Judged p s (if q then .next (conclude s u) else .next s) := by
  split
  · exact .of h
  · exact .same s

theorem tallies_refl (s : State) : Tallies s s := (Kept.refl s).tallies

theorem tallies_lc (lc : LinkCtl) {s : State} (lane : lc.tx = s.lc.tx) : Tallies s { s with lc := lc } := .of_same lane rfl rfl rfl

theorem Tallies.after_lc {lc : LinkCtl} {s t : State} (h : Tallies { s with lc := lc } t) (lane : lc.tx = s.lc.tx) : Tallies s t :=
  (tallies_lc lc lane).trans h

theorem passFrame_tallies {dispatch : State → State} (h : ∀ t, Tallies t (dispatch t)) (s : State) : Tallies s (passFrame dispatch s) := by
  unfold passFrame
  split
  · split
    · exact (count_tallies _ _).after_lc rfl
    · exact tallies_lc _ rfl
  · exact (h _).after_lc rfl
  · exact tallies_refl s
  · exact tallies_refl s

theorem ifAttached_tallies {run : State → State} (h : ∀ t, Tallies t (run t)) (s : State) : Tallies s (ifAttached run s) := by
  unfold ifAttached
  split
  · exact h s
  · exact count_tallies _ s

theorem takeRequest_tallies (tag kind : Byte) {run : State → State} (h : ∀ t, Tallies t (run t)) (s : State) :
    Tallies s (takeRequest tag kind run s) := by
  unfold takeRequest
  split
  · exact count_tallies _ s
  · split
    · exact (answer_kept _ _ _ _).tallies.trans (count_tallies _ _)
    · exact (count_tallies _ _).trans (h _)

theorem frameArrival_judged {p : Prop} {effect : State → State} {s : State} (h : Tallies s (effect s)) :
    Judged p s (frameArrival effect s) := .ite h

theorem passing_judged {p : Prop} {dispatch : State → State} {s : State} (h : ∀ t, Tallies t (dispatch t)) :
    Judged p s (frameArrival (passFrame dispatch) s) := frameArrival_judged (passFrame_tallies h s)

theorem request_judged {p : Prop} {tag kind : Byte} {run : State → State} {s : State} (h : ∀ t, Kept t (run t)) :
    Judged p s (requestArrival tag kind run s) :=
  passing_judged (ifAttached_tallies (takeRequest_tallies tag kind fun t => (h t).tallies))

/-! ### Departures and teardown -/

/-- An event that may cut the transmission with the link leaving UP. -/
structure Departs (s t : State) : Prop where
  steady : Steady s t
  marks : Marks s t
  lost : laneLost s t
  below : s.lc.link ≠ .up → t.lc.link ≠ .up

theorem Departs.trans {s t u : State} (h : Departs s t) (g : Departs t u) : Departs s u where
  steady := h.steady.trans g.steady
  marks := h.marks.trans g.marks
  lost own := by
    rcases h.lost own with own' | ⟨below, none⟩
    · exact g.lost own'
    · exact .inr ⟨g.below below, g.marks.free none⟩
  below := g.below ∘ h.below

theorem Tallies.departs {s t : State} (h : Tallies s t) (below : s.lc.link ≠ .up → t.lc.link ≠ .up) : Departs s t where
  steady := h.steady
  marks := h.saturates.marks
  lost own := .inl (by simpa only [eventOnLane, h.saturates.lane] using own)
  below := below

theorem count_departs (x : SubEvent) (s : State) : Departs s (count x s) := (count_tallies x s).departs (by simp)

theorem lc_departs (lc : LinkCtl) {s : State} (lane : lc.tx = s.lc.tx) (below : s.lc.link ≠ .up → lc.link ≠ .up) :
    Departs s { s with lc := lc } := (tallies_lc lc lane).departs below

theorem Departs.after_lc {lc : LinkCtl} {s t : State} (h : Departs { s with lc := lc } t) (lane : lc.tx = s.lc.tx)
    (below : s.lc.link ≠ .up → lc.link ≠ .up) : Departs s t := (lc_departs lc lane below).trans h

theorem Departs.refl (s : State) : Departs s s := (tallies_refl s).departs id

/-- R19: a cut with the link below UP. -/
theorem cutTx_departs {s : State} (below : s.lc.link ≠ .up) : Departs s (cutTx s) := by
  cases lane : s.lc.tx with
  | none =>
    rw [cutTx_none lane]
    exact .refl s
  | some x =>
    rw [cutTx_some lane]
    refine Departs.trans (t := cutEffect x s) ?_ (count_departs _ _)
    have effect := cutEffect_eq x s
    have mn : (cutEffect x s).mn = s.mn := by rw [effect]
    have tx : (cutEffect x s).lc.tx = none := by rw [effect]
    have link : (cutEffect x s).lc.link = s.lc.link := by rw [effect]
    have off : eventOnLane .monitorSaturated (cutEffect x s) = false := by simp [eventOnLane, tx]
    refine ⟨.of_same (by rw [mn]), ⟨by rw [effect], fun _ => tx, fun on => absurd on (by rw [off]; decide),
      fun n => ⟨0, by rw [mn]; rfl⟩, fun m named e saturated => ?_⟩, fun _ => .inr ⟨link ▸ below, tx⟩, fun h => link ▸ h⟩
    have zero : m = 0 := named.unique (names_none.same fun n => by
      simp only [comesFull, mn, false_iff]
      omega)
    rw [zero, saturatedSlot_none] at saturated
    rw [saturated, eventSlot_cutEffect, off]
    refine ⟨rfl, rfl, fun same => ?_⟩
    have other : (x.item != .event .monitorSaturated) = true := by simpa [eventOnLane, lane] using same
    rw [other, Bool.and_true]

theorem cutAssembly_departs (s : State) : Departs s (cutAssembly s) := by
  unfold cutAssembly
  split
  · exact (count_departs _ _).after_lc rfl id
  · exact .refl s

theorem enterHold_departs (cause : DepartCause) (s : State) : Departs s (enterHold cause s) := by
  unfold enterHold
  split
  · exact (count_departs _ _).after_lc rfl id
  · exact .refl s

theorem leaveUp_departs (cause : DepartCause) {s : State} (below : s.lc.link ≠ .up) : Departs s (leaveUp cause s) := by
  have cut := (cutAssembly_departs s).trans
    (lc_departs { (cutAssembly s).lc with failureCount := 0, framingCount := 0 } (s := cutAssembly s) rfl id)
  exact (cut.trans (cutTx_departs (cut.below below))).trans (enterHold_departs cause _)

theorem failFrame_departs (s : State) : Departs s (failFrame s) := by
  unfold failFrame
  split
  · exact (count_departs _ _).after_lc rfl id
  · split
    · have realigned : Departs s (count .linkRealign (count .checkFail { s with lc.link := .aligning, lc.alignCount := 0 })) :=
        ((count_departs _ _).trans (count_departs _ _)).after_lc rfl fun _ => nofun
      exact realigned.trans (leaveUp_departs _ (by simp))
    · exact (count_departs _ _).after_lc rfl id
  · exact .refl s
  · exact .refl s

theorem expireLoss_departs (s : State) : Departs s (expireLoss s) := by
  have down : Departs s { s with lc.link := .down, lc.lossCount := 0 } := lc_departs _ rfl fun _ => nofun
  unfold expireLoss
  refine down.trans (Departs.trans ?_ (count_departs _ _))
  split
  · exact leaveUp_departs _ nofun
  · exact cutAssembly_departs _

theorem openFrame_departs (s : State) : Departs s (openFrame s) := by
  unfold openFrame
  split
  · exact lc_departs _ rfl id
  · exact .refl s

theorem failOpen_departs (s : State) : Departs s (failOpen s) := (failFrame_departs { s with lc.assembly := none }).after_lc rfl id

theorem assembleGroup_departs {g : SymbolGroup} (notEnd : g ≠ .endDelimiter) (s : State) : Departs s (assembleGroup g s) := by
  unfold assembleGroup
  split
  · exact openFrame_departs s
  · exact (failOpen_departs s).trans (openFrame_departs _)
  · unfold appendByte
    split
    · exact failOpen_departs s
    · exact lc_departs _ rfl id
  · exact absurd rfl notEnd
  · exact failOpen_departs s
  all_goals exact .refl s

theorem restartLoss_departs (g : SymbolGroup) (s : State) : Departs s (restartLoss g s) := by
  unfold restartLoss
  split
  · exact lc_departs _ rfl id
  · exact .refl s

theorem takeGroup_departs {g : SymbolGroup} (notEnd : g ≠ .endDelimiter) (s : State) : Departs s (takeGroup g s) := by
  refine (restartLoss_departs g s).trans ?_
  simp only [takeGroup]
  split
  · unfold downGroup
    split
    · exact lc_departs _ rfl fun _ => nofun
    · exact .refl _
  · unfold alignGroup
    split
    · split
      · exact lc_departs _ rfl fun _ => nofun
      · exact lc_departs _ rfl id
    · exact lc_departs _ rfl id
  · exact assembleGroup_departs notEnd _
  · exact assembleGroup_departs notEnd _

theorem Judged.departs {p : Prop} {s u : State} (h : Departs s u) : Judged p s (.next (conclude s u)) :=
  .inr ⟨u, rfl, h.steady, fun _ _ => ⟨h.marks, h.lost⟩⟩

/-- R15: a teardown leaves the counters in CONDITION_EDGE mode. -/
theorem teardown_steady (s : State) : Steady s (teardown s) := by
  have cut (s : State) : Steady s (cutTx s) := by
    cases lane : s.lc.tx with
    | none =>
      rw [cutTx_none lane]
      exact .of_same rfl
    | some x =>
      rw [cutTx_some lane]
      exact Steady.trans (t := cutEffect x s) (.of_same (by rw [cutEffect_eq])) (count_tallies _ _).steady
  have link (s : State) : Steady s (teardownLink s) := (cut s).trans (.of_same rfl)
  have first : Steady s (teardownLink (abandonRequest (clearEvents s))) :=
    (Steady.of_same (s := s) (t := clearEvents s) rfl).trans ((abandonRequest_kept (clearEvents s)).tallies.steady.trans (link _))
  refine first.trans ?_
  exact ((((((count_kept .teardown _).trans (resetStreams_kept _)).trans (resetCache_kept _)).trans (resetFaults_kept _)).trans
    (teardownLayout_kept _)).trans (trackTeardown_kept _)).tallies.steady

theorem flagGreet_tallies (o : GreetOutcome) (s : State) : Tallies s (flagGreet o s) := by
  unfold flagGreet
  dsimp only
  split
  · split
    · exact tallies_refl s
    · exact tallies_lc _ rfl
  · exact tallies_lc _ rfl

theorem freshAttach_tallies (number : Word) (s : State) : Tallies s (freshAttach number s) := by
  unfold freshAttach
  refine Tallies.trans ?_ (flagGreet_tallies _ _)
  split
  · exact tallies_lc _ rfl
  · exact tallies_lc _ rfl

theorem reattach_tallies (s : State) : Tallies s (reattach s) := by
  unfold reattach
  have greeted := (flagGreet_tallies .resumed { s with
    lc.attachment := .attached, lc.holdTimer := none
    lc.lastCause := s.lc.holdCause, lc.lastDuration := holdMs s }).after_lc (s := s) rfl
  have again := greeted.trans (((flagOpenRewinds_kept .reattach _).trans (representFault_kept .a _)).trans
    (representFault_kept .b _)).tallies
  exact (again.trans (reattachSnapshot_scanned _).tallies).trans ((raiseEvent_kept (by decide) _ _).trans (count_kept _ _)).tallies

/-- A HELLO of the tablet that is held or attached, or of any while UNATTACHED, brings no teardown. -/
theorem takeHello_tallies {number : Word} {s : State} (here : s.lc.attachment = .unattached ∨ number = s.lc.attachNumber) :
    Tallies s (takeHello number s) := by
  unfold takeHello
  split
  · exact freshAttach_tallies number s
  · next attached =>
    rw [if_pos (here.resolve_left (by rw [attached]; decide))]
    exact flagGreet_tallies _ s
  · next held =>
    rw [if_pos (here.resolve_left (by rw [held]; decide))]
    exact reattach_tallies s

theorem takeHello_steady (number : Word) (s : State) : Steady s (takeHello number s) := by
  unfold takeHello
  split
  · exact (freshAttach_tallies number s).steady
  · split
    · exact (flagGreet_tallies _ s).steady
    · exact (teardown_steady s).trans (freshAttach_tallies number _).steady
  · split
    · exact (reattach_tallies s).steady
    · exact (teardown_steady s).trans (freshAttach_tallies number _).steady

/-- R9 to R13. -/
theorem hello_judged (number : Word) (s : State) :
    Judged (s.lc.attachment = .unattached ∨ number = s.lc.attachNumber) s (exec (.hello number) s) := by
  rw [exec_hello]
  unfold execHello frameArrival
  split
  case isFalse => exact .same s
  case isTrue open' =>
    by_cases up : s.lc.link = .up
    · rw [passFrame_up _ up]
      have here := tallies_lc { s.lc with failureCount := 0 } (s := s) rfl
      exact .inr ⟨_, rfl, here.steady.trans (takeHello_steady number _), fun same _ => by
        have whole := here.trans (takeHello_tallies (s := { s with lc.failureCount := 0 }) same)
        exact ⟨whole.saturates.marks, (whole.departs fun below => absurd up below).lost⟩⟩
    · have framing : s.lc.link = .framing := ((assembles_iff s).1 open').resolve_right up
      have same : passFrame (takeHello number) s = passFrame id s := by rw [passFrame_framing _ framing, passFrame_framing _ framing]
      rw [same]
      exact .of (passFrame_tallies tallies_refl s)

/-! ### Transmissions and settings -/

theorem completeItem_steady (item : TxItem) (s : State) : Steady s (completeItem item s) := by
  cases item with
  | greet =>
    simp only [completeItem]
    split <;> exact .of_same rfl
  | keys => exact .of_same rfl
  | fault side => exact (setRecord_kept side _ s).tallies.steady
  | rewind i => exact (setStream_kept i _ s).tallies.steady
  | reply => exact .of_same rfl
  | event k => exact Steady.trans (t := setEventSlot k (eventSent k (eventSlot k s)) s) (.of_same rfl) (count_tallies _ _).steady

theorem completeItem_tallies {item : TxItem} (other : item ≠ .event .monitorSaturated) (s : State) : Tallies s (completeItem item s) := by
  cases item with
  | greet =>
    simp only [completeItem]
    split <;> exact tallies_lc _ rfl
  | keys => exact tallies_lc _ rfl
  | fault side => exact (setRecord_kept side _ s).tallies
  | rewind i => exact (setStream_kept i _ s).tallies
  | reply => exact tallies_lc _ rfl
  | event k =>
    have slot : Tallies s (setEventSlot k (eventSent k (eventSlot k s)) s) :=
      .of_same rfl rfl rfl (eventSlot_setEventSlot_ne (fun same => other (congrArg TxItem.event same)) _ s)
    exact slot.trans (count_tallies _ _)

/-- R19: the end of a transmission of another item than MONITOR_SATURATED leaves its slot. -/
theorem transmissionComplete_judged (s : State) :
    Judged (∀ x, s.lc.tx = some x → x.item ≠ .event .monitorSaturated) s (exec .transmissionComplete s) := by
  cases lane : s.lc.tx with
  | none => exact .inl (exec_transmissionComplete_none lane)
  | some x =>
    refine .inr ⟨_, exec_transmissionComplete lane, ?_, fun others _ => ?_⟩
    · exact Steady.trans (t := { s with lc.tx := none, lc.laneOut := frameGroups x.frame }) (.of_same rfl) (completeItem_steady _ _)
    · have other := others x rfl
      have off : eventOnLane .monitorSaturated s = false := by simpa [eventOnLane, lane] using other
      have freed : Marks s { s with lc.tx := none, lc.laneOut := frameGroups x.frame } := {
        enables := rfl
        free := fun _ => rfl
        lane := nofun
        values := fun n => ⟨0, rfl⟩
        shown := fun m named e saturated => by
          have zero : m = 0 := named.unique (names_none.same fun n => by
            simp only [comesFull, false_iff]
            omega)
          rw [zero, saturatedSlot_none] at saturated
          rw [saturated]
          exact ⟨rfl, rfl, fun _ => rfl⟩ }
      exact ⟨freed.trans (completeItem_tallies other _).saturates.marks, fun own => absurd own (by rw [off]; decide)⟩

/-- R16, R155: the carrying out of a request that is not taken does not matter. -/
theorem requestArrival_not_taken (tag kind : Byte) (run run' : State → State) {s : State} (not : ¬ takesRequest s) :
    requestArrival tag kind run s = requestArrival tag kind run' s := by
  have here (t : State) (up : t.lc.link = .up) (not : ¬ takesRequest t) :
      ifAttached (takeRequest tag kind run) t = ifAttached (takeRequest tag kind run') t := by
    unfold ifAttached
    split
    case isFalse => rfl
    case isTrue attached =>
      unfold takeRequest
      split
      · rfl
      · next room =>
        split
        · rfl
        · next idle =>
          have none : t.me.inProgress = none := by simpa using idle
          rw [owed_none none] at room
          exact absurd ⟨up, attached, none, by simpa [Config.repliesDepth] using room⟩ not
  have passing : passFrame (ifAttached (takeRequest tag kind run)) s = passFrame (ifAttached (takeRequest tag kind run')) s := by
    unfold passFrame
    split
    · rfl
    · next up => exact here _ up not
    · rfl
    · rfl
  unfold requestArrival frameArrival
  rw [passing]

/-- What a request does that may be a write of the settings (R160). -/
abbrev Writes (tag : Byte) (s t : State) : Prop := Tallies s t ∨ ∃ r, t = doSettingsWrite tag r s

/-- R160: a write of the settings that leaves the enables raises as any request does. -/
theorem write_judged {p : Prop} {tag kind : Byte} {run : State → State} {s : State} (h : ∀ t, Writes tag t (run t)) :
    Judged p s (requestArrival tag kind run s) := by
  by_cases taken : takesRequest s
  · rw [requestArrival_taken _ _ _ taken]
    have counted : Tallies s (count .reqTaken (passed s)) := (count_tallies .reqTaken (passed s)).after_lc (s := s) rfl
    rcases h (count .reqTaken (passed s)) with tallies | ⟨r, writes⟩
    · exact .of (counted.trans tallies)
    · rw [writes, doSettingsWrite_eq]
      refine .inr ⟨_, rfl, counted.steady.trans (.of_same rfl), fun _ enables => ?_⟩
      have written : Tallies (count .reqTaken (passed s)) (answer tag 2 .ok { count .reqTaken (passed s) with
          settings := r, ks.positions := clampedKeys r.depth (count .reqTaken (passed s)).ks.positions }) :=
        .of_same rfl (enables.trans counted.saturates.enables.symm) rfl rfl
      have whole := counted.trans written
      refine ⟨whole.saturates.marks, fun own => .inl ?_⟩
      rw [eventOnLane, whole.saturates.lane]
      exact own
  · rw [requestArrival_not_taken tag kind run id taken]
    exact request_judged Kept.refl

/-! ### The rest -/

theorem Judged.keeps {p : Prop} {s u : State} (h : Kept s u) : Judged p s (.next (conclude s u)) := .of h.tallies

theorem storeErased_tallies {flash : List Host.Cell} (s : State) : Tallies s { s with flash := flash } := .of_same rfl rfl rfl rfl

theorem finishErase_tallies (page : Nat) (s : State) : Tallies s (finishErase page s) :=
  ((storeErased_tallies s).trans (count_tallies .eraseDone _)).trans (endLong_kept .ok _).tallies

theorem finishProgram_tallies (offset : Nat) (data : List Byte) (s : State) : Tallies s (finishProgram offset data s) := by
  have written := (storeErased_tallies (flash := programBytes offset data s.flash) s).trans (count_tallies .programDone _)
  unfold finishProgram
  dsimp only
  split
  · exact written.trans (endLong_kept .ok _).tallies
  · exact (written.trans (count_tallies .programMismatch _)).trans (endLong_kept .storeMismatch _).tallies

theorem keymapWrite_tallies (tag : Byte) (entry : Half) (cls value : Byte) (s : State) :
    Tallies s (doKeymapWrite tag entry cls value s) := by
  unfold doKeymapWrite
  split
  · split
    · exact .of_same rfl rfl rfl rfl
    · exact (answer_kept _ _ _ s).tallies
  · exact (answer_kept _ _ _ s).tallies

theorem doTableWrite_writes (tag table : Byte) (entry : Half) (contents : List Byte) (s : State) :
    Writes tag s (doTableWrite tag table entry contents s) := by
  have answered (x : Status) : Writes tag s (answer tag 2 x s) := .inl (answer_kept _ _ _ s).tallies
  unfold doTableWrite
  split
  · exact answered _
  · split
    · exact answered _
    · split
      · exact answered _
      · next table' _ _ _ =>
        cases table' with
        | ident => exact answered _
        | tileDir => exact answered _
        | fault => exact answered _
        | link => exact answered _
        | monitor => exact answered _
        | layout =>
          simp only [writeEntry]
          split
          · exact .inl (doHeaderWrite_kept _ _ _ s).tallies
          · exact .inl (doRegionWrite_kept _ _ _ _ _ _ _ _ s).tallies
        | stream =>
          simp only [writeEntry]
          split
          · exact answered _
          · exact .inl (doStreamWrite_kept _ _ _ s).tallies
        | keymap => exact .inl (keymapWrite_tallies _ _ _ _ s)
        | settings => exact .inr ⟨_, rfl⟩
        | panel => exact .inl (doPanelWrite_kept _ _ _ _ s).tallies

/-- R24: a change of the panel's own record. -/
theorem pu_tallies (pu : PanelUpdater) (s : State) : Tallies s { s with pu := pu } := .of_same rfl rfl rfl rfl

theorem endReading_tallies (s : State) : Tallies s (endReading s) := by
  rw [endReading_rest]
  exact .of_same rfl rfl rfl rfl

theorem completeBlock_tallies (s : State) : Tallies s (completeBlock s) :=
  (((endReading_tallies s).trans (pu_tallies _ _)).trans (count_tallies _ _)).trans (selectBlock_tallies _)

theorem timeOutBlock_tallies (f : InFlight) (s : State) : Tallies s (timeOutBlock f s) := by
  have timed := ((endReading_tallies s).trans (pu_tallies { (endReading s).pu with
    dirty := s.pu.dirty.set f.block true, inFlight := none, streak := s.pu.streak + 1 } _)).trans (count_tallies .blockTimeout _)
  unfold timeOutBlock
  dsimp only
  split
  · exact timed.trans (selectBlock_tallies _)
  · exact ((timed.trans (pu_tallies _ _)).trans (count_tallies _ _)).trans (raiseEvent_tallies (by decide) _ _)

/-- R171: what the millisecond adds to the counters. -/
theorem countMillisecond_value (s : State) (n : Fin 4) : (countMillisecond s).mn.counters[n].value = addedTo s.mn.counters[n].value
    ((if s.mn.counters[n].mode = .conditionTime ∧ holds s s.mn.counters[n].condition = true then 1 else 0) +
      if s.settings.enables.getLsbD 4 = true ∧ s.mn.counters[n].selects .eventRaised = true then saturatedIn s (countMillisecond s)
      else 0) := by
  have added := addWhere_added 5 (fun c => c.mode == .conditionTime && holds s c.condition) 1 s Nat.one_pos
    (by have := belowMax_le s; omega) n
  simp only [Bool.and_eq_true, beq_iff_eq] at added
  exact added

/-- The millisecond leaves the counters in CONDITION_EDGE mode (R171). -/
theorem countMillisecond_tallies (s : State) : Tallies s { countMillisecond s with msTimer := Config.ticksPerMs } := by
  refine Tallies.trans (t := countMillisecond s) ⟨addWhere_saturates 5 _ Nat.one_pos s, fun n edge => ?_⟩ (.of_same rfl rfl rfl rfl)
  have unselected : s.mn.counters[n].selects .eventRaised = false := Counter.selects_of_mode _ _ (by rw [edge]; decide)
  rw [countMillisecond_value, edge, unselected, if_neg (by simp), if_neg (by simp)]
  rfl

/-- R171: every command but a power-on reset, a DOCK_RESET, a MONITOR_SET and the end delimiter that may bring one of them. -/
theorem exec_judged (c : Instr) (s : State) (notReset : c ≠ .powerOnReset) (notDock : ∀ tag, c ≠ .dockReset tag)
    (notSet : ∀ tag entry mode group mask condition, c ≠ .monitorSet tag entry mode group mask condition)
    (notEnd : c ≠ .symbolGroup .endDelimiter) :
    Judged ((∀ number, c = .hello number → s.lc.attachment = .unattached ∨ number = s.lc.attachNumber) ∧ c ≠ .holdTimerExpiry ∧
      (c = .transmissionComplete → ∀ x, s.lc.tx = some x → x.item ≠ .event .monitorSaturated)) s (exec c s) := by
  cases c with
  | powerOnReset => exact absurd rfl notReset
  | dockReset tag => exact absurd rfl (notDock tag)
  | monitorSet tag entry mode group mask condition => exact absurd rfl (notSet _ _ _ _ _ _)
  | symbolGroup g => exact .departs (takeGroup_departs (fun same => notEnd (same ▸ rfl)) s)
  | lossDetectorExpiry =>
    show Judged _ s (execLossDetectorExpiry s)
    unfold execLossDetectorExpiry
    split
    · exact .departs (expireLoss_departs s)
    · exact .same s
  | checkFail =>
    rw [exec_checkFail]
    unfold frameArrival
    split
    · exact .departs (failFrame_departs s)
    · exact .same s
  | idle => exact passing_judged tallies_refl
  | badFrame => exact passing_judged (count_tallies _)
  | hello number =>
    rcases hello_judged number s with same | ⟨u, ended, steady, marks⟩
    · exact .inl same
    · exact .inr ⟨u, ended, steady, fun circumstances => marks (circumstances.1 number rfl)⟩
  | holdTimerExpiry =>
    show Judged _ s (execHoldTimerExpiry s)
    unfold execHoldTimerExpiry
    split
    · exact .inr ⟨_, rfl, teardown_steady s, fun circumstances => absurd rfl circumstances.2.1⟩
    · exact .same s
  | draw stream seq commands =>
    refine passing_judged fun t => ?_
    split
    · exact ifAttached_tallies (fun t => (doDraw_kept _ _ _ t).tallies) t
    · exact count_tallies _ t
  | executionEnd side =>
    show Judged _ s (execExecutionEnd side s)
    unfold execExecutionEnd
    split
    · split
      · exact .keeps ((finishExecution_kept _ _ s).trans (settle_kept _))
      · exact .same s
    · exact .same s
  | tile key sector data =>
    refine passing_judged fun t => ?_
    split
    · exact ifAttached_tallies (fun t => (doTile_kept _ _ _ t).tallies) t
    · exact count_tallies _ t
  | faultTimerExpiry side => exact .ite (expireFault_kept side s).tallies
  | transmissionComplete =>
    rcases transmissionComplete_judged s with same | ⟨u, ended, steady, marks⟩
    · exact .inl same
    · exact .inr ⟨u, ended, steady, fun circumstances => marks (circumstances.2.2 rfl)⟩
  | badRequest tag kind => exact request_judged fun t => answer_kept _ _ _ t
  | tableRead tag table first number => exact request_judged fun t => doTableRead_kept _ _ _ _ t
  | tableWrite tag table entry contents =>
    show Judged _ s (execTableWrite tag table entry contents s)
    unfold execTableWrite
    split
    · exact write_judged fun t => doTableWrite_writes _ _ _ _ t
    · exact passing_judged (count_tallies _)
  | layoutHeaderWrite tag border undocked => exact request_judged fun t => doHeaderWrite_kept _ _ _ t
  | layoutRegionWrite tag region enabled ox oy rw rh background => exact request_judged fun t => doRegionWrite_kept _ _ _ _ _ _ _ _ t
  | streamWrite tag stream stale => exact request_judged fun t => doStreamWrite_kept _ _ _ t
  | keymapWrite tag entry cls value =>
    exact passing_judged (ifAttached_tallies (takeRequest_tallies _ _ (keymapWrite_tallies tag entry cls value)))
  | settingsWrite tag a b c d e f g h => exact write_judged fun t => .inr ⟨_, rfl⟩
  | panelWrite tag width height level => exact request_judged fun t => doPanelWrite_kept _ _ _ _ t
  | streamOpen tag stream start => exact request_judged fun t => doStreamOpen_kept _ _ _ t
  | streamClose tag stream => exact request_judged fun t => doStreamClose_kept _ _ t
  | quiesce tag => exact request_judged fun t => doQuiesce_kept _ t
  | resume tag => exact request_judged fun t => doResume_kept _ t
  | layoutApplyEnd => 
    show Judged _ s (execLayoutApplyEnd s)
    unfold execLayoutApplyEnd
    split
    · split
      · exact .keeps ((finishApply_kept _ s).trans (finishResume_kept _))
      · exact .same s
    · exact .same s
  | teardownFillEnd =>
    show Judged _ s (execTeardownFillEnd s)
    unfold execTeardownFillEnd
    split
    · split
      · exact .keeps (finishTeardownFill_kept _ s)
      · exact .same s
    · exact .same s
  | tileFlush tag => exact request_judged fun t => doTileFlush_kept _ t
  | sweepStep =>
    show Judged _ s (execSweepStep s)
    unfold execSweepStep
    split
    · exact .keeps (sweepSet_kept _ s)
    · exact .same s
  | tilePin tag key => exact request_judged fun t => doTilePin_kept _ _ t
  | tileUnpin tag key => exact request_judged fun t => doTileUnpin_kept _ _ t
  | panelRestart tag => exact request_judged fun t => doPanelRestart_kept _ t
  | storeErase tag page => exact request_judged fun t => doStoreErase_kept _ _ t
  | storeWrite tag offset data =>
    show Judged _ s (execStoreWrite tag offset data s)
    unfold execStoreWrite
    split
    · exact request_judged fun t => doStoreWrite_kept _ _ _ t
    · exact passing_judged (count_tallies _)
  | storeRead tag offset number => exact request_judged fun t => doStoreRead_kept _ _ _ t
  | eraseDone =>
    show Judged _ s (execEraseDone s)
    unfold execEraseDone
    split
    · exact .of (finishErase_tallies _ s)
    · exact .same s
  | programDone =>
    show Judged _ s (execProgramDone s)
    unfold execProgramDone
    split
    · exact .of (finishProgram_tallies _ _ s)
    · exact .same s
  | acknowledgement echo =>
    show Judged _ s (execAcknowledgement echo s)
    unfold execAcknowledgement
    split
    · split
      · exact .of (completeBlock_tallies s)
      · exact .of (count_tallies _ s)
    · exact .of (count_tallies _ s)
  | blockTimeout =>
    show Judged _ s (execBlockTimeout s)
    unfold execBlockTimeout
    split
    · split
      · exact .of (timeOutBlock_tallies _ s)
      · exact .same s
    · exact .same s
  | scan contacts => exact .ite (scanKeys_scanned contacts s).tallies
  | millisecondTick => exact .ite (countMillisecond_tallies s)
  | backlightPeriod => exact .ite (pu_tallies _ s)

/-! ### The settlement -/

theorem edgesCounted_refl (s : State) : edgesCounted s s := fun n _ => by
  rw [if_neg (fun both => Bool.false_ne_true (both.1.symm.trans both.2))]

/-- R171: the parts of a millisecond. -/
theorem millisecond_counts {s : State} (due : s.msTimer = 0) : ∃ t, exec .millisecondTick s = .next t ∧
      t = { s with msTimer := 1000, mn.counters := t.mn.counters, me.events := t.me.events, lc.tx := t.lc.tx } ∧
      bookkeepingOnly s t ∧
      (∀ n : Fin 4, s.mn.counters[n].mode = .conditionTime → t.mn.counters[n].value =
        if holds s s.mn.counters[n].condition = true then min (s.mn.counters[n].value + 1) 4294967295
        else s.mn.counters[n].value) ∧
      (∀ n : Fin 4, s.mn.counters[n].mode ≠ .conditionTime → t.mn.counters[n].value = addedTo s.mn.counters[n].value
        (if s.settings.enables.getLsbD 4 = true ∧ s.mn.counters[n].selects .eventRaised = true then saturatedIn s t else 0)) := by
  have counted := countMillisecond_counted s
  have counts : conclude s { countMillisecond s with msTimer := 1000 } = arbitrate { countMillisecond s with msTimer := 1000 } :=
    congrArg arbitrate (countEdges_none (holds_of_same counted.same_sq counted.same_de (congrArg LinkCtl.attachment counted.same_lc)))
  have chosen := arbitrate_selected { countMillisecond s with msTimer := 1000 }
  have step : exec .millisecondTick s = .next (arbitrate { countMillisecond s with msTimer := 1000 }) := by
    rw [← counts]
    exact if_pos due
  have values (n : Fin 4) : (arbitrate { countMillisecond s with msTimer := 1000 }).mn.counters[n].value =
      (countMillisecond s).mn.counters[n].value := by rw [arbitrate_mn]
  have saturated : saturatedIn s (arbitrate { countMillisecond s with msTimer := 1000 }) = saturatedIn s (countMillisecond s) := by
    unfold saturatedIn
    rw [arbitrate_mn]
  refine ⟨_, step, ?_, ?_, fun n time => ?_, fun n other => ?_⟩
  · refine rest_trans (u := { s with msTimer := 1000 }) (v := { countMillisecond s with msTimer := 1000 }) ?_ ?_
    · rw [counted.rest]
    · rw [arbitrate_mn]
      exact chosen.rest
  · exact counted.bookkeeping.trans chosen.bookkeeping
  · have unselected : s.mn.counters[n].selects .eventRaised = false := Counter.selects_of_mode _ _ (by rw [time]; decide)
    rw [values, countMillisecond_value, unselected, if_neg (c := _ ∧ false = true) (by simp), Nat.add_zero]
    by_cases on : holds s s.mn.counters[n].condition = true
    · rw [if_pos ⟨time, on⟩, if_pos on]
      rfl
    · rw [if_neg (fun both => on both.2), if_neg on]
      rfl
  · rw [values, countMillisecond_value, saturated, if_neg (fun both => other both.1), Nat.zero_add]

/-- R133: how many of the ticks of a period fall below a bound. -/
theorem countP_range_lt (m n : Nat) (h : m ≤ n) : ((List.range n).countP fun k => decide (k < m)) = m := by
  obtain ⟨j, rfl⟩ := Nat.exists_eq_add_of_le h
  have first : ((List.range m).countP fun k => decide (k < m)) = (List.range m).length :=
    List.countP_eq_length.2 fun k member => decide_eq_true (List.mem_range.1 member)
  have rest : (((List.range j).map (m + ·)).countP fun k => decide (k < m)) = 0 :=
    List.countP_eq_zero.2 fun k member => by
      obtain ⟨i, _, rfl⟩ := List.mem_map.1 member
      simp
  rw [List.range_add, List.countP_append, first, rest, List.length_range, Nat.add_zero]

/-- R133: the level is driven for 100 ticks of a period per step, from its start. -/
theorem backlightDriven_at (s : State) {k : Nat} (within : k < 1500) :
    backlightDriven { s with pu.periodTimer := 1500 - k } = decide (k < 100 * s.pu.drivenLevel) := by
  have elapsed : 1500 - (1500 - k) = k := by omega
  show decide (1500 - (1500 - k) < 100 * s.pu.drivenLevel) = _
  rw [elapsed]

/-- Settles O52. -/
theorem millisecondsAndBacklightPeriods : Obligations.MillisecondsAndBacklightPeriods := by
  refine ⟨fun s => ⟨?_, ?_, ?_, ?_, ?_⟩, fun k n => ?_, fun s => ⟨fun running => if_neg running, millisecond_counts,
    fun running => if_neg running, fun due => ⟨_, if_pos due, ?_⟩, fun k => backlightDriven_at s, fun range => ?_⟩,
    fun c s notReset notDock notSet notEnd => ?_⟩
  · have waits (w : StreamState) : w.waits = true ↔ w = .waitTile ∨ w = .waitSlot ∨ w = .waitWay := by cases w <;> decide
    simp only [holds, List.any_eq_true, waits, Vector.mem_toList_iff, Vector.mem_iff_getElem]
    constructor
    · rintro ⟨r, ⟨i, bound, rfl⟩, waiting⟩
      exact ⟨⟨i, bound⟩, waiting⟩
    · rintro ⟨i, waiting⟩
      exact ⟨_, ⟨i.val, i.isLt, rfl⟩, waiting⟩
  · simp only [holds, Bool.or_eq_true, beq_iff_eq, Config.sideDepth]
  · simp only [holds, bne_iff_ne, ne_eq]
  · simp only [holds, Bool.or_eq_true, Option.isSome_iff_ne_none]
  · simp only [holds, beq_iff_eq]
  · cases k <;> fin_cases n <;> decide
  · exact ((endsAs_refl s).map (fun s => { s with pu.drivenLevel := s.pu.level, pu.periodTimer := 1500 }) (fun _ _ _ _ => rfl)
      (fun _ => rfl) (fun _ => rfl) (fun _ => rfl) fun _ => rfl).conclude s
  · rw [← countP_range_lt (100 * s.pu.drivenLevel) 1500 (by omega)]
    refine List.countP_congr fun k member => ?_
    rw [backlightDriven_at s (List.mem_range.1 member)]
  · have judged := exec_judged c s notReset notDock notSet notEnd
    rcases judged with same | ⟨u, ended, steady, marks⟩
    · refine ⟨s, same, edgesCounted_refl s, fun _ _ _ _ full named => ?_⟩
      have none : full = 0 := names.unique (p := comesFull s s) named (names_none.same fun n => by
        simp only [comesFull, false_iff]
        omega)
      refine saturationRaised_of (e := eventSlot .monitorSaturated s)
        ⟨rfl, fun k => by rw [if_neg (not_eventStarts rfl k)], fun _ => rfl⟩ ?_ rfl rfl fun _ => ⟨rfl, Iff.rfl⟩
      rw [none, saturatedSlot_none]
    · refine ⟨_, ended, steady.concluded, fun here alive sent enables full named => ?_⟩
      obtain ⟨raises, lost⟩ := marks ⟨here, alive, sent⟩ ((conclude_settings s u).symm ▸ enables)
      exact raises.concluded lost full named

end Sys2Proof.Machine
end

section
/-! PROOFS. The Panel Updater (R125 to R136): selections and sends, the end of a block write by an acknowledgement or a timeout,
the halt and its restart, the backlight level: the settlements of O35, O48 and O49. -/

namespace Sys2Proof.Machine

/-! ### The selection (R127) -/

theorem firstDirty_eq {dirty : List Bool} {lo hi b : Nat} (low : lo ≤ b) (high : b < hi) (set : dirty.getD b false = true)
    (first : ∀ j : Nat, lo ≤ j → j < b → dirty.getD j false = false) : firstDirty dirty lo hi = some b := by
  refine List.find?_range'_eq_some.2 ⟨set, ?_, fun j from' below => ?_⟩
  · rw [List.mem_range'_1]
    omega
  · rw [first j from' below]
    rfl

theorem firstDirty_of_clean {dirty : List Bool} {lo hi : Nat} (clean : ∀ j : Nat, lo ≤ j → j < hi → dirty.getD j false = false) :
    firstDirty dirty lo hi = none := by
  refine List.find?_range'_eq_none.2 fun j from' below => ?_
  rw [clean j from' (by omega)]
  rfl

/-- R127: the selection takes the block that is next. -/
theorem nextBlock_of_isNext {s : State} {b : Nat} (next : isNext (blockCount s) s.pu.scan (fun k => s.pu.dirty.getD k false) b) :
    nextBlock s = some b := by
  obtain ⟨within, set, ⟨from', first⟩ | ⟨below, first, clean⟩⟩ := next
  · rw [nextBlock, firstDirty_eq from' within set first]
    rfl
  · rw [nextBlock, firstDirty_of_clean clean, firstDirty_eq (Nat.zero_le b) below set fun j _ => first j]
    rfl

theorem nextBlock_of_clean {s : State} (clean : ∀ b : Nat, b < blockCount s → s.pu.dirty.getD b false = false)
    (pointer : s.pu.scan ≤ blockCount s) : nextBlock s = none := by
  rw [nextBlock, firstDirty_of_clean fun j _ below => clean j below, firstDirty_of_clean fun j _ below => clean j (by omega)]
  rfl

/-- A dirty block of the panel brings some next block. -/
theorem exists_isNext {n scan b : Nat} {dirty : Nat → Bool} (within : b < n) (set : dirty b = true) :
    ∃ b', isNext n scan dirty b' := by
  classical
  by_cases later : ∃ j, scan ≤ j ∧ j < n ∧ dirty j = true
  · obtain ⟨from', below, set'⟩ := Nat.find_spec later
    refine ⟨_, below, set', .inl ⟨from', fun j from'' before => Bool.eq_false_iff.2 fun on => ?_⟩⟩
    exact Nat.find_min later before ⟨from'', before.trans below, on⟩
  · have none (j : Nat) (from' : scan ≤ j) (below : j < n) : dirty j = false :=
      Bool.eq_false_iff.2 fun on => later ⟨j, from', below, on⟩
    have some' : ∃ j, dirty j = true := ⟨b, set⟩
    have least := Nat.find_min' some' set
    have set' := Nat.find_spec some'
    refine ⟨_, least.trans_lt within, set', .inr ⟨?_, fun j before => Bool.eq_false_iff.2 (Nat.find_min some' before), none⟩⟩
    by_contra beyond
    exact Bool.false_ne_true ((none _ (Nat.le_of_not_lt beyond) (least.trans_lt within)).symm.trans set')

theorem selectBlock_stays {s : State} (h : s.pu.inFlight.isSome = true ∨ s.pu.halted = true ∨ nextBlock s = none) :
    selectBlock s = s := by
  unfold selectBlock
  split
  · next free =>
    simp only [Bool.and_eq_true, Option.isNone_iff_eq_none, Bool.not_eq_true'] at free
    have none : nextBlock s = none := by
      rcases h with busy | halted | none
      · rw [free.1] at busy
        cases busy
      · rw [free.2] at halted
        cases halted
      · exact none
    rw [none]
  · rfl

theorem selectBlock_sends {s : State} {b : Nat} (idle : s.pu.inFlight = none) (running : s.pu.halted = false)
    (next : isNext (blockCount s) s.pu.scan (fun k => s.pu.dirty.getD k false) b) : selectBlock s = sendBlock b s := by
  unfold selectBlock
  rw [idle, running, nextBlock_of_isNext next]
  rfl

/-! ### Effects on what a command ends as -/

section
variable {u v : State} {us : List SubEvent}

theorem endsAs.pu (h : endsAs u us v) (f : PanelUpdater → PanelUpdater) : endsAs { u with pu := f u.pu } us { v with pu := f v.pu } :=
  h.map (fun s => { s with pu := f s.pu }) (fun _ _ _ _ => rfl) (fun _ => rfl) (fun _ => rfl) (fun _ => rfl) fun _ => rfl

theorem endsAs.same_pu (h : endsAs u us v) : v.pu = u.pu := by rw [h.1]

/-- R128: a send counts itself and takes a free value where a writer holds the frame store. -/
theorem endsAs.sendBlock (h : endsAs u us v) (b : Nat) : endsAs (sent b (portPixels u b)
    { u with free := if u.fs.holder.isSome then u.free + 1 else u.free }) (us ++ [.blockSent]) (sendBlock b v) := by
  rw [sendBlock_sent]
  exact (h.map (fun s => sent b (portPixels s b) { s with free := if s.fs.holder.isSome then s.free + 1 else s.free })
    (fun _ _ _ _ => rfl) (fun _ => rfl) (fun _ => rfl) (fun _ => rfl) fun _ => rfl).count _

end

/-! ### What the port reads in the course of a write (log 10) -/

/-- What writes nothing of the picture and counts free values up leaves the write going on. -/
theorem writeGoesOn_of {s t : State} (fs : t.fs = s.fs) (image : writtenImage t = writtenImage s) (free : s.free ≤ t.free) :
    writeGoesOn s t := ⟨fs, image, fun _ => isWritten_mono fs free⟩

theorem readOnWriting_of {s u t : State} (h : readOnWriting s u) (fs : t.fs = u.fs) (image : writtenImage t = writtenImage u)
    (port : t.pu.port = u.pu.port) (free : t.free = u.free) : readOnWriting s t := by
  obtain ⟨⟨fs', image', mono⟩, none, idle, reads⟩ := h
  have written (a : Nat) : isWritten t a = isWritten u a := by simp only [isWritten, fs, free]
  refine ⟨⟨fs.trans fs', image.trans image', fun a on => (written a).trans (mono a on)⟩, fun h => port.trans (none h), fun h => ?_,
    fun w h => ?_⟩
  · exact ⟨port.trans (idle h).1, free.trans (idle h).2⟩
  · simpa only [port, written] using reads w h

theorem writtenImage_conclude (b s : State) : writtenImage (conclude b s) = writtenImage s := by
  rw [concluded_rest b s]
  rfl

theorem writtenImage_count (x : SubEvent) (s : State) : writtenImage (count x s) = writtenImage s := by
  rw [count_eq x s]
  rfl

/-- R128: what the port carries of a block that a selection has sent, with a writer at the frame store or none. -/
theorem sent_reads {s u t : State} {b n : Nat} {us : List SubEvent} (ends : endsAs (sent b (portPixels u b) { u with free := n }) us t)
    (moment : n = if u.fs.holder.isSome then u.free + 1 else u.free) (fs : u.fs = s.fs) (image : writtenImage u = writtenImage s)
    (pixels : portPixels u b = portPixels { s with free := u.free } b) (later : s.free ≤ u.free) :
    t.pu.port = some ⟨b, u.pu.number + 1, portPixels u b, 0⟩ ∧ blockRead s t b ⟨b, u.pu.number + 1, portPixels u b, 0⟩ ∧ t.free = n := by
  have free : t.free = n := by rw [ends.1]; rfl
  have kept : u.free ≤ t.free := by
    rw [free, moment]
    split <;> omega
  refine ⟨by rw [ends.1]; rfl, ?_, free⟩
  rw [pixels]
  refine portPixels_read (writeGoesOn_of ?_ ?_ (later.trans kept)) later kept b _
  · rw [ends.1]
    exact fs
  · rw [ends.1]
    exact image

/-! ### Acknowledgements (R129) -/

theorem exec_acknowledgement_idle {echo : Byte} {s : State} (idle : s.pu.inFlight = none) :
    exec (.acknowledgement echo) s = .next (conclude s (count .lateAck s)) := by
  show execAcknowledgement echo s = _
  rw [execAcknowledgement, idle]

theorem exec_acknowledgement_late {echo : Byte} {s : State} {f : InFlight} (sent : s.pu.inFlight = some f) (other : f.number ≠ echo) :
    exec (.acknowledgement echo) s = .next (conclude s (count .lateAck s)) := by
  show execAcknowledgement echo s = _
  rw [execAcknowledgement, sent]
  exact if_neg other

theorem exec_acknowledgement {echo : Byte} {s : State} {f : InFlight} (sent : s.pu.inFlight = some f) (same : f.number = echo) :
    exec (.acknowledgement echo) s = .next (conclude s (completeBlock s)) := by
  show execAcknowledgement echo s = _
  rw [execAcknowledgement, sent]
  exact if_pos same

/-- The state in which the block in flight has been read and acknowledged. -/
def acknowledged (s : State) : State :=
  { s with pu.port := (endReading s).pu.port, free := (endReading s).free, pu.inFlight := none, pu.streak := 0 }

theorem completeBlock_eq (s : State) : completeBlock s = selectBlock (count .blockDone (acknowledged s)) := by
  rw [completeBlock, endReading_rest]
  rfl

theorem acknowledged_ends (s : State) : endsAs (acknowledged s) [.blockDone] (count .blockDone (acknowledged s)) :=
  (endsAs_refl (acknowledged s)).count .blockDone

/-- R129: an acknowledgement that finds block b next sends it. -/
theorem completeBlock_sends {s : State} {b : Nat} (running : s.pu.halted = false)
    (next : isNext (blockCount s) s.pu.scan (fun k => s.pu.dirty.getD k false) b) :
    completeBlock s = sendBlock b (count .blockDone (acknowledged s)) := by
  rw [completeBlock_eq, selectBlock_sends (by rw [count_pu]; rfl) (by rw [count_pu]; exact running)]
  rw [blockCount, count_lu, count_pu]
  exact next

/-- R23, R125: the pixels of a block of the panel. -/
theorem blockPixel_eq (s : State) {col : Nat} (row p : Nat) (within : col < s.lu.width) :
    blockPixel s (row * s.lu.width + col) p = (16 * row + p / 16) * (16 * s.lu.width) + 16 * col + p % 16 := by
  have width : 0 < s.lu.width := by omega
  have column : (row * s.lu.width + col) % s.lu.width = col := by
    rw [Nat.mul_comm, Nat.mul_add_mod, Nat.mod_eq_of_lt within]
  have line : (row * s.lu.width + col) / s.lu.width = row := by
    rw [Nat.mul_comm, Nat.mul_add_div width, Nat.div_eq_of_lt within, Nat.add_zero]
  rw [blockPixel, column, line]
  exact (Nat.add_assoc _ _ _).symm

/-- R128: two bytes of the port for each pixel, the low one first. -/
theorem portBytes_getElem (w : BlockWrite) {p : Nat} (within : p < w.pixels.length) :
    (portBytes w)[2 * p]? = some ((w.pixels.getD p 0).setWidth 8) ∧
      (portBytes w)[2 * p + 1]? = some ((w.pixels.getD p 0 >>> 8).setWidth 8) := by
  obtain ⟨block, number, pixels, read⟩ := w
  have low (c : Half) : c.extractLsb' 0 8 = c.setWidth 8 := BitVec.eq_of_getLsbD_eq fun i h => by
    simp [BitVec.getLsbD_extractLsb', BitVec.getLsbD_setWidth]
  have high (c : Half) : c.extractLsb' 8 8 = (c >>> 8).setWidth 8 := BitVec.eq_of_getLsbD_eq fun i h => by
    simp [BitVec.getLsbD_extractLsb', BitVec.getLsbD_setWidth]
  have bytes (cs : List Half) (p : Nat) (within : p < cs.length) : (cs.flatMap le16)[2 * p]? = some ((cs.getD p 0).setWidth 8) ∧
      (cs.flatMap le16)[2 * p + 1]? = some ((cs.getD p 0 >>> 8).setWidth 8) := by
    induction cs generalizing p with
    | nil => simp at within
    | cons c cs ih =>
      cases p with
      | zero => simp [le16, low, high]
      | succ p =>
        have rest := ih p (by simpa using within)
        simpa [le16, Nat.mul_add] using rest
  exact bytes pixels p within

theorem sent_acknowledged (b : Nat) (pixels : List Half) (n : Nat) (s : State) :
    sent b pixels { acknowledged s with free := n } = sent b pixels { s with pu.streak := 0, free := n } := rfl

/-- Settles O48. -/
theorem acknowledgementsCompleteTheirWrite : Obligations.AcknowledgementsCompleteTheirWrite := by
  refine ⟨fun s => ⟨rfl, rfl, rfl, rfl, fun col row p => blockPixel_eq s row p⟩, portBytes_getElem, fun echo s =>
    ⟨fun idle => ⟨_, exec_acknowledgement_idle idle, ((endsAs_refl s).count .lateAck).conclude s⟩, fun f flight =>
    ⟨fun other => ⟨_, exec_acknowledgement_late flight other, ((endsAs_refl s).count .lateAck).conclude s⟩,
      fun same nothing pointer => ⟨_, exec_acknowledgement flight same, ?_⟩,
      fun b same running free within set first => ⟨_, exec_acknowledgement flight same, ?_⟩,
      fun b same running held next => ⟨_, exec_acknowledgement flight same, ?_⟩⟩⟩⟩
  · have ends := (acknowledged_ends s).conclude s
    have quiet : completeBlock s = count .blockDone (acknowledged s) := by
      rw [completeBlock_eq]
      refine selectBlock_stays (.inr (nothing.imp (fun halted => ?_) fun clean => nextBlock_of_clean (fun b below => ?_) ?_))
      · rw [count_pu]
        exact halted
      · rw [count_pu]
        rw [blockCount, count_lu] at below
        exact clean b below
      · rw [blockCount, count_lu, count_pu]
        exact pointer
    rw [quiet]
    generalize conclude s (count .blockDone (acknowledged s)) = t at ends
    have port : t.pu.port = (endReading s).pu.port := by rw [ends.1]; rfl
    have free : t.free = (endReading s).free := by rw [ends.1]; rfl
    refine ⟨?_, readOnWriting_of (endReading_spec (by rw [flight]; rfl)) ?_ ?_ port free⟩
    · rw [port, free]
      exact ends
    · rw [ends.1, endReading_rest]
      rfl
    · rw [ends.1, endReading_rest]
      rfl
  · rw [completeBlock_sends running ⟨within, set, first⟩]
    have idle : acknowledged s = { s with pu.inFlight := none, pu.streak := 0 } := by rw [acknowledged, endReading_free free]
    have pixels : portPixels (acknowledged s) b = (List.range 256).map fun p => imageRead s.fs.image (blockPixel s b p) :=
      (portPixels_free (s := acknowledged s) free b).trans rfl
    have ends := ((acknowledged_ends s).sendBlock b).conclude s
    rw [pixels, if_neg (by rw [show (acknowledged s).fs = s.fs from rfl, free]; simp), idle] at ends
    rw [idle]
    exact ends
  · rw [completeBlock_sends running next]
    have ends := ((acknowledged_ends s).sendBlock b).conclude s
    have one : (acknowledged s).fs.holder.isSome = true := Option.isSome_iff_ne_none.2 held
    rw [if_pos one, sent_acknowledged] at ends
    generalize conclude s (sendBlock b (count .blockDone (acknowledged s))) = t at ends
    obtain ⟨port, reads, free⟩ := sent_reads (s := s) (u := acknowledged s) ends (if_pos one).symm rfl rfl rfl (endReading_free_le s)
    refine ⟨_, port, reads, ?_⟩
    rw [free]
    exact ends

/-! ### Timeouts (R130) -/

/-- The state in which the block in flight has been read and its timeout taken. -/
def timedOut (f : InFlight) (s : State) : State :=
  { s with
    pu.port := (endReading s).pu.port, free := (endReading s).free
    pu.dirty := s.pu.dirty.set f.block true, pu.inFlight := none, pu.streak := s.pu.streak + 1 }

theorem timeOutBlock_eq (f : InFlight) (s : State) : timeOutBlock f s =
    if s.pu.streak + 1 < 3 then selectBlock (count .blockTimeout (timedOut f s))
    else raiseEvent .panelHalted 0 (count .panelHalt { count .blockTimeout (timedOut f s) with pu.halted := true }) := by
  have streak : (count .blockTimeout (timedOut f s)).pu.streak = s.pu.streak + 1 := by rw [count_pu]; rfl
  rw [← streak, timeOutBlock, endReading_rest]
  rfl

theorem exec_blockTimeout {s : State} {f : InFlight} (flight : s.pu.inFlight = some f) (ended : f.timer = 0) :
    exec .blockTimeout s = .next (conclude s (timeOutBlock f s)) := by
  show execBlockTimeout s = _
  rw [execBlockTimeout, flight]
  exact if_pos ended

theorem timedOut_ends (f : InFlight) (s : State) : endsAs (timedOut f s) [.blockTimeout] (count .blockTimeout (timedOut f s)) :=
  (endsAs_refl (timedOut f s)).count .blockTimeout

/-- R130: below three timeouts in a row the selection sends the next dirty block. -/
theorem timeOutBlock_sends {s : State} {f : InFlight} {b : Nat} (below : s.pu.streak + 1 < 3) (running : s.pu.halted = false)
    (next : isNext (blockCount s) s.pu.scan (fun k => (s.pu.dirty.set f.block true).getD k false) b) :
    timeOutBlock f s = sendBlock b (count .blockTimeout (timedOut f s)) := by
  rw [timeOutBlock_eq, if_pos below, selectBlock_sends (by rw [count_pu]; rfl) (by rw [count_pu]; exact running)]
  rw [blockCount, count_lu, count_pu]
  exact next

/-- What a timeout below three leaves, with the block that the selection sends. -/
theorem timeOutBlock_ends {s : State} {f : InFlight} {b : Nat} (below : s.pu.streak + 1 < 3) (running : s.pu.halted = false)
    (next : isNext (blockCount s) s.pu.scan (fun k => (s.pu.dirty.set f.block true).getD k false) b) :
    ∃ w t, conclude s (timeOutBlock f s) = t ∧ t.pu.port = some w ∧ blockRead s t b w ∧ (s.fs.holder = none → t.free = s.free) ∧
      endsAs (sent b w.pixels { s with
        pu.dirty := s.pu.dirty.set f.block true, pu.streak := s.pu.streak + 1, free := t.free }) [.blockTimeout, .blockSent] t := by
  rw [timeOutBlock_sends below running next]
  have ends := ((timedOut_ends f s).sendBlock b).conclude s
  generalize conclude s (sendBlock b (count .blockTimeout (timedOut f s))) = t at ends
  obtain ⟨port, reads, free⟩ := sent_reads (s := s) (u := timedOut f s) ends rfl rfl rfl rfl (endReading_free_le s)
  refine ⟨_, t, rfl, port, reads, fun idle => ?_, ?_⟩
  · rw [free, if_neg (by rw [show (timedOut f s).fs = s.fs from rfl, idle]; simp)]
    show (endReading s).free = s.free
    rw [endReading_free idle]
  · rw [free]
    exact ends

theorem raised_pu (k : EventKind) (d : BitVec 24) (s : State) : (raised k d s).pu = s.pu := by
  unfold raised
  split <;> rfl

theorem raised_free (k : EventKind) (d : BitVec 24) (s : State) : (raised k d s).free = s.free := by
  unfold raised
  split <;> rfl

theorem raised_fs (k : EventKind) (d : BitVec 24) (s : State) : (raised k d s).fs = s.fs := by
  unfold raised
  split <;> rfl

theorem writtenImage_raised (k : EventKind) (d : BitVec 24) (s : State) : writtenImage (raised k d s) = writtenImage s := by
  unfold raised
  split <;> rfl

/-- Settles O49. -/
theorem threeTimeoutsHaltThePanel : Obligations.ThreeTimeoutsHaltThePanel := by
  refine fun s => ⟨fun idle => ?_, fun f flight => ⟨fun running => ?_, fun ended third => ⟨_, exec_blockTimeout flight ended, ?_⟩,
    fun b ended below running next => ?_, fun ended below running within length => ?_⟩⟩
  · show execBlockTimeout s = _
    rw [execBlockTimeout, idle]
  · show execBlockTimeout s = _
    rw [execBlockTimeout, flight]
    exact if_neg running
  · rw [timeOutBlock_eq, if_neg (by omega)]
    have halted := (((timedOut_ends f s).pu fun pu => { pu with halted := true }).count .panelHalt)
    have ends := (halted.raise .panelHalted 0 (by decide) (by
      rw [count_lc]
      exact congrArg LinkCtl.tx (count_lc .blockTimeout (timedOut f s)))).conclude s
    generalize conclude s (raiseEvent _ _ _) = t at ends
    have port : t.pu.port = (endReading s).pu.port := by rw [ends.1, raised_pu]; rfl
    have free : t.free = (endReading s).free := by rw [ends.1, raised_free]; rfl
    refine ⟨?_, readOnWriting_of (endReading_spec (by rw [flight]; rfl)) ?_ ?_ port free⟩
    · rw [port, free]
      exact ends
    · rw [ends.1, raised_fs, endReading_rest]
      rfl
    · rw [ends.1, endReading_rest]
      exact writtenImage_raised _ _ _
  · obtain ⟨w, t, same, port, reads, free, ends⟩ := timeOutBlock_ends (f := f) below running next
    exact ⟨t, same ▸ exec_blockTimeout flight ended, w, port, reads, free, ends⟩
  · have set : (s.pu.dirty.set f.block true).getD f.block false = true := by
      rw [List.getD_eq_getElem _ _ (by rw [List.length_set]; omega), List.getElem_set_self]
    obtain ⟨b, next⟩ := exists_isNext (scan := s.pu.scan) (dirty := fun k => (s.pu.dirty.set f.block true).getD k false) within set
    obtain ⟨w, t, same, port, reads, free, ends⟩ := timeOutBlock_ends (f := f) below running next
    have pu : t.pu = (sent b w.pixels { s with
      pu.dirty := s.pu.dirty.set f.block true, pu.streak := s.pu.streak + 1, free := t.free }).pu := ends.same_pu
    obtain ⟨rest, ⟨selections, _, events, lane⟩, counts⟩ := ends
    refine ⟨t, same ▸ exec_blockTimeout flight ended, ⟨?_, selections, events, lane⟩, ?_, ?_, ?_, ?_, ?_, ?_, ?_, reads.2.2.2.1.1, ?_,
      ⟨⟨b, s.pu.number + 1, 10000⟩, ?_, rfl, rfl, ?_, fun k bound => ?_⟩, counts⟩
    · obtain ⟨c, e, x, n, rfl⟩ : ∃ c e x n, t = { sent b w.pixels { s with
          pu.dirty := s.pu.dirty.set f.block true, pu.streak := s.pu.streak + 1, free := n } with
          mn.counters := c, me.events := e, lc.tx := x } := ⟨_, _, _, _, rest⟩
      rfl
    · rw [pu]; rfl
    · rw [pu]; exact running
    · rw [pu]; rfl
    · rw [rest]; rfl
    · rw [rest]; rfl
    · rw [rest]; rfl
    · rw [rest]; rfl
    · rw [rest]; rfl
    · rw [pu]; rfl
    · rw [pu]; rfl
    · have twice : ((s.pu.dirty.set f.block true).set b false).getD k false =
          ((s.pu.dirty.getD k false || k == f.block) && k != b) := by
        have bound : k < s.pu.dirty.length := length ▸ bound
        rw [List.getD_eq_getElem _ _ (by simpa using bound), List.getD_eq_getElem _ _ bound, List.getElem_set, List.getElem_set]
        by_cases isSent : b = k
        · simp [isSent]
        · by_cases isTimed : f.block = k
          · simp [isSent, isTimed, Ne.symm isSent]
          · have timed : (k == f.block) = false := beq_eq_false_iff_ne.2 (Ne.symm isTimed)
            have other : (k != b) = true := bne_iff_ne.2 (Ne.symm isSent)
            rw [if_neg isSent, if_neg isTimed, timed, other, Bool.or_false, Bool.and_true]
      rw [pu]
      exact twice

/-! ### PANEL writes and PANEL_RESTART (R132, R134, R136) -/

theorem exec_panelWrite (tag width height level : Byte) (s : State) : exec (.panelWrite tag width height level) s =
    requestArrival tag 2 (doPanelWrite tag width height level) s := by rfl

theorem exec_panelRestart (tag : Byte) (s : State) : exec (.panelRestart tag) s = requestArrival tag 0x0A (doPanelRestart tag) s := by rfl

/-- R162: a raise and the reply of the same event do not meet. -/
theorem answer_raised (tag kind : Byte) (status : Status) (k : EventKind) (d : BitVec 24) (s : State) :
    answer tag kind status (raised k d s) = raised k d (answer tag kind status s) := by
  unfold raised
  by_cases enabled : s.settings.enables.getLsbD k.number.val = true
  · rw [if_pos enabled]
    exact (if_pos enabled).symm
  · rw [if_neg enabled]
    exact (if_neg enabled).symm

theorem marked_all (dirty : List Bool) : (dirty.mapIdx fun _ d => d || true) = List.replicate dirty.length true := by
  refine List.ext_getElem (by simp) fun i _ _ => ?_
  simp

/-- R132: the state that a restart leaves before the selection. -/
def restarting (s : State) : State :=
  { s with pu.halted := false, pu.streak := 0, pu.dirty := List.replicate s.pu.dirty.length true }

/-- The state in which a restart of the panel makes its selection, and what it ends as. -/
def restartedPanel (s : State) : State :=
  { count .restarted { s with pu.halted := false, pu.streak := 0 } with pu.dirty := List.replicate s.pu.dirty.length true }

theorem restartPanel_eq (s : State) : restartPanel s = selectBlock (restartedPanel s) := by
  have marked : (count .restarted { s with pu.halted := false, pu.streak := 0 }).pu.dirty.mapIdx (fun _ d => d || true) =
      List.replicate s.pu.dirty.length true := by
    rw [count_pu]
    exact marked_all s.pu.dirty
  unfold restartPanel markBlocks
  rw [marked]
  rfl

theorem restartedPanel_ends {u v : State} {us : List SubEvent} (ends : endsAs u us v) :
    endsAs (restarting u) (us ++ [.restarted]) (restartedPanel v) := by
  have dirty : v.pu.dirty = u.pu.dirty := congrArg PanelUpdater.dirty ends.same_pu
  have marked := ((ends.pu fun pu => { pu with halted := false, streak := 0 }).count .restarted).pu fun pu =>
    { pu with dirty := List.replicate u.pu.dirty.length true }
  unfold restartedPanel
  rw [dirty]
  exact marked

theorem restartedPanel_pu (s : State) : (restartedPanel s).pu = (restarting s).pu := (restartedPanel_ends (endsAs_refl s)).same_pu

theorem restartedPanel_lu (s : State) : (restartedPanel s).lu = s.lu := by
  show (count .restarted { s with pu.halted := false, pu.streak := 0 }).lu = s.lu
  rw [count_lu]

/-- R127, R132: after a restart the block at the scan pointer is next. -/
theorem restarting_isNext {s : State} (length : s.pu.dirty.length = blockCount s) (pointer : s.pu.scan < blockCount s) :
    isNext (blockCount s) s.pu.scan (fun k => (List.replicate s.pu.dirty.length true).getD k false) s.pu.scan := by
  refine ⟨pointer, ?_, .inl ⟨Nat.le_refl _, fun j from' below => absurd below (Nat.not_lt.2 from')⟩⟩
  show (List.replicate s.pu.dirty.length true).getD s.pu.scan false = true
  rw [List.getD_eq_getElem _ _ (by rw [List.length_replicate, length]; exact pointer), List.getElem_replicate]

/-- R132: a restart with no block in flight sends the block at the scan pointer. -/
theorem restartPanel_sends {s v : State} (lu : v.lu = s.lu) (pu : v.pu = s.pu)
    (idle : s.pu.inFlight = none) (length : s.pu.dirty.length = blockCount s) (pointer : s.pu.scan < blockCount s) :
    restartPanel v = sendBlock s.pu.scan (restartedPanel v) := by
  rw [restartPanel_eq, selectBlock_sends]
  · rw [restartedPanel_pu, restarting, pu]
    exact idle
  · rw [restartedPanel_pu]
    rfl
  · rw [blockCount, restartedPanel_lu, restartedPanel_pu, restarting, pu, lu]
    exact restarting_isNext length pointer

/-- R132: what a restart with no block in flight ends as. -/
theorem panelRestart_ends {tag : Byte} {s : State} (taken : takesRequest s) (idle : s.pu.inFlight = none)
    (length : s.pu.dirty.length = blockCount s) (pointer : s.pu.scan < blockCount s) :
    ∃ t, exec (.panelRestart tag) s = .next t ∧ endsAs (answer tag 0x0A .ok (sent s.pu.scan (portPixels s s.pu.scan)
      { restarting (passed s) with free := if s.fs.holder.isSome then s.free + 1 else s.free })) [.reqTaken, .restarted, .blockSent] t := by
  rw [exec_panelRestart]
  refine request_ends taken ?_
  have pixels : portPixels (restarting (passed s)) s.pu.scan = portPixels s s.pu.scan := rfl
  have ends := (restartedPanel_ends (taken_ends (passed s))).sendBlock s.pu.scan
  rw [pixels] at ends
  have lu : (count .reqTaken (passed s)).lu = s.lu := count_lu .reqTaken (passed s)
  have pu : (count .reqTaken (passed s)).pu = s.pu := count_pu .reqTaken (passed s)
  rw [doPanelRestart, restartPanel_sends lu pu idle length pointer]
  exact ends.answer tag 0x0A .ok

/-- Settles O35. -/
theorem panelWritesAndRestart : Obligations.PanelWritesAndRestart := by
  refine fun tag s taken => ⟨fun width height level => ⟨fun other => ?_, fun same same' held => ?_, fun same same' changed => ?_⟩,
    fun busy => ?_, fun idle length pointer free => ?_, fun idle length pointer held => ?_⟩
  · refine request_replied taken (if_neg ?_)
    rw [count_lu]
    exact fun both => other.elim (fun h => h both.1) fun h => h both.2
  · refine request_replied taken ((if_pos ?_).trans ?_)
    · rw [count_lu]
      exact ⟨same, same'⟩
    · rw [applyLevel, if_pos (by rw [count_pu]; exact held)]
      rfl
  · rw [exec_panelWrite]
    refine request_ends taken ?_
    have write : doPanelWrite tag width height level (count .reqTaken (passed s)) = answer tag 2 .ok (raiseEvent .backlight
        (BitVec.ofNat 24 (min level.toNat 15))
        (count .backlightChange { count .reqTaken (passed s) with pu.level := min level.toNat 15 })) := by
      rw [doPanelWrite, if_pos (by rw [count_lu]; exact ⟨same, same'⟩), applyLevel, if_neg (by rw [count_pu]; exact changed)]
      rfl
    have ends := (((taken_ends (passed s)).pu fun pu => { pu with level := min level.toNat 15 }).count .backlightChange).raise .backlight
      (BitVec.ofNat 24 (min level.toNat 15)) (by decide) (by
        rw [count_lc]
        exact congrArg LinkCtl.tx (count_lc .reqTaken (passed s)))
    have answered := ends.answer tag 2 .ok
    rw [answer_raised] at answered
    rw [write]
    exact answered
  · rw [exec_panelRestart]
    refine request_ends taken ?_
    have stays : restartPanel (count .reqTaken (passed s)) = restartedPanel (count .reqTaken (passed s)) := by
      rw [restartPanel_eq]
      refine selectBlock_stays (.inl ?_)
      rw [restartedPanel_pu, restarting, count_pu]
      exact busy
    rw [doPanelRestart, stays]
    exact (restartedPanel_ends (taken_ends (passed s))).answer tag 0x0A .ok
  · obtain ⟨t, step, ends⟩ := panelRestart_ends (tag := tag) taken idle length pointer
    refine ⟨t, step, ?_⟩
    rw [portPixels_free free, if_neg (by rw [free]; simp)] at ends
    exact ends
  · obtain ⟨t, step, ends⟩ := panelRestart_ends (tag := tag) taken idle length pointer
    rw [if_pos (Option.isSome_iff_ne_none.2 held)] at ends
    have free : t.free = s.free + 1 := by rw [ends.1]; rfl
    refine ⟨t, step, ⟨s.pu.scan, s.pu.number + 1, portPixels s s.pu.scan, 0⟩, by rw [ends.1]; rfl, ?_, ?_⟩
    · refine portPixels_read (f := s.free) (writeGoesOn_of ?_ ?_ ?_) (Nat.le_refl _) ?_ s.pu.scan _
      · rw [ends.1]
        rfl
      · rw [ends.1]
        rfl
      · omega
      · omega
    · rw [free]
      exact ends

end Sys2Proof.Machine
end

section
/-! PROOFS. The end of the teardown fill (R37): the settlement of O41. -/

namespace Sys2Proof.Machine

/-! ### The frame store passed on (R25) -/

/-- The frame store passed on to the writer that waits next, if it is not a teardown fill. -/
def passedOn (s : State) : State :=
  { s with
    fs.holder := s.fs.waiting.head?, fs.waiting := s.fs.waiting.tail
    fs.began := if s.fs.waiting = [] then s.fs.began else s.free }

theorem grantStore_passedOn {s : State} (free : s.fs.holder = none) (other : s.fs.waiting.head? ≠ some .teardownFill) :
    grantStore s = passedOn s := by
  unfold grantStore passedOn
  rw [if_pos (by rw [free]; rfl)]
  split
  · next w rest waiting =>
    have other : w ≠ .teardownFill := fun same => other (by rw [waiting, same]; rfl)
    rw [waiting]
    exact if_neg other
  · next waiting =>
    have same : s.fs = { s.fs with
        holder := s.fs.waiting.head?, waiting := s.fs.waiting.tail
        began := if s.fs.waiting = [] then s.fs.began else s.free } := by
      generalize s.fs = fs at free waiting
      obtain ⟨image, holder, queue, began⟩ := fs
      cases free
      cases waiting
      rfl
    exact congrArg (fun fs => ({ s with fs := fs } : State)) same

theorem endsAs.passedOn {u v : State} {us : List SubEvent} (h : endsAs u us v) : endsAs (passedOn u) us (passedOn v) :=
  h.map Machine.passedOn (fun _ _ _ _ => rfl) (fun _ => rfl) (fun _ => rfl) (fun _ => rfl) fun _ => rfl

/-! ### The teardown fill (R37) -/

/-- The state in which the fill has been written whole, the port has read on, and every block is marked. -/
def filled (c : Half) (s : State) : State :=
  { s with
    fs.image := [(0, c)], fs.holder := none, lu.fillColour := none, pu.dirty := List.replicate s.pu.dirty.length true
    pu.port := (readToEnd [(0, c)] { s with fs.image := [(0, c)], fs.holder := none, lu.fillColour := none }).pu.port
    free := (readToEnd [(0, c)] { s with fs.image := [(0, c)], fs.holder := none, lu.fillColour := none }).free }

theorem finishTeardownFill_eq (c : Half) (s : State) : finishTeardownFill c s = grantStore (selectBlock (filled c s)) := by
  have marked := marked_all s.pu.dirty
  simp only [finishTeardownFill, markBlocks]
  rw [readToEnd_rest]
  simp only [marked]
  rfl

theorem imageRead_uniform (c : Half) (a : Nat) : imageRead [(0, c)] a = c := by
  simp [imageRead, imageReadFrom]

theorem exec_teardownFillEnd {s : State} {c : Half} (filling : s.lu.fillColour = some c) (holds : s.fs.holder = some .teardownFill) :
    exec .teardownFillEnd s = .next (conclude s (finishTeardownFill c s)) := by
  show execTeardownFillEnd s = _
  rw [execTeardownFillEnd, filling]
  exact if_pos holds

/-- Settles O41. -/
theorem teardownFillClearsTheScreen : Obligations.TeardownFillClearsTheScreen := by
  refine fun s => ⟨fun idle => ?_, fun c u colour holds waits effect => ⟨?_, fun quiet => ⟨_, exec_teardownFillEnd colour holds, ?_⟩,
    fun idle running length pointer => ⟨_, exec_teardownFillEnd colour holds, ?_⟩⟩⟩
  · show execTeardownFillEnd s = _
    unfold execTeardownFillEnd
    split
    · next filling => exact if_neg (idle.resolve_left (by rw [filling]; simp))
    · rfl
  · rw [writtenImage, holds]
    simp only [colour]
    rfl
  · have other : s.fs.waiting.head? ≠ some .teardownFill := fun head => waits (List.mem_of_head? head)
    have passes : finishTeardownFill c s = passedOn (filled c s) := by
      rw [finishTeardownFill_eq, selectBlock_stays (s := filled c s) (quiet.elim .inl fun halted => .inr (.inl halted))]
      exact grantStore_passedOn rfl other
    have ends := (endsAs_refl (passedOn (filled c s))).conclude s
    rw [passes]
    generalize conclude s (passedOn (filled c s)) = t at ends
    have port : t.pu.port = (filled c s).pu.port := congrArg PanelUpdater.port ends.same_pu
    have free : t.free = (filled c s).free := by rw [ends.1]; rfl
    refine ⟨fun a => ?_, ?_, ?_⟩
    · rw [ends.1]
      exact imageRead_uniform c a
    · rw [effect, port, free]
      exact ends
    · unfold readOn
      rw [port]
      exact readToEnd_reads [(0, c)] { s with fs.image := [(0, c)], fs.holder := none, lu.fillColour := none }
  · have other : s.fs.waiting.head? ≠ some .teardownFill := fun head => waits (List.mem_of_head? head)
    have whole : filled c s = { s with
        fs.image := [(0, c)], fs.holder := none, lu.fillColour := none, pu.dirty := List.replicate s.pu.dirty.length true } := by
      rw [filled, readToEnd_idle _ (s := { s with fs.image := [(0, c)], fs.holder := none, lu.fillColour := none }) idle]
    have sends : selectBlock (filled c s) = sendBlock s.pu.scan (filled c s) := by
      refine selectBlock_sends idle running ?_
      exact restarting_isNext length pointer
    have passes : grantStore (sendBlock s.pu.scan (filled c s)) = passedOn (sendBlock s.pu.scan (filled c s)) := by
      refine grantStore_passedOn ?_ ?_
      · rw [sendBlock_sent, count_fs]
        rfl
      · rw [sendBlock_sent, count_fs]
        exact other
    have pixels : portPixels (filled c s) s.pu.scan = List.replicate 256 c := by
      rw [portPixels_free rfl]
      refine List.ext_getElem (by rw [List.length_map, List.length_range, List.length_replicate]) fun i _ _ => ?_
      rw [List.getElem_map, List.getElem_replicate]
      exact imageRead_uniform c _
    have ends := (((endsAs_refl (filled c s)).sendBlock s.pu.scan).passedOn).conclude s
    rw [pixels] at ends
    rw [finishTeardownFill_eq, sends, passes, effect]
    rw [whole] at ends ⊢
    exact ends

end Sys2Proof.Machine
end

section
/-! PROOFS. The rebalancing and the rewinds at a RESUME (R64, R65). -/

namespace Sys2Proof.Machine

/-! ### Streams changed one after another -/

theorem streamOf_setStream (i j : Fin 8) (r : Stream) (s : State) :
    streamOf j (setStream i r s) = if j = i then r else streamOf j s := by
  by_cases same : j = i
  · rw [if_pos same, same, streamOf_setStream_self]
  · rw [if_neg same, streamOf_setStream_ne (Ne.symm same)]

/-- The states in which the streams alone are changed are told apart by their streams. -/
theorem mapStreams_congr {f g : Fin 8 → Stream → Stream} {s t : State} (rest : t = { s with sq.streams := t.sq.streams })
    (streams : ∀ i, f i (streamOf i t) = g i (streamOf i s)) : mapStreams f t = mapStreams g s := by
  have same : (Vector.ofFn fun i => f i t.sq.streams[i]) = Vector.ofFn fun i => g i s.sq.streams[i] := by
    congr 1
    exact funext streams
  unfold mapStreams
  rw [same, rest]

theorem mapStreams_id {f : Fin 8 → Stream → Stream} {s : State} (same : ∀ i, f i (streamOf i s) = streamOf i s) : mapStreams f s = s := by
  have streams : (Vector.ofFn fun i : Fin 8 => f i s.sq.streams[i]) = s.sq.streams := by
    refine Vector.ext fun i bound => ?_
    rw [Vector.getElem_ofFn]
    exact same ⟨i, bound⟩
  unfold mapStreams
  rw [streams]

/-! ### The rewinds of every open stream (R58, R64) -/

/-- R58: a stream's record with a rewind flagged, while the lane carries a transmission or none. -/
def rewound (reason : RewindReason) (lane : Option Transmission) (i : Fin 8) (r : Stream) : Stream :=
  { r with rewind := some reason, renewed := r.renewed || lane.any fun t => t.item == .rewind i }

theorem foldl_rewinds (reason : RewindReason) (lane : Option Transmission) (l : List (Fin 8)) (distinct : l.Nodup) {s : State}
    (same : s.lc.tx = lane) : l.foldl (fun t i => if isOpen i t then flagRewind reason i t else t) s =
      mapStreams (fun i r => if i ∈ l ∧ r.state ≠ .closed then rewound reason lane i r else r) s := by
  induction l generalizing s with
  | nil => exact (mapStreams_id fun i => if_neg (by simp)).symm
  | cons i l ih =>
    obtain ⟨fresh, distinct⟩ := List.nodup_cons.1 distinct
    rw [List.foldl_cons]
    by_cases opened : isOpen i s = true
    · have state : (streamOf i s).state ≠ .closed := by simpa [isOpen] using opened
      have flagged : flagRewind reason i s = setStream i (rewound reason lane i (streamOf i s)) s := by
        rw [flagRewind, same]
        rfl
      rw [if_pos opened, flagged, ih distinct (s := setStream i (rewound reason lane i (streamOf i s)) s) same]
      refine mapStreams_congr rfl fun j => ?_
      rw [streamOf_setStream]
      by_cases this : j = i
      · subst this
        rw [if_pos rfl, if_neg (fun both => fresh both.1), if_pos ⟨List.mem_cons_self, state⟩]
      · rw [if_neg this]
        simp only [List.mem_cons, this, false_or]
    · rw [if_neg opened, ih distinct same]
      have state : (streamOf i s).state = .closed := by simpa [isOpen] using opened
      refine mapStreams_congr rfl fun j => ?_
      by_cases this : j = i
      · subst this
        rw [if_neg (fun both => fresh both.1), if_neg (fun both => both.2 state)]
      · simp only [List.mem_cons, this, false_or]

theorem flagOpenRewinds_eq (reason : RewindReason) (s : State) : flagOpenRewinds reason s =
    mapStreams (fun i r => if r.state ≠ .closed then rewound reason s.lc.tx i r else r) s := by
  rw [flagOpenRewinds, foldl_rewinds reason s.lc.tx _ (List.nodup_finRange 8) rfl]
  simp only [List.mem_finRange, true_and]

/-! ### The rebalancing (R65) -/

/-- R65: the state with its open streams balanced. -/
def balanced (s : State) : State := mapStreams (fun i r => { r with side := balancedSide s i }) s

/-- Where the open counts differ by no more than 1 every stream keeps its side. -/
theorem balancedSide_stays {s : State} (a : openCount .a s ≤ openCount .b s + 1) (b : openCount .b s ≤ openCount .a s + 1)
    (i : Fin 8) : balancedSide s i = (streamOf i s).side := by
  have none (side : Side) : (openCount side s - openCount (otherSide side) s) / 2 = 0 := by
    cases side <;> simp only [otherSide] <;> omega
  unfold balancedSide
  cases (streamOf i s).side with
  | none => rfl
  | some side =>
    rw [Option.map_some, none]
    simp

theorem balanced_stays {s : State} (a : openCount .a s ≤ openCount .b s + 1) (b : openCount .b s ≤ openCount .a s + 1) :
    balanced s = s := mapStreams_id fun i => by rw [balancedSide_stays a b]

/-- The streams that are open on a side, above a stream. -/
def above (side : Side) (i : Fin 8) (s : State) : Nat :=
  (List.finRange 8).countP fun j => decide (i < j) && isOpen j s && (streamOf j s).side == some side

/-- The state after the move of a stream to the other side. -/
def moved (side : Side) (i : Fin 8) (s : State) : State := setStream i { streamOf i s with side := some (otherSide side) } s

/-- The stream that moves: open on the side, and the highest such. -/
structure Highest (side : Side) (s : State) (i : Fin 8) : Prop where
  opened : isOpen i s = true
  here : (streamOf i s).side = some side
  last : ∀ j : Fin 8, i < j → isOpen j s = true → (streamOf j s).side ≠ some side

theorem finRange_reverse_getElem : ∀ k : Fin 8, (List.finRange 8).reverse[k.val]? = some k.rev := by decide

theorem highestOpen_of_count {side : Side} {s : State} (some' : 0 < openCount side s) :
    ∃ i, highestOpen side s = some i ∧ Highest side s i := by
  obtain ⟨j, _, fits⟩ := List.countP_pos_iff.1 some'
  obtain ⟨i, found⟩ := Option.isSome_iff_exists.1 (List.find?_isSome.2
    ⟨j, List.mem_reverse.2 (List.mem_finRange j), fits⟩ : (highestOpen side s).isSome = true)
  obtain ⟨fits, n, bound, place, before⟩ := List.find?_eq_some_iff_getElem.1 found
  simp only [Bool.and_eq_true, beq_iff_eq] at fits
  have small : n < 8 := by simpa using bound
  have at' : i.val = 7 - n := by
    have := finRange_reverse_getElem ⟨n, small⟩
    rw [List.getElem?_eq_getElem bound, place] at this
    rw [Option.some.inj this, Fin.val_rev]
    exact Nat.succ_sub_succ 7 n
  refine ⟨i, found, fits.1, fits.2, fun j later opened here => ?_⟩
  have earlier : 7 - j.val < n := by omega
  have missed := before (7 - j.val) earlier
  have there : (List.finRange 8).reverse[7 - j.val]'(earlier.trans bound) = j := by
    have := finRange_reverse_getElem ⟨7 - j.val, by omega⟩
    rw [List.getElem?_eq_getElem (earlier.trans bound)] at this
    exact (Option.some.inj this).trans (Fin.ext (by rw [Fin.val_rev]; show 8 - (7 - j.val + 1) = j.val; omega))
  rw [there, opened, here] at missed
  simp at missed

/-- A count over a list without repetition falls by one when one element leaves it. -/
theorem countP_leaves {α : Type} {p q : α → Bool} {l : List α} (distinct : l.Nodup) {a : α} (mem : a ∈ l) (on : p a = true)
    (off : q a = false) (same : ∀ b, b ≠ a → q b = p b) : l.countP q + 1 = l.countP p := by
  induction l with
  | nil => cases mem
  | cons b l ih =>
    obtain ⟨fresh, distinct⟩ := List.nodup_cons.1 distinct
    by_cases this : b = a
    · subst this
      have rest : l.countP q = l.countP p := List.countP_congr fun c member => by
        rw [same c fun same => fresh (same ▸ member)]
      rw [List.countP_cons_of_pos on, List.countP_cons_of_neg (by rw [off]; decide), rest]
    · have again := ih distinct ((List.mem_cons.1 mem).resolve_left (Ne.symm this))
      rw [List.countP_cons, List.countP_cons, same b this]
      omega

section
variable {side : Side} {i : Fin 8} {s : State}

theorem streamOf_moved (j : Fin 8) : streamOf j (moved side i s) =
    if j = i then { streamOf i s with side := some (otherSide side) } else streamOf j s := streamOf_setStream i j _ s

theorem isOpen_moved (j : Fin 8) : isOpen j (moved side i s) = isOpen j s := by
  unfold isOpen
  rw [streamOf_moved]
  split
  · next same => rw [same]
  · rfl

theorem otherSide_ne (side : Side) : otherSide side ≠ side := by cases side <;> decide

theorem openCount_moved (h : Highest side s i) : openCount side (moved side i s) + 1 = openCount side s := by
  refine countP_leaves (List.nodup_finRange 8) (List.mem_finRange i) ?_ ?_ fun j other => ?_
  · rw [h.opened, h.here]
    simp
  · rw [streamOf_moved, if_pos rfl]
    simp [otherSide_ne]
  · rw [isOpen_moved, streamOf_moved, if_neg other]

theorem openCount_moved_other (h : Highest side s i) :
    openCount (otherSide side) (moved side i s) = openCount (otherSide side) s + 1 := by
  refine (countP_leaves (List.nodup_finRange 8) (List.mem_finRange i) ?_ ?_ fun j other => ?_).symm
  · rw [isOpen_moved, h.opened, streamOf_moved, if_pos rfl]
    simp
  · rw [h.here]
    simp [Ne.symm (otherSide_ne side)]
  · rw [isOpen_moved, streamOf_moved, if_neg other]

/-- R65: a move of the highest stream of the fuller side leaves the same balance. -/
theorem balancedSide_moved (h : Highest side s i) (fuller : openCount (otherSide side) s + 1 < openCount side s) (j : Fin 8) :
    balancedSide (moved side i s) j = balancedSide s j := by
  have less := openCount_moved h
  have more := openCount_moved_other h
  have twice : otherSide (otherSide side) = side := by cases side <;> rfl
  have none' : (openCount (otherSide side) (moved side i s) - openCount (otherSide (otherSide side)) (moved side i s)) / 2 = 0 := by
    rw [twice]
    omega
  unfold balancedSide
  rw [streamOf_moved, isOpen_moved]
  by_cases this : j = i
  · subst this
    have top : (List.finRange 8).countP (fun k => decide (j < k) && isOpen k s && (streamOf k s).side == some side) = 0 :=
      List.countP_eq_zero.2 fun k _ fits => by
        simp only [Bool.and_eq_true, decide_eq_true_eq, beq_iff_eq] at fits
        exact h.last k fits.1.1 fits.1.2 fits.2
    have moves : 0 < (openCount side s - openCount (otherSide side) s) / 2 := by omega
    rw [if_pos rfl, h.here, Option.map_some, Option.map_some, none', top, h.opened]
    simp [moves]
  · rw [if_neg this]
    cases here : (streamOf j s).side with
    | none => rfl
    | some side' =>
      rw [Option.map_some, Option.map_some]
      by_cases same : side' = side
      · subst same
        cases opened : isOpen j s with
        | false => simp
        | true =>
          have below : j < i := by
            rcases lt_trichotomy i j with later | same | below
            · exact absurd here (h.last j later opened)
            · exact absurd same.symm this
            · exact below
          have one : above side' j (moved side' i s) + 1 = above side' j s := by
            refine countP_leaves (List.nodup_finRange 8) (List.mem_finRange i) ?_ ?_ fun k other => ?_
            · rw [h.opened, h.here]
              simp [below]
            · rw [streamOf_moved, if_pos rfl]
              simp [otherSide_ne]
            · rw [isOpen_moved, streamOf_moved, if_neg other]
          have same : (above side' j (moved side' i s) <
              (openCount side' (moved side' i s) - openCount (otherSide side') (moved side' i s)) / 2) =
              (above side' j s < (openCount side' s - openCount (otherSide side') s) / 2) := by
            rw [eq_iff_iff]
            omega
          unfold above at same
          simp only [same]
      · have off : side' = otherSide side := by cases side <;> cases side' <;> simp_all [otherSide]
        have zero : (openCount (otherSide side) s - openCount side s) / 2 = 0 := by omega
        rw [off, none', twice, zero]
        simp only [Nat.not_lt_zero, decide_false, Bool.and_false]

theorem movesToBalance_moved (h : Highest side s i) (fuller : openCount (otherSide side) s + 1 < openCount side s) :
    movesToBalance (moved side i s) + 1 = movesToBalance s := by
  have less := openCount_moved h
  have more := openCount_moved_other h
  cases side <;> simp only [otherSide, movesToBalance] at * <;> omega

theorem balanced_moved (h : Highest side s i) (fuller : openCount (otherSide side) s + 1 < openCount side s) :
    balanced (moved side i s) = balanced s := by
  refine mapStreams_congr rfl fun j => ?_
  rw [balancedSide_moved h fuller, streamOf_moved]
  split
  · next same => rw [same]
  · rfl

end

theorem openCount_of_streams {s t : State} (same : t.sq = s.sq) (side : Side) : openCount side t = openCount side s := by
  simp only [openCount, isOpen, streamOf, same]

theorem endsAs.same_sq {u v : State} {us : List SubEvent} (h : endsAs u us v) : v.sq = u.sq := by rw [h.1]

theorem moveStream_ends {u v : State} {us : List SubEvent} {side : Side} (ends : endsAs u us v) (some' : 0 < openCount side u) :
    ∃ i, Highest side u i ∧ endsAs (moved side i u) (us ++ [.rebalanceMove]) (moveStream side v) := by
  obtain ⟨i, found, highest⟩ := highestOpen_of_count some'
  have found : highestOpen side v = some i := by simpa only [highestOpen, isOpen, streamOf, ends.same_sq] using found
  have same : streamOf i v = streamOf i u := by simp only [streamOf, ends.same_sq]
  refine ⟨i, highest, ?_⟩
  rw [moveStream, found]
  show endsAs _ _ (count .rebalanceMove (setStream i { streamOf i v with side := some (otherSide side) } v))
  rw [same]
  exact (ends.setStream i _).count .rebalanceMove

/-- R65: the rebalancing balances the sides, and counts each move. -/
theorem rebalanceFuel_ends {fuel : Nat} {u v : State} {us : List SubEvent} (ends : endsAs u us v) (enough : movesToBalance u ≤ fuel) :
    endsAs (balanced u) (us ++ List.replicate (movesToBalance u) .rebalanceMove) (rebalanceFuel fuel v) := by
  have stays (a : openCount .a u ≤ openCount .b u + 1) (b : openCount .b u ≤ openCount .a u + 1) :
      endsAs (balanced u) (us ++ List.replicate (movesToBalance u) .rebalanceMove) v := by
    have none : movesToBalance u = 0 := by
      unfold movesToBalance
      omega
    rw [none, balanced_stays a b, List.replicate_zero, List.append_nil]
    exact ends
  induction fuel generalizing u v us with
  | zero =>
    unfold movesToBalance at enough
    exact stays (by omega) (by omega)
  | succ fuel ih =>
    have moves {side : Side} (fuller : openCount (otherSide side) u + 1 < openCount side u) :
        endsAs (balanced u) (us ++ List.replicate (movesToBalance u) .rebalanceMove) (rebalanceFuel fuel (moveStream side v)) := by
      obtain ⟨i, highest, moved⟩ := moveStream_ends ends (side := side) (by omega)
      have fewer := movesToBalance_moved highest fuller
      have rest := ih moved (by omega) fun a b => by
        have none : movesToBalance (Machine.moved side i u) = 0 := by
          unfold movesToBalance
          omega
        rw [none, balanced_stays a b, List.replicate_zero, List.append_nil]
        exact moved
      rw [balanced_moved highest fuller, List.append_assoc, ← List.replicate_one, List.replicate_append_replicate,
        Nat.add_comm, fewer] at rest
      exact rest
    have same (side : Side) : openCount side v = openCount side u := openCount_of_streams ends.same_sq side
    unfold rebalanceFuel
    rw [same, same]
    split
    · next fuller => exact moves (side := .a) fuller
    · next =>
      split
      · next fuller => exact moves (side := .b) fuller
      · exact stays (by omega) (by omega)

theorem movesToBalance_le (s : State) : movesToBalance s ≤ 8 := by
  have most (side : Side) : openCount side s ≤ 8 := List.countP_le_length.trans (by simp)
  have a := most .a
  have b := most .b
  unfold movesToBalance
  omega

theorem rebalance_ends {u v : State} {us : List SubEvent} (ends : endsAs u us v) :
    endsAs (balanced u) (us ++ List.replicate (movesToBalance u) .rebalanceMove) (rebalance v) :=
  rebalanceFuel_ends ends (movesToBalance_le u)

/-- R64, R65: every open stream balanced and rewound. -/
def resumed (s : State) : State :=
  mapStreams (fun i r => if r.state ≠ .closed then rewound .quiesceEnd s.lc.tx i { r with side := balancedSide s i }
    else { r with side := balancedSide s i }) { s with sq.quiesce := .running }

/-- R64: what the steps 2 to 4 of a RESUME end as; its reply is left to the request in progress. -/
theorem finishResume_ends {u v : State} {us : List SubEvent} (ends : endsAs u us v) (lane : v.lc.tx = u.lc.tx) :
    ∃ w, finishResume v = endOp .resume .ok w ∧ w.me.inProgress = u.me.inProgress ∧
      endsAs (resumed u) (us ++ List.replicate (movesToBalance u) .rebalanceMove) w := by
  have sides := rebalance_ends ends
  have lane' : (rebalance v).lc.tx = u.lc.tx := (rebalanceFuel_kept 8 v).same_tx.trans lane
  have rewinds := sides.map (fun s => { mapStreams (fun i r =>
    if r.state ≠ .closed then rewound .quiesceEnd u.lc.tx i r else r) s with sq.quiesce := .running })
    (fun _ _ _ _ => rfl) (fun _ => rfl) (fun _ => rfl) (fun _ => rfl) fun _ => rfl
  have same : mapStreams (fun i r => if r.state ≠ .closed then rewound .quiesceEnd u.lc.tx i r else r)
      { balanced u with sq.quiesce := .running } = resumed u := by
    refine mapStreams_congr rfl fun i => ?_
    show (if (streamOf i (balanced u)).state ≠ .closed then rewound .quiesceEnd u.lc.tx i (streamOf i (balanced u))
      else streamOf i (balanced u)) = _
    rw [balanced, streamOf_mapStreams]
    rfl
  refine ⟨{ flagOpenRewinds .quiesceEnd (rebalance v) with sq.quiesce := .running }, rfl, ?_, ?_⟩
  · rw [flagOpenRewinds_eq]
    show (rebalance v).me.inProgress = _
    rw [sides.1]
    rfl
  · rw [flagOpenRewinds_eq, lane', ← same]
    exact rewinds

theorem streamOf_resumed (i : Fin 8) (s : State) : streamOf i (resumed s) =
    if (streamOf i s).state ≠ .closed then rewound .quiesceEnd s.lc.tx i { streamOf i s with side := balancedSide s i }
    else { streamOf i s with side := balancedSide s i } := streamOf_mapStreams _ i _

theorem side_resumed (i : Fin 8) (s : State) : (streamOf i (resumed s)).side = balancedSide s i := by
  rw [streamOf_resumed]
  split <;> rfl

theorem balancedSide_closed {i : Fin 8} {s : State} (closed : (streamOf i s).state = .closed) :
    balancedSide s i = (streamOf i s).side := by
  have shut : isOpen i s = false := by simp [isOpen, closed]
  unfold balancedSide
  cases (streamOf i s).side with
  | none => rfl
  | some side => simp [shut]

theorem streamOf_resumed_closed {i : Fin 8} {s : State} (closed : (streamOf i s).state = .closed) :
    streamOf i (resumed s) = streamOf i s := by
  rw [streamOf_resumed, if_neg (not_not_intro closed), balancedSide_closed closed]

theorem streamOf_resumed_open {i : Fin 8} {s : State} (opened : (streamOf i s).state ≠ .closed) :
    streamOf i (resumed s) = rewound .quiesceEnd s.lc.tx i { streamOf i s with side := balancedSide s i } := by
  rw [streamOf_resumed, if_pos opened]

/-- R65: once balanced the open counts differ by at most one. -/
theorem balanced_counts (s : State) : openCount .a (balanced s) ≤ openCount .b (balanced s) + 1 ∧
    openCount .b (balanced s) ≤ openCount .a (balanced s) + 1 := by
  induction moves : movesToBalance s using Nat.strong_induction_on generalizing s with
  | h n ih =>
    have step {side : Side} (fuller : openCount (otherSide side) s + 1 < openCount side s) :
        openCount .a (balanced s) ≤ openCount .b (balanced s) + 1 ∧ openCount .b (balanced s) ≤ openCount .a (balanced s) + 1 := by
      obtain ⟨i, _, highest⟩ := highestOpen_of_count (side := side) (s := s) (by omega)
      have fewer := movesToBalance_moved highest fuller
      rw [← balanced_moved highest fuller]
      exact ih _ (by omega) _ rfl
    by_cases a : openCount .a s ≤ openCount .b s + 1
    · by_cases b : openCount .b s ≤ openCount .a s + 1
      · rw [balanced_stays a b]
        exact ⟨a, b⟩
      · exact step (side := .b) (by simp only [otherSide]; omega)
    · exact step (side := .a) (by simp only [otherSide]; omega)

theorem openCount_resumed (side : Side) (s : State) : openCount side (resumed s) = openCount side (balanced s) := by
  refine List.countP_congr fun i _ => ?_
  have state : (streamOf i (resumed s)).state = (streamOf i (balanced s)).state := by
    rw [streamOf_resumed, balanced, streamOf_mapStreams]
    split <;> rfl
  have here : (streamOf i (resumed s)).side = (streamOf i (balanced s)).side := by
    rw [side_resumed, balanced, streamOf_mapStreams]
  simp only [isOpen, state, here]

end Sys2Proof.Machine
end

section
/-! PROOFS. RESUME (R33, R64 to R66): the settlement of O39. -/

namespace Sys2Proof.Machine

/-! ### Masks of streams and regions -/

theorem foldl_mask (p : Fin 8 → Bool) (l : List (Fin 8)) (m : BitVec 8) (i : Fin 8) :
    (l.foldl (fun m i => if p i then m ||| BitVec.ofNat 8 (2 ^ i.val) else m) m).getLsbD i.val =
      (m.getLsbD i.val || (decide (i ∈ l) && p i)) := by
  induction l generalizing m with
  | nil => simp
  | cons j l ih =>
    have bit : (BitVec.ofNat 8 (2 ^ j.val)).getLsbD i.val = decide (i = j) := by
      rw [BitVec.getLsbD_ofNat, Nat.testBit_two_pow]
      simp [i.isLt, Fin.ext_iff, eq_comm]
    have step : (if p j then m ||| BitVec.ofNat 8 (2 ^ j.val) else m).getLsbD i.val = (m.getLsbD i.val || (decide (i = j) && p j)) := by
      cases p j
      · rw [if_neg (by decide), Bool.and_false, Bool.or_false]
      · rw [if_pos rfl, BitVec.getLsbD_or, bit, Bool.and_true]
    rw [List.foldl_cons, ih, step, Bool.or_assoc]
    congr 1
    by_cases same : i = j
    · subst same
      cases p i <;> simp
    · simp [same]

theorem maskOf_bit (p : Fin 8 → Bool) (i : Fin 8) : (maskOf p).getLsbD i.val = p i := by
  rw [maskOf, foldl_mask]
  simp

/-- A mask of eight is told by its bits. -/
theorem mask_ext {m m' : BitVec 8} (bits : ∀ i : Fin 8, m.getLsbD i.val = m'.getLsbD i.val) : m = m' :=
  BitVec.eq_of_getLsbD_eq fun k bound => bits ⟨k, bound⟩

/-! ### The begin of an apply (R33) -/

theorem anyChanged_iff (s : State) : anyChanged s = true ↔ s.lu.headerChanged = true ∨ ∃ i : Fin 8, (regionOf i s).changed = true := by
  simp only [anyChanged, Bool.or_eq_true, List.any_eq_true, List.mem_finRange, true_and]

/-- The regions after the begin of an apply, and the frame store that it takes or waits for. -/
def applyRegions (mask : BitVec 8) (s : State) : State :=
  { s with
    lu.apply := some mask, lu.headerChanged := false
    lu.regions := Vector.ofFn fun i : Fin 8 => { regionOf i s with
      changed := false, stale := (regionOf i s).stale || mask.getLsbD i.val } }

/-- The frame store taken by the layout apply, or waited for. -/
def applyAsks (s : State) : State :=
  { s with
    fs.holder := if s.fs.holder = none then some .layoutApply else s.fs.holder
    fs.began := if s.fs.holder = none then s.free else s.fs.began
    fs.waiting := if s.fs.holder = none then [] else s.fs.waiting ++ [.layoutApply] }

theorem askStore_layoutApply {s : State} (queue : s.fs.holder = none → s.fs.waiting = []) : askStore .layoutApply s = applyAsks s := by
  unfold askStore applyAsks
  by_cases free : s.fs.holder = none
  · rw [if_pos free, if_pos free, if_pos free, grantStore, if_pos (by show s.fs.holder.isNone = true; rw [free]; rfl), queue free]
    rfl
  · rw [if_neg free, if_neg free, if_neg free, grantStore, if_neg (by show ¬ s.fs.holder.isNone = true; simpa using free)]

theorem endsAs.applyAsks {u v : State} {us : List SubEvent} (h : endsAs u us v) : endsAs (applyAsks u) us (applyAsks v) :=
  h.map Machine.applyAsks (fun _ _ _ _ => rfl) (fun _ => rfl) (fun _ => rfl) (fun _ => rfl) fun _ => rfl

theorem applyAsks_raised (k : EventKind) (d : BitVec 24) (s : State) : applyAsks (raised k d s) = raised k d (applyAsks s) := by
  unfold raised
  by_cases enabled : s.settings.enables.getLsbD k.number.val = true
  · rw [if_pos enabled]
    exact (if_pos enabled).symm
  · rw [if_neg enabled]
    exact (if_neg enabled).symm

/-- R33: the regions noted are those enabled and changed; with none no stale flag is set. -/
theorem applyRegions_none (s : State) : setChanged false { s with lu.apply := some 0 } = applyRegions 0 s := by
  have regions : (Vector.ofFn fun i : Fin 8 => ({ s.lu.regions[i] with changed := false } : Region)) =
      Vector.ofFn fun i : Fin 8 => { regionOf i s with
        changed := false, stale := (regionOf i s).stale || (0 : BitVec 8).getLsbD i.val } := by
    congr 1
    funext i
    simp [regionOf]
  unfold applyRegions
  rw [← regions]
  rfl

theorem applyRegions_stale (mask : BitVec 8) (s : State) :
    mapRegions (fun i r => if mask.getLsbD i.val then { r with stale := true } else r)
      (setChanged false { s with lu.apply := some mask }) = applyRegions mask s := by
  have regions : (Vector.ofFn fun i : Fin 8 =>
      if mask.getLsbD i.val then ({ (setChanged false s).lu.regions[i] with stale := true } : Region)
        else (setChanged false s).lu.regions[i]) =
      Vector.ofFn fun i : Fin 8 => { regionOf i s with
        changed := false, stale := (regionOf i s).stale || mask.getLsbD i.val } := by
    congr 1
    funext i
    cases bit : mask.getLsbD i.val <;> simp [setChanged, mapRegions, regionOf]
  unfold applyRegions
  rw [← regions]
  rfl

/-- R33: the begin of an apply. -/
theorem beginApply_ends {u v : State} {us : List SubEvent} {mask : BitVec 8} (ends : endsAs u us v) (lane : v.lc.tx = u.lc.tx)
    (noted : ∀ i : Fin 8, mask.getLsbD i.val = ((regionOf i u).enabled && (regionOf i u).changed))
    (queue : u.fs.holder = none → u.fs.waiting = []) :
    endsAs (if mask = 0 then applyAsks (applyRegions mask u) else raised .regionStale (mask.setWidth 24) (applyAsks (applyRegions mask u)))
      (us ++ (.layoutApply :: if mask = 0 then [] else raiseCounts .regionStale u)) (beginApply v) := by
  have lu : v.lu = u.lu := by rw [ends.1]
  have fs : v.fs = u.fs := by rw [ends.1]
  have notes : notedRegions v = mask := mask_ext fun i => by
    rw [notedRegions, maskOf_bit, noted]
    simp only [regionOf, lu]
  have regions := ends.map (applyRegions mask) (fun _ _ _ _ => rfl) (fun _ => rfl) (fun _ => rfl) (fun _ => rfl) fun _ => rfl
  have asks {w : State} (same : w.fs = v.fs) : askStore .layoutApply (count .layoutApply w) = applyAsks (count .layoutApply w) := by
    refine askStore_layoutApply ?_
    rw [count_fs, same, fs]
    exact queue
  unfold beginApply
  simp only [notes]
  by_cases none : mask = 0
  · subst none
    rw [if_pos rfl, if_pos rfl, if_pos rfl, applyRegions_none, asks (w := applyRegions 0 v) rfl]
    exact (regions.count .layoutApply).applyAsks
  · rw [if_neg none, if_neg none, if_neg none]
    unfold setStale
    rw [applyRegions_stale]
    have raises := regions.raise .regionStale (mask.setWidth 24) (by decide) lane
    have counts := (raises.count .layoutApply).applyAsks
    rw [applyAsks_raised] at counts
    rw [asks (by simp; rfl)]
    refine counts.perm ?_
    rw [List.append_assoc]
    exact (List.perm_append_comm (l₂ := [SubEvent.layoutApply])).append_left us

/-! ### The request (R64, R66) -/

theorem exec_resume (tag : Byte) (s : State) : exec (.resume tag) s = requestArrival tag 0x06 (doResume tag) s := by rfl

/-- Settles O39. -/
theorem resumeAppliesTheLayout : Obligations.ResumeAppliesTheLayout := by
  refine fun tag s taken => ⟨fun running => ?_, fun mask quiesced changed noted queue u effect => ?_, fun quiesced header regions => ?_⟩
  · have quiesce : (count .reqTaken (passed s)).sq.quiesce = s.sq.quiesce := by rw [count_sq]; rfl
    exact request_replied taken (if_neg (quiesce ▸ running))
  · have quiesce : (count .reqTaken (passed s)).sq.quiesce = .quiesced := by rw [count_sq]; exact quiesced
    have lu : (beginLong tag 0x06 .resume (count .reqTaken (passed s))).lu = s.lu := count_lu .reqTaken (passed s)
    have changed : anyChanged (beginLong tag 0x06 .resume (count .reqTaken (passed s))) = true := by
      rw [anyChanged_iff]
      simpa only [regionOf, lu] using changed
    rw [exec_resume]
    refine request_ends taken ?_
    rw [doResume, if_pos quiesce]
    dsimp only
    rw [if_pos changed]
    have begins := beginApply_ends (mask := mask) ((taken_ends (passed s)).beginLong tag 0x06 .resume)
      (congrArg LinkCtl.tx (count_lc .reqTaken (passed s))) noted queue
    rw [effect]
    exact begins
  · have quiesce : (count .reqTaken (passed s)).sq.quiesce = .quiesced := by rw [count_sq]; exact quiesced
    have lu : (beginLong tag 0x06 .resume (count .reqTaken (passed s))).lu = s.lu := count_lu .reqTaken (passed s)
    have unchanged : ¬ anyChanged (beginLong tag 0x06 .resume (count .reqTaken (passed s))) = true := by
      rw [anyChanged_iff]
      simp only [regionOf, lu] at header regions ⊢
      rintro (on | ⟨i, on⟩)
      · exact Bool.false_ne_true (header.symm.trans on)
      · exact Bool.false_ne_true ((regions i).symm.trans on)
    obtain ⟨w, finished, current, ends⟩ := finishResume_ends ((taken_ends (passed s)).beginLong tag 0x06 .resume)
      (congrArg LinkCtl.tx (count_lc .reqTaken (passed s)))
    have replies : endOp .resume .ok w = answer tag 0x06 .ok { w with me.inProgress := none } := by
      rw [endOp, current]
      show endLong .ok w = _
      rw [endLong, current]
      rfl
    have step : ∃ t, exec (.resume tag) s = .next t ∧ endsAs (answer tag 0x06 .ok { resumed (beginLong tag 0x06 .resume (passed s)) with
        me.inProgress := none }) ([.reqTaken] ++ List.replicate (movesToBalance s) .rebalanceMove) t := by
      rw [exec_resume]
      refine request_ends taken ?_
      rw [doResume, if_pos quiesce]
      dsimp only
      rw [if_neg unchanged, finished, replies]
      exact (ends.inProgress none).answer tag 0x06 .ok
    obtain ⟨t, step, ends⟩ := step
    have streams (i : Fin 8) : streamOf i t = streamOf i (resumed s) := by
      simp only [streamOf]
      rw [ends.1]
      rfl
    have counts (side : Side) : openCount side t = openCount side (balanced s) :=
      (openCount_of_streams (s := resumed s) (by rw [ends.1]; rfl) side).trans (openCount_resumed side s)
    obtain ⟨rest, ⟨selections, _, events, lane⟩, counted⟩ := ends
    refine ⟨t, step, ⟨?_, selections, events, lane⟩, ?_, ?_, ?_, ?_, fun i closed => ?_, fun i opened => ?_, fun a b i => ?_,
      fun i => ?_, counted, ?_, ?_, ?_, ?_, ?_, ?_, ?_, ?_⟩
    · obtain ⟨c, e, x, rfl⟩ : ∃ c e x, t = { answer tag 0x06 .ok { resumed (beginLong tag 0x06 .resume (passed s)) with
          me.inProgress := none } with mn.counters := c, me.events := e, lc.tx := x } := ⟨_, _, _, rest⟩
      rfl
    · rw [rest]; rfl
    · rw [rest]; rfl
    · rw [rest]; rfl
    · rw [counts, counts]
      exact balanced_counts s
    · rw [streams, streamOf_resumed_closed closed]
    · rw [streams, streamOf_resumed_open opened]
      exact ⟨rfl, rfl, rfl, rfl⟩
    · rw [streams, side_resumed, balancedSide_stays a b]
    · rw [streams, side_resumed]
    all_goals
      rw [rest]
      rfl

end Sys2Proof.Machine
end

section
/-! PROOFS. Pictures written row by row from runs of their own (R33, R117): what a copied stretch reads, and what a rectangle of
rows leaves at each screen position. -/

namespace Sys2Proof.Machine

/-- Runs moved to another index read there what they read before. -/
theorem imageReadFrom_shift (c : Half) (src dst x : Nat) (l : Image) (from' : ∀ e ∈ l, src ≤ e.1) (after : src ≤ x) :
    imageReadFrom c (l.map fun e => (e.1 - src + dst, e.2)) (x - src + dst) = imageReadFrom c l x := by
  induction l generalizing c with
  | nil => rfl
  | cons e l ih =>
    have start := from' e List.mem_cons_self
    simp only [List.map_cons, imageReadFrom]
    rw [ih e.2 fun f mem => from' f (List.mem_cons_of_mem _ mem)]
    exact if_congr (by omega) rfl rfl

/-- A stretch of a picture taken as runs reads what the picture reads there. -/
theorem imageRead_slice {img : Image} (rising : Rising img) {src n dst x : Nat} (low : dst ≤ x) (high : x < dst + n) :
    imageRead (imageSlice img src n dst) x = imageRead img (x - dst + src) := by
  have runs : (img.filter fun e => decide (src < e.1 ∧ e.1 < src + n)) =
      (img.filter fun e => decide (e.1 < src + n)).filter fun e => decide (src < e.1) := by
    rw [List.filter_filter]
    exact List.filter_congr fun e _ => by simp
  have shifted := imageReadFrom_shift (imageRead img src) src dst (x - dst + src)
    (img.filter fun e => decide (src < e.1 ∧ e.1 < src + n))
    (fun e mem => by have := List.of_mem_filter mem; simp only [decide_eq_true_eq] at this; omega) (by omega)
  rw [show x - dst + src - src + dst = x by omega] at shifted
  have start : imageRead img src = imageReadFrom 0 (img.filter fun e => decide (e.1 < src + n)) src :=
    (imageReadFrom_filter_low 0 img (src + n) src rising (by omega)).symm
  calc imageRead (imageSlice img src n dst) x
      = imageReadFrom (imageRead img src) ((img.filter fun e => decide (src < e.1 ∧ e.1 < src + n)).map
          fun e => (e.1 - src + dst, e.2)) x := by
        rw [imageSlice, imageRead, imageReadFrom, if_neg (by omega)]
    _ = imageReadFrom (imageRead img src) (img.filter fun e => decide (src < e.1 ∧ e.1 < src + n)) (x - dst + src) := shifted
    _ = imageReadFrom 0 (img.filter fun e => decide (e.1 < src + n)) (x - dst + src) := by
        rw [runs, start]
        exact imageReadFrom_filter_high 0 _ src _ (rising.filter _) (by omega)
    _ = imageRead img (x - dst + src) := imageReadFrom_filter_low 0 img _ _ rising (by omega)

/-- Rows of runs painted one below the other, w columns from column x on. -/
def paintRows (width size : Nat) (img : Image) (mid : Nat → Image) (x y w h : Nat) : Image :=
  (List.range h).foldl (fun acc v => imagePaint size acc ((y + v) * width + x) w (mid v)) img

section
variable {width size x y w : Nat} {mid : Nat → Image} (runs : ∀ v : Nat, runsWithin ((y + v) * width + x) w (mid v))
include runs

theorem paintRows_wf {img : Image} (canonical : imageWf size img) (h : Nat) :
    imageWf size (paintRows width size img mid x y w h) :=
  foldl_imageWf size _ (fun img v canonical => imagePaint_wf size img _ w _ canonical (runs v)) _ img canonical

/-- A screen position after rows of runs: what the row's runs read inside, what it was outside. -/
theorem imageRead_paintRows {img : Image} {h px py : Nat} (canonical : imageWf size img) (wide : x + w ≤ width)
    (high : (y + h) * width ≤ size) (onScreen : px < width) (pixel : py * width + px < size) :
    imageRead (paintRows width size img mid x y w h) (py * width + px) =
      if x ≤ px ∧ px < x + w ∧ y ≤ py ∧ py < y + h then imageRead (mid (py - y)) (py * width + px)
      else imageRead img (py * width + px) := by
  induction h with
  | zero => exact (if_neg (by omega)).symm
  | succ h ih =>
    rw [← Nat.add_assoc, Nat.succ_mul] at high
    obtain ⟨_, rising, _, _⟩ := paintRows_wf runs canonical h
    have last : paintRows width size img mid x y w (h + 1) =
        imagePaint size (paintRows width size img mid x y w h) ((y + h) * width + x) w (mid h) := by
      simp [paintRows, List.range_succ]
    rw [last]
    by_cases inside : py = y + h ∧ x ≤ px ∧ px < x + w
    · obtain ⟨from', below⟩ := (raster_in_row wide onScreen).2 inside
      rw [imageRead_paint_inside size _ _ w _ _ rising (runs h) (by omega) from' below, if_pos (by omega),
        show py - y = h by omega]
    · have outside := mt (raster_in_row wide onScreen).1 inside
      rw [imageRead_paint_outside size _ _ w _ _ rising (runs h) pixel (by omega), ih (by omega)]
      exact if_congr (by omega) rfl rfl

end

/-- A screen position after a rectangle has been copied: what the source holds there inside it, what it was outside. -/
theorem imageRead_copyRect {width size : Nat} {src img : Image} {x y w h px py : Nat} (rising : Rising src)
    (canonical : imageWf size img) (some' : 0 < w) (wide : x + w ≤ width) (high : (y + h) * width ≤ size) (onScreen : px < width)
    (pixel : py * width + px < size) :
    imageRead (imageCopyRect width size src img x y w h) (py * width + px) =
      if x ≤ px ∧ px < x + w ∧ y ≤ py ∧ py < y + h then imageRead src (py * width + px)
      else imageRead img (py * width + px) := by
  have painted := imageRead_paintRows (mid := fun v => imageSlice src ((y + v) * width + x) w ((y + v) * width + x))
    (fun v => slice_runsWithin src _ w _ rising some') canonical wide high onScreen pixel
  refine painted.trans ?_
  by_cases inside : x ≤ px ∧ px < x + w ∧ y ≤ py ∧ py < y + h
  · obtain ⟨from', below⟩ := (raster_in_row (row := y + (py - y)) (py := py) wide onScreen).2 (by omega)
    rw [if_pos inside, if_pos inside, imageRead_slice rising from' below, Nat.sub_add_cancel from']
  · rw [if_neg inside, if_neg inside]

end Sys2Proof.Machine
end

section
/-! PROOFS. The end of the layout apply (R33, R34): what its picture holds at each screen position, the blocks that it marks, and
the settlement of O40. -/

namespace Sys2Proof.Machine

theorem inRegion_iff (r : Region) (px py : Nat) : inRegion r px py = true ↔
    r.ox.toNat ≤ px ∧ px < r.ox.toNat + r.rw.toNat ∧ r.oy.toNat ≤ py ∧ py < r.oy.toNat + r.rh.toNat := by
  simp [inRegion, and_assoc]

/-! ### The picture (R33) -/

/-- One region's part of the apply's picture: its background when it is noted, what it held when it is not. -/
def applyRegion (s : State) (mask : BitVec 8) (img : Image) (i : Fin 8) : Image :=
  let r := regionOf i s
  if r.enabled then
    if mask.getLsbD i.val then
      imageRect (panelW s) (panelPixels s) img r.ox.toNat r.oy.toNat r.rw.toNat r.rh.toNat r.background
    else imageCopyRect (panelW s) (panelPixels s) s.fs.image img r.ox.toNat r.oy.toNat r.rw.toNat r.rh.toNat
  else img

theorem applyImage_eq (s : State) (mask : BitVec 8) :
    applyImage s mask = (List.finRange 8).foldl (applyRegion s mask) (imageUniform s.lu.border) := rfl

/-- What the apply leaves at raster index a of region i. -/
def regionShows (s : State) (mask : BitVec 8) (i : Fin 8) (a : Nat) : Half :=
  if mask.getLsbD i.val then (regionOf i s).background else imageRead s.fs.image a

/-- Whether an enabled region holds a screen pixel. -/
def covers (s : State) (px py : Nat) (i : Fin 8) : Bool := (regionOf i s).enabled && inRegion (regionOf i s) px py

theorem covers_iff (s : State) (px py : Nat) (i : Fin 8) :
    covers s px py i = true ↔ (regionOf i s).enabled = true ∧ inRegion (regionOf i s) px py = true := by simp [covers]

theorem covers_eq_false_iff (s : State) (px py : Nat) (i : Fin 8) :
    covers s px py i = false ↔ ((regionOf i s).enabled = true → inRegion (regionOf i s) px py = false) := by
  rw [← Bool.not_eq_true, covers_iff, not_and, Bool.not_eq_true]

/-- R27: no two enabled regions share a pixel. -/
theorem covers_unique {s : State} (legal : layoutLegal s) {px py : Nat} {i j : Fin 8} (hi : covers s px py i = true)
    (hj : covers s px py j = true) : i = j := by
  obtain ⟨fits, apart, _⟩ := legal
  rw [covers_iff, inRegion_iff] at hi hj
  obtain ⟨wi, hi', _⟩ := (regionFits_iff _ _ _ _ _ _).1 (fits i hi.1)
  obtain ⟨wj, hj', _⟩ := (regionFits_iff _ _ _ _ _ _).1 (fits j hj.1)
  by_contra other
  refine absurd (apart i j other hi.1 hj.1) (Bool.not_eq_false _ ▸ ?_)
  exact (rectsOverlap_iff (by omega) (by omega) (by omega) (by omega)).2 ⟨px, py, hi.2, hj.2⟩

section
variable {s : State} {mask : BitVec 8} (legal : layoutLegal s) (canonical : imageWf (panelPixels s) s.fs.image)
include legal canonical

omit legal in
theorem applyRegion_wf (i : Fin 8) {img : Image} (h : imageWf (panelPixels s) img) :
    imageWf (panelPixels s) (applyRegion s mask img i) := by
  obtain ⟨_, rising, _, _⟩ := canonical
  simp only [applyRegion]
  split
  · split
    · exact imageRect_wf _ _ _ _ _ _ _ _ h
    · exact imageCopyRect_wf _ _ _ _ _ _ _ _ rising h
  · exact h

theorem imageRead_applyRegion (i : Fin 8) {img : Image} (h : imageWf (panelPixels s) img) {px py : Nat} (inRow : px < panelW s)
    (inColumn : py < panelH s) :
    imageRead (applyRegion s mask img i) (py * panelW s + px) =
      if covers s px py i = true then regionShows s mask i (py * panelW s + px) else imageRead img (py * panelW s + px) := by
  obtain ⟨_, rising, _, _⟩ := canonical
  simp only [applyRegion, covers_iff]
  by_cases enabled : (regionOf i s).enabled = true
  · obtain ⟨wide, high, right, bottom⟩ := (regionFits_iff _ _ _ _ _ _).1 (legal.1 i enabled)
    have rows : ((regionOf i s).oy.toNat + (regionOf i s).rh.toNat) * panelW s ≤ panelPixels s := by
      rw [panelPixels, Nat.mul_comm]
      exact Nat.mul_le_mul_left _ bottom
    have pixel : py * panelW s + px < panelPixels s := by
      calc py * panelW s + px < (py + 1) * panelW s := by rw [Nat.succ_mul]; omega
        _ ≤ panelH s * panelW s := Nat.mul_le_mul_right _ inColumn
        _ = panelPixels s := Nat.mul_comm _ _
    rw [if_pos enabled]
    simp only [inRegion_iff, enabled, true_and, regionShows]
    split
    · exact imageRead_rect _ h right rows inRow pixel
    · exact imageRead_copyRect rising h (by omega) right rows inRow pixel
  · rw [if_neg enabled, if_neg fun inside => enabled inside.1]

/-- A screen position after the regions of a list: what its region shows, else what it was. -/
theorem imageRead_applyRegions (l : List (Fin 8)) {img : Image} (h : imageWf (panelPixels s) img) {px py : Nat}
    (inRow : px < panelW s) (inColumn : py < panelH s) :
    (∀ i ∈ l, covers s px py i = true → imageRead (l.foldl (applyRegion s mask) img) (py * panelW s + px) =
      regionShows s mask i (py * panelW s + px)) ∧
    ((∀ i ∈ l, covers s px py i = false) → imageRead (l.foldl (applyRegion s mask) img) (py * panelW s + px) =
      imageRead img (py * panelW s + px)) := by
  induction l generalizing img with
  | nil => exact ⟨nofun, fun _ => rfl⟩
  | cons j l ih =>
    obtain ⟨inside, outside⟩ := ih (applyRegion_wf (mask := mask) canonical j h)
    have first := imageRead_applyRegion (mask := mask) legal canonical j h inRow inColumn
    refine ⟨fun i mem here => ?_, fun none' => ?_⟩
    · by_cases later : i ∈ l
      · exact inside i later here
      · obtain rfl : i = j := (List.mem_cons.1 mem).resolve_right later
        refine (outside fun k kl => Bool.eq_false_iff.2 fun on => later ?_).trans (first.trans (if_pos here))
        exact covers_unique legal here on ▸ kl
    · have off := none' j List.mem_cons_self
      exact (outside fun i mem => none' i (List.mem_cons_of_mem _ mem)).trans (first.trans (if_neg (by simp [off])))

/-- R33: what the apply's picture holds at a screen position. -/
theorem imageRead_applyImage {px py : Nat} (inRow : px < panelW s) (inColumn : py < panelH s) :
    (∀ i : Fin 8, covers s px py i = true → imageRead (applyImage s mask) (py * panelW s + px) =
      regionShows s mask i (py * panelW s + px)) ∧
    ((∀ i : Fin 8, covers s px py i = false) → imageRead (applyImage s mask) (py * panelW s + px) = s.lu.border) := by
  have some' : 0 < panelPixels s := Nat.mul_pos (by omega) (by omega)
  obtain ⟨inside, outside⟩ := imageRead_applyRegions (mask := mask) legal canonical (List.finRange 8)
    (imageUniform_wf (panelPixels s) s.lu.border some') inRow inColumn
  exact ⟨fun i => inside i (List.mem_finRange i),
    fun none' => (outside fun i _ => none' i).trans (imageRead_uniform _ _)⟩

end

/-! ### The blocks (R34) -/

/-- The raster number of a block gives back its column and its row. -/
theorem block_column_row {width col : Nat} (row : Nat) (inCol : col < width) :
    (row * width + col) % width = col ∧ (row * width + col) / width = row := by
  constructor
  · rw [Nat.mul_comm, Nat.mul_add_mod, Nat.mod_eq_of_lt inCol]
  · rw [Nat.mul_comm, Nat.mul_add_div (by omega), Nat.div_eq_of_lt inCol, Nat.add_zero]

/-- R34: a block holds border when one of its pixels lies in no enabled region. -/
theorem holdsBorder_iff {s : State} {col row : Nat} (inCol : col < s.lu.width) :
    holdsBorder s (row * s.lu.width + col) = true ↔
      ∃ px py : Nat, px / 16 = col ∧ py / 16 = row ∧ ∀ i : Fin 8, covers s px py i = false := by
  obtain ⟨column, line⟩ := block_column_row row inCol
  have bare (px py : Nat) : (((List.finRange 8).filter fun j => (regionOf j s).enabled).all
      fun j => !inRegion (regionOf j s) px py) = true ↔ ∀ i : Fin 8, covers s px py i = false := by
    simp only [List.all_eq_true, List.mem_filter, List.mem_finRange, true_and, covers_eq_false_iff, Bool.not_eq_true']
  simp only [holdsBorder, column, line]
  split
  · next whole =>
    refine iff_of_false Bool.false_ne_true ?_
    rintro ⟨px, py, inX, inY, none'⟩
    obtain ⟨j, mem, corners⟩ := List.any_eq_true.1 whole
    obtain ⟨first, last⟩ := Bool.and_eq_true_iff.1 corners
    rw [inRegion_iff] at first last
    have enabled := (List.mem_filter.1 mem).2
    refine Bool.eq_false_iff.1 (none' j) ((covers_iff s px py j).2 ⟨enabled, (inRegion_iff _ _ _).2 ?_⟩)
    omega
  · rw [List.any_eq_true]
    constructor
    · rintro ⟨p, mem, clear⟩
      have small := List.mem_range.1 mem
      exact ⟨_, _, by omega, by omega, (bare _ _).1 clear⟩
    · rintro ⟨px, py, inX, inY, none'⟩
      refine ⟨(py % 16) * 16 + px % 16, List.mem_range.2 (by omega), (bare _ _).2 ?_⟩
      rwa [show 16 * col + ((py % 16) * 16 + px % 16) % 16 = px by omega,
        show 16 * row + ((py % 16) * 16 + px % 16) / 16 = py by omega]

/-- R34: the blocks that the apply marks are those in which it writes a pixel. -/
theorem applyBlocks_iff {s : State} (legal : layoutLegal s) (mask : BitVec 8) {col row : Nat} (inCol : col < s.lu.width) :
    applyBlocks s mask (row * s.lu.width + col) = true ↔ ∃ px py : Nat, px / 16 = col ∧ py / 16 = row ∧
      ((∃ i : Fin 8, (regionOf i s).enabled = true ∧ mask.getLsbD i.val = true ∧ inRegion (regionOf i s) px py = true) ∨
        ∀ i : Fin 8, (regionOf i s).enabled = true → inRegion (regionOf i s) px py = false) := by
  have touched (i : Fin 8) (enabled : (regionOf i s).enabled = true) :
      touches s (regionOf i s).ox.toNat ((regionOf i s).ox.toNat + (regionOf i s).rw.toNat - 1) (regionOf i s).oy.toNat
          ((regionOf i s).oy.toNat + (regionOf i s).rh.toNat - 1) (row * s.lu.width + col) = true ↔
        ∃ px py : Nat, px / 16 = col ∧ py / 16 = row ∧ inRegion (regionOf i s) px py = true := by
    obtain ⟨wide, high, _⟩ := (regionFits_iff _ _ _ _ _ _).1 (legal.1 i enabled)
    rw [touches_iff inCol]
    simp only [inRegion_iff]
    constructor
    · intro meets
      exact ⟨max (regionOf i s).ox.toNat (16 * col), max (regionOf i s).oy.toNat (16 * row), by omega, by omega, by omega⟩
    · rintro ⟨px, py, inX, inY, inside⟩
      omega
  have noted : ((membersOf mask).any fun j => (regionOf j s).enabled && touches s (regionOf j s).ox.toNat
        ((regionOf j s).ox.toNat + (regionOf j s).rw.toNat - 1) (regionOf j s).oy.toNat
        ((regionOf j s).oy.toNat + (regionOf j s).rh.toNat - 1) (row * s.lu.width + col)) = true ↔
      ∃ px py : Nat, px / 16 = col ∧ py / 16 = row ∧
        ∃ i : Fin 8, (regionOf i s).enabled = true ∧ mask.getLsbD i.val = true ∧ inRegion (regionOf i s) px py = true := by
    rw [List.any_eq_true]
    constructor
    · rintro ⟨i, mem, on⟩
      obtain ⟨enabled, meets⟩ := Bool.and_eq_true_iff.1 on
      obtain ⟨px, py, inX, inY, inside⟩ := (touched i enabled).1 meets
      exact ⟨px, py, inX, inY, i, enabled, (List.mem_filter.1 mem).2, inside⟩
    · rintro ⟨px, py, inX, inY, i, enabled, bit, inside⟩
      exact ⟨i, List.mem_filter.2 ⟨List.mem_finRange i, bit⟩,
        Bool.and_eq_true_iff.2 ⟨enabled, (touched i enabled).2 ⟨px, py, inX, inY, inside⟩⟩⟩
  rw [applyBlocks, Bool.or_eq_true, noted, holdsBorder_iff inCol]
  simp only [covers_eq_false_iff, and_or_left, exists_or]

end Sys2Proof.Machine
end

section
/-! PROOFS. The frame store passed on, a selection and the end of a request, as effects beside the bookkeeping; and the end of the
layout apply: the settlement of O40. -/

namespace Sys2Proof.Machine

/-! ### The frame store passed on (R25, R37) -/

/-- R25, R37: the free frame store given to the writer that waits next; a teardown fill takes the undocked colour. -/
def granted (s : State) : State :=
  { passedOn s with
    lu.fillColour := if s.fs.waiting.head? = some .teardownFill then some s.lu.undocked else s.lu.fillColour }

/-- R37: a teardown fill that is given the frame store is counted. -/
def grantCounts (s : State) : List SubEvent :=
  if s.fs.waiting.head? = some .teardownFill then [.teardownFill] else []

section
variable {u v : State} {us : List SubEvent} (h : endsAs u us v)
include h

theorem endsAs.same_fs : v.fs = u.fs := by rw [h.1]

theorem endsAs.same_lu : v.lu = u.lu := by rw [h.1]

theorem endsAs.grantStore (free : u.fs.holder = none) : endsAs (granted u) (us ++ grantCounts u) (grantStore v) := by
  have fs := h.same_fs
  by_cases fill : u.fs.waiting.head? = some .teardownFill
  · have grants : Machine.grantStore v = Machine.count .teardownFill (granted v) := by
      obtain ⟨rest, waiting⟩ : ∃ rest, v.fs.waiting = .teardownFill :: rest := by
        rw [← fs] at fill
        exact (List.head?_eq_some_iff).1 fill
      rw [← fs] at free
      simp [Machine.grantStore, granted, Machine.passedOn, free, waiting]
    have effect : endsAs (granted u) us (granted v) := by
      have colour := h.passedOn.lu fun lu => { lu with fillColour := some lu.undocked }
      simp only [granted, fs, if_pos fill]
      exact colour
    rw [grants, grantCounts, if_pos fill]
    exact effect.count .teardownFill
  · have grants : Machine.grantStore v = Machine.passedOn v := grantStore_passedOn (fs ▸ free) (fs ▸ fill)
    rw [grants, grantCounts, if_neg fill, List.append_nil, granted, if_neg fill]
    exact h.passedOn

/-! ### The end of a request (R156) -/

theorem endsAs.endOp (op : LongOp) (status : Status) : endsAs (endOp op status u) us (endOp op status v) := by
  have request : v.me.inProgress = u.me.inProgress := by rw [h.1]
  simp only [Machine.endOp, Machine.endLong, request]
  split
  · split
    · split
      · exact h.inProgress none
      · exact (h.inProgress none).answer _ _ _
    · exact h
  · exact h

end

theorem endOp_rest (op : LongOp) (status : Status) (s : State) : endOp op status s =
    { s with lc.replies := (endOp op status s).lc.replies, me.inProgress := (endOp op status s).me.inProgress } := by
  unfold endOp
  split
  · exact endLong_rest status s
  · rfl

/-- R62, R64, R89: a request ends with its reply when its operation has come to its end. -/
theorem endOp_current {op : LongOp} {status : Status} {tag kind : Byte} {s : State}
    (current : s.me.inProgress = some ⟨tag, kind, op, false⟩) :
    (endOp op status s).me.inProgress = none ∧
      (endOp op status s).lc.replies = s.lc.replies ++ [⟨tag, kind, status, []⟩] := by
  have same : (s.me.inProgress.any fun r => r.op == op) = true := by simp [current]
  rw [endOp, if_pos same, endLong, current]
  exact ⟨rfl, rfl⟩

/-! ### A mark (R126) -/

theorem selectBlock_lc (s : State) : (selectBlock s).lc = s.lc := by
  rcases selectBlock_cases s with same | ⟨i, _, _, sends⟩
  · rw [same]
  · rw [sends]
    exact count_lc .blockSent _

/-! ### LAYOUT_APPLY_END (R33, R34, R64) -/

theorem exec_layoutApplyEnd {s : State} {mask : BitVec 8} (applying : s.lu.apply = some mask)
    (writing : s.fs.holder = some .layoutApply) :
    exec .layoutApplyEnd s = .next (conclude s (finishResume (finishApply mask s))) := by
  show execLayoutApplyEnd s = _
  rw [execLayoutApplyEnd, applying]
  exact if_pos writing

/-- The end of the apply's fill with its pixels written (R34): the picture, the port and the frame store free. -/
def applied (mask : BitVec 8) (s : State) : State :=
  { s with
    fs.image := applyImage s mask, fs.holder := none, lu.apply := none
    pu.port := (readToEnd (applyImage s mask) { s with
      fs.image := applyImage s mask, fs.holder := none, lu.apply := none }).pu.port
    free := (readToEnd (applyImage s mask) { s with
      fs.image := applyImage s mask, fs.holder := none, lu.apply := none }).free }

/-- The blocks of the apply marked, and a selection made. -/
def appliedMarks (mask : BitVec 8) (s : State) : State := markBlocks (applyBlocks s mask) (applied mask s)

theorem appliedMarks_flight {mask : BitVec 8} {s : State} (flight : s.pu.inFlight.isSome = true) : appliedMarks mask s =
    { applied mask s with pu.dirty := (applied mask s).pu.dirty.mapIdx fun i d => d || applyBlocks s mask i } :=
  selectBlock_stays (.inl flight)

section
variable (mask : BitVec 8) (s : State)

theorem finishApply_eq : finishApply mask s = grantStore (appliedMarks mask s) := by
  simp only [finishApply]
  rw [readToEnd_rest]
  rfl

theorem appliedMarks_apart : Apart (applied mask s) (appliedMarks mask s) := markBlocks_apart _ _

theorem finishApply_ends : endsAs (granted (appliedMarks mask s)) (grantCounts (appliedMarks mask s)) (finishApply mask s) := by
  rw [finishApply_eq]
  refine (endsAs_refl (appliedMarks mask s)).grantStore ?_
  rw [(appliedMarks_apart mask s).fs]
  rfl

theorem finishApply_replies : (finishApply mask s).lc.replies = s.lc.replies := by
  rw [finishApply_eq]
  exact (grantStore_handed _).replies.trans (congrArg LinkCtl.replies (selectBlock_lc _))

theorem finishApply_inProgress : (finishApply mask s).me.inProgress = s.me.inProgress := by
  rw [finishApply_eq]
  exact (grantStore_handed _).inProgress.trans (appliedMarks_apart mask s).inProgress

theorem finishApply_drawing : drawingOnly { s with lu.apply := none } (finishApply mask s) := by
  rw [finishApply_eq]
  have written : drawingOnly { s with lu.apply := none } (applied mask s) :=
    drawingOnly_of_panel { s.fs with image := applyImage s mask, holder := none }
      { s.pu with port := (applied mask s).pu.port } (applied mask s).free { s with lu.apply := none }
  exact (written.trans (markBlocks_drawing _ _)).trans (grantStore_handed _).drawing

theorem finishApply_sq : (finishApply mask s).sq = s.sq := by
  rw [(finishApply_ends mask s).1]
  exact (appliedMarks_apart mask s).sq

theorem finishApply_pu : (finishApply mask s).pu = (appliedMarks mask s).pu := by rw [(finishApply_ends mask s).1]; rfl

theorem finishApply_fs : (finishApply mask s).fs.image = applyImage s mask ∧
    (finishApply mask s).fs.holder = s.fs.waiting.head? := by
  have fs := (appliedMarks_apart mask s).fs
  rw [(finishApply_ends mask s).1]
  exact ⟨congrArg FrameStore.image fs, congrArg (fun f => f.waiting.head?) fs⟩

end

/-- R65: the sides after the rebalancing depend on the streams alone. -/
theorem balancedSide_of_streams {s t : State} (same : t.sq = s.sq) (i : Fin 8) : balancedSide t i = balancedSide s i := by
  have counts (side : Side) : openCount side t = openCount side s := openCount_of_streams same side
  have streams (j : Fin 8) : streamOf j t = streamOf j s := by simp only [streamOf, same]
  have opened (j : Fin 8) : isOpen j t = isOpen j s := by simp only [isOpen, streams]
  simp only [balancedSide, opened, streams, counts]

theorem movesToBalance_of_streams {s t : State} (same : t.sq = s.sq) : movesToBalance t = movesToBalance s := by
  have counts (side : Side) : openCount side t = openCount side s := openCount_of_streams same side
  rw [movesToBalance, counts, counts, movesToBalance]

/-- A state that follows another with its counters and its settings is counted from either. -/
theorem countedAs_of_same {us : List SubEvent} {s u t : State} (h : countedAs us u t) (mn : u.mn = s.mn)
    (settings : u.settings = s.settings) : countedAs us s t := by
  unfold countedAs countedUnder saturatedIn at h ⊢
  rwa [mn, settings] at h

/-- Settles O40. -/
theorem layoutApplyPaintsTheScreen : Obligations.LayoutApplyPaintsTheScreen := by
  refine ⟨inRegion_iff, fun s => ⟨fun idle => ?_, fun mask applying writing legal shape canonical => ?_⟩⟩
  · show execLayoutApplyEnd s = _
    unfold execLayoutApplyEnd
    split
    · next applying => exact if_neg (idle.resolve_left (by rw [applying]; simp))
    · rfl
  obtain ⟨w, finished, current, resumes⟩ := finishResume_ends (endsAs_refl (finishApply mask s)) rfl
  have ends := (resumes.endOp .resume .ok).conclude s
  rw [← finished] at ends
  refine ⟨_, exec_layoutApplyEnd applying writing, ?_⟩
  generalize conclude s (finishResume (finishApply mask s)) = t at ends
  have rest := ends.1
  rw [endOp_rest] at rest
  have sq := finishApply_sq mask s
  have pu : t.pu = (appliedMarks mask s).pu := by rw [rest]; exact finishApply_pu mask s
  have fs : t.fs = (finishApply mask s).fs := by rw [rest]; rfl
  have picture : t.fs.image = applyImage s mask := by rw [fs]; exact (finishApply_fs mask s).1
  have streams (i : Fin 8) : streamOf i t = streamOf i (resumed (finishApply mask s)) := by
    simp only [streamOf]
    rw [rest]
  have before (i : Fin 8) : streamOf i (finishApply mask s) = streamOf i s := by simp only [streamOf, sq]
  refine ⟨?_, ?_, fun px py inRow inColumn => ?_, ?_, ?_, ?_, fun i opened => ?_, fun tag kind request => ?_, fun i => ?_,
    fun flight => ⟨?_, fun other => ?_⟩, ?_, ?_, ?_, ?_⟩
  · rw [picture, writtenImage, writing]
    simp only [applying]
  · obtain ⟨_, _, blocks, _, _⟩ := shape
    intro col row inCol inRow
    have block : row * s.lu.width + col < (applied mask s).pu.dirty.length := by
      calc row * s.lu.width + col < (row + 1) * s.lu.width := by rw [Nat.succ_mul]; omega
        _ ≤ s.lu.height * s.lu.width := Nat.mul_le_mul_right _ inRow
        _ = (applied mask s).pu.dirty.length := by rw [applied, blocks, blockCount, Nat.mul_comm]
    rw [pu]
    refine (markBlocks_dirty (applyBlocks s mask) (applied mask s) block).trans ?_
    rw [applyBlocks_iff legal mask inCol]
    rfl
  · obtain ⟨inside, outside⟩ := imageRead_applyImage (mask := mask) legal canonical inRow inColumn
    rw [picture]
    exact ⟨fun i enabled here => inside i ((covers_iff s px py i).2 ⟨enabled, here⟩),
      fun none' => outside fun i => (covers_eq_false_iff s px py i).2 (none' i)⟩
  · rw [rest]
    show (finishApply mask s).lu.apply = none
    rw [(finishApply_drawing mask s).1]
  · rw [rest]
    rfl
  · rw [fs]
    exact (finishApply_fs mask s).2
  · rw [streams, streamOf_resumed_open (by rwa [before]), before]
    exact ⟨rfl, rfl, rfl⟩
  · have request' : (resumed (finishApply mask s)).me.inProgress = some ⟨tag, kind, .resume, false⟩ :=
      (finishApply_inProgress mask s).trans request
    obtain ⟨over', reply⟩ := endOp_current (status := .ok) request'
    rw [rest]
    refine ⟨over', reply.trans ?_⟩
    show (finishApply mask s).lc.replies ++ _ = _
    rw [finishApply_replies]
  · rw [streams, side_resumed, balancedSide_of_streams sq]
  · have port : t.pu.port = (applied mask s).pu.port := by
      rw [pu, appliedMarks_flight flight]
    rw [picture]
    unfold readOn
    rw [port]
    exact readToEnd_reads (applyImage s mask) { s with
      fs.image := applyImage s mask, fs.holder := none, lu.apply := none }
  · have passes : finishApply mask s = passedOn (appliedMarks mask s) := by
      rw [finishApply_eq]
      refine grantStore_passedOn ?_ ?_
      · exact (congrArg FrameStore.holder (appliedMarks_apart mask s).fs)
      · exact fun fill => other ((congrArg (fun f => f.waiting.head?) (appliedMarks_apart mask s).fs).symm.trans fill)
    have mn : (finishApply mask s).mn = s.mn := by
      rw [passes, appliedMarks_flight flight]
      rfl
    have settings : (finishApply mask s).settings = s.settings := by rw [(finishApply_drawing mask s).1]
    have counted := ends.2.2
    rw [movesToBalance_of_streams sq, endOp_rest] at counted
    exact countedAs_of_same (u := finishApply mask s) counted mn settings
  · refine (finishApply_drawing mask s).trans ?_
    obtain ⟨_, ⟨selections, _, events, lane⟩, _⟩ := ends
    rw [endOp_rest] at selections events lane
    refine ⟨?_, selections, events, lane⟩
    generalize endOp Machine.LongOp.resume Machine.Status.ok (resumed (finishApply mask s)) = e at rest
    obtain ⟨c, v, x, rfl⟩ : ∃ c v x, t = { resumed (finishApply mask s) with
        lc.replies := e.lc.replies, me.inProgress := e.me.inProgress, mn.counters := c, me.events := v, lc.tx := x } :=
      ⟨_, _, _, rest⟩
    rfl
  · rw [rest]
    show (finishApply mask s).tc = s.tc
    rw [(finishApply_ends mask s).1]
    exact (appliedMarks_apart mask s).tc
  · rw [rest]
    show (finishApply mask s).tf = s.tf
    rw [(finishApply_ends mask s).1]
    exact (appliedMarks_apart mask s).tf
  · rw [rest]
    show (finishApply mask s).de = s.de
    rw [(finishApply_ends mask s).1]
    exact (appliedMarks_apart mask s).de

end Sys2Proof.Machine
end

section
/-! PROOFS. The pixels of a PLACE (R115) and of a SCROLL (R117): what each leaves at each position of the screen, and the settlements
of O26 and O27. -/

namespace Sys2Proof.Machine

/-- A pixel after a run of writes, each of which gives it one colour or leaves it. -/
theorem foldl_reads {α : Type} {size a : Nat} {c : Half} {f : Image → α → Image} {hit : α → Bool}
    (keeps : ∀ img b, imageWf size img → imageWf size (f img b)) (l : List α)
    (reads : ∀ img, ∀ b ∈ l, imageWf size img → imageRead (f img b) a = if hit b = true then c else imageRead img a)
    {img : Image} (canonical : imageWf size img) :
    imageRead (l.foldl f img) a = if l.any hit = true then c else imageRead img a := by
  induction l generalizing img with
  | nil => rfl
  | cons b l ih =>
    rw [List.foldl_cons, ih (fun img b' mem => reads img b' (List.mem_cons_of_mem _ mem)) (keeps img b canonical),
      reads img b List.mem_cons_self canonical, List.any_cons]
    cases hit b with
    | true => simp
    | false => simp

theorem screen_pixel {s : State} {px py : Nat} (inRow : px < panelW s) (inColumn : py < panelH s) :
    py * panelW s + px < panelPixels s := by
  calc py * panelW s + px < (py + 1) * panelW s := by rw [Nat.succ_mul]; omega
    _ ≤ panelH s * panelW s := Nat.mul_le_mul_right _ inColumn
    _ = panelPixels s := Nat.mul_comm _ _

theorem screen_rows {s : State} {n : Nat} (within : n ≤ panelH s) : n * panelW s ≤ panelPixels s := by
  rw [panelPixels, Nat.mul_comm (panelW s)]
  exact Nat.mul_le_mul_right _ within

/-! ### A PLACE (R115) -/

theorem mem_clipColumns (r : ExecRecord) (cx : Int) : cx ∈ clipColumns r ↔ r.cx0 ≤ cx ∧ cx ≤ r.cx1 := by
  simp only [clipColumns, List.mem_map, List.mem_range]
  exact ⟨fun ⟨i, _, _⟩ => by omega, fun inside => ⟨(cx - r.cx0).toNat, by omega, by omega⟩⟩

theorem mem_clipRows (r : ExecRecord) (cy : Int) : cy ∈ clipRows r ↔ r.cy0 ≤ cy ∧ cy ≤ r.cy1 := by
  simp only [clipRows, List.mem_map, List.mem_range]
  exact ⟨fun ⟨i, _, _⟩ => by omega, fun inside => ⟨(cy - r.cy0).toNat, by omega, by omega⟩⟩

/-- One pixel of a PLACE: the tile's, unless it has the key colour. -/
def placePixel (width size : Nat) (r : ExecRecord) (x y : Int) (keyColour : Option Half) (cy : Int) (img : Image) (cx : Int) :
    Image :=
  let c := tilePixel r (cx - x) (cy - y)
  if keyColour = some c then img else imageRow size img ((r.oy + cy).toNat * width + (r.ox + cx).toNat) 1 c

theorem writePlace_eq (width size : Nat) (r : ExecRecord) (x y : Int) (keyColour : Option Half) (img : Image) :
    writePlace width size r x y keyColour img =
      (clipRows r).foldl (fun acc cy => (clipColumns r).foldl (placePixel width size r x y keyColour cy) acc) img := rfl

theorem placePixel_wf (width size : Nat) (r : ExecRecord) (x y : Int) (keyColour : Option Half) (cy : Int) (img : Image) (cx : Int)
    (canonical : imageWf size img) : imageWf size (placePixel width size r x y keyColour cy img cx) := by
  simp only [placePixel]
  split
  · exact canonical
  · exact imageRow_wf size img _ 1 _ canonical

section
variable {s : State} {r : ExecRecord} {key : Word} {x y : Int} {keyColour : Option Half}
  (command : r.command = .place key x y keyColour) (fits : recordFits s r)
include fits

/-- One pixel of a PLACE is written where it lies, unless it has the key colour. -/
theorem imageRead_placePixel {img : Image} (canonical : imageWf (panelPixels s) img) {cx cy : Int} (column : cx ∈ clipColumns r)
    (row : cy ∈ clipRows r) {px py : Nat} (inRow : px < panelW s) (inColumn : py < panelH s) {c : Half}
    (colour : c = tilePixel r (px - r.ox - x) (py - r.oy - y)) :
    imageRead (placePixel (panelW s) (panelPixels s) r x y keyColour cy img cx) (py * panelW s + px) =
      if decide ((r.ox : Int) + cx = px ∧ (r.oy : Int) + cy = py ∧ keyColour ≠ some c) = true then c
      else imageRead img (py * panelW s + px) := by
  obtain ⟨wide, high, left, across, right, top, down, bottom⟩ := fits
  rw [mem_clipColumns] at column
  rw [mem_clipRows] at row
  obtain ⟨_, rising, _, _⟩ := canonical
  have here : ((r.oy : Int) + cy).toNat * panelW s + ((r.ox : Int) + cx).toNat ≤ py * panelW s + px ∧
      py * panelW s + px < ((r.oy : Int) + cy).toNat * panelW s + ((r.ox : Int) + cx).toNat + 1 ↔
      (r.ox : Int) + cx = px ∧ (r.oy : Int) + cy = py :=
    (raster_in_row (by omega) inRow).trans (by omega)
  have within := screen_pixel (s := s) (px := ((r.ox : Int) + cx).toNat) (py := ((r.oy : Int) + cy).toNat) (by omega) (by omega)
  have same (at' : (r.ox : Int) + cx = px ∧ (r.oy : Int) + cy = py) : tilePixel r (cx - x) (cy - y) = c := by
    rw [colour, ← at'.1, ← at'.2]
    congr 1 <;> omega
  simp only [placePixel, decide_eq_true_eq]
  split
  · next keyed =>
    refine (if_neg ?_).symm
    rintro ⟨atX, atY, free⟩
    exact free (keyed.trans (congrArg some (same ⟨atX, atY⟩)))
  · next free =>
    rw [imageRead_row _ _ _ _ _ _ rising (screen_pixel inRow inColumn) within]
    simp only [here]
    split
    · next at' => rw [same at'] at free ⊢; rw [if_pos ⟨at'.1, at'.2, free⟩]
    · next at' => rw [if_neg fun h => at' ⟨h.1, h.2.1⟩]

include command

/-- R115: what a PLACE leaves at a position of the screen. -/
theorem place_pixel (canonical : imageWf (panelPixels s) s.fs.image) {px py : Nat} (inRow : px < panelW s)
    (inColumn : py < panelH s) {c : Half} (colour : c = tilePixel r (px - r.ox - x) (py - r.oy - y)) :
    imageRead (writeCommand (panelW s) (panelPixels s) r s.fs.image) (py * panelW s + px) =
      if (r.ox : Int) + r.cx0 ≤ px ∧ (px : Int) ≤ r.ox + r.cx1 ∧ (r.oy : Int) + r.cy0 ≤ py ∧ (py : Int) ≤ r.oy + r.cy1 ∧
          keyColour ≠ some c then c
      else imageRead s.fs.image (py * panelW s + px) := by
  have rowReads (img : Image) (cy : Int) (row : cy ∈ clipRows r) (canonical : imageWf (panelPixels s) img) :=
    foldl_reads (c := c) (placePixel_wf (panelW s) (panelPixels s) r x y keyColour cy) (clipColumns r)
      (fun img cx column canonical => imageRead_placePixel fits canonical column row inRow inColumn colour) canonical
  simp only [writeCommand, command, writePlace_eq]
  rw [foldl_reads (fun img cy => foldl_imageWf _ _ (placePixel_wf _ _ r x y keyColour cy) _ img) (clipRows r)
    rowReads canonical]
  refine if_congr ?_ rfl rfl
  simp only [List.any_eq_true, mem_clipRows, mem_clipColumns, decide_eq_true_eq]
  constructor
  · rintro ⟨cy, row, cx, column, atX, atY, free⟩
    exact ⟨by omega, by omega, by omega, by omega, free⟩
  · rintro ⟨left, right, top, bottom, free⟩
    exact ⟨py - r.oy, by omega, px - r.ox, by omega, by omega, by omega, free⟩

/-- R118: a PLACE marks the blocks that its clip rectangle touches. -/
theorem place_commandBlocks {col row : Nat} (inCol : col < s.lu.width) :
    commandBlocks s r (row * s.lu.width + col) = true ↔
      ((r.ox : Int) + r.cx0) / 16 ≤ col ∧ (col : Int) ≤ ((r.ox : Int) + r.cx1) / 16 ∧
        ((r.oy : Int) + r.cy0) / 16 ≤ row ∧ (row : Int) ≤ ((r.oy : Int) + r.cy1) / 16 := by
  obtain ⟨_, _, left, across, _, top, down, _⟩ := fits
  simp only [commandBlocks, command, touches_iff inCol]
  omega

end

/-- Settles O26: the end of the execution leaves the picture and the marks of the write, pixel by pixel of the clip rectangle. -/
theorem aPlaceWritesFromItsTile : Obligations.APlaceWritesFromItsTile := by
  intro side s r key x y keyColour busy writing command fits canonical
  obtain ⟨t, next, after⟩ := executionEnd_draws busy writing
  refine ⟨t, next, (drawn_drawing r s).trans after.drawing,
    fun shape => executionEnd_marks shape after fun _ _ => place_commandBlocks command fits, fun px py inRow inColumn => ?_⟩
  rw [after.image, drawn_image]
  exact place_pixel command fits canonical inRow inColumn rfl

/-! ### A SCROLL (R117) -/

section
variable {s : State} {r : ExecRecord} {dx dy : Int} (command : r.command = .scroll dx dy) (fits : recordFits s r)
include command fits

omit fits in
/-- R118: a SCROLL marks the blocks of its region. -/
theorem scroll_commandBlocks {col row : Nat} (inCol : col < s.lu.width) :
    commandBlocks s r (row * s.lu.width + col) = true ↔
      r.ox / 16 ≤ col ∧ col ≤ (r.ox + r.rw - 1) / 16 ∧ r.oy / 16 ≤ row ∧ row ≤ (r.oy + r.rh - 1) / 16 := by
  simp only [commandBlocks, command, touches_iff inCol]

/-- R117: what a SCROLL leaves at a position of the screen. -/
theorem scroll_pixel (canonical : imageWf (panelPixels s) s.fs.image) {px py : Nat} (inRow : px < panelW s)
    (inColumn : py < panelH s) :
    imageRead (writeCommand (panelW s) (panelPixels s) r s.fs.image) (py * panelW s + px) =
      if r.ox ≤ px ∧ px < r.ox + r.rw ∧ r.oy ≤ py ∧ py < r.oy + r.rh then
        if (r.ox : Int) ≤ px - dx ∧ (px : Int) - dx < r.ox + r.rw ∧ (r.oy : Int) ≤ py - dy ∧ (py : Int) - dy < r.oy + r.rh
        then imageRead s.fs.image (((py : Int) - dy).toNat * panelW s + ((px : Int) - dx).toNat)
        else r.background
      else imageRead s.fs.image (py * panelW s + px) := by
  obtain ⟨wide, high, _⟩ := fits
  have pixel := screen_pixel inRow inColumn
  have blank := imageRead_rect r.background canonical wide (screen_rows high) inRow pixel
  have blankWf := imageRect_wf (panelW s) (panelPixels s) s.fs.image r.ox r.oy r.rw r.rh r.background canonical
  obtain ⟨_, rising, _, _⟩ := canonical
  simp only [writeCommand, command, writeScroll]
  by_cases far : r.rw ≤ dx.natAbs ∨ r.rh ≤ dy.natAbs
  · rw [if_pos far, blank]
    by_cases inside : r.ox ≤ px ∧ px < r.ox + r.rw ∧ r.oy ≤ py ∧ py < r.oy + r.rh
    · rw [if_pos inside, if_pos inside, if_neg (by omega)]
    · rw [if_neg inside, if_neg inside]
  · rw [if_neg far]
    have moves := imageRead_paintRows (x := r.ox + (max dx 0).toNat) (y := r.oy + (max dy 0).toNat) (w := r.rw - dx.natAbs)
      (mid := fun i => imageSlice s.fs.image ((r.oy + (max (-dy) 0).toNat + i) * panelW s + (r.ox + (max (-dx) 0).toNat))
        (r.rw - dx.natAbs) ((r.oy + (max dy 0).toNat + i) * panelW s + (r.ox + (max dx 0).toNat)))
      (fun i => slice_runsWithin s.fs.image _ _ _ rising (by omega)) blankWf (h := r.rh - dy.natAbs) (by omega)
      (screen_rows (by omega)) inRow pixel
    refine moves.trans ?_
    by_cases lands : r.ox + (max dx 0).toNat ≤ px ∧ px < r.ox + (max dx 0).toNat + (r.rw - dx.natAbs) ∧
        r.oy + (max dy 0).toNat ≤ py ∧ py < r.oy + (max dy 0).toNat + (r.rh - dy.natAbs)
    · have line : r.oy + (max dy 0).toNat + (py - (r.oy + (max dy 0).toNat)) = py := by omega
      have source : r.oy + (max (-dy) 0).toNat + (py - (r.oy + (max dy 0).toNat)) = ((py : Int) - dy).toNat := by omega
      rw [if_pos lands, if_pos (by omega), if_pos (by omega), line, source,
        imageRead_slice rising (by omega) (by omega)]
      congr 1
      omega
    · rw [if_neg lands, blank]
      by_cases inside : r.ox ≤ px ∧ px < r.ox + r.rw ∧ r.oy ≤ py ∧ py < r.oy + r.rh
      · rw [if_pos inside, if_pos inside, if_neg (by omega)]
      · rw [if_neg inside, if_neg inside]

end

/-- Settles O27: the end of the execution leaves the picture and the marks of the write, which takes each row of the region from its
source row. -/
theorem aScrollMovesItsRegion : Obligations.AScrollMovesItsRegion := by
  intro side s r dx dy busy writing command fits canonical
  obtain ⟨t, next, after⟩ := executionEnd_draws busy writing
  refine ⟨t, next, (drawn_drawing r s).trans after.drawing,
    fun shape => executionEnd_marks shape after fun _ _ => scroll_commandBlocks command, fun px py inRow inColumn => ?_⟩
  rw [after.image, drawn_image]
  exact scroll_pixel command fits canonical inRow inColumn

end Sys2Proof.Machine
end

section
/-! PROOFS. The operations of the sequencer, the Tile Cache and the Tile Fault Unit as effects beside the bookkeeping: what each does
to a state that another ends as, and what it counts. -/

namespace Sys2Proof.Machine

section
variable {u v : State} {us : List SubEvent} (h : endsAs u us v)
include h

/-! ### Blocks and records -/

theorem endsAs.sq (f : Sequencer → Sequencer) : endsAs { u with sq := f u.sq } us { v with sq := f v.sq } :=
  h.map (fun s => { s with sq := f s.sq }) (fun _ _ _ _ => rfl) (fun _ => rfl) (fun _ => rfl) (fun _ => rfl) fun _ => rfl

theorem endsAs.fs (f : FrameStore → FrameStore) : endsAs { u with fs := f u.fs } us { v with fs := f v.fs } :=
  h.map (fun s => { s with fs := f s.fs }) (fun _ _ _ _ => rfl) (fun _ => rfl) (fun _ => rfl) (fun _ => rfl) fun _ => rfl

theorem endsAs.tracker (f : Tracker → Tracker) :
    endsAs { u with mn.tracker := f u.mn.tracker } us { v with mn.tracker := f v.mn.tracker } := by
  obtain ⟨rest, ⟨selections, tracker, events, lane⟩, counted⟩ := h
  obtain ⟨c, e, x, rfl⟩ : ∃ c e x, v = { u with mn.counters := c, me.events := e, lc.tx := x } := ⟨_, _, _, rest⟩
  exact ⟨rfl, ⟨selections, rfl, events, lane⟩, counted⟩

theorem endsAs.takeFree : endsAs (takeFree u) us (takeFree v) :=
  h.map Machine.takeFree (fun _ _ _ _ => rfl) (fun _ => rfl) (fun _ => rfl) (fun _ => rfl) fun _ => rfl

theorem endsAs.setQueue (side : Side) (q : List Entry) : endsAs (setQueue side q u) us (setQueue side q v) := by
  cases side with
  | a => exact h.sq fun sq => { sq with queueA := q }
  | b => exact h.sq fun sq => { sq with queueB := q }

theorem endsAs.setEngine (side : Side) (r : Option ExecRecord) : endsAs (setEngine side r u) us (setEngine side r v) := by
  refine h.map (Machine.setEngine side r) (fun _ _ _ _ => ?_) (fun _ => ?_) (fun _ => ?_) (fun _ => ?_) fun _ => ?_
  all_goals cases side <;> rfl

theorem endsAs.setRecord (side : Side) (r : FaultRecord) : endsAs (setRecord side r u) us (setRecord side r v) := by
  refine h.map (Machine.setRecord side r) (fun _ _ _ _ => ?_) (fun _ => ?_) (fun _ => ?_) (fun _ => ?_) fun _ => ?_
  all_goals cases side <;> rfl

theorem endsAs.mapStreams (f : Fin 8 → Stream → Stream) : endsAs (mapStreams f u) us (mapStreams f v) :=
  h.map (Machine.mapStreams f) (fun _ _ _ _ => rfl) (fun _ => rfl) (fun _ => rfl) (fun _ => rfl) fun _ => rfl

theorem endsAs.mapRegions (f : Fin 8 → Region → Region) : endsAs (mapRegions f u) us (mapRegions f v) :=
  h.map (Machine.mapRegions f) (fun _ _ _ _ => rfl) (fun _ => rfl) (fun _ => rfl) (fun _ => rfl) fun _ => rfl

theorem endsAs.setTileSet (key : Word) (ways : TileSet) : endsAs (setTileSet key ways u) us (setTileSet key ways v) :=
  h.tc fun tc => { tc with dir := tc.dir.set (setIndex key) ways }

/-! ### What is read of a state is read of the one it ends as -/

theorem endsAs.same_tc : v.tc = u.tc := by rw [h.1]
theorem endsAs.same_tf : v.tf = u.tf := by rw [h.1]
theorem endsAs.same_de : v.de = u.de := by rw [h.1]
theorem endsAs.same_settings : v.settings = u.settings := by rw [h.1]
theorem endsAs.same_inProgress : v.me.inProgress = u.me.inProgress := by rw [h.1]

theorem endsAs.same_tileSet (key : Word) : tileSet key v = tileSet key u := by rw [tileSet, h.same_tc]; rfl

theorem endsAs.same_streamOf (i : Fin 8) : streamOf i v = streamOf i u := by rw [streamOf, h.same_sq]; rfl

theorem endsAs.same_regionOf (i : Fin 8) : regionOf i v = regionOf i u := by rw [regionOf, h.same_lu]; rfl

theorem endsAs.same_queueOf (side : Side) : queueOf side v = queueOf side u := by
  cases side <;> simp only [queueOf, h.same_sq]

theorem endsAs.same_engineOf (side : Side) : engineOf side v = engineOf side u := by
  cases side <;> simp only [engineOf, h.same_de]

theorem endsAs.same_recordOf (side : Side) : recordOf side v = recordOf side u := by
  cases side <;> simp only [recordOf, h.same_tf]

theorem endsAs.same_faultOn (key : Word) : faultOn key v = faultOn key u := by simp only [faultOn, h.same_tf]

/-- R47, R62: whether the sequencer has a choice to make is read of the blocks that draw. -/
theorem endsAs.settled (still : Machine.settled u) : Machine.settled v :=
  settled_of_same still h.same_sq h.same_de h.same_tf

/-! ### The Tile Cache -/

theorem endsAs.mapEntry (key : Word) (f : DirEntry → DirEntry) : endsAs (mapEntry key f u) us (mapEntry key f v) := by
  simp only [Machine.mapEntry, h.same_tileSet]
  split
  · exact h.setTileSet _ _
  · exact h

theorem endsAs.writeSector (key : Word) (w : Fin 4) (sector : Nat) (data : List Byte) :
    endsAs (writeSector key w sector data u) us (writeSector key w sector data v) :=
  h.map (Machine.writeSector key w sector data) (fun _ _ _ _ => rfl) (fun _ => rfl) (fun _ => rfl) (fun _ => rfl) fun _ => rfl

/-- R75, R76: a way taken counts EVICT when it was valid. -/
theorem endsAs.allocateWay (key : Word) (w : Fin 4) :
    endsAs (Machine.setTileSet key (takeWay key w (tileSet key u)) u)
      (us ++ if (tileSet key u)[w].valid = true then [.evict] else []) (allocateWay key w v) := by
  have taken := h.setTileSet key (takeWay key w (tileSet key u))
  simp only [Machine.allocateWay, h.same_tileSet]
  split
  · exact taken.count .evict
  · rwa [List.append_nil]

/-! ### The Tile Fault Unit -/

/-- R97: a record that goes IDLE wakes the streams that wait for it or for a way. -/
theorem endsAs.goIdle (side : Side) : endsAs (goIdle side u) us (goIdle side v) :=
  ((h.setRecord side FaultRecord.idle).mapStreams _).wakeWay

theorem endsAs.trackComplete (side : Side) :
    endsAs { u with mn.tracker := afterCompletion side u.tick u.mn.tracker } us (trackComplete side v) := by
  rw [trackComplete_eq]
  obtain ⟨c, e, x, rfl⟩ : ∃ c e x, v = { u with mn.counters := c, me.events := e, lc.tx := x } := ⟨_, _, _, h.1⟩
  exact h.tracker (afterCompletion side u.tick)

theorem endsAs.trackLost (side : Side) : endsAs { u with mn.tracker := afterLoss side u.mn.tracker } us (trackLost side v) := by
  rw [trackLost_eq]
  exact h.tracker (afterLoss side)

/-- R172: the tracker arms on a fault that is raised, unless it follows one. -/
theorem endsAs.trackRaise (side : Side) (key : Word) :
    endsAs { u with mn.tracker.armed := u.mn.tracker.armed.or (some ⟨side, key, u.tick⟩) } us (trackRaise side key v) := by
  have arms : Machine.trackRaise side key v = { v with mn.tracker.armed := v.mn.tracker.armed.or (some ⟨side, key, v.tick⟩) } := by
    unfold Machine.trackRaise
    split
    · next armed =>
      obtain ⟨f, follows⟩ := Option.isSome_iff_exists.1 armed
      simp only [follows, Option.some_or]
      rw [← follows]
    · next free => simp only [Option.not_isSome_iff_eq_none.1 free, Option.none_or]
  rw [arms]
  obtain ⟨c, e, x, rfl⟩ : ∃ c e x, v = { u with mn.counters := c, me.events := e, lc.tx := x } := ⟨_, _, _, h.1⟩
  exact h.tracker fun k => { k with armed := k.armed.or (some ⟨side, key, u.tick⟩) }

end

/-- R78: the entry that a lookup finds is changed in its set. -/
theorem mapEntry_found {key : Word} {n : Fin 64} {w : Fin 4} {s : State} (found : foundAt key n w s) (f : DirEntry → DirEntry) :
    mapEntry key f s = setEntry n w (f s.tc.dir[n][w]) s := by
  obtain ⟨number, valid, holds, lowest⟩ := found
  have set := tileSet_eq number s
  simp only [mapEntry, set, findWay_lowest valid holds lowest]
  rw [setTileSet_eq number]
  rfl

end Sys2Proof.Machine
end

section
/-! PROOFS. TILE frames (R77 to R79, R88, R99): the victim of an allocation, a fill of an absent and of a present key, the completion
of a fault; the settlements of O28 and O29. -/

namespace Sys2Proof.Machine

/-! ### The victim of an allocation (R75) -/

theorem candidate_iff (e : DirEntry) : e.candidate = true ↔
    e.valid = false ∨ (e.pending = false ∧ e.pinned = false ∧ e.reserve = 0) := by
  simp [DirEntry.candidate, and_assoc]

/-- R75: way w is the victim of a set: the lowest invalid one, or with every way valid the candidate of the highest age. -/
abbrev isVictim (ways : TileSet) (w : Fin 4) : Prop :=
  (ways[w].valid = false ∧ ∀ v : Fin 4, v < w → ways[v].valid = true) ∨
    ((∀ v : Fin 4, ways[v].valid = true) ∧ ways[w].candidate = true ∧
      ∀ v : Fin 4, v ≠ w → ways[v].candidate = true → ways[v].age < ways[w].age)

/-- R75: no way can be taken: each is valid and pending, pinned or reserved. -/
abbrev noVictim (ways : TileSet) : Prop :=
  ∀ w : Fin 4, ways[w].valid = true ∧ (ways[w].pending = true ∨ ways[w].pinned = true ∨ ways[w].reserve ≠ 0)

theorem find_lowest {p : Fin 4 → Bool} {w : Fin 4} (here : p w = true) (lowest : ∀ v : Fin 4, v < w → p v = false) :
    (List.finRange 4).find? p = some w := by
  obtain ⟨k, found⟩ := Option.isSome_iff_exists.1 (List.find?_isSome.2 ⟨w, List.mem_finRange w, here⟩)
  obtain ⟨on, before, after, split, off⟩ := List.find?_eq_some_iff_append.1 found
  rw [found]
  refine congrArg some ?_
  have sorted := List.pairwise_append.1 (split ▸ (List.pairwise_lt_finRange 4))
  by_contra other
  rcases lt_or_gt_of_ne other with low | high
  · exact Bool.false_ne_true ((lowest k low).symm.trans on)
  · have mem : w ∈ before := by
      have mem := List.mem_finRange w
      rw [split, List.mem_append, List.mem_cons] at mem
      rcases mem with front | same | back
      · exact front
      · exact absurd same.symm other
      · exact absurd (List.rel_of_pairwise_cons sorted.2.1 back) (not_lt_of_gt high)
    simpa [here] using off w mem

/-- One step of the search for the oldest candidate. -/
def olderOf (ways : TileSet) (best : Option (Fin 4)) (w : Fin 4) : Option (Fin 4) :=
  if ways[w].candidate then
    match best with
    | some b => if ways[b].age < ways[w].age then some w else some b
    | none => some w
  else best

theorem oldestCandidate_eq (ways : TileSet) : oldestCandidate ways = (List.finRange 4).foldl (olderOf ways) none := rfl

section
variable {ways : TileSet} {w : Fin 4} (candidate : ways[w].candidate = true)
  (oldest : ∀ v : Fin 4, v ≠ w → ways[v].candidate = true → ways[v].age < ways[w].age)
include candidate oldest

/-- The candidate of the highest age, once met, stays the best of the search. -/
theorem olderOf_stays (l : List (Fin 4)) : l.foldl (olderOf ways) (some w) = some w := by
  induction l with
  | nil => rfl
  | cons v l ih =>
    have stays : olderOf ways (some w) v = some w := by
      unfold olderOf
      split
      · next can =>
        refine if_neg fun older => ?_
        by_cases same : v = w
        · subst same; exact lt_irrefl _ older
        · exact lt_asymm older (oldest v same can)
      · rfl
    rw [List.foldl_cons, stays, ih]

theorem olderOf_meets (l : List (Fin 4)) (mem : w ∈ l) (best : Option (Fin 4)) (known : ∀ b ∈ best, ways[b].candidate = true) :
    l.foldl (olderOf ways) best = some w := by
  induction l generalizing best with
  | nil => exact absurd mem List.not_mem_nil
  | cons v l ih =>
    rw [List.foldl_cons]
    by_cases same : v = w
    · subst same
      have met : olderOf ways best v = some v := by
        unfold olderOf
        rw [if_pos candidate]
        cases best with
        | none => rfl
        | some b =>
          by_cases self : b = v
          · subst self; simp
          · exact if_pos (oldest b self (known b rfl))
      rw [met]
      exact olderOf_stays candidate oldest l
    · refine ih ((List.mem_cons.1 mem).resolve_left fun e => same e.symm) _ fun b best' => ?_
      unfold olderOf at best'
      split at best'
      · next can =>
        cases best with
        | none => obtain rfl := Option.some_inj.1 best'; exact can
        | some a =>
          dsimp only at best'
          split at best'
          · obtain rfl := Option.some_inj.1 best'; exact can
          · obtain rfl := Option.some_inj.1 best'; exact known _ rfl
      · exact known b best'

end

theorem victim_of {ways : TileSet} {w : Fin 4} (h : isVictim ways w) : victim ways = some w := by
  unfold victim
  rcases h with ⟨invalid, lowest⟩ | ⟨valid, candidate, oldest⟩
  · rw [find_lowest (p := fun v : Fin 4 => !ways[v].valid) (w := w) (by rw [invalid]; rfl) fun v low => by rw [lowest v low]; rfl]
  · have full : (List.finRange 4).find? (fun v : Fin 4 => !ways[v].valid) = none :=
      List.find?_eq_none.2 fun v _ => by rw [valid v]; decide
    rw [full]
    exact olderOf_meets candidate oldest _ (List.mem_finRange w) none nofun

theorem victim_none {ways : TileSet} (h : noVictim ways) : victim ways = none := by
  have full : (List.finRange 4).find? (fun v : Fin 4 => !ways[v].valid) = none :=
    List.find?_eq_none.2 fun v _ => by rw [(h v).1]; decide
  have skips (l : List (Fin 4)) : l.foldl (olderOf ways) none = none := by
    induction l with
    | nil => rfl
    | cons v l ih =>
      have skip : olderOf ways none v = none := by
        refine if_neg fun can => ?_
        obtain ⟨valid, holds⟩ := h v
        rcases (candidate_iff _).1 can with invalid | ⟨pending, pinned, reserve⟩
        · exact Bool.false_ne_true (invalid.symm.trans valid)
        · rcases holds with waits | held | reserved
          · exact Bool.false_ne_true (pending.symm.trans waits)
          · exact Bool.false_ne_true (pinned.symm.trans held)
          · exact reserved reserve
      rw [List.foldl_cons, skip, ih]
  unfold victim
  rw [full]
  exact skips _

/-! ### A fill of an absent key (R79) -/

theorem doTile_bad {key : Word} {sector : Byte} (bad : key = 0 ∨ 3 < sector.toNat) (data : List Byte) (s : State) :
    doTile key sector data s = count .fillBad s := if_pos bad

section
variable {key : Word} {sector : Byte} {n : Fin 64} {s : State} (nonzero : key ≠ 0) (within : sector.toNat ≤ 3)
  (number : n.val = key.toNat % 64)
include nonzero within number

theorem doTile_flushed (swept : s.tc.sweep ≤ n.val) (data : List Byte) : doTile key sector data s = count .fillFlushed s := by
  have discards : sweepDiscards key s = true := by
    simpa [sweepDiscards, setIndex, ← number] using swept
  rw [doTile, if_neg (not_or.2 ⟨nonzero, Nat.not_lt.2 within⟩), if_pos discards]

variable (reached : n.val < s.tc.sweep)
include reached

omit nonzero within in
theorem sweep_keeps : ¬ sweepDiscards key s = true := by
  simpa [sweepDiscards, setIndex, ← number] using reached

theorem doTile_absent (absent : ∀ w : Fin 4, s.tc.dir[n][w].valid = true → s.tc.dir[n][w].key ≠ key) (data : List Byte) :
    doTile key sector data s = fillAbsent key sector.toNat data s := by
  rw [doTile, if_neg (not_or.2 ⟨nonzero, Nat.not_lt.2 within⟩), if_neg (sweep_keeps number reached),
    tileSet_eq number, findWay_none absent]

theorem doTile_present {w : Fin 4} (found : foundAt key n w s) (data : List Byte) :
    doTile key sector data s = settle (fillPresent key w sector.toNat data s) := by
  obtain ⟨_, valid, holds, lowest⟩ := found
  rw [doTile, if_neg (not_or.2 ⟨nonzero, Nat.not_lt.2 within⟩), if_neg (sweep_keeps number reached),
    tileSet_eq number, findWay_lowest valid holds lowest]

end

/-- A TILE frame taken ends as what the Tile Cache does with it. -/
theorem tile_ends {key : Word} {sector : Byte} {data : List Byte} {s u : State} {us : List SubEvent} (up : s.lc.link = .up)
    (attached : s.lc.attachment = .attached) (length : data.length = 128)
    (h : endsAs u us (doTile key sector data (passed s))) :
    ∃ t, exec (.tile key sector data) s = .next t ∧ endsAs u us t := by
  rw [exec_tile length]
  refine frame_up_ends up ?_
  rwa [ifAttached_yes _ (by exact attached)]

/-- R76, R78: the way taken holds the key, its first sector and the youngest age. -/
theorem takeWay_filled (key : Word) (w : Fin 4) (sectors : BitVec 4) (ways : TileSet) :
    (takeWay key w ways).set w ⟨true, key, sectors, 0, false, false, 0⟩ = Vector.ofFn fun v : Fin 4 =>
      if v = w then ⟨true, key, sectors, 0, false, false, 0⟩
      else if ways[v].age < ways[w].age then { ways[v] with age := ways[v].age + 1 } else ways[v] := by
  refine Vector.ext fun k bound => ?_
  have other := makeRecent_way w ⟨k, bound⟩ ways
  rw [Vector.getElem_ofFn]
  have same : (takeWay key w ways).set w ⟨true, key, sectors, 0, false, false, 0⟩ =
      (makeRecent w ways).set w ⟨true, key, sectors, 0, false, false, 0⟩ := by simp [takeWay]
  rw [same, ← Fin.getElem_fin (i := (⟨k, bound⟩ : Fin 4)), set_way, other]
  split
  · rfl
  · split <;> rfl

theorem writeSector_taken {key : Word} {n : Fin 64} (number : n.val = key.toNat % 64) (w : Fin 4) (sector : Nat)
    (data : List Byte) (s : State) :
    writeSector key w sector data (setTileSet key (takeWay key w s.tc.dir[n]) s) = { s with
      tc.store := cellWrite 0 s.tc.store ((n.val * 4 + w.val) * 512 + sector * 128) data
      tc.dir := s.tc.dir.set n ((takeWay key w s.tc.dir[n]).set w ⟨true, key, BitVec.ofNat 4 (2 ^ sector), 0, false, false, 0⟩) } := by
  have read : tileSet key (setTileSet key (takeWay key w s.tc.dir[n]) s) = takeWay key w s.tc.dir[n] :=
    tileSet_setTileSet_self _ _ _
  have address : sectorAddress key w sector = (n.val * 4 + w.val) * 512 + sector * 128 := by
    obtain rfl : setIndex key = n := Fin.ext number.symm
    rfl
  unfold writeSector
  rw [read, takeWay_taken, setTileSet_eq number, setTileSet_eq number, address]
  dsimp only
  rw [show (0 : BitVec 4) ||| BitVec.ofNat 4 (2 ^ sector) = BitVec.ofNat 4 (2 ^ sector) from BitVec.zero_or, Vector.set_set]

/-- Settles O28. -/
theorem tileFramesOfAnAbsentKey : Obligations.TileFramesOfAnAbsentKey := by
  refine ⟨candidate_iff, fun key sector data s n up attached length number => ⟨fun bad => ?_, fun nonzero within swept => ?_,
    fun nonzero within reached absent => ⟨fun full => ?_, fun w victim => ?_⟩⟩⟩
  · refine tile_ends up attached length ?_
    rw [doTile_bad bad]
    exact (endsAs_refl _).count .fillBad
  · refine tile_ends up attached length ?_
    rw [doTile_flushed nonzero within number (s := passed s) swept]
    exact (endsAs_refl _).count .fillFlushed
  · refine tile_ends up attached length ?_
    have none' : victim (tileSet key (passed s)) = none := by
      rw [tileSet_eq number]
      exact victim_none full
    rw [doTile_absent nonzero within number (s := passed s) reached absent, fillAbsent, none']
    exact (endsAs_refl _).count .fillNoWay
  · refine tile_ends up attached length ?_
    have taken : Machine.victim (tileSet key (passed s)) = some w := by
      rw [tileSet_eq number]
      exact victim_of victim
    have ends := ((((endsAs_refl (passed s)).allocateWay key w).writeSector key w sector.toNat data).count .fillAllocated).perm
      (us' := [.fillAllocated] ++ if s.tc.dir[n][w].valid then [.evict] else []) (by
        rw [tileSet_eq number, List.nil_append]
        exact List.perm_append_comm)
    rw [doTile_absent nonzero within number (s := passed s) reached absent, fillAbsent, taken]
    have effect : writeSector key w sector.toNat data (setTileSet key (takeWay key w (tileSet key (passed s))) (passed s)) =
        { passed s with
          tc.store := cellWrite 0 s.tc.store ((n.val * 4 + w.val) * 512 + sector.toNat * 128) data
          tc.dir := s.tc.dir.set n (Vector.ofFn fun v : Fin 4 =>
            if v = w then ⟨true, key, BitVec.ofNat 4 (2 ^ sector.toNat), 0, false, false, 0⟩
            else if s.tc.dir[n][v].age < s.tc.dir[n][w].age then { s.tc.dir[n][v] with age := s.tc.dir[n][v].age + 1 }
            else s.tc.dir[n][v]) } := by
      rw [← takeWay_filled, tileSet_eq number, writeSector_taken number]
      rfl
    rw [effect] at ends
    exact ends

end Sys2Proof.Machine
end

section
/-! PROOFS. TILE frames of a present key (R78, R99): the fill of a way that holds it, and the completion of a fault; the settlement of
O29. -/

namespace Sys2Proof.Machine

/-! ### The fill of a way (R78) -/

/-- R78: the state after a sector of way w of set n has been filled. -/
def sectorFilled (n : Fin 64) (w : Fin 4) (sector : Nat) (data : List Byte) (s : State) : State := { s with
  tc.store := cellWrite 0 s.tc.store ((n.val * 4 + w.val) * 512 + sector * 128) data
  tc.dir := s.tc.dir.set n (s.tc.dir[n].set w
    { s.tc.dir[n][w] with sectors := s.tc.dir[n][w].sectors ||| BitVec.ofNat 4 (2 ^ sector) }) }

section
variable {key : Word} {n : Fin 64} (number : n.val = key.toNat % 64)
include number

theorem writeSector_eq (w : Fin 4) (sector : Nat) (data : List Byte) (s : State) :
    writeSector key w sector data s = sectorFilled n w sector data s := by
  obtain rfl : setIndex key = n := Fin.ext number.symm
  rfl

theorem sectorFilled_way (w : Fin 4) (sector : Nat) (data : List Byte) (s : State) : (tileSet key (sectorFilled n w sector data s))[w] =
    { s.tc.dir[n][w] with sectors := s.tc.dir[n][w].sectors ||| BitVec.ofNat 4 (2 ^ sector) } := by
  have read : tileSet key (sectorFilled n w sector data s) = s.tc.dir[n].set w
      { s.tc.dir[n][w] with sectors := s.tc.dir[n][w].sectors ||| BitVec.ofNat 4 (2 ^ sector) } := by
    rw [tileSet_eq number]
    exact Vector.getElem_set_self _
  rw [read, set_way, if_pos rfl]

end

/-- The directory entry of a state once written. -/
theorem dir_set_way {dir : Vector TileSet 64} (n : Fin 64) (w : Fin 4) (e : DirEntry) (v : Fin 4) :
    (dir.set n (dir[n].set w e))[n][v] = if v = w then e else dir[n][v] := by
  have read : (dir.set n (dir[n].set w e))[n] = dir[n].set w e := Vector.getElem_set_self _
  rw [read, set_way]

theorem dir_set_set {dir : Vector TileSet 64} (n : Fin 64) (w : Fin 4) (e f : DirEntry) :
    (dir.set n (dir[n].set w e)).set n ((dir.set n (dir[n].set w e))[n].set w f) = dir.set n (dir[n].set w f) := by
  have read : (dir.set n (dir[n].set w e))[n] = dir[n].set w e := Vector.getElem_set_self _
  rw [read, Vector.set_set, Vector.set_set]

/-- A way that is written keeps being the one its key finds, as long as it stays valid and keeps its key. -/
theorem foundAt_set {key : Word} {n : Fin 64} {w : Fin 4} {s t : State} {e : DirEntry} (found : foundAt key n w s)
    (dir : t.tc.dir = s.tc.dir.set n (s.tc.dir[n].set w e)) (valid : e.valid = true) (holds : e.key = key) :
    foundAt key n w t := by
  obtain ⟨number, _, _, lowest⟩ := found
  refine ⟨number, ?_, ?_, fun v low => ?_⟩
  · rw [dir, dir_set_way, if_pos rfl, valid]
  · rw [dir, dir_set_way, if_pos rfl, holds]
  · rw [dir, dir_set_way, if_neg (ne_of_lt low)]
    exact lowest v low

theorem foundAt_sectorFilled {key : Word} {n : Fin 64} {w : Fin 4} {s : State} (found : foundAt key n w s) (sector : Nat)
    (data : List Byte) : foundAt key n w (sectorFilled n w sector data s) :=
  foundAt_set found rfl found.2.1 found.2.2.1

theorem foundAt_of_dir {key : Word} {n : Fin 64} {w : Fin 4} {s t : State} (found : foundAt key n w s)
    (dir : t.tc.dir = s.tc.dir) : foundAt key n w t := by
  unfold foundAt
  rwa [dir]

/-! ### Faults that end (R92, R97, R99) -/

theorem faultOn_some {key : Word} {side : Side} {s : State} (h : faultOn key s = some side) :
    (recordOf side s).active = true ∧ (recordOf side s).key = key := by
  unfold faultOn at h
  split at h
  · next on =>
    obtain rfl := Option.some_inj.1 h
    simpa [recordOf] using on
  · split at h
    · next on =>
      obtain rfl := Option.some_inj.1 h
      simpa [recordOf] using on
    · exact absurd h (Option.some_ne_none _).symm

theorem faultOn_of_same {key : Word} {s t : State} (tf : t.tf = s.tf) : faultOn key t = faultOn key s := by
  unfold faultOn
  rw [tf]

theorem recordOf_of_same {side : Side} {s t : State} (tf : t.tf = s.tf) : recordOf side t = recordOf side s := by
  unfold recordOf
  rw [tf]

theorem goIdle_eq (side : Side) (s : State) : goIdle side s = { setRecord side ⟨false, 0, 0, 0, 0, none, false, false⟩ s with
    sq.streams := Vector.ofFn fun i : Fin 8 => wokenByIdle side (streamOf i s) } := by
  rw [← goIdle_streams side s]
  cases side <;> rfl

/-- A stream that is READY is as the wake-ups leave it. -/
theorem wokenByIdle_ready {side : Side} {r : Stream} (ready : r.state = .ready) : wokenByIdle side r = r := by
  unfold wokenByIdle
  rw [ready]
  exact if_neg (by rintro (a | ⟨a, _⟩) <;> exact absurd a (by decide))

theorem goIdle_handed (side : Side) (s : State) : Handed s (goIdle side s) :=
  (setRecord_handed side _ s).trans ((mapStreams_handed (fun _ r => by split <;> rfl) _).trans (wakeWay_handed _))

theorem trackComplete_handed (side : Side) (s : State) : Handed s (trackComplete side s) := by
  rw [trackComplete_eq]
  exact .of_rest rfl rfl (fun _ => rfl) fun _ _ => id

theorem completeFault_handed (side : Side) (s : State) : Handed s (completeFault side s) :=
  (mapEntry_handed (f := fun e => { e with
    pending := false, reserve := e.reserve + (membersOf (recordOf side s).waiting).length }) (fun _ free => free) s).trans
  ((mapStreams_handed (fun _ r => by split <;> rfl) _).trans
    ((goIdle_handed side _).trans ((count_handed _ _).trans (trackComplete_handed side _))))

theorem fillPassed_handed (key : Word) (w : Fin 4) (s : State) : Handed s (fillPassed key w s) := by
  unfold fillPassed
  split
  · split
    · exact completeFault_handed _ s
    · exact .refl s
  · exact .refl s

theorem fillPresent_handed {key : Word} {n : Fin 64} (number : n.val = key.toNat % 64) (w : Fin 4) (sector : Nat)
    (data : List Byte) (s : State) : Handed (sectorFilled n w sector data s) (fillPresent key w sector data s) := by
  have counted := count_handed .fillPresent (sectorFilled n w sector data s)
  unfold fillPresent
  rw [writeSector_eq number]
  dsimp only
  split
  · exact counted.trans (fillPassed_handed _ _ _)
  · exact counted

theorem membersOf_length (m : BitVec 8) : (membersOf m).length = (List.finRange 8).countP fun i => m.getLsbD i.val :=
  (List.countP_eq_length_filter).symm

/-- R99: the state after the completion of the fault of a side, its count aside. -/
def completed (side : Side) (n : Fin 64) (w : Fin 4) (s : State) : State :=
  { setRecord side ⟨false, 0, 0, 0, 0, none, false, false⟩ s with
    tc.dir := s.tc.dir.set n (s.tc.dir[n].set w { s.tc.dir[n][w] with
      pending := false
      reserve := s.tc.dir[n][w].reserve + (List.finRange 8).countP fun i => (recordOf side s).waiting.getLsbD i.val })
    sq.streams := Vector.ofFn fun i : Fin 8 =>
      if (recordOf side s).waiting.getLsbD i.val = true then
        { streamOf i s with state := .ready, reservation := some (recordOf side s).key }
      else wokenByIdle side (streamOf i s)
    mn.tracker := afterCompletion side s.tick s.mn.tracker }

theorem completeFault_ends {side : Side} {n : Fin 64} {w : Fin 4} {u v : State} {us : List SubEvent} (h : endsAs u us v)
    (found : foundAt (recordOf side u).key n w u) :
    endsAs (completed side n w u) (us ++ [.completed]) (completeFault side v) := by
  have ends := ((((h.mapEntry (recordOf side u).key (fun e => { e with
    pending := false, reserve := e.reserve + (membersOf (recordOf side u).waiting).length })).mapStreams (fun i x =>
      if (recordOf side u).waiting.getLsbD i.val then { x with state := .ready, reservation := some (recordOf side u).key }
      else x)).goIdle side).count .completed).trackComplete side
  unfold completeFault
  dsimp only
  rw [h.same_recordOf side]
  refine Eq.mp (congrArg (endsAs · _ _) ?_) ends
  have streams : (fun i : Fin 8 => wokenByIdle side
        (if (recordOf side u).waiting.getLsbD i.val = true then
          { streamOf i u with state := .ready, reservation := some (recordOf side u).key } else streamOf i u)) =
      fun i => if (recordOf side u).waiting.getLsbD i.val = true then
          { streamOf i u with state := .ready, reservation := some (recordOf side u).key }
        else wokenByIdle side (streamOf i u) := by
    funext i
    split
    · exact wokenByIdle_ready rfl
    · rfl
  rw [mapEntry_found found, goIdle_eq, membersOf_length]
  simp only [streamOf_mapStreams]
  unfold completed
  rw [← streams]
  cases side <;> rfl

/-- Settles O29. -/
theorem tileFramesOfAPresentKey : Obligations.TileFramesOfAPresentKey := by
  intro key sector data s n w up attached length number nonzero within reached valid holds lowest
  have found : foundAt key n w (passed s) := ⟨number, valid, holds, lowest⟩
  have taken : doTile key sector data (passed s) = settle (fillPresent key w sector.toNat data (passed s)) :=
    doTile_present nonzero within number (s := passed s) reached found data
  have counted : endsAs (sectorFilled n w sector.toNat data (passed s)) [.fillPresent]
      (count .fillPresent (sectorFilled n w sector.toNat data (passed s))) := (endsAs_refl _).count .fillPresent
  have way : (tileSet key (count .fillPresent (sectorFilled n w sector.toNat data (passed s))))[w] = { s.tc.dir[n][w] with
      sectors := s.tc.dir[n][w].sectors ||| BitVec.ofNat 4 (2 ^ sector.toNat) } := by
    rw [counted.same_tileSet key, sectorFilled_way number]
    rfl
  have on : faultOn key (count .fillPresent (sectorFilled n w sector.toNat data (passed s))) = faultOn key s := by
    rw [counted.same_faultOn key]
    exact faultOn_of_same rfl
  have record (side : Side) : recordOf side (count .fillPresent (sectorFilled n w sector.toNat data (passed s))) = recordOf side s := by
    rw [counted.same_recordOf side]
    exact recordOf_of_same rfl
  refine ⟨?_, fun u hu still waits => ?_, fun side u pending fault needsNone hu still => ?_⟩
  · have kept : drawingOnly { passed s with
        tc.store := cellWrite 0 s.tc.store ((n.val * 4 + w.val) * 512 + sector.toNat * 128) data }
        (conclude s (settle (fillPresent key w sector.toNat data (passed s)))) :=
      ((((fillPresent_handed number w sector.toNat data (passed s)).pictureKept.trans
        (settle_pictureKept _)).trans (conclude_handed s _).pictureKept)).drawing
    refine ⟨_, ?_, kept, fun b inside => ?_⟩
    · rw [exec_tile length, frameArrival_eq _ (assembles_up up), passFrame_up _ up, ifAttached_yes _ (by exact attached), taken]
    · rw [kept.1]
      exact (cellRead_cellWrite_inside _ _ _ _ _ (length ▸ inside)).trans (by simp [byteAt, length, inside])
  · refine tile_ends up attached length ?_
    rw [taken]
    have stays : fillPresent key w sector.toNat data (passed s) =
        count .fillPresent (sectorFilled n w sector.toNat data (passed s)) := by
      unfold fillPresent
      rw [writeSector_eq number]
      dsimp only
      rw [way]
      split
      · next pending =>
        unfold fillPassed
        rw [on]
        rcases waits with free | unfollowed | ⟨side, fault, needs⟩
        · exact absurd (free.symm.trans pending) Bool.false_ne_true
        · rw [unfollowed]
        · rw [fault]
          dsimp only
          rw [record, way]
          exact if_neg needs
      · rfl
    have ends : endsAs u [.fillPresent] (count .fillPresent (sectorFilled n w sector.toNat data (passed s))) := by
      rw [hu]
      exact counted
    rw [stays, settle_settled (ends.settled still)]
    exact ends
  · refine tile_ends up attached length ?_
    rw [taken]
    have completes : fillPresent key w sector.toNat data (passed s) =
        completeFault side (count .fillPresent (sectorFilled n w sector.toNat data (passed s))) := by
      unfold fillPresent
      rw [writeSector_eq number]
      dsimp only
      rw [way, if_pos (by exact pending)]
      unfold fillPassed
      rw [on, fault]
      dsimp only
      rw [record, way]
      exact if_pos needsNone
    have named : (recordOf side (sectorFilled n w sector.toNat data (passed s))).key = key :=
      (congrArg FaultRecord.key (recordOf_of_same rfl)).trans (faultOn_some fault).2
    have ends := completeFault_ends (side := side) (n := n) (w := w) counted (by
      rw [named]
      exact foundAt_sectorFilled found sector.toNat data)
    have effect : completed side n w (sectorFilled n w sector.toNat data (passed s)) = u := by
      have record' : recordOf side (sectorFilled n w sector.toNat data (passed s)) = recordOf side s := recordOf_of_same rfl
      have way' : (sectorFilled n w sector.toNat data (passed s)).tc.dir[n][w] = { s.tc.dir[n][w] with
          sectors := s.tc.dir[n][w].sectors ||| BitVec.ofNat 4 (2 ^ sector.toNat) } :=
        (dir_set_way n w _ w).trans (if_pos rfl)
      have dir' (f : DirEntry) : (sectorFilled n w sector.toNat data (passed s)).tc.dir.set n
          ((sectorFilled n w sector.toNat data (passed s)).tc.dir[n].set w f) = s.tc.dir.set n (s.tc.dir[n].set w f) :=
        dir_set_set n w _ f
      rw [hu]
      unfold completed
      rw [named, record', way', dir']
      cases side <;> rfl
    rw [effect] at ends
    rw [completes, settle_settled (ends.settled still)]
    exact ends

end Sys2Proof.Machine
end

section
/-! PROOFS. The expiry of a fault timer (R100 to R102): the retry, and the abandonment with its skipped commands and stale regions;
the settlement of O30. -/

namespace Sys2Proof.Machine

/-! ### Changes made after an event is raised -/

/-- A change that neither looks at the pending events nor touches what a raise depends on comes before or after it alike. -/
theorem raised_comm {f : State → State} {s : State} (outside : ∀ e, f { s with me.events := e } = { f s with me.events := e })
    (events : (f s).me.events = s.me.events) (lane : (f s).lc.tx = s.lc.tx) (settings : (f s).settings = s.settings)
    (k : EventKind) (d : BitVec 24) : f (raised k d s) = raised k d (f s) := by
  unfold raised
  by_cases enabled : s.settings.enables.getLsbD k.number.val = true
  · have slot : slotRaised k d ((f s).lc.tx.any fun x => x.item == .event k) (eventSlot k (f s)) =
        slotRaised k d (s.lc.tx.any fun x => x.item == .event k) (eventSlot k s) := by
      unfold eventSlot
      rw [lane, events]
    rw [if_pos enabled, if_pos (by rw [settings]; exact enabled), slot]
    unfold setEventSlot
    rw [events]
    exact outside _
  · rw [if_neg enabled, if_neg (by rw [settings]; exact enabled)]

theorem raised_sq (k : EventKind) (d : BitVec 24) (s : State) : (raised k d s).sq = s.sq := by unfold raised; split <;> rfl

theorem raised_de (k : EventKind) (d : BitVec 24) (s : State) : (raised k d s).de = s.de := by unfold raised; split <;> rfl

theorem raised_tf (k : EventKind) (d : BitVec 24) (s : State) : (raised k d s).tf = s.tf := by unfold raised; split <;> rfl

/-! ### The oldest entries of some streams (R49, R102) -/

theorem withoutHeads_of_never (q : List Entry) : withoutHeads (fun _ => false) q = q := by
  induction q with
  | nil => rfl
  | cons e rest ih => exact (if_neg Bool.false_ne_true).trans (congrArg (e :: ·) ih)

theorem withoutHeads_eraseP {p : Fin 8 → Bool} {i : Fin 8} (fresh : p i = false) (q : List Entry) :
    withoutHeads p (q.eraseP fun e => e.stream == i) = withoutHeads (fun j => j == i || p j) q := by
  induction q generalizing p with
  | nil => rfl
  | cons e rest ih =>
    by_cases own : e.stream = i
    · have narrowed : (fun j => (j == i || p j) && j != e.stream) = p := by
        funext j
        by_cases same : j = i
        · subst same; simp [fresh, own]
        · rw [own, (beq_eq_false_iff_ne.2 same : (j == i) = false), bne, (beq_eq_false_iff_ne.2 same : (j == i) = false),
            Bool.false_or, Bool.not_false, Bool.and_true]
      rw [List.eraseP_cons_of_pos (by simpa using own), withoutHeads, if_pos (by simp [own]), narrowed]
    · have narrowed : (fun j => (j == i || p j) && j != e.stream) = fun j => j == i || (p j && j != e.stream) := by
        funext j
        by_cases same : j = i
        · subst same; simp [Ne.symm own]
        · rw [(beq_eq_false_iff_ne.2 same : (j == i) = false), Bool.false_or, Bool.false_or]
      have other : (e.stream == i) = false := by simpa using own
      rw [List.eraseP_cons_of_neg (by simpa using own), withoutHeads, withoutHeads, narrowed, ih (by simp [fresh]), ih fresh,
        other, Bool.false_or]

/-- The queue of a side without the oldest entry of each stream of l that keeps to that side. -/
def headsSkipped (l : List (Fin 8)) (x : Side) (s : State) : List Entry :=
  withoutHeads (fun i => decide (i ∈ l) && (streamOf i s).side == some x) (queueOf x s)

/-- R49, R102: the state once the oldest entry of each stream of l has been skipped, the counts aside. -/
def skipped (l : List (Fin 8)) (s : State) : State := { s with
  sq.queueA := headsSkipped l .a s
  sq.queueB := headsSkipped l .b s
  sq.streams := Vector.ofFn fun i : Fin 8 => if i ∈ l then { streamOf i s with state := .ready } else streamOf i s }

theorem skipped_nil (s : State) : skipped [] s = s := by
  have streams : (Vector.ofFn fun i : Fin 8 => streamOf i s) = s.sq.streams :=
    Vector.ext fun k bound => Vector.getElem_ofFn _
  have heads (x : Side) : headsSkipped [] x s = queueOf x s := withoutHeads_of_never _
  unfold skipped
  simp only [heads, List.not_mem_nil, if_false, streams]
  rfl

/-- The state once the oldest entry of one stream has been skipped. -/
def headSkipped (i : Fin 8) (x : Side) (s : State) : State :=
  setStream i { streamOf i s with state := .ready } (setQueue x ((queueOf x s).eraseP fun e => e.stream == i) s)

theorem streamOf_headSkipped (i : Fin 8) (x : Side) (s : State) (j : Fin 8) :
    streamOf j (headSkipped i x s) = if j = i then { streamOf i s with state := .ready } else streamOf j s := by
  unfold headSkipped
  rw [streamOf_setStream]
  cases x <;> rfl

theorem queueOf_headSkipped (i : Fin 8) (x : Side) (s : State) (y : Side) : queueOf y (headSkipped i x s) =
    if y = x then (queueOf x s).eraseP fun e => e.stream == i else queueOf y s := by
  cases x <;> cases y <;> rfl

theorem headsSkipped_headSkipped {i : Fin 8} {x : Side} {l : List (Fin 8)} {s : State} (own : (streamOf i s).side = some x)
    (fresh : i ∉ l) (y : Side) : headsSkipped l y (headSkipped i x s) = headsSkipped (i :: l) y s := by
  have sides (j : Fin 8) : (streamOf j (headSkipped i x s)).side = (streamOf j s).side := by
    rw [streamOf_headSkipped]
    split
    · next same => subst same; rfl
    · rfl
  unfold headsSkipped
  rw [queueOf_headSkipped]
  simp only [sides]
  split
  · next same =>
    subst same
    rw [withoutHeads_eraseP (by simp [fresh])]
    congr 1
    funext j
    by_cases here : j = i
    · subst here; simp [own]
    · simp [here]
  · next other =>
    congr 1
    funext j
    by_cases here : j = i
    · subst here; simp [own, Ne.symm other]
    · simp [here]

theorem skipped_headSkipped {i : Fin 8} {x : Side} {l : List (Fin 8)} {s : State} (own : (streamOf i s).side = some x)
    (fresh : i ∉ l) : skipped l (headSkipped i x s) = skipped (i :: l) s := by
  have streams : (fun j : Fin 8 => if j ∈ l then ({ streamOf j (headSkipped i x s) with state := .ready } : Stream)
        else streamOf j (headSkipped i x s)) =
      fun j => if j ∈ i :: l then { streamOf j s with state := .ready } else streamOf j s := by
    funext j
    rw [streamOf_headSkipped]
    by_cases here : j = i
    · subst here; simp [fresh]
    · simp [here]
  unfold skipped
  rw [headsSkipped_headSkipped own fresh, headsSkipped_headSkipped own fresh, streams]
  cases x <;> rfl

theorem endsAs.skipHead {u v : State} {us : List SubEvent} (h : endsAs u us v) {i : Fin 8} {x : Side}
    (own : (streamOf i u).side = some x) : endsAs (headSkipped i x u) (us ++ [.commandSkipped]) (skipHead v i) := by
  unfold Machine.skipHead
  rw [h.same_streamOf i, own]
  dsimp only
  rw [h.same_queueOf x]
  exact ((h.setQueue x _).setStream i _).count .commandSkipped

theorem endsAs.skipHeads {u v : State} {us : List SubEvent} (h : endsAs u us v) {l : List (Fin 8)} (distinct : l.Nodup)
    (sides : ∀ i ∈ l, (streamOf i u).side.isSome = true) :
    endsAs (skipped l u) (us ++ List.replicate l.length .commandSkipped) (l.foldl Machine.skipHead v) := by
  induction l generalizing u v us with
  | nil =>
    rw [skipped_nil]
    exact h.perm (by simp)
  | cons i l ih =>
    obtain ⟨fresh, distinct⟩ := List.nodup_cons.1 distinct
    obtain ⟨x, own⟩ := Option.isSome_iff_exists.1 (sides i List.mem_cons_self)
    rw [List.foldl_cons, ← skipped_headSkipped own fresh]
    refine (ih (h.skipHead own) distinct fun j mem => ?_).perm (by
      rw [List.length_cons, List.replicate_succ, List.append_assoc, List.singleton_append])
    rw [streamOf_headSkipped]
    split
    · next same => subst same; exact sides j List.mem_cons_self
    · exact sides j (List.mem_cons_of_mem _ mem)

/-! ### The end of a fault that does not complete (R102, R103) -/

theorem foundAt_iff_findWay {key : Word} {n : Fin 64} (number : n.val = key.toNat % 64) {w : Fin 4} {s : State} :
    findWay key (tileSet key s) = some w ↔ foundAt key n w s := by
  rw [tileSet_eq number]
  refine ⟨fun found => ?_, fun ⟨_, valid, holds, lowest⟩ => findWay_lowest valid holds lowest⟩
  obtain ⟨valid, holds⟩ := findWay_some found
  refine ⟨number, valid, holds, fun v low valid' holds' => ?_⟩
  obtain ⟨_, k, bound, here, before⟩ := List.find?_eq_some_iff_getElem.1 found
  have place : k = w.val := by simpa using congrArg Fin.val here
  have skips := before v.val (place ▸ low)
  simp only [List.getElem_finRange] at skips
  rcases (by simpa using skips : _ ∨ _) with invalid | other
  · exact Bool.false_ne_true (Eq.trans (Eq.symm invalid) valid')
  · exact other holds'

theorem mapEntry_cleared {key : Word} {s : State} {dir : Vector TileSet 64} (cleared : pendingCleared key s dir) :
    mapEntry key clearPending s = { s with tc.dir := dir } := by
  rcases cleared with ⟨n, w, found, rfl⟩ | ⟨absent, rfl⟩
  · exact mapEntry_found found clearPending
  · have none' : findWay key (tileSet key s) = none := by
      by_contra some'
      obtain ⟨w, found⟩ := Option.ne_none_iff_exists'.1 some'
      exact absent _ w ((foundAt_iff_findWay (n := setIndex key) rfl).1 found)
    unfold mapEntry
    rw [none']

theorem pendingCleared_of_dir {key : Word} {s t : State} {dir : Vector TileSet 64} (same : t.tc.dir = s.tc.dir)
    (cleared : pendingCleared key s dir) : pendingCleared key t dir := by
  unfold pendingCleared foundAt
  rwa [same]

/-- R92, R97, R102, R103: the state after the record of a side has gone IDLE without completing, the directory being dir. -/
def faultLost (side : Side) (dir : Vector TileSet 64) (s : State) : State :=
  { setRecord side ⟨false, 0, 0, 0, 0, none, false, false⟩ s with
    sq.streams := Vector.ofFn fun i : Fin 8 => wokenByIdle side (streamOf i s)
    tc.dir := dir
    mn.tracker := afterLoss side s.mn.tracker }

theorem endsAs.loseFault {u v : State} {us : List SubEvent} (h : endsAs u us v) {key : Word} {dir : Vector TileSet 64}
    (cleared : pendingCleared key u dir) (side : Side) (x : SubEvent) :
    endsAs (faultLost side dir u) (us ++ [x])
      (Machine.trackLost side (Machine.count x (Machine.goIdle side (Machine.mapEntry key clearPending v)))) := by
  have ends := (((h.mapEntry key clearPending).goIdle side).count x).trackLost side
  rw [mapEntry_cleared cleared, goIdle_eq] at ends
  refine Eq.mp (congrArg (endsAs · _ _) ?_) ends
  cases side <;> rfl

theorem faultLost_raised (side : Side) (dir : Vector TileSet 64) (k : EventKind) (d : BitVec 24) (s : State) :
    faultLost side dir (raised k d s) = raised k d (faultLost side dir s) := by
  refine raised_comm (f := faultLost side dir) (fun e => ?_) ?_ ?_ ?_ k d <;> cases side <;> rfl

/-! ### Stale regions (R35) -/

/-- The regions of a mask are stale. -/
def staleRegions (mask : BitVec 8) (s : State) : State := { s with
  lu.regions := Vector.ofFn fun i : Fin 8 => { regionOf i s with stale := (regionOf i s).stale || mask.getLsbD i.val } }

theorem staleRegions_eq (mask : BitVec 8) (s : State) :
    mapRegions (fun i r => if mask.getLsbD i.val then { r with stale := true } else r) s = staleRegions mask s := by
  unfold mapRegions staleRegions
  dsimp only
  congr 3
  funext i
  cases bit : mask.getLsbD i.val <;> simp [regionOf]

theorem endsAs.setStale {u v : State} {us : List SubEvent} (h : endsAs u us v) (mask : BitVec 8) (lane : v.lc.tx = u.lc.tx) :
    endsAs (raised .regionStale (mask.setWidth 24) (staleRegions mask u)) (us ++ raiseCounts .regionStale u)
      (Machine.setStale mask v) := by
  have ends := (h.mapRegions fun i r => if mask.getLsbD i.val then { r with stale := true } else r).raise .regionStale
    (mask.setWidth 24) (by decide) lane
  rw [staleRegions_eq] at ends
  exact ends

/-! ### O30 -/

theorem mem_membersOf {m : BitVec 8} {i : Fin 8} : i ∈ membersOf m ↔ m.getLsbD i.val = true := by
  simp [membersOf, List.mem_finRange]

theorem membersOf_nodup (m : BitVec 8) : (membersOf m).Nodup := (List.nodup_finRange 8).filter _

theorem skipHeads_tx (l : List (Fin 8)) (s : State) : (l.foldl skipHead s).lc.tx = s.lc.tx := by
  induction l generalizing s with
  | nil => rfl
  | cons i l ih =>
    rw [List.foldl_cons, ih]
    unfold skipHead
    split
    · next x _ => rw [count_lc]; cases x <;> rfl
    · rfl

theorem abandonFault_ends {side : Side} {s : State} {dir : Vector TileSet 64}
    (sides : ∀ i : Fin 8, (recordOf side s).waiting.getLsbD i.val = true → (streamOf i s).side.isSome = true)
    (cleared : pendingCleared (recordOf side s).key s dir) :
    endsAs (raised .regionStale ((recordOf side s).waiting.setWidth 24)
        (faultLost side dir (staleRegions (recordOf side s).waiting (skipped (membersOf (recordOf side s).waiting) s))))
      (.abandoned :: List.replicate ((List.finRange 8).countP fun i => (recordOf side s).waiting.getLsbD i.val) .commandSkipped ++
        raiseCounts .regionStale s) (abandonFault side s) := by
  have skips := (endsAs_refl s).skipHeads (membersOf_nodup (recordOf side s).waiting) fun i mem => sides i (mem_membersOf.1 mem)
  have stale := skips.setStale (recordOf side s).waiting (skipHeads_tx _ s)
  have lost := stale.loseFault (key := (recordOf side s).key) (dir := dir) (by
    refine pendingCleared_of_dir ?_ cleared
    unfold raised
    split <;> rfl) side .abandoned
  rw [faultLost_raised] at lost
  refine lost.perm ?_
  rw [List.nil_append, membersOf_length, List.cons_append]
  exact List.perm_append_singleton _ _

/-- Settles O30. -/
theorem faultTimersRetryOrAbandon : Obligations.FaultTimersRetryOrAbandon := by
  intro side s
  have expires (attached : s.lc.attachment = .attached) (active : (recordOf side s).active = true)
      (down : (recordOf side s).timer = some 0) :
      exec (.faultTimerExpiry side) s = .next (conclude s (expireFault side s)) :=
    if_pos (by simp [faultExpires, attached, active, down])
  refine ⟨fun idle => if_neg fun falls => ?_, fun attached active down few => ?_,
    fun dir u attached active down last sides cleared hu still => ?_⟩
  · simp only [faultExpires, Bool.and_eq_true, beq_iff_eq] at falls
    obtain ⟨⟨attached, active⟩, down⟩ := falls
    rcases idle with other | off | runs
    · exact other attached
    · exact Bool.false_ne_true (off.symm.trans active)
    · exact runs down
  · refine ⟨_, expires attached active down, endsAs.conclude ?_ s⟩
    rw [expireFault, if_pos few]
    exact ((endsAs_refl s).setRecord side _).count .retried
  · refine ⟨_, expires attached active down, endsAs.conclude ?_ s⟩
    have ends := abandonFault_ends sides cleared
    have effect : faultLost side dir (staleRegions (recordOf side s).waiting (skipped (membersOf (recordOf side s).waiting) s)) = u := by
      have members : (fun i : Fin 8 => decide (i ∈ membersOf (recordOf side s).waiting)) =
          fun i => (recordOf side s).waiting.getLsbD i.val := by
        funext i
        exact Bool.eq_iff_iff.2 (by rw [decide_eq_true_iff, mem_membersOf])
      have heads (x : Side) : headsSkipped (membersOf (recordOf side s).waiting) x s =
          withoutHeads (fun i => (recordOf side s).waiting.getLsbD i.val && (streamOf i s).side == some x) (queueOf x s) := by
        unfold headsSkipped
        rw [show (fun i : Fin 8 => decide (i ∈ membersOf (recordOf side s).waiting) && (streamOf i s).side == some x) =
          fun i => (recordOf side s).waiting.getLsbD i.val && (streamOf i s).side == some x from
            funext fun i => congrArg (· && _) (congrFun members i)]
      have streams : (fun i : Fin 8 => wokenByIdle side (streamOf i
            (staleRegions (recordOf side s).waiting (skipped (membersOf (recordOf side s).waiting) s)))) =
          fun i => if (recordOf side s).waiting.getLsbD i.val = true then { streamOf i s with state := .ready }
            else wokenByIdle side (streamOf i s) := by
        funext i
        have read : streamOf i (staleRegions (recordOf side s).waiting (skipped (membersOf (recordOf side s).waiting) s)) =
            if i ∈ membersOf (recordOf side s).waiting then { streamOf i s with state := .ready } else streamOf i s :=
          Vector.getElem_ofFn _
        rw [read]
        simp only [mem_membersOf]
        split
        · exact wokenByIdle_ready rfl
        · rfl
      rw [hu]
      unfold faultLost
      rw [streams]
      unfold staleRegions skipped
      rw [heads, heads]
      cases side <;> rfl
    rw [effect] at ends
    rw [expireFault, if_neg (Nat.not_lt.2 last), settle_settled (ends.settled
      (settled_of_same still (raised_sq ..) (raised_de ..) (raised_tf ..)))]
    exact ends

end Sys2Proof.Machine
end

section
/-! PROOFS. What the choices of the sequencer (R47) leave of the streams, the queues and the engines: no stream is opened, closed or
moved, no busy engine is disturbed, and no entry is added. -/

namespace Sys2Proof.Machine

/-! ### A stream through the handovers -/

/-- A stream's record through the handovers: its state may pass between READY and the wait states, and a reservation may go. -/
structure StreamKept (r r' : Stream) : Prop where
  side : r'.side = r.side
  expected : r'.expected = r.expected
  rewind : r'.rewind = r.rewind
  renewed : r'.renewed = r.renewed
  closed : r.state = .closed → r' = r
  opened : r.state ≠ .closed → r'.state ≠ .closed

theorem StreamKept.refl (r : Stream) : StreamKept r r := ⟨rfl, rfl, rfl, rfl, fun _ => rfl, id⟩

theorem StreamKept.trans {a b c : Stream} (h : StreamKept a b) (g : StreamKept b c) : StreamKept a c where
  side := g.side.trans h.side
  expected := g.expected.trans h.expected
  rewind := g.rewind.trans h.rewind
  renewed := g.renewed.trans h.renewed
  closed shut := (g.closed (by rw [h.closed shut]; exact shut)).trans (h.closed shut)
  opened on := g.opened (h.opened on)

/-- An open stream may change its state to another open one, and its reservation. -/
theorem StreamKept.of_open {r : Stream} (opened : r.state ≠ .closed) {state : StreamState} (still : state ≠ .closed)
    (reservation : Option Word) : StreamKept r { r with state := state, reservation := reservation } :=
  ⟨rfl, rfl, rfl, rfl, fun shut => absurd shut opened, fun _ => still⟩

theorem StreamKept.isOpen {r r' : Stream} (h : StreamKept r r') : r'.state = .closed ↔ r.state = .closed :=
  ⟨fun shut => by_contra fun on => h.opened on shut, fun shut => by rw [h.closed shut]; exact shut⟩

/-! ### The state through the handovers -/

/-- What the handovers leave of the session. -/
structure Hands (s t : State) : Prop where
  streams : ∀ i : Fin 8, StreamKept (streamOf i s) (streamOf i t)
  busy : ∀ side r, engineOf side s = some r → engineOf side t = some r
  queues : ∀ side, ∀ e ∈ queueOf side t, ∃ f ∈ queueOf side s, f.stream = e.stream
  quiesce : t.sq.quiesce = s.sq.quiesce

theorem Hands.trans {s t u : State} (h : Hands s t) (g : Hands t u) : Hands s u where
  streams i := (h.streams i).trans (g.streams i)
  busy side r busy := g.busy side r (h.busy side r busy)
  queues side e mem := by
    obtain ⟨f, mem', same⟩ := g.queues side e mem
    obtain ⟨f', mem'', same'⟩ := h.queues side f mem'
    exact ⟨f', mem'', same'.trans same⟩
  quiesce := g.quiesce.trans h.quiesce

theorem streamOf_of_same {s t : State} (sq : t.sq = s.sq) (i : Fin 8) : streamOf i t = streamOf i s := by
  unfold streamOf
  rw [sq]

theorem queueOf_of_same {s t : State} (sq : t.sq = s.sq) (side : Side) : queueOf side t = queueOf side s := by
  unfold queueOf
  rw [sq]

theorem engineOf_of_same {s t : State} (de : t.de = s.de) (side : Side) : engineOf side t = engineOf side s := by
  unfold engineOf
  rw [de]

theorem Hands.of_same {s t : State} (sq : t.sq = s.sq) (de : t.de = s.de) : Hands s t where
  streams i := by rw [streamOf_of_same sq]; exact .refl _
  busy side r busy := by rw [engineOf_of_same de]; exact busy
  queues side e mem := ⟨e, by rwa [queueOf_of_same sq] at mem, rfl⟩
  quiesce := by rw [sq]

theorem Hands.refl (s : State) : Hands s s := .of_same rfl rfl

theorem Apart.hands {s t : State} (h : Apart s t) : Hands s t := .of_same h.sq h.de

theorem setStream_hands {i : Fin 8} {r : Stream} {s : State} (kept : StreamKept (streamOf i s) r) : Hands s (setStream i r s) where
  streams j := by
    rw [streamOf_setStream]
    split
    · next same => subst same; exact kept
    · exact .refl _
  busy _ _ busy := busy
  queues side e mem := ⟨e, by rwa [queueOf_setStream] at mem, rfl⟩
  quiesce := rfl

theorem mapStreams_hands {f : Fin 8 → Stream → Stream} {s : State}
    (kept : ∀ i, StreamKept (streamOf i s) (f i (streamOf i s))) : Hands s (mapStreams f s) where
  streams i := by rw [streamOf_mapStreams]; exact kept i
  busy _ _ busy := busy
  queues side e mem := ⟨e, by cases side <;> exact mem, rfl⟩
  quiesce := rfl

theorem setQueue_hands {side : Side} {q : List Entry} {s : State} (from' : ∀ e ∈ q, ∃ f ∈ queueOf side s, f.stream = e.stream) :
    Hands s (setQueue side q s) where
  streams i := by rw [streamOf_setQueue]; exact .refl _
  busy _ _ busy := by rwa [engineOf_of_same (setQueue_de side q s)]
  queues x e mem := by
    cases side <;> cases x
    exacts [from' e mem, ⟨e, mem, rfl⟩, ⟨e, mem, rfl⟩, from' e mem]
  quiesce := by cases side <;> rfl

theorem setEngine_hands {side : Side} {r : Option ExecRecord} {s : State} (free : engineOf side s = none) :
    Hands s (setEngine side r s) where
  streams i := by rw [streamOf_of_same (setEngine_sq side r s)]; exact .refl _
  busy x r' busy := by
    cases side <;> cases x
    exacts [absurd (free.symm.trans busy) (Option.some_ne_none _).symm, busy, busy,
      absurd (free.symm.trans busy) (Option.some_ne_none _).symm]
  queues x e mem := ⟨e, by rwa [queueOf_of_same (setEngine_sq side r s)] at mem, rfl⟩
  quiesce := by rw [setEngine_sq]

/-! ### The operations of the handovers -/

theorem wakeWay_hands (s : State) : Hands s (wakeWay s) := by
  refine mapStreams_hands fun i => ?_
  split
  · next waits => exact .of_open (r := streamOf i s) (by rw [waits]; decide) (by decide) _
  · exact .refl _

theorem mapEntry_hands (key : Word) (f : DirEntry → DirEntry) (s : State) : Hands s (mapEntry key f s) := by
  unfold mapEntry
  split
  · exact .of_same (setTileSet_sq _ _ s) (setTileSet_de _ _ s)
  · exact .refl s

theorem setTileSet_hands (key : Word) (ways : TileSet) (s : State) : Hands s (setTileSet key ways s) :=
  .of_same (setTileSet_sq key ways s) (setTileSet_de key ways s)

theorem count_hands (x : SubEvent) (s : State) : Hands s (count x s) := (count_apart x s).hands

theorem setRecord_hands (side : Side) (r : FaultRecord) (s : State) : Hands s (setRecord side r s) :=
  .of_same (setRecord_sq side r s) (setRecord_de side r s)

theorem afterLookup_hands (key : Word) (l : Lookup) (s : State) : Hands s (afterLookup key l s) := by
  cases l with
  | hit w => exact (setTileSet_hands _ _ s).trans (count_hands _ _)
  | sectorMiss w => exact count_hands _ s
  | absent => exact count_hands _ s

theorem releaseEntry_hands (key : Word) (s : State) : Hands s (releaseEntry key s) := by
  unfold releaseEntry
  split
  · dsimp only
    split
    · exact (setTileSet_hands _ _ s).trans (wakeWay_hands _)
    · exact setTileSet_hands _ _ s
  · exact .refl s

theorem releaseReservation_hands {i : Fin 8} {s : State} (opened : (streamOf i s).state ≠ .closed) :
    Hands s (releaseReservation i s) := by
  unfold releaseReservation
  split
  · exact (setStream_hands (.of_open opened opened none)).trans (releaseEntry_hands _ _)
  · exact .refl s

theorem releaseEntry_de (key : Word) (s : State) : (releaseEntry key s).de = s.de := by
  unfold releaseEntry
  split
  · dsimp only
    split <;> simp [wakeWay]
  · rfl

theorem releaseReservation_de (i : Fin 8) (s : State) : (releaseReservation i s).de = s.de := by
  unfold releaseReservation
  split
  · rw [releaseEntry_de, setStream_de]
  · rfl

theorem afterLookup_de (key : Word) (l : Lookup) (s : State) : (afterLookup key l s).de = s.de := by
  cases l <;> simp [afterLookup]

theorem allocateWay_hands (key : Word) (w : Fin 4) (s : State) : Hands s (allocateWay key w s) := by
  unfold allocateWay
  dsimp only
  split
  · exact (setTileSet_hands _ _ s).trans (count_hands _ _)
  · exact setTileSet_hands _ _ s

theorem setWait_hands {i : Fin 8} {x : StreamState} {s : State} (opened : (streamOf i s).state ≠ .closed) (waits : x ≠ .closed) :
    Hands s (setWait i x s) := setStream_hands (.of_open opened waits _)

theorem joinFault_hands (side : Side) {i : Fin 8} (mask : BitVec 4) {s : State} (opened : (streamOf i s).state ≠ .closed) :
    Hands s (joinFault side i mask s) := by
  have waits {t : State} (h : Hands s t) : Hands s (setWait i .waitTile (count .joined t)) :=
    (h.trans (count_hands _ t)).trans (setWait_hands ((h.trans (count_hands _ t)).streams i |>.opened opened) (by decide))
  unfold joinFault
  dsimp only
  split
  · exact waits (setRecord_hands _ _ s)
  · exact waits ((setRecord_hands _ _ s).trans (count_hands _ _))

theorem raiseFault_hands (side : Side) {i : Fin 8} (key : Word) (mask : BitVec 4) {s : State}
    (opened : (streamOf i s).state ≠ .closed) : Hands s (raiseFault side i key mask s) := by
  have before (r : FaultRecord) : Hands s (trackRaise side key (count .raised
      (setRecord side r (mapEntry key (fun e => { e with pending := true }) s)))) :=
    ((mapEntry_hands key (fun e => { e with pending := true }) s).trans (setRecord_hands side r _)).trans
      ((count_hands .raised _).trans (trackRaise_apart side key _).hands)
  exact (before _).trans (setWait_hands (((before _).streams i).opened opened) (by decide))

theorem takeMiss_hands (side : Side) {i : Fin 8} (key : Word) (mask : BitVec 4) (present : Bool) {s : State}
    (opened : (streamOf i s).state ≠ .closed) : Hands s (takeMiss side i key mask present s) := by
  have waits (x : SubEvent) {state : StreamState} (still : state ≠ .closed) : Hands s (setWait i state (count x s)) :=
    (count_hands x s).trans (setWait_hands ((count_hands x s).streams i |>.opened opened) still)
  unfold takeMiss
  split
  · exact joinFault_hands _ mask opened
  · split
    · exact waits .slotWait (by decide)
    · split
      · exact raiseFault_hands side key mask opened
      · split
        · exact (allocateWay_hands key _ s).trans
            (raiseFault_hands side key mask ((allocateWay_hands key _ s).streams i |>.opened opened))
        · exact waits .wayWait (by decide)

theorem grantStore_hands (s : State) : Hands s (grantStore s) := by
  unfold grantStore
  split
  · split
    · dsimp only
      split
      · exact .of_same (count_sq _ _) (count_de _ _)
      · exact .of_same rfl rfl
    · exact .refl s
  · exact .refl s

theorem askStore_hands (w : Writer) (s : State) : Hands s (askStore w s) :=
  (Hands.of_same (s := s) (t := { s with fs.waiting := s.fs.waiting ++ [w] }) rfl rfl).trans (grantStore_hands _)

theorem markExecuting_stream {r : ExecRecord} {q : List Entry} {e : Entry} (mem : e ∈ markExecuting r q) :
    ∃ f ∈ q, f.stream = e.stream := by
  induction q with
  | nil => exact absurd mem List.not_mem_nil
  | cons f q ih =>
    unfold markExecuting at mem
    split at mem
    · rcases List.mem_cons.1 mem with rfl | inside
      · exact ⟨f, List.mem_cons_self, rfl⟩
      · exact ⟨e, List.mem_cons_of_mem _ inside, rfl⟩
    · rcases List.mem_cons.1 mem with rfl | inside
      · exact ⟨e, List.mem_cons_self, rfl⟩
      · obtain ⟨g, mem', same⟩ := ih inside
        exact ⟨g, List.mem_cons_of_mem _ mem', same⟩

theorem beginExecution_hands {side : Side} (r : ExecRecord) {s : State} (free : engineOf side s = none) :
    Hands s (beginExecution side r s) := by
  have marked : Hands s (setQueue side (markExecuting r (queueOf side s)) s) := setQueue_hands fun _ mem => markExecuting_stream mem
  refine marked.trans ((setEngine_hands ?_).trans (askStore_hands _ _))
  rw [engineOf_of_same (setQueue_de _ _ s)]
  exact free

theorem removeEntry_hands (side : Side) (r : ExecRecord) (s : State) : Hands s (removeEntry side r s) :=
  setQueue_hands fun e mem => ⟨e, List.mem_of_mem_eraseP mem, rfl⟩

theorem handPlace_hands {side : Side} {r : ExecRecord} (key : Word) (y : Int) {s : State} (free : engineOf side s = none)
    (opened : (streamOf r.stream s).state ≠ .closed) : Hands s (handPlace side r key y s) := by
  have looked (l : Lookup) : Hands s (releaseReservation r.stream (afterLookup key l s)) :=
    (afterLookup_hands key l s).trans (releaseReservation_hands (((afterLookup_hands key l s).streams _).opened opened))
  unfold handPlace
  dsimp only
  split
  · refine (looked _).trans (beginExecution_hands _ ?_)
    rw [engineOf_of_same ((releaseReservation_de _ _).trans (afterLookup_de _ _ s))]
    exact free
  · exact (looked _).trans (takeMiss_hands side key _ _ (((looked _).streams _).opened opened))
  · exact (looked _).trans (takeMiss_hands side key _ _ (((looked _).streams _).opened opened))

theorem recordFor_stream (e : Entry) (r : Region) : (recordFor e r).stream = e.stream := by
  unfold recordFor
  dsimp only
  split <;> rfl

theorem handOver_hands {side : Side} {e : Entry} {s : State} (free : engineOf side s = none)
    (opened : (streamOf e.stream s).state ≠ .closed) : Hands s (handOver side e s) := by
  have removed (x : SubEvent) (r : ExecRecord) : Hands s (removeEntry side r (count x s)) :=
    (count_hands x s).trans (removeEntry_hands side r _)
  have released (x : SubEvent) (r : ExecRecord) : Hands s (releaseReservation e.stream (removeEntry side r (count x s))) :=
    (removed x r).trans (releaseReservation_hands (((removed x r).streams _).opened opened))
  unfold handOver
  dsimp only
  split
  · split
    · exact released _ _
    · split
      · exact released _ _
      · exact handPlace_hands _ _ free (by rw [recordFor_stream]; exact opened)
  · split
    · exact removed _ _
    · exact beginExecution_hands _ free
  · split
    · exact removed _ _
    · exact beginExecution_hands _ free

/-- An entry that the sequencer would hand over: its engine is FREE, its stream READY, and it stands in the queue. -/
theorem eligible_some {side : Side} {e : Entry} {s : State} (h : eligible side s = some e) :
    engineOf side s = none ∧ (streamOf e.stream s).state = .ready ∧ e.executing = false ∧ e ∈ queueOf side s := by
  unfold eligible at h
  split at h
  · exact absurd h (Option.some_ne_none _).symm
  · next free =>
    have picked := List.find?_some h
    simp only [Bool.and_eq_true, Bool.not_eq_true', beq_iff_eq] at picked
    exact ⟨Option.not_isSome_iff_eq_none.1 free, picked.2, picked.1, List.mem_of_find?_eq_some h⟩

theorem handAll_hands (s : State) : Hands s (handAll s) := by
  refine handAll_keeps (Legal := Hands s) (fun side e t chosen h => ?_) (fun t h => ?_) (fun t h => ?_) (.refl s)
  · obtain ⟨free, ready, _⟩ := eligible_some chosen
    exact h.trans (handOver_hands free (by rw [ready]; decide))
  · exact h.trans (takeFree_apart t).hands
  · exact h.trans (.of_same rfl rfl)

/-! ### The drain -/

theorem endLong_sq (status : Status) (s : State) : (endLong status s).sq = s.sq := by rw [endLong_rest]

theorem endLong_de (status : Status) (s : State) : (endLong status s).de = s.de := by rw [endLong_rest]

theorem endOp_sq (op : LongOp) (status : Status) (s : State) : (endOp op status s).sq = s.sq := by
  unfold endOp
  split
  · exact endLong_sq status s
  · rfl

theorem endOp_de (op : LongOp) (status : Status) (s : State) : (endOp op status s).de = s.de := by
  unfold endOp
  split
  · exact endLong_de status s
  · rfl

/-- Outside QUIESCING an event has no drain to end. -/
theorem checkDrain_not_quiescing {s : State} (other : s.sq.quiesce ≠ .quiescing) : checkDrain s = s :=
  if_neg fun h => other h.1

theorem settle_hands {s : State} (other : s.sq.quiesce ≠ .quiescing) : Hands s (settle s) := by
  have handed := handAll_hands s
  unfold settle
  rw [checkDrain_not_quiescing (by rw [handed.quiesce]; exact other)]
  exact handed

/-- What the settling of an event leaves of the streams, the engines and the queues, in every state of the quiesce. -/
theorem settle_streams (s : State) (i : Fin 8) : StreamKept (streamOf i s) (streamOf i (settle s)) := by
  have handed := (handAll_hands s).streams i
  unfold settle checkDrain
  split
  · rwa [streamOf_of_same (endOp_sq .quiesce .ok _)]
  · exact handed

theorem settle_busy {side : Side} {r : ExecRecord} {s : State} (busy : engineOf side s = some r) : engineOf side (settle s) = some r := by
  have handed := (handAll_hands s).busy side r busy
  unfold settle checkDrain
  split
  · rwa [engineOf_of_same (endOp_de .quiesce .ok _)]
  · exact handed

theorem settle_queues {side : Side} {s : State} {e : Entry} (mem : e ∈ queueOf side (settle s)) :
    ∃ f ∈ queueOf side s, f.stream = e.stream := by
  refine (handAll_hands s).queues side e ?_
  unfold settle checkDrain at mem
  split at mem
  · rwa [queueOf_of_same (endOp_sq .quiesce .ok _)] at mem
  · exact mem

end Sys2Proof.Machine
end

section
/-! PROOFS. STREAM_CLOSE (R44, R45): what the close leaves, and the whole of it where the sequencer has no choice to make; the
settlement of O37. -/

namespace Sys2Proof.Machine

/-! ### The reservation given back (R82, R97) -/

/-- The state once stream i has given up its reservation and its entry counts one less, the wake-ups aside. -/
def unreserved (i : Fin 8) (n : Fin 64) (w : Fin 4) (s : State) : State :=
  setStream i { streamOf i s with reservation := none }
    (setEntry n w { s.tc.dir[n][w] with reserve := s.tc.dir[n][w].reserve - 1 } s)

theorem released_last {i : Fin 8} {n : Fin 64} {w : Fin 4} {s : State} (last : s.tc.dir[n][w].reserve = 1) :
    wakeWay (unreserved i n w s) = released i n w s := by
  have streams : (Vector.ofFn fun j : Fin 8 => if (streamOf j (unreserved i n w s)).state = .waitWay then
        { streamOf j (unreserved i n w s) with state := .ready } else streamOf j (unreserved i n w s)) =
      Vector.ofFn fun j : Fin 8 => { streamOf j s with
        reservation := if j = i then none else (streamOf j s).reservation
        state := if s.tc.dir[n][w].reserve = 1 ∧ (streamOf j s).state = .waitWay then .ready else (streamOf j s).state } := by
    congr 1
    funext j
    have read : streamOf j (unreserved i n w s) = if j = i then { streamOf i s with reservation := none } else streamOf j s :=
      streamOf_setStream i j _ _
    rw [read]
    generalize s.tc.dir[n][w].reserve = k at last
    by_cases same : j = i
    · subst same
      by_cases waits : (streamOf j s).state = .waitWay <;> simp [waits, last]
    · by_cases waits : (streamOf j s).state = .waitWay <;> simp [same, waits, last]
  unfold released
  rw [← streams]
  rfl

theorem released_more {i : Fin 8} {n : Fin 64} {w : Fin 4} {s : State} (more : s.tc.dir[n][w].reserve ≠ 1) :
    unreserved i n w s = released i n w s := by
  have streams : s.sq.streams.set i { streamOf i s with reservation := none } =
      Vector.ofFn fun j : Fin 8 => { streamOf j s with
        reservation := if j = i then none else (streamOf j s).reservation
        state := if s.tc.dir[n][w].reserve = 1 ∧ (streamOf j s).state = .waitWay then .ready else (streamOf j s).state } := by
    rw [set_eq_ofFn]
    congr 1
    funext j
    generalize s.tc.dir[n][w].reserve = k at more
    by_cases same : j = i
    · subst same
      simp [more]
    · simp [same, more, Fin.val_inj, streamOf]
  unfold released
  rw [← streams]
  rfl

theorem streamOf_released (i j : Fin 8) (n : Fin 64) (w : Fin 4) (s : State) : streamOf j (released i n w s) = { streamOf j s with
    reservation := if j = i then none else (streamOf j s).reservation
    state := if s.tc.dir[n][w].reserve = 1 ∧ (streamOf j s).state = .waitWay then .ready else (streamOf j s).state } :=
  Vector.getElem_ofFn _

theorem endsAs.releaseReservation {u v : State} {us : List SubEvent} (h : endsAs u us v) {i : Fin 8} {key : Word} {n : Fin 64}
    {w : Fin 4} (holds : (streamOf i u).reservation = some key) (found : foundAt key n w u) :
    endsAs (released i n w u) us (Machine.releaseReservation i v) := by
  have at' : findWay key u.tc.dir[n] = some w := (tileSet_eq found.1 u) ▸ (foundAt_iff_findWay found.1).2 found
  have given : endsAs (unreserved i n w u) us (Machine.setTileSet key
      (u.tc.dir[n].set w { u.tc.dir[n][w] with reserve := u.tc.dir[n][w].reserve - 1 })
      (Machine.setStream i { streamOf i u with reservation := none } v)) := by
    have ends := (h.setStream i { streamOf i u with reservation := none }).setTileSet key
      (u.tc.dir[n].set w { u.tc.dir[n][w] with reserve := u.tc.dir[n][w].reserve - 1 })
    rw [setTileSet_eq found.1 _ (Machine.setStream i _ u)] at ends
    exact ends
  unfold Machine.releaseReservation
  rw [h.same_streamOf i, holds]
  unfold releaseEntry
  dsimp only
  rw [show tileSet key (Machine.setStream i { streamOf i u with reservation := none } v) = u.tc.dir[n] from
    (h.same_tileSet key).trans (tileSet_eq found.1 u), at']
  dsimp only
  split
  · next last => exact released_last last ▸ given.wakeWay
  · next more => exact released_more more ▸ given

/-! ### The fault that a closing stream leaves (R44, R103) -/

theorem leaveFault_absent {x : Side} {i : Fin 8} {s : State}
    (absent : (recordOf x s).active = false ∨ (recordOf x s).waiting.getLsbD i.val = false) : leaveFault x i s = s := by
  refine if_neg fun waits => ?_
  obtain ⟨active, member⟩ := Bool.and_eq_true_iff.1 waits
  rcases absent with off | out
  · exact Bool.false_ne_true (off.symm.trans active)
  · exact Bool.false_ne_true (out.symm.trans member)

theorem leaves_last {m : BitVec 8} {i : Fin 8} (member : m.getLsbD i.val = true) :
    m &&& ~~~ BitVec.ofNat 8 (2 ^ i.val) = 0 ↔ m = BitVec.ofNat 8 (2 ^ i.val) := by
  have bit (k : Fin 8) : (BitVec.ofNat 8 (2 ^ i.val)).getLsbD k.val = decide (k = i) := by
    rw [BitVec.getLsbD_ofNat, Nat.testBit_two_pow]
    simp [Fin.ext_iff, eq_comm]
  refine ⟨fun empty => mask_ext fun k => ?_, fun only => ?_⟩
  · have gone := congrArg (·.getLsbD k.val) empty
    simp only [BitVec.getLsbD_and, BitVec.getLsbD_not, bit, k.isLt, decide_true, Bool.true_and] at gone
    rw [bit]
    by_cases same : k = i
    · subst same; simpa using member
    · simpa [same] using gone
  · rw [only, BitVec.and_not_self]

theorem endsAs.leaveFault {u v : State} {us : List SubEvent} (h : endsAs u us v) {x : Side} {i : Fin 8}
    (active : (recordOf x u).active = true) (member : (recordOf x u).waiting.getLsbD i.val = true)
    (others : (recordOf x u).waiting ≠ BitVec.ofNat 8 (2 ^ i.val)) :
    endsAs (Machine.setRecord x { recordOf x u with waiting := (recordOf x u).waiting &&& ~~~ BitVec.ofNat 8 (2 ^ i.val) } u) us
      (Machine.leaveFault x i v) := by
  unfold Machine.leaveFault
  dsimp only
  rw [h.same_recordOf x, if_pos (Bool.and_eq_true_iff.2 ⟨active, member⟩), if_neg fun last => others ((leaves_last member).1 last)]
  exact h.setRecord x _

theorem recordOf_setRecord (x : Side) (r : FaultRecord) (s : State) : recordOf x (setRecord x r s) = r := by cases x <;> rfl

theorem endsAs.leaveFault_last {u v : State} {us : List SubEvent} (h : endsAs u us v) {x : Side} {i : Fin 8}
    {dir : Vector TileSet 64} (active : (recordOf x u).active = true) (only : (recordOf x u).waiting = BitVec.ofNat 8 (2 ^ i.val))
    (cleared : pendingCleared (recordOf x u).key u dir) :
    endsAs (faultLost x dir u) (us ++ [.cancelled]) (Machine.leaveFault x i v) := by
  have member : (recordOf x u).waiting.getLsbD i.val = true := by
    rw [only, BitVec.getLsbD_ofNat, Nat.testBit_two_pow]
    simp
  unfold Machine.leaveFault
  dsimp only
  rw [h.same_recordOf x, if_pos (Bool.and_eq_true_iff.2 ⟨active, member⟩), if_pos ((leaves_last member).2 only)]
  unfold cancelFault
  rw [recordOf_setRecord]
  dsimp only
  have ends := (h.setRecord x { recordOf x u with
    waiting := (recordOf x u).waiting &&& ~~~ BitVec.ofNat 8 (2 ^ i.val) }).loseFault (key := (recordOf x u).key) (dir := dir)
      (pendingCleared_of_dir (by rw [setRecord_tc]) cleared) x .cancelled
  refine Eq.mp (congrArg (endsAs · _ _) ?_) ends
  cases x <;> rfl

theorem trackLost_handed (side : Side) (s : State) : Handed s (trackLost side s) := by
  rw [trackLost_eq]
  exact .of_rest rfl rfl (fun _ => rfl) fun _ _ => id

theorem clearPending_pinned (e : DirEntry) (free : e.pinned = false) : (clearPending e).pinned = false := by
  unfold clearPending
  split
  · rfl
  · exact free

theorem cancelFault_handed (x : Side) (s : State) : Handed s (cancelFault x s) :=
  (mapEntry_handed clearPending_pinned s).trans ((goIdle_handed x _).trans ((count_handed _ _).trans (trackLost_handed x _)))

theorem leaveFault_handed (x : Side) (i : Fin 8) (s : State) : Handed s (leaveFault x i s) := by
  unfold leaveFault
  dsimp only
  split
  · split
    · exact (setRecord_handed _ _ _).trans (cancelFault_handed _ _)
    · exact setRecord_handed _ _ _
  · exact .refl s

theorem goIdle_hands (side : Side) (s : State) : Hands s (goIdle side s) := by
  refine (setRecord_hands side _ s).trans ((mapStreams_hands fun i => ?_).trans (wakeWay_hands _))
  split
  · next waits => exact .of_open (by rw [waits.1]; decide) (by decide) _
  · exact .refl _

theorem cancelFault_hands (x : Side) (s : State) : Hands s (cancelFault x s) :=
  (mapEntry_hands _ _ s).trans ((goIdle_hands x _).trans ((count_hands _ _).trans (trackLost_apart x _).hands))

theorem leaveFault_hands (x : Side) (i : Fin 8) (s : State) : Hands s (leaveFault x i s) := by
  unfold leaveFault
  dsimp only
  split
  · split
    · exact (setRecord_hands _ _ _).trans (cancelFault_hands _ _)
    · exact setRecord_hands _ _ _
  · exact .refl s

/-! ### The close itself (R44, R45) -/

/-- R44, R45: the state with the entries of stream i out of the queue of its side, the one under execution marked as removed. -/
def withoutEntries (i : Fin 8) (s : State) : State :=
  match (streamOf i s).side with
  | some side => markRemovedOf side i (setQueue side ((queueOf side s).filter fun e => e.stream != i) s)
  | none => s

/-- The session once a closing stream has left its fault and given back its reservation. -/
def givenUp (i : Fin 8) (s : State) : State := releaseReservation i (leaveFault .b i (leaveFault .a i (withoutEntries i s)))

theorem closeStream_eq (i : Fin 8) (s : State) : closeStream i s = setStream i (closedRecord (streamOf i (givenUp i s))) (givenUp i s) := by
  rfl

theorem withoutEntries_handed (i : Fin 8) (s : State) : Handed s (withoutEntries i s) := by
  unfold withoutEntries
  split
  · exact (setQueue_handed _ _ s).trans (setEngine_handed _ _ _)
  · exact .refl s

theorem withoutEntries_stream (i j : Fin 8) (s : State) : streamOf j (withoutEntries i s) = streamOf j s := by
  unfold withoutEntries
  split
  · next side _ => cases side <;> rfl
  · rfl

theorem withoutEntries_quiesce (i : Fin 8) (s : State) : (withoutEntries i s).sq.quiesce = s.sq.quiesce := by
  unfold withoutEntries
  split
  · next side _ => cases side <;> rfl
  · rfl

section
variable {i : Fin 8} {side : Side} {s : State} (own : (streamOf i s).side = some side)
include own

theorem withoutEntries_side : withoutEntries i s = setEngine side ((engineOf side s).map fun r =>
    if r.stream = i then { r with removed := true } else r) (setQueue side ((queueOf side s).filter fun e => e.stream != i) s) := by
  unfold withoutEntries
  rw [own]
  cases side <;> rfl

theorem withoutEntries_queue {e : Entry} (mem : e ∈ queueOf side (withoutEntries i s)) : e.stream ≠ i := by
  rw [withoutEntries_side own] at mem
  have inside : e ∈ (queueOf side s).filter fun e => e.stream != i := by cases side <;> exact mem
  exact bne_iff_ne.1 (List.mem_filter.1 inside).2

theorem withoutEntries_engine {r : ExecRecord} (busy : engineOf side s = some r) (executes : r.stream = i) :
    engineOf side (withoutEntries i s) = some { r with removed := true } := by
  rw [withoutEntries_side own, engineOf_setEngine_self, busy, Option.map_some, if_pos executes]

end

theorem givenUp_handed (i : Fin 8) (s : State) : Handed s (givenUp i s) :=
  (withoutEntries_handed i s).trans ((leaveFault_handed .a i _).trans ((leaveFault_handed .b i _).trans (releaseReservation_handed i _)))

theorem givenUp_hands {i : Fin 8} {s : State} (opened : (streamOf i s).state ≠ .closed) : Hands (withoutEntries i s) (givenUp i s) := by
  have left := (leaveFault_hands .a i (withoutEntries i s)).trans (leaveFault_hands .b i _)
  exact left.trans (releaseReservation_hands ((left.streams i).opened (by rw [withoutEntries_stream]; exact opened)))

theorem closeStream_handed (i : Fin 8) (s : State) : Handed s (closeStream i s) := by
  rw [closeStream_eq]
  exact (givenUp_handed i s).trans (setStream_handed rfl)

theorem doStreamClose_beyond {stream : Byte} (beyond : 8 ≤ stream.toNat) (tag : Byte) (s : State) :
    doStreamClose tag stream s = answer tag 0x04 .badIndex s := dif_neg (Nat.not_lt.2 beyond)

theorem doStreamClose_named {stream : Byte} {i : Fin 8} (named : stream.toNat = i.val) (tag : Byte) (s : State) :
    doStreamClose tag stream s =
      if isOpen i s then settle (answer tag 0x04 .ok (closeStream i s)) else answer tag 0x04 .streamClosed s := by
  have inside : stream.toNat < 8 := named ▸ i.isLt
  have same : (⟨stream.toNat, inside⟩ : Fin 8) = i := Fin.ext named
  unfold doStreamClose
  rw [dif_pos inside]
  dsimp only
  rw [same]

theorem exec_streamClose (tag stream : Byte) (s : State) :
    exec (.streamClose tag stream) s = requestArrival tag 0x04 (doStreamClose tag stream) s := by rfl

/-- What STREAM_CLOSE leaves of an open stream's session, whatever the sequencer then chooses. -/
theorem streamClose_next {tag stream : Byte} {s : State} {i : Fin 8} (taken : takesRequest s) (named : stream.toNat = i.val)
    (opened : (streamOf i s).state ≠ .closed) :
    exec (.streamClose tag stream) s =
      .next (conclude s (settle (answer tag 0x04 .ok (closeStream i (count .reqTaken (passed s)))))) := by
  rw [exec_streamClose, requestArrival_taken _ _ _ taken, doStreamClose_named named,
    if_pos (isOpen_eq_true (by rw [streamOf_count]; exact opened))]

/-- STREAM_CLOSE where the sequencer then has no choice to make and no drain to end. -/
theorem streamClose_ends {tag stream : Byte} {s u : State} {us : List SubEvent} {i : Fin 8} (taken : takesRequest s)
    (named : stream.toNat = i.val) (opened : (streamOf i s).state ≠ .closed) (still : settled u)
    (ends : endsAs (passed u) us (closeStream i (count .reqTaken (passed s)))) :
    ∃ t, exec (.streamClose tag stream) s = .next t ∧ endsAs (replied tag 0x04 .ok [] u) us t := by
  refine ⟨_, streamClose_next taken named opened, endsAs.conclude ?_ s⟩
  have answered := ends.answer tag 0x04 .ok
  rw [settle_settled (answered.settled (settled_of_same still rfl rfl rfl))]
  exact answered

/-! ### What a close leaves (R44, R45) -/

section
variable {i : Fin 8} {s : State}

theorem closeStream_self (i : Fin 8) (s : State) :
    streamOf i (closeStream i s) = ⟨.closed, none, (streamOf i s).expected, none, false, none⟩ := by
  rw [closeStream_eq, streamOf_setStream, if_pos rfl, closedRecord, (givenUp_handed i s).expected]

theorem closeStream_quiesce (opened : (streamOf i s).state ≠ .closed) : (closeStream i s).sq.quiesce = s.sq.quiesce :=
  ((givenUp_hands opened).quiesce).trans (withoutEntries_quiesce i s)

theorem closeStream_other (opened : (streamOf i s).state ≠ .closed) {j : Fin 8} (other : j ≠ i) :
    StreamKept (streamOf j s) (streamOf j (closeStream i s)) := by
  have kept := (givenUp_hands opened).streams j
  rw [withoutEntries_stream] at kept
  rwa [closeStream_eq, streamOf_setStream, if_neg other]

theorem closeStream_queue {side : Side} (opened : (streamOf i s).state ≠ .closed) (own : (streamOf i s).side = some side) {e : Entry}
    (mem : e ∈ queueOf side (closeStream i s)) : e.stream ≠ i := by
  rw [closeStream_eq, queueOf_setStream] at mem
  obtain ⟨f, first, same⟩ := (givenUp_hands opened).queues side e mem
  exact same ▸ withoutEntries_queue own first

theorem closeStream_engine {side : Side} (opened : (streamOf i s).state ≠ .closed) (own : (streamOf i s).side = some side)
    {r : ExecRecord} (busy : engineOf side s = some r) (executes : r.stream = i) :
    engineOf side (closeStream i s) = some { r with removed := true } := by
  rw [closeStream_eq, engineOf_of_same (setStream_de _ _ _)]
  exact (givenUp_hands opened).busy side _ (withoutEntries_engine own busy executes)

end

/-- What the settling and the end of an event leave, the quiesce aside. -/
theorem settled_streams (before s : State) (i : Fin 8) : StreamKept (streamOf i s) (streamOf i (conclude before (settle s))) :=
  (settle_streams s i).trans ((conclude_apart before (settle s)).hands.streams i)

theorem settled_busy (before : State) {s : State} {side : Side} {r : ExecRecord} (busy : engineOf side s = some r) :
    engineOf side (conclude before (settle s)) = some r :=
  (conclude_apart before (settle s)).hands.busy side r (settle_busy busy)

theorem settled_queues {before s : State} {side : Side} {e : Entry} (mem : e ∈ queueOf side (conclude before (settle s))) :
    ∃ f ∈ queueOf side s, f.stream = e.stream := by
  obtain ⟨f, inside, same⟩ := (conclude_apart before (settle s)).hands.queues side e mem
  obtain ⟨g, first, same'⟩ := settle_queues inside
  exact ⟨g, first, same'.trans same⟩

theorem settled_quiesce (before : State) {s : State} (other : s.sq.quiesce ≠ .quiescing) :
    (conclude before (settle s)).sq.quiesce = s.sq.quiesce :=
  (conclude_apart before (settle s)).hands.quiesce.trans (settle_hands other).quiesce

/-- The effect of a close on its own, the settling and the end of its event included. -/
theorem close_leaves {i : Fin 8} {c before t : State} (opened : (streamOf i c).state ≠ .closed) (tag : Byte)
    (ht : t = conclude before (settle (answer tag 0x04 .ok (closeStream i c)))) :
    streamOf i t = ⟨.closed, none, (streamOf i c).expected, none, false, none⟩ ∧
    (∀ side, (streamOf i c).side = some side → (∀ e ∈ queueOf side t, e.stream ≠ i) ∧
      ∀ r, engineOf side c = some r → r.stream = i → engineOf side t = some { r with removed := true }) ∧
    (∀ j : Fin 8, j ≠ i → StreamKept (streamOf j c) (streamOf j t)) ∧
    (c.sq.quiesce ≠ .quiescing → t.sq.quiesce = c.sq.quiesce) := by
  subst ht
  have answered : (answer tag 0x04 .ok (closeStream i c)).sq = (closeStream i c).sq := answer_sq ..
  have streams (j : Fin 8) := settled_streams before (answer tag 0x04 .ok (closeStream i c)) j
  simp only [streamOf_of_same answered] at streams
  refine ⟨?_, fun side own => ⟨fun e mem => ?_, fun r busy executes => ?_⟩, fun j other => ?_, fun other => ?_⟩
  · exact ((streams i).closed (by rw [closeStream_self])).trans (closeStream_self i c)
  · obtain ⟨f, inside, same⟩ := settled_queues mem
    rw [queueOf_of_same answered] at inside
    exact same ▸ closeStream_queue opened own inside
  · refine settled_busy before ?_
    rw [engineOf_of_same (answer_de ..)]
    exact closeStream_engine opened own busy executes
  · exact (closeStream_other opened other).trans (streams j)
  · have kept : (answer tag 0x04 .ok (closeStream i c)).sq.quiesce = c.sq.quiesce := by
      rw [answered]
      exact closeStream_quiesce opened
    rw [settled_quiesce before (by rw [kept]; exact other), kept]

/-- What a close leaves of the session, whatever the sequencer then chooses. -/
theorem streamClose_leaves {tag stream : Byte} {s : State} {i : Fin 8} (taken : takesRequest s) (named : stream.toNat = i.val)
    (opened : (streamOf i s).state ≠ .closed) : ∃ t, exec (.streamClose tag stream) s = .next t ∧
    drawingOnly (passed s) t ∧ t.lc.replies = s.lc.replies ++ [⟨tag, 0x04, .ok, []⟩] ∧ t.me.inProgress = none ∧
    streamOf i t = ⟨.closed, none, (streamOf i s).expected, none, false, none⟩ ∧
    (∀ side, (streamOf i s).side = some side → (∀ e ∈ queueOf side t, e.stream ≠ i) ∧
      ∀ r, engineOf side s = some r → r.stream = i → engineOf side t = some { r with removed := true }) ∧
    (∀ j : Fin 8, j ≠ i → (streamOf j t).expected = (streamOf j s).expected ∧
      (streamOf j t).rewind = (streamOf j s).rewind ∧ (streamOf j t).side = (streamOf j s).side) ∧
    (s.sq.quiesce ≠ .quiescing → t.sq.quiesce = s.sq.quiesce) ∧ t.fs.image = s.fs.image ∧ t.pu = s.pu := by
  have ⟨_, _, free, _⟩ := taken
  have runs := streamClose_next (tag := tag) taken named opened
  have asked : Handed (passed s) (count .reqTaken (passed s)) := count_handed _ _
  have streams (j : Fin 8) : streamOf j (count .reqTaken (passed s)) = streamOf j s := streamOf_count j _ _
  have engines (side : Side) : engineOf side (count .reqTaken (passed s)) = engineOf side s :=
    engineOf_of_same (count_de _ _) side
  have quiesce : (count .reqTaken (passed s)).sq.quiesce = s.sq.quiesce := congrArg Sequencer.quiesce (count_sq _ _)
  generalize count .reqTaken (passed s) = c at runs asked streams engines quiesce
  have closes : Handed (passed s) (closeStream i c) := asked.trans (closeStream_handed i c)
  have idle : (answer tag 0x04 .ok (closeStream i c)).me.inProgress = none := closes.inProgress.trans free
  have after := (settle_handed idle).trans (conclude_handed s _)
  obtain ⟨self, own, others, kept⟩ := close_leaves (before := s) (by rw [streams]; exact opened) tag rfl
  rw [streams] at self own
  simp only [streams, engines] at own others
  rw [quiesce] at kept
  exact ⟨_, runs, (closes.drawing.trans (answer_drawingOnly _ _ _ _)).trans after.drawing,
    after.replies.trans (congrArg (· ++ _) closes.replies), after.inProgress.trans idle, self, own,
    fun j other => ⟨(others j other).expected, (others j other).rewind, (others j other).side⟩, kept,
    after.image.trans closes.image, after.panel.trans closes.panel⟩

/-! ### The whole of a close (R44, R82, R97, R103) -/

section
variable {u v : State} {us : List SubEvent} (h : endsAs u us v)
include h

theorem endsAs.withoutEntries (i : Fin 8) : endsAs (withoutEntries i u) us (withoutEntries i v) := by
  unfold Machine.withoutEntries markRemovedOf
  rw [h.same_streamOf i]
  split
  · next side _ =>
    rw [h.same_queueOf side, engineOf_of_same (setQueue_de _ _ v), h.same_engineOf side, engineOf_of_same (setQueue_de _ _ u)]
    exact (h.setQueue side _).setEngine side _
  · exact h

theorem endsAs.leaveFault_absent {x : Side} {i : Fin 8}
    (absent : (recordOf x u).active = false ∨ (recordOf x u).waiting.getLsbD i.val = false) : endsAs u us (Machine.leaveFault x i v) := by
  rw [Machine.leaveFault_absent (by rwa [h.same_recordOf x])]
  exact h

theorem endsAs.releaseReservation_none {i : Fin 8} (unreserved : (streamOf i u).reservation = none) :
    endsAs u us (Machine.releaseReservation i v) := by
  unfold Machine.releaseReservation
  rw [h.same_streamOf i, unreserved]
  exact h

end

theorem endsAs.closed {u c : State} {us : List SubEvent} {i : Fin 8} (h : endsAs u us (givenUp i c)) :
    endsAs (Machine.setStream i ⟨.closed, none, (streamOf i u).expected, none, false, none⟩ u) us (closeStream i c) := by
  rw [closeStream_eq, closedRecord, h.same_streamOf i]
  exact h.setStream i _

/-- The session of which a STREAM_CLOSE frame has been taken, without the entries of the stream. -/
theorem taken_withoutEntries {i : Fin 8} {side : Side} {s v : State} (own : (streamOf i s).side = some side)
    (hv : v = setEngine side ((engineOf side s).map fun r => if r.stream = i then { r with removed := true } else r)
      (setQueue side ((queueOf side s).filter fun e => e.stream != i) s)) :
    endsAs (passed v) [.reqTaken] (withoutEntries i (count .reqTaken (passed s))) := by
  have ends := (taken_ends (passed s)).withoutEntries i
  rw [withoutEntries_side (s := passed s) own] at ends
  refine Eq.mp (congrArg (endsAs · _ _) ?_) ends
  rw [hv]
  cases side <;> rfl

/-- The record and the streams' state when the entries of a stream have been taken out. -/
theorem taken_record {i : Fin 8} {side : Side} {s v : State}
    (hv : v = setEngine side ((engineOf side s).map fun r => if r.stream = i then { r with removed := true } else r)
      (setQueue side ((queueOf side s).filter fun e => e.stream != i) s)) :
    v.tf = s.tf ∧ v.sq.streams = s.sq.streams ∧ v.tc = s.tc ∧ v.mn = s.mn := by
  rw [hv]
  cases side <;> exact ⟨rfl, rfl, rfl, rfl⟩

section
variable {p c : State} {us : List SubEvent} {i : Fin 8} (h : endsAs p us (withoutEntries i c))
include h

/-- The close of a stream in no waiting set and without a reservation. -/
theorem closes_plain (off : ∀ x, (recordOf x p).active = false ∨ (recordOf x p).waiting.getLsbD i.val = false)
    (unreserved : (streamOf i p).reservation = none) :
    endsAs (setStream i ⟨.closed, none, (streamOf i p).expected, none, false, none⟩ p) us (closeStream i c) :=
  (((h.leaveFault_absent (off .a)).leaveFault_absent (off .b)).releaseReservation_none unreserved).closed

/-- The close of a stream with a reservation. -/
theorem closes_reserved (off : ∀ x, (recordOf x p).active = false ∨ (recordOf x p).waiting.getLsbD i.val = false) {key : Word}
    {n : Fin 64} {w : Fin 4} (holds : (streamOf i p).reservation = some key) (found : foundAt key n w p) :
    endsAs (setStream i ⟨.closed, none, (streamOf i p).expected, none, false, none⟩ (released i n w p)) us (closeStream i c) := by
  have ends := (((h.leaveFault_absent (off .a)).leaveFault_absent (off .b)).releaseReservation holds found).closed
  have same : (streamOf i (released i n w p)).expected = (streamOf i p).expected := by rw [streamOf_released]
  rwa [same] at ends

/-- The fault that a closing stream leaves behind, and the other side's record that does not name it. -/
theorem left_both {q : State} {vs : List SubEvent} {x : Side}
    (off : (recordOf (otherSide x) p).active = false ∨ (recordOf (otherSide x) p).waiting.getLsbD i.val = false)
    (same : recordOf (otherSide x) q = recordOf (otherSide x) p)
    (left : ∀ v, endsAs p us v → endsAs q vs (leaveFault x i v)) :
    endsAs q vs (leaveFault .b i (leaveFault .a i (withoutEntries i c))) := by
  cases x with
  | a => exact (left _ h).leaveFault_absent (by rw [show Side.b = otherSide .a from rfl, same]; exact off)
  | b => exact left _ (h.leaveFault_absent off)

/-- The close of a stream that others wait with. -/
theorem closes_waiting {x : Side} (active : (recordOf x p).active = true) (member : (recordOf x p).waiting.getLsbD i.val = true)
    (off : (recordOf (otherSide x) p).active = false ∨ (recordOf (otherSide x) p).waiting.getLsbD i.val = false)
    (others : (recordOf x p).waiting ≠ BitVec.ofNat 8 (2 ^ i.val)) (unreserved : (streamOf i p).reservation = none) :
    endsAs (setStream i ⟨.closed, none, (streamOf i p).expected, none, false, none⟩ (setRecord x { recordOf x p with
      waiting := (recordOf x p).waiting &&& ~~~ BitVec.ofNat 8 (2 ^ i.val) } p)) us (closeStream i c) := by
  have streams (r : FaultRecord) : streamOf i (setRecord x r p) = streamOf i p := streamOf_of_same (setRecord_sq x r p) i
  have other (r : FaultRecord) : recordOf (otherSide x) (setRecord x r p) = recordOf (otherSide x) p := by cases x <;> rfl
  have left := left_both h (x := x) off (other _) fun v base => base.leaveFault active member others
  have ends := (left.releaseReservation_none (i := i) (by rw [streams]; exact unreserved)).closed
  rwa [streams] at ends

/-- The close of the last stream that waits for a fault. -/
theorem closes_last {x : Side} {dir : Vector TileSet 64} (active : (recordOf x p).active = true)
    (only : (recordOf x p).waiting = BitVec.ofNat 8 (2 ^ i.val))
    (off : (recordOf (otherSide x) p).active = false ∨ (recordOf (otherSide x) p).waiting.getLsbD i.val = false)
    (cleared : pendingCleared (recordOf x p).key p dir) (unreserved : (streamOf i p).reservation = none) :
    endsAs (setStream i ⟨.closed, none, (streamOf i p).expected, none, false, none⟩ (faultLost x dir p)) (us ++ [.cancelled])
      (closeStream i c) := by
  have woken : streamOf i (faultLost x dir p) = wokenByIdle x (streamOf i p) := Vector.getElem_ofFn _
  have kept : (wokenByIdle x (streamOf i p)).reservation = (streamOf i p).reservation ∧
      (wokenByIdle x (streamOf i p)).expected = (streamOf i p).expected := by
    unfold wokenByIdle
    split <;> exact ⟨rfl, rfl⟩
  have left := left_both h (x := x) off (by cases x <;> rfl) fun v base =>
    base.leaveFault_last active only cleared
  have ends := (left.releaseReservation_none (i := i) (by rw [woken, kept.1]; exact unreserved)).closed
  rwa [woken, kept.2] at ends

end

theorem pendingCleared_of_same {key : Word} {s t : State} {dir : Vector TileSet 64} (same : t.tc = s.tc)
    (cleared : pendingCleared key s dir) : pendingCleared key t dir := pendingCleared_of_dir (by rw [same]) cleared

/-- A stream in the waiting set of one record is in no other. -/
theorem waits_once {x : Side} {i : Fin 8} {s : State} (apart : s.tf.recA.waiting &&& s.tf.recB.waiting = 0)
    (member : (recordOf x s).waiting.getLsbD i.val = true) : (recordOf (otherSide x) s).waiting.getLsbD i.val = false := by
  have bit := congrArg (·.getLsbD i.val) apart
  rw [BitVec.getLsbD_and, show (0 : BitVec 8).getLsbD i.val = false from BitVec.getLsbD_zero] at bit
  cases x with
  | a => rw [show s.tf.recA.waiting.getLsbD i.val = true from member, Bool.true_and] at bit; exact bit
  | b => rw [show s.tf.recB.waiting.getLsbD i.val = true from member, Bool.and_true] at bit; exact bit

/-- Settles O37. -/
theorem streamsCloseWhereTheyStand : Obligations.StreamsCloseWhereTheyStand := by
  intro tag stream s taken
  refine ⟨fun beyond => request_replied taken (doStreamClose_beyond beyond tag _), fun i named => ⟨fun shut => ?_,
    streamClose_leaves taken named, fun side u v opened own hv => ⟨fun offA offB => ⟨fun unreserved' hu still => ?_,
      fun key n w holds found hu still => ?_⟩, fun x apart unreserved' active member => ⟨fun others hu still => ?_,
        fun dir only cleared hu still => ?_⟩⟩⟩⟩
  · refine request_replied taken ?_
    rw [doStreamClose_named named, if_neg (by rw [isOpen_eq_false (by rw [streamOf_count]; exact shut)]; decide)]
    rfl
  all_goals obtain ⟨tf, streams, tc, mn⟩ := taken_record hv
  all_goals have record (x : Side) : recordOf x (passed v) = recordOf x s := recordOf_of_same tf
  all_goals have stream : streamOf i (passed v) = streamOf i s := congrArg (·[i]) streams
  · refine streamClose_ends taken named opened still ?_
    have ends := closes_plain (taken_withoutEntries own hv) (fun x => by rw [record]; cases x; exacts [offA, offB])
      (by rw [stream]; exact unreserved')
    rw [stream] at ends
    rw [hu]
    exact ends
  · refine streamClose_ends taken named opened still ?_
    have ends := closes_reserved (taken_withoutEntries own hv) (fun x => by rw [record]; cases x; exacts [offA, offB])
      (by rw [stream]; exact holds) (foundAt_of_dir (t := passed v) found (congrArg TileCache.dir tc))
    rw [stream] at ends
    rw [hu]
    exact ends
  · refine streamClose_ends taken named opened still ?_
    have ends := closes_waiting (x := x) (taken_withoutEntries own hv) (by rw [record]; exact active) (by rw [record]; exact member)
      (by rw [record]; exact .inr (waits_once apart member)) (by rw [record]; exact others) (by rw [stream]; exact unreserved')
    rw [stream, record] at ends
    rw [hu]
    cases x <;> exact ends
  · refine streamClose_ends taken named opened still ?_
    have ends := closes_last (x := x) (taken_withoutEntries own hv) (by rw [record]; exact active) (by rw [record]; exact only)
      (by rw [record]; exact .inr (waits_once apart member)) (by rw [record]; exact pendingCleared_of_same tc cleared)
      (by rw [stream]; exact unreserved')
    rw [stream] at ends
    refine Eq.mp (congrArg (endsAs · _ _) ?_) ends
    have all : (Vector.ofFn fun j : Fin 8 => wokenByIdle x (streamOf j (passed v))).set i
          ⟨.closed, none, (streamOf i s).expected, none, false, none⟩ =
        Vector.ofFn fun j : Fin 8 => if j = i then ⟨.closed, none, (streamOf i s).expected, none, false, none⟩
          else wokenByIdle x (streamOf j s) := by
      rw [set_eq_ofFn]
      congr 1
      funext j
      have same : streamOf j (passed v) = streamOf j s := congrArg (·[j]) streams
      simp only [Fin.getElem_fin, Vector.getElem_ofFn, Fin.val_inj, same]
    rw [hu, ← all, ← mn]
    cases x <;> rfl

end Sys2Proof.Machine
end

section
/-! PROOFS. QUIESCE and the end of its drain (R61, R62); the settlement of O38. -/

namespace Sys2Proof.Machine

/-! ### The drain through an event -/

/-- In QUIESCING with its QUIESCE in progress: the request of tag and kind waits, the replies queued being rs. -/
structure Draining (tag kind : Byte) (rs : List Reply) (s : State) : Prop where
  quiesce : s.sq.quiesce = .quiescing
  current : s.me.inProgress = some ⟨tag, kind, .quiesce, false⟩
  replies : s.lc.replies = rs

/-- R62: a drain after an event: ended with its reply where nothing is left, else as it was. -/
abbrev drainsOn (tag kind : Byte) (rs : List Reply) (t : State) : Prop :=
  (nothingLeft t → t.sq.quiesce = .quiesced ∧ t.me.inProgress = none ∧ t.lc.replies = rs ++ [⟨tag, kind, .ok, []⟩]) ∧
    (¬ nothingLeft t → t.sq.quiesce = .quiescing ∧ t.me.inProgress = some ⟨tag, kind, .quiesce, false⟩ ∧ t.lc.replies = rs)

theorem nothingLeft_of_same {s t : State} (sq : t.sq.queueA = s.sq.queueA ∧ t.sq.queueB = s.sq.queueB) (de : t.de = s.de)
    (tf : t.tf = s.tf) : nothingLeft t ↔ nothingLeft s := by
  obtain ⟨queueA, queueB⟩ := sq
  unfold nothingLeft
  rw [queueA, queueB, de, tf]

theorem Apart.nothingLeft {s t : State} (h : Apart s t) : Machine.nothingLeft t ↔ Machine.nothingLeft s :=
  nothingLeft_of_same (by rw [h.sq]; exact ⟨rfl, rfl⟩) h.de h.tf

variable {tag kind : Byte} {rs : List Reply} {s t : State}

theorem Draining.of_same (h : Draining tag kind rs s) (quiesce : t.sq.quiesce = s.sq.quiesce)
    (current : t.me.inProgress = s.me.inProgress) (replies : t.lc.replies = s.lc.replies) : Draining tag kind rs t :=
  ⟨quiesce.trans h.quiesce, current.trans h.current, replies.trans h.replies⟩

/-- A drain with something left goes on. -/
theorem Draining.waits (h : Draining tag kind rs s) (left : ¬ nothingLeft s) : drainsOn tag kind rs s :=
  ⟨fun empty => absurd empty left, fun _ => ⟨h.quiesce, h.current, h.replies⟩⟩

theorem drainsOn_conclude (before : State) (h : drainsOn tag kind rs s) : drainsOn tag kind rs (conclude before s) := by
  have kept := conclude_handed before s
  have apart := conclude_apart before s
  unfold drainsOn
  rw [apart.nothingLeft, apart.sq, kept.inProgress, kept.replies]
  exact h

theorem checkDrain_drains (h : Draining tag kind rs s) : drainsOn tag kind rs (checkDrain s) := by
  unfold checkDrain
  split
  · next ends =>
    obtain ⟨ended, answered⟩ := endOp_current (op := .quiesce) (status := .ok) (s := { s with sq.quiesce := .quiesced }) h.current
    have empty : nothingLeft (endOp .quiesce .ok { s with sq.quiesce := .quiesced }) := by
      rw [endOp_rest]
      exact (drained_iff s).1 ends.2
    refine ⟨fun _ => ⟨?_, ended, ?_⟩, fun left => absurd empty left⟩
    · rw [endOp_sq]
    · rw [answered]
      exact congrArg (· ++ _) h.replies
  · next waits => exact h.waits fun empty => waits ⟨h.quiesce, (drained_iff s).2 empty⟩

/-- R62: the settling of an event ends the drain just where it leaves nothing. -/
theorem settle_drains (h : Draining tag kind rs s) : drainsOn tag kind rs (settle s) :=
  checkDrain_drains (h.of_same (handAll_hands s).quiesce (handAll_handed s).inProgress (handAll_handed s).replies)

/-! ### The events of a drain -/

theorem grantStore_sq (s : State) : (grantStore s).sq = s.sq := by
  unfold grantStore
  split
  · split
    · dsimp only
      split
      · rw [count_sq]
      · rfl
    · rfl
  · rfl

theorem grantStore_de (s : State) : (grantStore s).de = s.de := by
  unfold grantStore
  split
  · split
    · dsimp only
      split
      · rw [count_de]
      · rfl
    · rfl
  · rfl

theorem grantStore_tf (s : State) : (grantStore s).tf = s.tf := by
  unfold grantStore
  split
  · split
    · dsimp only
      split
      · rw [count_tf]
      · rfl
    · rfl
  · rfl

theorem drawn_sq (r : ExecRecord) (s : State) : (drawn r s).sq = s.sq := by
  rw [drawn, (markBlocks_apart _ _).sq, pixelsWritten_rest]

theorem drawn_de (r : ExecRecord) (s : State) : (drawn r s).de = s.de := by
  rw [drawn, (markBlocks_apart _ _).de, pixelsWritten_rest]

theorem drawn_tf (r : ExecRecord) (s : State) : (drawn r s).tf = s.tf := by
  rw [drawn, (markBlocks_apart _ _).tf, pixelsWritten_rest]

theorem drawn_inProgress (r : ExecRecord) (s : State) : (drawn r s).me.inProgress = s.me.inProgress := by
  rw [drawn, (markBlocks_apart _ _).inProgress, pixelsWritten_rest]

theorem drawn_lc (r : ExecRecord) (s : State) : (drawn r s).lc = s.lc := by
  rw [drawn, markBlocks, selectBlock_lc, pixelsWritten_rest]

theorem finishExecution_eq (side : Side) (r : ExecRecord) (s : State) : finishExecution side r s =
    grantStore (setEngine side none (count (drawnEvent r.command)
      (if r.removed then drawn r s else removeEntry side r (drawn r s)))) := rfl

theorem finishExecution_sq (side : Side) (r : ExecRecord) (s : State) :
    (finishExecution side r s).sq = (if r.removed then s else removeEntry side r s).sq := by
  rw [finishExecution_eq, grantStore_sq, setEngine_sq, count_sq]
  split
  · exact drawn_sq r s
  · unfold removeEntry
    rw [queueOf_of_same (drawn_sq r s)]
    cases side <;> simp only [setQueue, drawn_sq]

theorem finishExecution_de (side : Side) (r : ExecRecord) (s : State) :
    (finishExecution side r s).de = (setEngine side none s).de := by
  rw [finishExecution_eq, grantStore_de]
  have same : (count (drawnEvent r.command) (if r.removed then drawn r s else removeEntry side r (drawn r s))).de = s.de := by
    rw [count_de]
    split
    · exact drawn_de r s
    · exact (setQueue_de _ _ _).trans (drawn_de r s)
  cases side <;> simp only [setEngine, same]

theorem finishExecution_tf (side : Side) (r : ExecRecord) (s : State) : (finishExecution side r s).tf = s.tf := by
  rw [finishExecution_eq, grantStore_tf, setEngine_tf, count_tf]
  split
  · exact drawn_tf r s
  · exact (setQueue_tf _ _ _).trans (drawn_tf r s)

theorem finishExecution_draining (h : Draining tag kind rs s) (side : Side) (r : ExecRecord) :
    Draining tag kind rs (finishExecution side r s) := by
  have done := finishExecution_handed side r s
  refine h.of_same ?_ (done.inProgress.trans (drawn_inProgress r s)) (done.replies.trans (by rw [drawn_lc]))
  rw [finishExecution_sq]
  split
  · rfl
  · cases side <;> rfl

theorem skipHead_handed (s : State) (i : Fin 8) : Handed s (skipHead s i) := by
  unfold skipHead
  split
  · exact (setQueue_handed _ _ s).trans ((setStream_handed (by rw [streamOf_setQueue])).trans (count_handed _ _))
  · exact .refl s

theorem skipHead_quiesce (s : State) (i : Fin 8) : (skipHead s i).sq.quiesce = s.sq.quiesce := by
  unfold skipHead
  split
  · next side _ =>
    rw [count_sq]
    cases side <;> rfl
  · rfl

theorem Draining.handed (h : Draining tag kind rs s) (handed : Handed s t) (quiesce : t.sq.quiesce = s.sq.quiesce) :
    Draining tag kind rs t := h.of_same quiesce handed.inProgress handed.replies

theorem skipHeads_draining (l : List (Fin 8)) (h : Draining tag kind rs s) : Draining tag kind rs (l.foldl skipHead s) := by
  induction l generalizing s with
  | nil => exact h
  | cons i l ih => exact ih (h.handed (skipHead_handed s i) (skipHead_quiesce s i))

theorem setStale_draining (mask : BitVec 8) (h : Draining tag kind rs s) : Draining tag kind rs (setStale mask s) := by
  have raises := raiseEvent_apart .regionStale (mask.setWidth 24)
    (mapRegions (fun i r => if mask.getLsbD i.val then { r with stale := true } else r) s)
  exact h.of_same (congrArg Sequencer.quiesce raises.sq) raises.inProgress (congrArg LinkCtl.replies (raiseEvent_lc _ _ _))

theorem abandonFault_draining (side : Side) (h : Draining tag kind rs s) : Draining tag kind rs (abandonFault side s) := by
  have stale := setStale_draining (recordOf side s).waiting (skipHeads_draining (membersOf (recordOf side s).waiting) h)
  have cleared := stale.handed (mapEntry_handed clearPending_pinned _) (mapEntry_hands (recordOf side s).key clearPending _).quiesce
  exact cleared.handed ((goIdle_handed side _).trans ((count_handed .abandoned _).trans (trackLost_handed side _)))
    ((goIdle_hands side _).trans ((count_hands .abandoned _).trans (trackLost_apart side _).hands)).quiesce

theorem completeFault_quiesce (side : Side) (s : State) : (completeFault side s).sq.quiesce = s.sq.quiesce := by
  have marked := (mapEntry_hands (recordOf side s).key (fun e => { e with
    pending := false, reserve := e.reserve + (membersOf (recordOf side s).waiting).length }) s).quiesce
  have woken := ((goIdle_hands side (mapStreams (fun i x => if (recordOf side s).waiting.getLsbD i.val then
      { x with state := .ready, reservation := some (recordOf side s).key } else x)
    (mapEntry (recordOf side s).key (fun e => { e with
      pending := false, reserve := e.reserve + (membersOf (recordOf side s).waiting).length }) s))).trans
    ((count_hands .completed _).trans (trackComplete_apart side _).hands)).quiesce
  exact woken.trans marked

theorem fillPresent_draining (key : Word) (w : Fin 4) (sector : Nat) (data : List Byte) (h : Draining tag kind rs s) :
    Draining tag kind rs (fillPresent key w sector data s) := by
  have written : Draining tag kind rs (count .fillPresent (writeSector key w sector data s)) :=
    Draining.handed (s := writeSector key w sector data s) (h.of_same rfl rfl rfl) (count_handed _ _) (count_hands _ _).quiesce
  unfold fillPresent
  dsimp only
  split
  · refine written.handed (fillPassed_handed _ _ _) ?_
    unfold fillPassed
    split
    · split
      · exact completeFault_quiesce _ _
      · rfl
    · rfl
  · exact written

/-- An event that leaves the session as it is leaves the drain as it is. -/
theorem Draining.apart (h : Draining tag kind rs s) (left : ¬ nothingLeft s) (apart : Apart s t)
    (replies : t.lc.replies = s.lc.replies) : drainsOn tag kind rs t :=
  (h.of_same (congrArg Sequencer.quiesce apart.sq) apart.inProgress replies).waits (by rwa [apart.nothingLeft])

theorem Draining.counts (h : Draining tag kind rs s) (left : ¬ nothingLeft s) (x : SubEvent) : drainsOn tag kind rs (count x s) :=
  h.apart left (count_apart x s) (by rw [count_lc])

theorem allocateWay_session (key : Word) (w : Fin 4) (s : State) :
    (allocateWay key w s).sq = s.sq ∧ (allocateWay key w s).de = s.de ∧ (allocateWay key w s).tf = s.tf := by
  unfold allocateWay
  dsimp only
  split
  · exact ⟨count_sq _ _, count_de _ _, count_tf _ _⟩
  · exact ⟨rfl, rfl, rfl⟩

theorem fillAbsent_drains (key : Word) (sector : Nat) (data : List Byte) (h : Draining tag kind rs s) (left : ¬ nothingLeft s) :
    drainsOn tag kind rs (fillAbsent key sector data s) := by
  unfold fillAbsent
  split
  · next w _ =>
    have taken : Draining tag kind rs (allocateWay key w s) := h.handed (allocateWay_handed key w s) (allocateWay_hands key w s).quiesce
    obtain ⟨sq, de, tf⟩ := allocateWay_session key w s
    have left' : ¬ nothingLeft (writeSector key w sector data (allocateWay key w s)) := fun empty =>
      left ((nothingLeft_of_same (t := allocateWay key w s) (by rw [sq]; exact ⟨rfl, rfl⟩) de tf).1 empty)
    exact Draining.counts (s := writeSector key w sector data (allocateWay key w s)) (taken.of_same rfl rfl rfl) left' _
  · exact h.counts left _

theorem doTile_drains (key : Word) (sector : Byte) (data : List Byte) (h : Draining tag kind rs s) (left : ¬ nothingLeft s) :
    drainsOn tag kind rs (doTile key sector data s) := by
  unfold doTile
  split
  · exact h.counts left _
  · split
    · exact h.counts left _
    · split
      · exact settle_drains (fillPresent_draining key _ _ data h)
      · exact fillAbsent_drains key _ data h left

theorem ifAttached_drains {run : State → State} (runs : drainsOn tag kind rs (run s)) (h : Draining tag kind rs s)
    (left : ¬ nothingLeft s) : drainsOn tag kind rs (ifAttached run s) := by
  unfold ifAttached
  split
  · exact runs
  · exact h.counts left _

/-- A frame whose dispatch lets the drain go on, or ends it, does so in every state of the link. -/
theorem frame_drains {dispatch : State → State} (h : Draining tag kind rs s) (left : ¬ nothingLeft s)
    (up : drainsOn tag kind rs (dispatch (passed s))) :
    ∃ t, frameArrival (passFrame dispatch) s = .next t ∧ drainsOn tag kind rs t := by
  rcases closes : assembles s with _ | _
  · exact ⟨s, frameArrival_none _ closes, h.waits left⟩
  · refine ⟨_, frameArrival_eq _ closes, drainsOn_conclude s ?_⟩
    rcases link : s.lc.link with _ | _ | _ | _
    case framing =>
      rw [passFrame_framing _ link]
      split
      · exact Draining.counts (s := { s with
          lc.link := .up, lc.framingCount := s.lc.framingCount + 1, lc.failureCount := 0 }) (h.of_same rfl rfl rfl) left .linkUp
      · exact Draining.waits (s := { s with lc.framingCount := s.lc.framingCount + 1 }) (h.of_same rfl rfl rfl) left
    case up =>
      rw [passFrame_up _ link]
      exact up
    all_goals exact absurd closes (by simp [assembles, link])

theorem tile_drains (key : Word) (sector : Byte) (data : List Byte) (h : Draining tag kind rs s) (left : ¬ nothingLeft s) :
    ∃ t, exec (.tile key sector data) s = .next t ∧ drainsOn tag kind rs t := by
  have passes : Draining tag kind rs (passed s) := h.of_same rfl rfl rfl
  by_cases length : data.length = 128
  · rw [exec_tile length]
    exact frame_drains h left (ifAttached_drains (doTile_drains key sector data passes left) passes left)
  · rw [exec_unspellable ((wf_false_iff _).2 (.inr (.inl ⟨key, sector, data, rfl, length⟩)))]
    exact frame_drains h left (passes.counts left .badFrame)

theorem executionEnd_drains (side : Side) (h : Draining tag kind rs s) (left : ¬ nothingLeft s) :
    ∃ t, exec (.executionEnd side) s = .next t ∧ drainsOn tag kind rs t := by
  rw [exec_executionEnd]
  unfold execExecutionEnd
  split
  · next r _ =>
    split
    · exact ⟨_, rfl, drainsOn_conclude s (settle_drains (finishExecution_draining h side r))⟩
    · exact ⟨s, rfl, h.waits left⟩
  · exact ⟨s, rfl, h.waits left⟩

theorem faultExpires_active {side : Side} (expires : faultExpires side s = true) : (recordOf side s).active = true := by
  simp only [faultExpires, Bool.and_eq_true] at expires
  exact expires.1.2

theorem nothingLeft_records (empty : nothingLeft s) (side : Side) : (recordOf side s).active = false := by
  obtain ⟨_, _, _, _, recA, recB⟩ := empty
  cases side
  exacts [recA, recB]

theorem faultTimerExpiry_drains (side : Side) (h : Draining tag kind rs s) (left : ¬ nothingLeft s) :
    ∃ t, exec (.faultTimerExpiry side) s = .next t ∧ drainsOn tag kind rs t := by
  change ∃ t, execFaultTimerExpiry side s = .next t ∧ _
  unfold execFaultTimerExpiry
  split
  · next expires =>
    refine ⟨_, rfl, drainsOn_conclude s ?_⟩
    unfold expireFault
    split
    · have active : (recordOf side (retryFault side s)).active = true := by
        unfold retryFault
        rw [recordOf_of_same (count_tf _ _), recordOf_setRecord]
        exact faultExpires_active expires
      refine Draining.waits (h.handed ((setRecord_handed side _ s).trans (count_handed .retried _))
        ((setRecord_hands side _ s).trans (count_hands .retried _)).quiesce) fun empty => ?_
      exact Bool.false_ne_true ((nothingLeft_records empty side).symm.trans active)
    · exact settle_drains (abandonFault_draining side h)
  · exact ⟨s, rfl, h.waits left⟩

/-- The end of the last execution of a drain leaves nothing (R62). -/
theorem finishExecution_last {side : Side} {r : ExecRecord}
    (last : r.removed = true ∧ queueOf side s = [] ∨
      r.removed = false ∧ ∃ e, queueOf side s = [e] ∧ e.stream = r.stream ∧ e.seq = r.seq ∧ e.pos = r.pos)
    (otherQueue : queueOf (otherSide side) s = []) (otherEngine : engineOf (otherSide side) s = none)
    (recA : s.tf.recA.active = false) (recB : s.tf.recB.active = false) : nothingLeft (finishExecution side r s) := by
  have queue : queueOf side (finishExecution side r s) = [] := by
    rw [queueOf_of_same (finishExecution_sq side r s)]
    rcases last with ⟨removed, empty⟩ | ⟨removed, e, single, stream, seq, pos⟩
    · rw [if_pos removed, empty]
    · have named : r.names e = true := by simp [ExecRecord.names, stream, seq, pos]
      rw [if_neg (by rw [removed]; decide), removeEntry, queueOf_setQueue_self, single, List.eraseP_cons_of_pos named]
  have other : queueOf (otherSide side) (finishExecution side r s) = [] := by
    rw [queueOf_of_same (finishExecution_sq side r s)]
    split
    · exact otherQueue
    · rw [removeEntry, queueOf_setQueue_other]
      exact otherQueue
  have engine : engineOf side (finishExecution side r s) = none := by
    rw [engineOf_of_same (finishExecution_de side r s), engineOf_setEngine_self]
  have others : engineOf (otherSide side) (finishExecution side r s) = none := by
    rw [engineOf_of_same (finishExecution_de side r s), engineOf_setEngine_other]
    exact otherEngine
  have faults := finishExecution_tf side r s
  cases side with
  | a => exact ⟨queue, other, engine, others, by rw [faults]; exact recA, by rw [faults]; exact recB⟩
  | b => exact ⟨other, queue, others, engine, by rw [faults]; exact recA, by rw [faults]; exact recB⟩

theorem handAll_nothingLeft (empty : nothingLeft s) : handAll s = s := by
  obtain ⟨queueA, queueB, _⟩ := empty
  refine handAll_none fun side _ e mem => ?_
  cases side
  · rw [show queueOf .a s = [] from queueA] at mem
    exact absurd mem List.not_mem_nil
  · rw [show queueOf .b s = [] from queueB] at mem
    exact absurd mem List.not_mem_nil

theorem doQuiesce_running {tag : Byte} (running : s.sq.quiesce = .running) :
    doQuiesce tag s = checkDrain (beginLong tag 0x05 .quiesce { s with sq.quiesce := .quiescing }) :=
  if_neg (by rw [running]; decide)

theorem exec_quiesce (tag : Byte) (s : State) : exec (.quiesce tag) s = requestArrival tag 0x05 (doQuiesce tag) s := by rfl

theorem idle_eq (idle : s.me.inProgress = none) : { s with me.inProgress := none } = s := by
  have same : s.me = { s.me with inProgress := none } := by rw [← idle]
  exact congrArg (fun m => { s with me := m }) same.symm

theorem quiesceTaken_nothingLeft (tag : Byte) (s : State) :
    nothingLeft (beginLong tag 0x05 .quiesce { count .reqTaken (passed s) with sq.quiesce := .quiescing }) ↔ nothingLeft s := by
  have counted := (count_apart .reqTaken (passed s)).nothingLeft
  generalize count .reqTaken (passed s) = c at counted
  exact counted

/-- Settles O38. -/
theorem quiesceWaitsForTheDrain : Obligations.QuiesceWaitsForTheDrain := by
  refine ⟨fun tag s taken => ⟨fun quiesced => ?_, fun running empty => ?_, fun running left => ?_⟩,
    fun c side tag kind s quiescing current left runs => ?_,
    fun side tag kind s r quiescing current busy writing last otherQueue otherEngine recA recB => ?_⟩
  · refine request_replied taken (if_pos ?_)
    rw [count_sq]
    exact quiesced
  · have ⟨_, _, idle, _⟩ := taken
    rw [exec_quiesce]
    refine request_ends taken ?_
    have asked := (((taken_ends (passed s)).sq fun q => { q with quiesce := .quiescing }).beginLong tag 0x05 .quiesce)
    have drains : drained (beginLong tag 0x05 .quiesce { count .reqTaken (passed s) with
        sq.quiesce := .quiescing }) = true := by
      exact (drained_iff _).2 ((quiesceTaken_nothingLeft tag s).2 empty)
    rw [doQuiesce_running (by rw [count_sq]; exact running), checkDrain, if_pos ⟨rfl, drains⟩]
    have ends := (asked.sq fun q => { q with quiesce := .quiesced }).endOp .quiesce .ok
    refine Eq.mp (congrArg (endsAs · _ _) ?_) ends
    have same : ({ s with me.inProgress := none } : State) = s := idle_eq idle
    conv_rhs => rw [← same]
    rfl
  · rw [exec_quiesce]
    refine request_ends taken ?_
    have waits : beginLong tag 0x05 .quiesce { count .reqTaken (passed s) with sq.quiesce := .quiescing } =
        doQuiesce tag (count .reqTaken (passed s)) := by
      rw [doQuiesce_running (by rw [count_sq]; exact running)]
      exact (checkDrain_waits fun _ empty => left ((quiesceTaken_nothingLeft tag s).1 empty)).symm
    rw [← waits]
    exact ((taken_ends (passed s)).sq fun q => { q with quiesce := .quiescing }).beginLong tag 0x05 .quiesce
  · have drain : Draining tag kind s.lc.replies s := ⟨quiescing, current, rfl⟩
    rw [current]
    rcases runs with rfl | rfl | ⟨key, sector, data, rfl⟩
    · exact executionEnd_drains side drain left
    · exact faultTimerExpiry_drains side drain left
    · exact tile_drains key sector data drain left
  · have drain := finishExecution_draining (rs := s.lc.replies) ⟨quiescing, current, rfl⟩ side r
    have empty := finishExecution_last last otherQueue otherEngine recA recB
    have ended := drainsOn_conclude s (settle_drains drain)
    have empty' : nothingLeft (conclude s (settle (finishExecution side r s))) := by
      rw [(conclude_apart s _).nothingLeft, settle, handAll_nothingLeft empty, checkDrain]
      split
      · rw [endOp_rest]
        exact empty
      · exact empty
    refine ⟨conclude s (settle (finishExecution side r s)), ?_, empty', ended.1 empty'⟩
    rw [exec_executionEnd, execExecutionEnd, busy]
    exact if_pos writing

end Sys2Proof.Machine
end

section
/-! PROOFS. The commands that a DRAW payload spells (section 11.4), and an in-order frame that is taken (R46, R53); the settlement of
O20. -/

namespace Sys2Proof.Machine

/-! ### Fields of several bytes (section 0.6.3) -/

theorem word_bit (b0 b1 b2 b3 : Byte) (k : Nat) : (word b0 b1 b2 b3).getLsbD k =
    if k < 8 then b0.getLsbD k else if k < 16 then b1.getLsbD (k - 8) else if k < 24 then b2.getLsbD (k - 16)
      else b3.getLsbD (k - 24) := by
  change (b3 ++ (b2 ++ (b1 ++ b0))).getLsbD k = _
  rw [BitVec.getLsbD_append, BitVec.getLsbD_append, BitVec.getLsbD_append]
  grind

theorem word_le32 (v : Word) : word (v.extractLsb' 0 8) (v.extractLsb' 8 8) (v.extractLsb' 16 8) (v.extractLsb' 24 8) = v := by
  refine BitVec.eq_of_getLsbD_eq fun k bound => ?_
  rw [word_bit]
  split_ifs with h0 h1 h2
  · simp [h0]
  · simp [show k - 8 < 8 by omega, show 8 + (k - 8) = k by omega]
  · simp [show k - 16 < 8 by omega, show 16 + (k - 16) = k by omega]
  · simp [show k - 24 < 8 by omega, show 24 + (k - 24) = k by omega]

theorem le32_word (b0 b1 b2 b3 : Byte) : le32 (word b0 b1 b2 b3) = [b0, b1, b2, b3] := by
  have byte (n : Nat) (x : Byte) (bits : ∀ k, k < 8 → (word b0 b1 b2 b3).getLsbD (n + k) = x.getLsbD k) :
      (word b0 b1 b2 b3).extractLsb' n 8 = x := by
    refine BitVec.eq_of_getLsbD_eq fun k bound => ?_
    rw [BitVec.getLsbD_extractLsb', bits k bound]
    simp [bound]
  unfold le32
  rw [byte 0 b0 fun k bound => ?_, byte 8 b1 fun k bound => ?_, byte 16 b2 fun k bound => ?_, byte 24 b3 fun k bound => ?_]
  · rw [word_bit, if_neg (by omega), if_neg (by omega), if_neg (by omega), show 24 + k - 24 = k by omega]
  · rw [word_bit, if_neg (by omega), if_neg (by omega), if_pos (by omega), show 16 + k - 16 = k by omega]
  · rw [word_bit, if_neg (by omega), if_pos (by omega), show 8 + k - 8 = k by omega]
  · rw [word_bit, if_pos (by omega), Nat.zero_add]

theorem take_bytes {n : Nat} {bs : List Byte} (long : n ≤ bs.length) : bs.take n = (List.range n).map (byteAt bs) := by
  refine List.ext_getElem (by simp [long]) fun k inside _ => ?_
  rw [List.length_take] at inside
  have bound : k < bs.length := by omega
  simp [byteAt, bound]

theorem coordinate_eq (v : Half) : coordinate v = coordinate12 v := by
  have low : (v.setWidth 12).toNat = v.toNat % 4096 := BitVec.toNat_setWidth 12 v
  unfold coordinate coordinate12
  rw [BitVec.toInt, low]
  by_cases small : v.toNat % 4096 < 2048
  · rw [if_pos (by omega), if_pos small]
  · rw [if_neg (by omega), if_neg small]
    rfl

theorem sizeOf11_eq (v : Half) : sizeOf11 v = v.toNat % 2048 + 1 := congrArg (· + 1) (BitVec.toNat_setWidth 11 v)

/-! ### One command (section 11.4) -/

theorem parseCommand_spelled {c : DrawCommand} {part : List Byte} (spells : spellsDraw c part) (rest : List Byte) :
    parseCommand (part ++ rest) = some (c, rest) := by
  have le16 (v : Half) : half (v.extractLsb' 0 8) (v.extractLsb' 8 8) = v := half_le16 v
  unfold parseCommand
  simp only [coordinate_eq, sizeOf11_eq]
  rcases spells with ⟨key, a, b, rfl, rfl⟩ | ⟨key, a, b, k, rfl, rfl⟩ | ⟨k, a, b, w, h, rfl, rfl⟩ | ⟨a, b, rfl, rfl⟩
  · refine (if_pos ⟨rfl, by simp [Machine.le16, le32]⟩).trans ?_
    simp [Machine.le16, le32, wordAt, halfAt, byteAt, word_le32, le16]
  · refine (if_neg (by simp [byteAt])).trans ((if_pos ⟨rfl, by simp [Machine.le16, le32]⟩).trans ?_)
    simp [Machine.le16, le32, wordAt, halfAt, byteAt, word_le32, le16]
  · refine (if_neg (by simp [byteAt])).trans ((if_neg (by simp [byteAt])).trans
      ((if_pos ⟨rfl, by simp [Machine.le16]⟩).trans ?_))
    simp [Machine.le16, halfAt, byteAt, le16]
  · refine (if_neg (by simp [byteAt])).trans ((if_neg (by simp [byteAt])).trans ((if_neg (by simp [byteAt])).trans
      ((if_pos ⟨rfl, by simp [Machine.le16]⟩).trans ?_)))
    simp [Machine.le16, halfAt, byteAt, le16]

theorem parseCommand_some {c : DrawCommand} {bs rest : List Byte} (read : parseCommand bs = some (c, rest)) :
    ∃ part, spellsDraw c part ∧ bs = part ++ rest := by
  have split' {n : Nat} {part : List Byte} (long : n ≤ bs.length) (bytes : (List.range n).map (byteAt bs) = part) :
      bs = part ++ bs.drop n := by
    rw [← bytes, ← take_bytes long, List.take_append_drop]
  unfold parseCommand at read
  simp only [coordinate_eq, sizeOf11_eq] at read
  split at read
  · next form =>
    obtain ⟨rfl, rfl⟩ := Prod.mk.inj (Option.some_inj.1 read)
    refine ⟨_, .inl ⟨_, _, _, rfl, rfl⟩, split' form.2 ?_⟩
    simp only [wordAt, halfAt, le32_word, le16_half, ← form.1]
    rfl
  · split at read
    · next form =>
      obtain ⟨rfl, rfl⟩ := Prod.mk.inj (Option.some_inj.1 read)
      refine ⟨_, .inr (.inl ⟨_, _, _, _, rfl, rfl⟩), split' form.2 ?_⟩
      simp only [wordAt, halfAt, le32_word, le16_half, ← form.1]
      rfl
    · split at read
      · next form =>
        obtain ⟨rfl, rfl⟩ := Prod.mk.inj (Option.some_inj.1 read)
        refine ⟨_, .inr (.inr (.inl ⟨_, _, _, _, _, rfl, rfl⟩)), split' form.2 ?_⟩
        simp only [halfAt, le16_half, ← form.1]
        rfl
      · split at read
        · next form =>
          obtain ⟨rfl, rfl⟩ := Prod.mk.inj (Option.some_inj.1 read)
          refine ⟨_, .inr (.inr (.inr ⟨_, _, rfl, rfl⟩)), split' form.2 ?_⟩
          simp only [halfAt, le16_half, ← form.1]
          rfl
        · exact absurd read (Option.some_ne_none _).symm

theorem spellsDraw_ne_nil {c : DrawCommand} {part : List Byte} (spells : spellsDraw c part) : part ≠ [] := by
  rcases spells with ⟨_, _, _, _, rfl⟩ | ⟨_, _, _, _, _, rfl⟩ | ⟨_, _, _, _, _, _, rfl⟩ | ⟨_, _, _, rfl⟩ <;>
    exact List.cons_ne_nil _ _

/-! ### The commands of a payload (R50, section 11.4) -/

theorem parts_of_nil {cs : List DrawCommand} {parts : List (List Byte)} (spells : List.Forall₂ spellsDraw cs parts)
    (empty : parts.flatten = []) : cs = [] := by
  cases spells with
  | nil => rfl
  | cons first _ => exact absurd (List.append_eq_nil_iff.1 empty).1 (spellsDraw_ne_nil first)

theorem parseCommands_iff (n : Nat) (bs : List Byte) (cs : List DrawCommand) : parseCommands n bs = some cs ↔
    cs.length ≤ n ∧ ∃ parts : List (List Byte), parts.flatten = bs ∧ List.Forall₂ spellsDraw cs parts := by
  induction n generalizing bs cs with
  | zero =>
    cases bs with
    | nil =>
      refine ⟨fun read => ?_, fun ⟨_, parts, empty, spells⟩ => ?_⟩
      · obtain rfl := Option.some_inj.1 read
        exact ⟨Nat.le_refl _, [], rfl, .nil⟩
      · exact congrArg some (parts_of_nil spells empty).symm
    | cons b rest =>
      refine ⟨fun read => absurd read (Option.some_ne_none _).symm, fun ⟨few, parts, flat, spells⟩ => ?_⟩
      obtain rfl := List.length_eq_zero_iff.1 (Nat.le_zero.1 few)
      cases spells
      exact absurd flat.symm (List.cons_ne_nil _ _)
  | succ n ih =>
    cases bs with
    | nil =>
      refine ⟨fun read => ?_, fun ⟨_, parts, empty, spells⟩ => ?_⟩
      · obtain rfl := Option.some_inj.1 read
        exact ⟨Nat.zero_le _, [], rfl, .nil⟩
      · exact congrArg some (parts_of_nil spells empty).symm
    | cons b rest =>
      refine ⟨fun read => ?_, fun ⟨few, parts, flat, spells⟩ => ?_⟩
      · unfold parseCommands at read
        rcases first : parseCommand (b :: rest) with _ | ⟨c, after⟩
        · rw [first] at read
          exact absurd read (Option.some_ne_none _).symm
        · rw [first] at read
          obtain ⟨cs', reads, rfl⟩ := Option.map_eq_some_iff.1 read
          obtain ⟨part, spell, split'⟩ := parseCommand_some first
          obtain ⟨few, parts, flat, spells⟩ := (ih after cs').1 reads
          exact ⟨Nat.succ_le_succ few, part :: parts, by rw [List.flatten_cons, flat, split'], .cons spell spells⟩
      · cases spells with
        | nil => exact absurd flat.symm (List.cons_ne_nil _ _)
        | @cons c part cs' parts' spell spells =>
          have first : parseCommand (b :: rest) = some (c, parts'.flatten) := by
            rw [← flat, List.flatten_cons]
            exact parseCommand_spelled spell _
          unfold parseCommands
          rw [first]
          exact Option.map_eq_some_iff.2 ⟨cs', (ih _ _).2 ⟨Nat.le_of_succ_le_succ few, parts', rfl, spells⟩, rfl⟩

theorem parseDraw_iff (bs : List Byte) (cs : List DrawCommand) :
    parseDraw bs = some cs ↔ 1 ≤ cs.length ∧ parseCommands 8 bs = some cs := by
  unfold parseDraw
  rcases read : parseCommands 8 bs with _ | _ | ⟨c, rest⟩
  · simp
  · refine ⟨fun h => absurd h (Option.some_ne_none _).symm, fun ⟨some', h⟩ => ?_⟩
    obtain rfl := Option.some_inj.1 h
    exact absurd some' (by decide)
  · refine ⟨fun h => ?_, fun ⟨_, h⟩ => h⟩
    obtain rfl := Option.some_inj.1 h
    exact ⟨Nat.succ_le_succ (Nat.zero_le _), rfl⟩

theorem forall₂_iff_getElem? {α β : Type} {r : α → β → Prop} (xs : List α) (ys : List β) : List.Forall₂ r xs ys ↔
    ys.length = xs.length ∧ ∀ (k : Nat) (x : α) (y : β), xs[k]? = some x → ys[k]? = some y → r x y := by
  rw [List.forall₂_iff_get]
  refine ⟨fun ⟨length, each⟩ => ⟨length.symm, fun k x y hx hy => ?_⟩, fun ⟨length, each⟩ => ⟨length.symm, fun k hx hy => ?_⟩⟩
  · obtain ⟨bound, rfl⟩ := List.getElem?_eq_some_iff.1 hx
    obtain ⟨bound', rfl⟩ := List.getElem?_eq_some_iff.1 hy
    exact each k bound bound'
  · exact each k _ _ (List.getElem?_eq_getElem hx) (List.getElem?_eq_getElem hy)

/-! ### A frame that is taken (R46, R53) -/

theorem settle_running_handed {s : State} (running : s.sq.quiesce = .running) : Handed s (settle s) := by
  unfold settle
  rw [checkDrain_not_quiescing (by rw [(handAll_hands s).quiesce, running]; decide)]
  exact handAll_handed s

/-- A stream's record may change in an event that leaves the picture. -/
theorem setStream_pictureKept (i : Fin 8) (r : Stream) (s : State) : PictureKept s (setStream i r s) :=
  ⟨⟨rfl, fun _ => ⟨rfl, rfl, rfl, rfl⟩, eventsKept_of_same rfl rfl, fun _ => rfl⟩, rfl, rfl⟩

/-- R53: the record of a stream once a frame with its number has been taken. -/
def advanced (seq : Half) (r : Stream) : Stream := { r with
  expected := seq + 1
  rewind := if r.rewind = some .gap ∨ r.rewind = some .shed then none else r.rewind
  renewed := if r.rewind = some .gap ∨ r.rewind = some .shed then false else r.renewed }

/-- R46, R53: the state once the commands of a frame have joined the tail of a side queue. -/
def joined (side : Side) (i : Fin 8) (seq : Half) (cs : List DrawCommand) (s : State) : State :=
  setStream i (advanced seq (streamOf i s)) (setQueue side (queueOf side s ++ cs.zipIdx.map fun c => ⟨i, seq, c.2, c.1, false⟩) s)

section
variable {side : Side} {i : Fin 8} {seq : Half} {s : State} (expected : seq = (streamOf i s).expected)
include expected

theorem takeFrame_eq (cs : List DrawCommand) :
    takeFrame side i seq cs s = settle (count .accepted (joined side i seq cs s)) := by
  unfold takeFrame joined advanced entriesOf
  dsimp only
  rw [← expected]

theorem judgeDraw_inOrder (opened : isOpen i s = true) (own : (streamOf i s).side = some side) (running : s.sq.quiesce = .running)
    (cs : List DrawCommand) : judgeDraw i seq cs s = inOrder side i seq cs s := by
  have same : seq - (streamOf i s).expected = 0 := by
    rw [expected, BitVec.sub_self]
    rfl
  unfold judgeDraw
  rw [own]
  dsimp only
  rw [opened, same, if_neg (by decide), if_neg (fun other => other running), if_pos rfl]

end

theorem hasRoom_iff {side : Side} {n : Nat} {s : State} : hasRoom side n s = true ↔ (queueOf side s).length + n ≤ 24 :=
  decide_eq_true_iff

theorem isOpen_of_closed {i : Fin 8} {s t : State} (same : (streamOf i t).state = .closed ↔ (streamOf i s).state = .closed) :
    isOpen i t = isOpen i s := by
  unfold isOpen
  rw [Bool.eq_iff_iff, bne_iff_ne, bne_iff_ne]
  exact not_congr same

theorem streamOf_joined (side : Side) (i j : Fin 8) (seq : Half) (cs : List DrawCommand) (s : State) :
    streamOf j (joined side i seq cs s) = if j = i then advanced seq (streamOf i s) else streamOf j s := by
  rw [joined, streamOf_setStream, streamOf_setQueue]

theorem joined_quiesce (side : Side) (i : Fin 8) (seq : Half) (cs : List DrawCommand) (s : State) :
    (joined side i seq cs s).sq.quiesce = s.sq.quiesce := by cases side <;> rfl

/-- What the taking of a frame leaves, whatever the sequencer then chooses. -/
theorem joined_settles {before s : State} (side : Side) (i : Fin 8) (seq : Half) (cs : List DrawCommand)
    (running : s.sq.quiesce = .running) :
    PictureKept s (conclude before (settle (count .accepted (joined side i seq cs s)))) ∧
      (∀ j, StreamKept (streamOf j (joined side i seq cs s))
        (streamOf j (conclude before (settle (count .accepted (joined side i seq cs s)))))) ∧
      (conclude before (settle (count .accepted (joined side i seq cs s)))).sq.quiesce = .running ∧
      (conclude before (settle (count .accepted (joined side i seq cs s)))).lc.replies = s.lc.replies ∧
      (conclude before (settle (count .accepted (joined side i seq cs s)))).me.inProgress = s.me.inProgress := by
  have counted := count_apart .accepted (joined side i seq cs s)
  have runs : (count .accepted (joined side i seq cs s)).sq.quiesce = .running := by
    rw [counted.sq, joined_quiesce, running]
  have handed := (count_handed .accepted (joined side i seq cs s)).trans ((settle_running_handed runs).trans (conclude_handed before _))
  have queued : PictureKept s (joined side i seq cs s) :=
    (setQueue_handed side _ s).pictureKept.trans (setStream_pictureKept i _ _)
  have plain : (joined side i seq cs s).lc = s.lc ∧ (joined side i seq cs s).me = s.me := by cases side <;> exact ⟨rfl, rfl⟩
  refine ⟨queued.trans handed.pictureKept, fun j => ?_, ?_, handed.replies.trans (by rw [plain.1]),
    handed.inProgress.trans (by rw [plain.2])⟩
  · rw [← streamOf_count j .accepted]
    exact settled_streams before _ j
  · rw [settled_quiesce before (by rw [runs]; decide), runs]

/-- Settles O20. -/
theorem drawFramesInOrderAreTaken : Obligations.DrawFramesInOrderAreTaken := by
  refine ⟨fun bs cs => ?_, fun stream seq commands s i cs side up attached some' short named read opened own running expected room => ?_⟩
  · rw [parseDraw_iff, parseCommands_iff]
    simp only [forall₂_iff_getElem?]
  have taken : doDraw stream seq commands (passed s) = settle (count .accepted (joined side i seq cs (passed s))) := by
    rw [doDraw_wellFormed named read, judgeDraw_inOrder (s := passed s) expected opened own running, inOrder,
      if_pos (hasRoom_iff (s := passed s).2 room), takeFrame_eq (s := passed s) expected]
  refine ⟨fun u hu still => ?_, ?_⟩
  · refine draw_ends up attached ⟨some', short⟩ ?_
    have ends : endsAs u [.accepted] (count .accepted (joined side i seq cs (passed s))) := by
      have effect : joined side i seq cs (passed s) = u := by
        rw [hu]
        rfl
      exact effect ▸ (endsAs_refl (joined side i seq cs (passed s))).count .accepted
    rw [taken, settle_settled (ends.settled still)]
    exact ends
  · obtain ⟨kept, streams, runs, replies, inProgress⟩ := joined_settles (before := s) (s := passed s) side i seq cs running
    have each (j : Fin 8) := streams j
    simp only [streamOf_joined] at each
    refine ⟨_, ?_, kept.drawing, ?_, fun j other => ?_, fun j => ?_, runs, kept.image, kept.panel, replies, inProgress⟩
    · rw [exec_draw_fits (List.length_pos_iff.1 some') short, frameArrival_eq _ (assembles_up up), passFrame_up _ up,
        ifAttached_yes _ (by exact attached), taken]
    · have self := (each i).expected
      rw [if_pos rfl] at self
      exact self
    · have keeps := each j
      rw [if_neg other] at keeps
      exact ⟨keeps.expected, keeps.rewind⟩
    · have keeps := each j
      by_cases same : j = i
      · subst same
        rw [if_pos rfl] at keeps
        exact ⟨keeps.side, isOpen_of_closed keeps.isOpen⟩
      · rw [if_neg same] at keeps
        exact ⟨keeps.side, isOpen_of_closed keeps.isOpen⟩

end Sys2Proof.Machine
end

section
/-! PROOFS. The shed rule (R56, R57); the settlement of O21. -/

namespace Sys2Proof.Machine

/-! ### The victim (R56) -/

/-- One step of the search for the victim. -/
def fullerOf (side : Side) (s : State) (best : Option (Fin 8)) (i : Fin 8) : Option (Fin 8) :=
  if shedCandidate side s i then
    match best with
    | some b => if queued b s < queued i s then some i else some b
    | none => some i
  else best

theorem shedVictim_eq (side : Side) (s : State) : shedVictim side s = (List.finRange 8).foldl (fullerOf side s) none := rfl

theorem fullerOf_none {side : Side} {s : State} (none' : ∀ i, shedCandidate side s i = false) (l : List (Fin 8)) :
    l.foldl (fullerOf side s) none = none := by
  induction l with
  | nil => rfl
  | cons i l ih =>
    have skip : fullerOf side s none i = none := if_neg (by rw [none' i]; decide)
    rw [List.foldl_cons, skip, ih]

section
variable {side : Side} {s : State} {v : Fin 8} (candidate : shedCandidate side s v = true)
  (fullest : ∀ j, shedCandidate side s j = true → queued j s < queued v s ∨ (queued j s = queued v s ∧ v ≤ j))
include candidate fullest

omit candidate in
theorem fullerOf_stays (l : List (Fin 8)) : l.foldl (fullerOf side s) (some v) = some v := by
  induction l with
  | nil => rfl
  | cons i l ih =>
    have stays : fullerOf side s (some v) i = some v := by
      unfold fullerOf
      split
      · next can =>
        refine if_neg fun fuller => ?_
        rcases fullest i can with less | ⟨same, _⟩
        · exact lt_asymm less fuller
        · exact absurd fuller (by rw [same]; exact lt_irrefl _)
      · rfl
    rw [List.foldl_cons, stays, ih]

theorem fullerOf_meets (l : List (Fin 8)) (sorted : l.Pairwise (· < ·)) (mem : v ∈ l) (best : Option (Fin 8))
    (less : ∀ b ∈ best, queued b s < queued v s) : l.foldl (fullerOf side s) best = some v := by
  induction l generalizing best with
  | nil => exact absurd mem List.not_mem_nil
  | cons i l ih =>
    rw [List.foldl_cons]
    by_cases same : i = v
    · subst same
      have met : fullerOf side s best i = some i := by
        unfold fullerOf
        rw [if_pos candidate]
        cases best with
        | none => rfl
        | some b => exact if_pos (less b rfl)
      rw [met]
      exact fullerOf_stays fullest l
    · have later := (List.mem_cons.1 mem).resolve_left fun e => same e.symm
      refine ih (List.pairwise_cons.1 sorted).2 later _ fun b best' => ?_
      have before : i < v := (List.pairwise_cons.1 sorted).1 v later
      unfold fullerOf at best'
      split at best'
      · next can =>
        have lessI : queued i s < queued v s :=
          (fullest i can).resolve_right fun ⟨_, behind⟩ => absurd before (not_lt.2 behind)
        cases best with
        | none => obtain rfl := Option.some_inj.1 best'; exact lessI
        | some a =>
          dsimp only at best'
          split at best'
          · obtain rfl := Option.some_inj.1 best'; exact lessI
          · obtain rfl := Option.some_inj.1 best'; exact less _ rfl
      · exact less b best'

theorem shedVictim_fullest : shedVictim side s = some v :=
  fullerOf_meets candidate fullest _ (List.pairwise_lt_finRange 8) (List.mem_finRange v) none nofun

end

/-! ### The entries shed (R57) -/

theorem younger_eq {v : Fin 8} {q : List Entry} {old : Entry} (oldest : (q.find? fun e => e.stream == v) = some old) (e : Entry) :
    younger v q e = (e.stream == v && e.seq != old.seq) := by
  have seq : oldestSeq v q = some old.seq := by rw [oldestSeq, oldest]; rfl
  unfold younger
  rw [seq]
  congr 1
  rw [Bool.eq_iff_iff, bne_iff_ne, bne_iff_ne]
  exact ⟨fun h same => h (by rw [same]), fun h same => h (Option.some_inj.1 same).symm⟩

theorem waits_iff (x : StreamState) : x.waits = true ↔ x = .waitTile ∨ x = .waitSlot ∨ x = .waitWay := by
  cases x <;> decide

theorem queued_of_side {j : Fin 8} {side : Side} {s : State} (own : (streamOf j s).side = some side) :
    queued j s = ((queueOf side s).filter fun e => e.stream == j).length := by
  unfold queued
  rw [own]
  exact List.countP_eq_length_filter

theorem shedCandidate_iff (side : Side) (s : State) (j : Fin 8) : shedCandidate side s j = true ↔
    (streamOf j s).side = some side ∧
      ((streamOf j s).state = .waitTile ∨ (streamOf j s).state = .waitSlot ∨ (streamOf j s).state = .waitWay) ∧
      s.settings.shedThreshold < ((queueOf side s).filter fun e => e.stream == j).length ∧
      ∃ old, ((queueOf side s).find? fun e => e.stream == j) = some old ∧
        ∃ e ∈ queueOf side s, e.stream = j ∧ e.seq ≠ old.seq := by
  unfold shedCandidate
  rw [Bool.and_eq_true, Bool.and_eq_true, Bool.and_eq_true, beq_iff_eq, waits_iff, decide_eq_true_iff, List.any_eq_true, and_assoc,
    and_assoc]
  refine and_congr_right fun own => and_congr_right fun _ => ?_
  rw [queued_of_side own]
  refine and_congr_right fun _ => ⟨fun ⟨e, mem, young⟩ => ?_, fun ⟨old, oldest, e, mem, stream, seq⟩ => ⟨e, mem, ?_⟩⟩
  · have stream : e.stream = j := by
      unfold younger at young
      exact beq_iff_eq.1 (Bool.and_eq_true_iff.1 young).1
    obtain ⟨old, oldest⟩ := Option.isSome_iff_exists.1 (List.find?_isSome.2
      (⟨e, mem, beq_iff_eq.2 stream⟩ : ∃ e ∈ queueOf side s, (e.stream == j) = true))
    rw [younger_eq oldest] at young
    exact ⟨old, oldest, e, mem, stream, bne_iff_ne.1 (Bool.and_eq_true_iff.1 young).2⟩
  · rw [younger_eq oldest, Bool.and_eq_true, beq_iff_eq, bne_iff_ne]
    exact ⟨stream, seq⟩

/-- R57: the state once the younger entries of a victim have been shed, the counts aside. -/
def shedding (side : Side) (v : Fin 8) (kept : List Entry) (resume : Half) (s : State) : State :=
  setStream v { streamOf v s with
    expected := resume, rewind := some .shed
    renewed := (streamOf v s).renewed || s.lc.tx.any fun x => x.item == .rewind v } (setQueue side kept s)

section
variable {side : Side} {v : Fin 8} {s : State} {old : Entry} (oldest : ((queueOf side s).find? fun e => e.stream == v) = some old)
  {kept gone : List Entry} (hkept : kept = (queueOf side s).filter fun e => e.stream != v || e.seq == old.seq)
  (hgone : gone = (queueOf side s).filter fun e => e.stream == v && e.seq != old.seq) {resume : Half}
  (hresume : gone.head?.map Entry.seq = some resume)
include oldest hkept hgone hresume

theorem shedStream_eq : shedStream side v s =
    countN .commandsShed gone.length (count .shedRun (shedding side v kept resume s)) := by
  have goes : (fun e => younger v (queueOf side s) e) = fun e => e.stream == v && e.seq != old.seq := funext (younger_eq oldest)
  have stays : (fun e => !younger v (queueOf side s) e) = fun e => e.stream != v || e.seq == old.seq := by
    funext e
    rw [younger_eq oldest, Bool.not_and, bne, bne, Bool.not_not]
  unfold shedStream
  dsimp only
  rw [stays, show (queueOf side s).filter (younger v (queueOf side s)) = gone from hgone ▸ congrArg (List.filter · _) goes, hresume,
    ← hkept, Option.getD_some]
  unfold shedding flagRewind
  rw [streamOf_setStream_self, streamOf_setQueue]
  cases side <;> simp [setStream, setQueue, Vector.set_set]

theorem shedStream_ends : endsAs (shedding side v kept resume s)
    ([.shedRun] ++ List.replicate gone.length .commandsShed) (shedStream side v s) := by
  rw [shedStream_eq oldest hkept hgone hresume]
  exact ((endsAs_refl _).count .shedRun).countN .commandsShed gone.length

theorem shedStream_tx : (shedStream side v s).lc.tx = s.lc.tx := by
  rw [shedStream_eq oldest hkept hgone hresume, countN_lc, count_lc]
  cases side <;> rfl

end

theorem shedding_apart (side : Side) (v : Fin 8) (kept : List Entry) (resume : Half) (s : State) :
    shedding side v kept resume s = { s with sq := (shedding side v kept resume s).sq } := by cases side <;> rfl

theorem shedding_pictureKept (side : Side) (v : Fin 8) (kept : List Entry) (resume : Half) (s : State) :
    PictureKept s (shedding side v kept resume s) :=
  (setQueue_handed side kept s).pictureKept.trans (setStream_pictureKept v _ _)

theorem streamOf_shedding (side : Side) (v j : Fin 8) (kept : List Entry) (resume : Half) (s : State) :
    streamOf j (shedding side v kept resume s) = if j = v then { streamOf v s with
      expected := resume, rewind := some .shed
      renewed := (streamOf v s).renewed || s.lc.tx.any fun x => x.item == .rewind v } else streamOf j s := by
  rw [shedding, streamOf_setStream, streamOf_setQueue]

theorem queueOf_shedding (side : Side) (v : Fin 8) (kept : List Entry) (resume : Half) (s : State) (x : Side) :
    queueOf x (shedding side v kept resume s) = if x = side then kept else queueOf x s := by
  cases side <;> cases x <;> rfl

theorem endsAs.flagRewind {u v : State} {us : List SubEvent} (h : endsAs u us v) (lane : v.lc.tx = u.lc.tx) (reason : RewindReason)
    (i : Fin 8) : endsAs (flagRewind reason i u) us (Machine.flagRewind reason i v) := by
  unfold Machine.flagRewind
  dsimp only
  rw [h.same_streamOf i, lane]
  exact h.setStream i _

theorem endsAs.joined {u v : State} {us : List SubEvent} (h : endsAs u us v) (side : Side) (i : Fin 8) (seq : Half)
    (cs : List DrawCommand) : endsAs (joined side i seq cs u) us (Machine.joined side i seq cs v) := by
  unfold Machine.joined
  rw [h.same_streamOf i, h.same_queueOf side]
  exact (h.setQueue side _).setStream i _

/-- What the end of an event leaves of a state u of which only the session's streams and queues differ from before. -/
theorem session_leaves {s u t : State} {us : List SubEvent} (ends : endsAs u us t) (rest : u = { s with sq := u.sq })
    (kept : PictureKept s u) : drawingOnly s t ∧ countedAs us s t ∧ t.sq = u.sq ∧ t.de = s.de ∧ t.tc = s.tc ∧ t.tf = s.tf ∧
      t.fs = s.fs ∧ t.pu = s.pu ∧ t.me.inProgress = s.me.inProgress ∧ t.lc.replies = s.lc.replies := by
  have booked : Handed u t := .of_bookkeeping ends.1 ends.2.1
  have whole (q : Sequencer) (hq : q = u.sq) : u = { s with sq := q } := hq ▸ rest
  obtain ⟨q, hq⟩ : ∃ q, q = u.sq := ⟨_, rfl⟩
  have same := whole q hq
  refine ⟨kept.drawing.trans booked.drawing, countedAs_of_same ends.2.2 (by rw [same]) (by rw [same]), ends.same_sq,
    ends.same_de.trans (by rw [same]), ends.same_tc.trans (by rw [same]), ends.same_tf.trans (by rw [same]),
    ends.same_fs.trans (by rw [same]), booked.panel.trans kept.panel, booked.inProgress.trans (by rw [same]),
    booked.replies.trans (by rw [same])⟩

/-! ### The frame that arrived (R57) -/

theorem shed_order (n : Nat) (x : SubEvent) : ([SubEvent.shedRun] ++ List.replicate n SubEvent.commandsShed ++ [x]).Perm
    ([SubEvent.shedRun, x] ++ List.replicate n SubEvent.commandsShed) :=
  (List.perm_append_comm (l₁ := List.replicate n SubEvent.commandsShed) (l₂ := [x])).cons _

section
variable {side : Side} {i v : Fin 8} {seq : Half} {cs : List DrawCommand} {s : State} {old : Entry}
  (full : hasRoom side cs.length s = false) (victim : shedVictim side s = some v)
  (oldest : ((queueOf side s).find? fun e => e.stream == v) = some old)
  {kept gone : List Entry} (hkept : kept = (queueOf side s).filter fun e => e.stream != v || e.seq == old.seq)
  (hgone : gone = (queueOf side s).filter fun e => e.stream == v && e.seq != old.seq) {resume : Half}
  (hresume : gone.head?.map Entry.seq = some resume)
include full victim oldest hkept hgone hresume

/-- The victim is the stream whose frame arrived: the frame is discarded. -/
theorem inOrder_sheds_self (self : v = i) : endsAs (shedding side v kept resume s)
    ([.shedRun, .noRoom] ++ List.replicate gone.length .commandsShed) (inOrder side i seq cs s) := by
  rw [inOrder, if_neg (by rw [full]; decide), victim]
  dsimp only
  rw [if_pos self]
  exact ((shedStream_ends oldest hkept hgone hresume).count .noRoom).perm (shed_order _ _)

omit full victim in
theorem hasRoom_shed : hasRoom side cs.length (shedStream side v s) = true ↔ kept.length + cs.length ≤ 24 := by
  rw [hasRoom_iff, (shedStream_ends oldest hkept hgone hresume).same_queueOf side, queueOf_shedding, if_pos rfl]

/-- The shed made no room: the frame is discarded and its stream flagged. -/
theorem inOrder_sheds_refused (other : v ≠ i) (lacks : ¬ kept.length + cs.length ≤ 24) :
    endsAs (flagRewind .gap i (shedding side v kept resume s))
      ([.shedRun, .noRoom] ++ List.replicate gone.length .commandsShed) (inOrder side i seq cs s) := by
  have room := hasRoom_shed (cs := cs) oldest hkept hgone hresume
  have base : (shedding side v kept resume s).lc.tx = s.lc.tx := by cases side <;> rfl
  rw [inOrder, if_neg (by rw [full]; decide), victim]
  dsimp only
  rw [if_neg other, if_neg (mt room.1 lacks), refuseForRoom]
  exact (((shedStream_ends oldest hkept hgone hresume).count .noRoom).flagRewind
    (by rw [count_lc, shedStream_tx oldest hkept hgone hresume, base]) .gap i).perm (shed_order _ _)

/-- The shed made room: the frame is taken. -/
theorem inOrder_sheds_taken (other : v ≠ i) (fits : kept.length + cs.length ≤ 24) (expected : seq = (streamOf i s).expected)
    (still : settled (joined side i seq cs (shedding side v kept resume s))) :
    endsAs (joined side i seq cs (shedding side v kept resume s))
      ([.shedRun, .accepted] ++ List.replicate gone.length .commandsShed) (inOrder side i seq cs s) := by
  have room := hasRoom_shed (cs := cs) oldest hkept hgone hresume
  have sheds := shedStream_ends oldest hkept hgone hresume
  have accepted := (sheds.joined side i seq cs).count .accepted
  rw [inOrder, if_neg (by rw [full]; decide), victim]
  dsimp only
  rw [if_neg other, if_pos (room.2 fits), takeFrame_eq (by
    rw [sheds.same_streamOf i, streamOf_shedding, if_neg (Ne.symm other)]
    exact expected), settle_settled (accepted.settled still)]
  exact accepted.perm (shed_order _ _)

end

/-- A frame taken after a shed leaves the sequencer no choice where the queue that it joins leaves it none. -/
theorem shed_settled {side : Side} {i v : Fin 8} {seq : Half} {cs : List DrawCommand} {s : State} {kept : List Entry} {resume : Half}
    (other : v ≠ i) (running : s.sq.quiesce = .running)
    (hands : nothingToHand (setQueue side (kept ++ cs.zipIdx.map fun c => ⟨i, seq, c.2, c.1, false⟩) s)) :
    settled (joined side i seq cs (shedding side v kept resume s)) := by
  refine ⟨fun x free e inside => ?_, fun quiescing => ?_⟩
  · have queue : queueOf x (joined side i seq cs (shedding side v kept resume s)) =
        queueOf x (setQueue side (kept ++ cs.zipIdx.map fun c => ⟨i, seq, c.2, c.1, false⟩) s) := by
      have base := queueOf_shedding side v kept resume s side
      rw [if_pos rfl] at base
      rw [joined, queueOf_setStream, base]
      cases side <;> cases x <;> rfl
    have state : (streamOf e.stream (joined side i seq cs (shedding side v kept resume s))).state = (streamOf e.stream s).state := by
      rw [streamOf_joined, streamOf_shedding, streamOf_shedding, if_neg (Ne.symm other)]
      split
      · next same => rw [same]; rfl
      · split
        · next same => rw [same]
        · rfl
    have engine : engineOf x s = none := by
      rw [← free]
      cases side <;> cases x <;> rfl
    rw [state]
    rw [queue] at inside
    have waits := hands x (by rw [engineOf_of_same (setQueue_de _ _ s)]; exact engine) e inside
    rwa [streamOf_setQueue] at waits
  · have still : (joined side i seq cs (shedding side v kept resume s)).sq.quiesce = s.sq.quiesce := by
      rw [joined_quiesce]
      cases side <;> rfl
    exact absurd (quiescing.symm.trans (still.trans running)) (by decide)

/-- Settles O21. -/
theorem aFrameWithoutRoomSheds : Obligations.AFrameWithoutRoomSheds := by
  intro stream seq commands s i cs side up attached some' short named read opened own running expected full held cand hheld hcand
  have noRoom : hasRoom side cs.length (passed s) = false :=
    Bool.eq_false_iff.2 fun room => absurd (hasRoom_iff.1 room) (Nat.not_le.2 full)
  have judged : doDraw stream seq commands (passed s) = inOrder side i seq cs (passed s) := by
    rw [doDraw_wellFormed named read, judgeDraw_inOrder (s := passed s) expected opened own running]
  have candidates (j : Fin 8) : shedCandidate side (passed s) j = true ↔ cand j = true := by
    rw [hcand, hheld]
    exact shedCandidate_iff side (passed s) j
  refine ⟨fun none' => ?_, fun v chosen fullest old kept gone oldest hkept hgone hands => ?_⟩
  · refine draw_ends up attached ⟨some', short⟩ ?_
    have victim : shedVictim side (passed s) = none := fullerOf_none (fun j => Bool.eq_false_iff.2 fun can =>
      absurd ((candidates j).1 can) (by rw [none' j]; decide)) _
    rw [judged, inOrder, if_neg (by rw [noRoom]; decide), victim]
    exact (((endsAs_refl (passed s)).count .shedNone).count .noRoom).flagRewind (by rw [count_lc, count_lc]) .gap i
  · have victim : shedVictim side (passed s) = some v := by
      refine shedVictim_fullest ((candidates v).2 chosen) fun j can => ?_
      have less := fullest j ((candidates j).1 can)
      rw [hheld, hheld] at less
      rw [queued_of_side ((shedCandidate_iff _ _ _).1 can).1, queued_of_side ((shedCandidate_iff _ _ _).1 ((candidates v).2 chosen)).1]
      exact less
    obtain ⟨own', waits, _, old', oldest', e, mem, stream', young⟩ := (hcand v).1 chosen
    obtain rfl : old' = old := Option.some_inj.1 (oldest'.symm.trans oldest)
    obtain ⟨resume, hresume⟩ : ∃ resume, gone.head?.map Entry.seq = some resume := by
      have inside : e ∈ gone := by
        rw [hgone, List.mem_filter, Bool.and_eq_true, beq_iff_eq, bne_iff_ne]
        exact ⟨mem, stream', young⟩
      cases gone with
      | nil => exact absurd inside List.not_mem_nil
      | cons first _ => exact ⟨first.seq, rfl⟩
    have streams (j : Fin 8) := streamOf_shedding side v j kept resume (passed s)
    have queues (x : Side) := queueOf_shedding side v kept resume (passed s) x
    have picture := shedding_pictureKept side v kept resume (passed s)
    rcases eq_or_ne v i with self | other
    · obtain ⟨t, runs, ends⟩ := draw_ends up attached ⟨some', short⟩ (by
        rw [judged]
        exact inOrder_sheds_self (s := passed s) noRoom victim oldest hkept hgone hresume self)
      obtain ⟨drawing, counted, sq, de, tc, tf, fs, pu, inProgress, replies⟩ :=
        session_leaves ends (shedding_apart side v kept resume (passed s)) picture
      have streamsT (j : Fin 8) := streamOf_of_same sq j
      have queuesT (x : Side) := queueOf_of_same sq x
      refine ⟨t, runs, drawing, ?_, ?_, ?_, fun _ => ⟨?_, fun apart => absurd self apart, counted⟩, fun apart => absurd self apart, ?_,
        fun j offV _ => ?_, de, tc, tf, fs, pu, inProgress, replies⟩
      · rw [streamsT, streams, if_pos rfl]
      · rw [streamsT, streams, if_pos rfl]
        rfl
      · rw [streamsT, streams, if_pos rfl]
        exact hresume
      · rw [queuesT, queues, if_pos rfl]
      · rw [queuesT, queues]
        cases side <;> rfl
      · rw [streamsT, streams, if_neg offV]
        rfl
    · by_cases fits : kept.length + cs.length ≤ 24
      · obtain ⟨u, hu⟩ : ∃ u, u = joined side i seq cs (shedding side v kept resume (passed s)) := ⟨_, rfl⟩
        have rest : u = { passed s with sq := u.sq } := by
          rw [hu]
          cases side <;> rfl
        have kept' : PictureKept (passed s) u := by
          rw [hu]
          exact picture.trans ((setQueue_handed side _ _).pictureKept.trans (setStream_pictureKept i _ _))
        have streams' (j : Fin 8) : streamOf j u = if j = i then advanced seq (streamOf i s)
            else streamOf j (shedding side v kept resume (passed s)) := by
          rw [hu, streamOf_joined, streams i, if_neg (Ne.symm other)]
          rfl
        have queues' (x : Side) : queueOf x u =
            if x = side then kept ++ (cs.zipIdx.map fun c => ⟨i, seq, c.2, c.1, false⟩) else queueOf x s := by
          rw [hu, joined, queueOf_setStream]
          have base := queues side
          rw [if_pos rfl] at base
          rw [base]
          cases side <;> cases x <;> rfl
        obtain ⟨t, runs, ends⟩ := draw_ends up attached ⟨some', short⟩ (u := u) (by
          rw [judged, hu]
          exact inOrder_sheds_taken (s := passed s) noRoom victim oldest hkept hgone hresume other fits expected
            (shed_settled (s := passed s) other running (by cases side <;> exact hands other fits)))
        obtain ⟨drawing, counted, sq, de, tc, tf, fs, pu, inProgress, replies⟩ := session_leaves ends rest kept'
        have streamsT (j : Fin 8) := streamOf_of_same sq j
        have queuesT (x : Side) := queueOf_of_same sq x
        refine ⟨t, runs, drawing, ?_, ?_, ?_, fun lacks => ?_, fun _ _ => ⟨?_, ?_, counted⟩, ?_,
          fun j offV offI => ?_, de, tc, tf, fs, pu, inProgress, replies⟩
        · rw [streamsT, streams', if_neg other, streams, if_pos rfl]
        · rw [streamsT, streams', if_neg other, streams, if_pos rfl]
          rfl
        · rw [streamsT, streams', if_neg other, streams, if_pos rfl]
          exact hresume
        · exact absurd lacks (not_or.2 ⟨other, Nat.not_lt.2 fits⟩)
        · rw [queuesT, queues', if_pos rfl]
        · rw [streamsT, streams', if_pos rfl]
          rfl
        · rw [queuesT, queues']
          cases side <;> rfl
        · rw [streamsT, streams', if_neg offI, streams, if_neg offV]
          rfl
      · obtain ⟨u, hu⟩ : ∃ u, u = flagRewind .gap i (shedding side v kept resume (passed s)) := ⟨_, rfl⟩
        have rest : u = { passed s with sq := u.sq } := by
          rw [hu]
          cases side <;> rfl
        have kept' : PictureKept (passed s) u := by
          rw [hu]
          exact picture.trans (setStream_pictureKept i _ _)
        have streams' (j : Fin 8) : streamOf j u = if j = i then { streamOf i s with
            rewind := some .gap
            renewed := (streamOf i s).renewed || (shedding side v kept resume (passed s)).lc.tx.any fun t => t.item == .rewind i }
            else streamOf j (shedding side v kept resume (passed s)) := by
          rw [hu, flagRewind, streamOf_setStream, streams i, if_neg (Ne.symm other)]
          rfl
        have queues' (x : Side) : queueOf x u = if x = side then kept else queueOf x s := by
          rw [hu, flagRewind, queueOf_setStream, queues]
          rfl
        obtain ⟨t, runs, ends⟩ := draw_ends up attached ⟨some', short⟩ (u := u) (by
          rw [judged, hu]
          exact inOrder_sheds_refused (s := passed s) noRoom victim oldest hkept hgone hresume other fits)
        obtain ⟨drawing, counted, sq, de, tc, tf, fs, pu, inProgress, replies⟩ := session_leaves ends rest kept'
        have streamsT (j : Fin 8) := streamOf_of_same sq j
        have queuesT (x : Side) := queueOf_of_same sq x
        refine ⟨t, runs, drawing, ?_, ?_, ?_, fun _ => ⟨?_, fun _ => ⟨?_, ?_⟩, counted⟩, fun _ fits' => absurd fits' fits, ?_,
          fun j offV offI => ?_, de, tc, tf, fs, pu, inProgress, replies⟩
        · rw [streamsT, streams', if_neg other, streams, if_pos rfl]
        · rw [streamsT, streams', if_neg other, streams, if_pos rfl]
          rfl
        · rw [streamsT, streams', if_neg other, streams, if_pos rfl]
          exact hresume
        · rw [queuesT, queues', if_pos rfl]
        · rw [streamsT, streams', if_pos rfl]
        · rw [streamsT, streams', if_pos rfl]
          exact expected.symm
        · rw [queuesT, queues']
          cases side <;> rfl
        · rw [streamsT, streams', if_neg offI, streams, if_neg offV]
          rfl

end Sys2Proof.Machine
end

section
/-! PROOFS. One handover in an event (R47, R109 to R111, R114): the event whose only choice it is, the engine that takes an entry, and the
commands that complete at once; the settlement of O22. -/

namespace Sys2Proof.Machine

/-! ### An event with one handover -/

theorem eligible_of_same {s t : State} (sq : t.sq = s.sq) (de : t.de = s.de) (side : Side) : eligible side t = eligible side s := by
  unfold eligible
  simp only [engineOf_of_same de, queueOf_of_same sq, streamOf_of_same sq]

theorem handFuel_one {side : Side} {e : Entry} {s : State} (chosen : eligible side s = some e)
    (other : eligible (otherSide side) s = none) (hands : nothingToHand (handOver side e s)) (fuel : Nat) :
    handFuel (fuel + 1) s = handOver side e s := by
  cases side with
  | a =>
    have other' : eligible .b s = none := other
    simp only [handFuel, chosen, other']
    exact handFuel_none (eligible_none (hands .a)) (eligible_none (hands .b)) fuel
  | b =>
    have other' : eligible .a s = none := other
    simp only [handFuel, chosen, other']
    exact handFuel_none (eligible_none (hands .a)) (eligible_none (hands .b)) fuel

/-- Where one engine can be handed an entry, and nothing more after it, that handover is all that the sequencer does. -/
theorem handAll_one {side : Side} {e : Entry} {s : State} (chosen : eligible side s = some e)
    (other : eligible (otherSide side) s = none) (hands : nothingToHand (handOver side e s))
    (same : engineOf (otherSide side) (handOver side e s) = engineOf (otherSide side) s) : handAll s = handOver side e s := by
  have each : handEach s = handOver side e s := handFuel_one chosen other hands _
  have both : bothTook s (handOver side e s) = false := by
    unfold bothTook
    cases side with
    | a =>
      have same' : (handOver .a e s).de.engineB = s.de.engineB := same
      rw [same']
      cases s.de.engineB <;> simp
    | b =>
      have same' : (handOver .b e s).de.engineA = s.de.engineA := same
      rw [same']
      cases s.de.engineA <;> simp
  unfold handAll
  dsimp only
  rw [each, both]
  rfl

/-- The same of the settling of an event that ends as u does but for its bookkeeping. -/
theorem settle_one {side : Side} {e : Entry} {u v w : State} {us vs : List SubEvent} (h : endsAs u us v)
    (chosen : eligible side u = some e) (other : eligible (otherSide side) u = none)
    (handed : endsAs w vs (handOver side e v)) (still : settled w)
    (same : engineOf (otherSide side) w = engineOf (otherSide side) u) : endsAs w vs (settle v) := by
  have hands := handed.settled still
  have one : handAll v = handOver side e v := by
    refine handAll_one ?_ ?_ hands.1 ?_
    · rw [eligible_of_same h.same_sq h.same_de, chosen]
    · rw [eligible_of_same h.same_sq h.same_de, other]
    · rw [handed.same_engineOf, h.same_engineOf, same]
  rw [settle, one, checkDrain_waits hands.2]
  exact handed

/-! ### The engine that takes an entry (R114) -/

/-- R25, R114: the frame store once the engine of a side has asked for it, no writer waiting for a free one. -/
def engineAsks (side : Side) (s : State) : State := { s with
  fs.holder := if s.fs.holder = none then some (.engine side) else s.fs.holder
  fs.began := if s.fs.holder = none then s.free else s.fs.began
  fs.waiting := if s.fs.holder = none then [] else s.fs.waiting ++ [.engine side] }

theorem askStore_engine {side : Side} {s : State} (queue : s.fs.holder = none → s.fs.waiting = []) :
    askStore (.engine side) s = engineAsks side s := by
  unfold askStore engineAsks
  by_cases free : s.fs.holder = none
  · rw [if_pos free, if_pos free, if_pos free, grantStore, if_pos (by show s.fs.holder.isNone = true; rw [free]; rfl), queue free]
    rfl
  · rw [if_neg free, if_neg free, if_neg free, grantStore, if_neg (by show ¬ s.fs.holder.isNone = true; simpa using free)]

theorem endsAs.engineAsks {u v : State} {us : List SubEvent} (h : endsAs u us v) (side : Side) :
    endsAs (engineAsks side u) us (engineAsks side v) :=
  h.map (Machine.engineAsks side) (fun _ _ _ _ => rfl) (fun _ => rfl) (fun _ => rfl) (fun _ => rfl) fun _ => rfl

theorem endsAs.beginExecution {u v : State} {us : List SubEvent} (h : endsAs u us v) (side : Side) (r : ExecRecord)
    (queue : u.fs.holder = none → u.fs.waiting = []) :
    endsAs (Machine.engineAsks side (Machine.setEngine side (some r) (Machine.setQueue side (markExecuting r (queueOf side u)) u))) us
      (beginExecution side r v) := by
  have fs : (Machine.setEngine side (some r) (Machine.setQueue side (markExecuting r (queueOf side v)) v)).fs = u.fs := by
    rw [setEngine_fs, setQueue_fs, h.same_fs]
  unfold Machine.beginExecution
  rw [askStore_engine (by rw [fs]; exact queue), h.same_queueOf side]
  exact ((h.setQueue side _).setEngine side _).engineAsks side

theorem endsAs.removeEntry {u v : State} {us : List SubEvent} (h : endsAs u us v) (side : Side) (r : ExecRecord) :
    endsAs (removeEntry side r u) us (Machine.removeEntry side r v) := by
  unfold Machine.removeEntry
  rw [h.same_queueOf side]
  exact h.setQueue side _

/-- With an engine busy and no entry to hand to the other, the sequencer has no choice to make. -/
theorem settled_of_busy {side : Side} {s : State} (busy : (engineOf side s).isSome = true)
    (other : engineOf (otherSide side) s = none → ∀ e ∈ queueOf (otherSide side) s, (streamOf e.stream s).state ≠ .ready) :
    settled s := by
  refine ⟨fun x free => ?_, fun _ empty => ?_⟩
  · have differs : x ≠ side := fun same => by rw [← same, free] at busy; exact absurd busy (by decide)
    obtain rfl : x = otherSide side := by
      cases x <;> cases side
      exacts [absurd rfl differs, rfl, rfl, absurd rfl differs]
    exact other free
  · obtain ⟨_, _, engineA, engineB, _⟩ := empty
    cases side
    · exact absurd busy (by rw [show engineOf .a s = none from engineA]; decide)
    · exact absurd busy (by rw [show engineOf .b s = none from engineB]; decide)

/-! ### A command that arrives alone (R46, R47) -/

theorem names_recordFor (e : Entry) (r : Region) (f : Entry) :
    (recordFor e r).names f = (f.stream == e.stream && f.seq == e.seq && f.pos == e.pos) := by
  have same : (recordFor e r).stream = e.stream ∧ (recordFor e r).seq = e.seq ∧ (recordFor e r).pos = e.pos := by
    unfold recordFor
    dsimp only
    split <;> exact ⟨rfl, rfl, rfl⟩
  obtain ⟨stream, seq, pos⟩ := same
  unfold ExecRecord.names
  rw [stream, seq, pos]

theorem markExecuting_last {r : ExecRecord} {q : List Entry} {e : Entry} (others : ∀ f ∈ q, r.names f = false)
    (named : r.names e = true) : markExecuting r (q ++ [e]) = q ++ [{ e with executing := true }] := by
  induction q with
  | nil => exact if_pos named
  | cons f q ih =>
    have skips : markExecuting r (f :: (q ++ [e])) = f :: markExecuting r (q ++ [e]) :=
      if_neg (by rw [others f List.mem_cons_self]; decide)
    rw [List.cons_append, skips, ih fun g mem => others g (List.mem_cons_of_mem _ mem)]
    rfl

theorem eraseP_last {p : Entry → Bool} {q : List Entry} {e : Entry} (others : ∀ f ∈ q, p f = false) (named : p e = true) :
    (q ++ [e]).eraseP p = q := by
  rw [List.eraseP_append_right _ fun f mem => by rw [others f mem]; decide, List.eraseP_cons_of_pos named, List.append_nil]

theorem setQueue_self (side : Side) (s : State) : setQueue side (queueOf side s) s = s := by cases side <;> rfl

theorem setQueue_setQueue (side : Side) (p q : List Entry) (s : State) : setQueue side p (setQueue side q s) = setQueue side p s := by
  cases side <;> rfl

theorem advanced_plain {seq : Half} {r : Stream} (plain : r.rewind = none) : advanced seq r = { r with expected := seq + 1 } := by
  unfold advanced
  rw [if_neg (by rw [plain]; decide), if_neg (by rw [plain]; decide)]

/-- A DRAW frame of one command, in order, for a READY stream of a FREE engine's side, the sequencer having had nothing to hand. -/
structure Arrives (stream : Byte) (seq : Half) (commands : List Byte) (i : Fin 8) (side : Side) (cmd : DrawCommand) (s : State) :
    Prop where
  up : s.lc.link = .up
  attached : s.lc.attachment = .attached
  some' : 1 ≤ commands.length
  short : commands.length ≤ 157
  named : stream.toNat = i.val
  read : parseDraw commands = some [cmd]
  ready : (streamOf i s).state = .ready
  own : (streamOf i s).side = some side
  plain : (streamOf i s).rewind = none
  running : s.sq.quiesce = .running
  expected : seq = (streamOf i s).expected
  hands : nothingToHand s
  room : (queueOf side s).length < 24
  free : engineOf side s = none

section
variable {stream : Byte} {seq : Half} {commands : List Byte} {i : Fin 8} {side : Side} {cmd : DrawCommand} {s : State}

/-- The stream's number advanced, its frame having passed. -/
def advancedOf (i : Fin 8) (seq : Half) (s : State) : State := setStream i { streamOf i s with expected := seq + 1 } (passed s)

/-- The same with the entry of the frame's one command at the tail of its queue. -/
def arrived (side : Side) (i : Fin 8) (seq : Half) (cmd : DrawCommand) (s : State) : State :=
  setQueue side (queueOf side s ++ [⟨i, seq, 0, cmd, false⟩]) (advancedOf i seq s)

variable (h : Arrives stream seq commands i side cmd s)
include h

theorem Arrives.joined : joined side i seq [cmd] (passed s) = arrived side i seq cmd s := by
  unfold Machine.joined arrived advancedOf
  rw [advanced_plain (by rw [streamOf_passed]; exact h.plain)]
  cases side <;> rfl

theorem Arrives.taken : exec (.draw stream seq commands) s =
    .next (conclude s (settle (count .accepted (arrived side i seq cmd s)))) := by
  have opened : isOpen i s = true := isOpen_eq_true (by rw [h.ready]; decide)
  have takes : doDraw stream seq commands (passed s) = settle (count .accepted (arrived side i seq cmd s)) := by
    rw [doDraw_wellFormed h.named h.read, judgeDraw_inOrder (s := passed s) h.expected opened h.own h.running, inOrder,
      if_pos (hasRoom_iff (s := passed s).2 h.room), takeFrame_eq (s := passed s) h.expected, h.joined]
  rw [exec_draw_fits (List.length_pos_iff.1 h.some') h.short, frameArrival_eq _ (assembles_up h.up), passFrame_up _ h.up,
    ifAttached_yes _ (by exact h.attached), takes]

omit h in
theorem streamOf_arrived (j : Fin 8) : streamOf j (arrived side i seq cmd s) =
    if j = i then { streamOf i s with expected := seq + 1 } else streamOf j s := by
  rw [arrived, streamOf_setQueue, advancedOf, streamOf_setStream]
  rfl

omit h in
theorem arrived_state (j : Fin 8) : (streamOf j (arrived side i seq cmd s)).state = (streamOf j s).state := by
  rw [streamOf_arrived]
  split
  · next same => rw [same]
  · rfl

omit h in
theorem queueOf_arrived : queueOf side (arrived side i seq cmd s) = queueOf side s ++ [⟨i, seq, 0, cmd, false⟩] := by
  rw [arrived, queueOf_setQueue_self]

theorem queueOf_arrived_other : queueOf (otherSide side) (arrived side i seq cmd s) = queueOf (otherSide side) s := by
  rw [arrived, queueOf_setQueue_other]
  cases side <;> rfl

omit h in
theorem engineOf_arrived (x : Side) : engineOf x (arrived side i seq cmd s) = engineOf x s := by
  rw [arrived, engineOf_of_same (setQueue_de _ _ _)]
  rfl

/-- The READY stream has no older entry: the sequencer would have handed it. -/
theorem Arrives.alone {f : Entry} (mem : f ∈ queueOf side s) : f.stream ≠ i :=
  fun same => h.hands side h.free f mem (by rw [same]; exact h.ready)

theorem arrived_eligible : eligible side (arrived side i seq cmd s) = some ⟨i, seq, 0, cmd, false⟩ := by
  refine eligible_oldest (back := []) (by rw [engineOf_arrived]; exact h.free) (queueOf_arrived) (fun d mem => ?_) ?_ rfl
  · rw [arrived_state]
    exact h.hands side h.free d mem
  · rw [arrived_state]
    exact h.ready

theorem arrived_otherIdle : engineOf (otherSide side) (arrived side i seq cmd s) = none →
    ∀ e ∈ queueOf (otherSide side) (arrived side i seq cmd s), (streamOf e.stream (arrived side i seq cmd s)).state ≠ .ready := by
  intro free e mem
  rw [engineOf_arrived] at free
  rw [queueOf_arrived_other h] at mem
  rw [arrived_state]
  exact h.hands _ free e mem

/-- The frame ends as the handover of its command does, where that leaves nothing more to hand. -/
theorem Arrives.ends {w : State} {us : List SubEvent}
    (handed : ∀ v, endsAs (arrived side i seq cmd s) [.accepted] v → endsAs w us (handOver side ⟨i, seq, 0, cmd, false⟩ v))
    (still : settled w) (same : engineOf (otherSide side) w = engineOf (otherSide side) s) :
    ∃ t, exec (.draw stream seq commands) s = .next t ∧ endsAs w us t := by
  have accepted := (endsAs_refl (arrived side i seq cmd s)).count .accepted
  refine ⟨_, h.taken, endsAs.conclude ?_ s⟩
  exact settle_one accepted (arrived_eligible h) (eligible_none (arrived_otherIdle h)) (handed _ accepted) still
    (by rw [same, engineOf_arrived])

theorem arrived_names (g : Region) {f : Entry} (mem : f ∈ queueOf side s) :
    (recordFor ⟨i, seq, 0, cmd, false⟩ g).names f = false := by
  rw [names_recordFor]
  simp [h.alone mem]

/-- A command that completes at once leaves the queue as it was. -/
theorem arrived_removed (g : Region) :
    removeEntry side (recordFor ⟨i, seq, 0, cmd, false⟩ g) (arrived side i seq cmd s) = advancedOf i seq s := by
  have base : queueOf side (advancedOf i seq s) = queueOf side s := by cases side <;> rfl
  have named : (recordFor ⟨i, seq, 0, cmd, false⟩ g).names ⟨i, seq, 0, cmd, false⟩ = true := by
    rw [names_recordFor]
    simp
  rw [removeEntry, queueOf_arrived, eraseP_last (fun f mem => arrived_names h g mem) named, arrived, setQueue_setQueue, ← base,
    setQueue_self]

theorem advancedOf_settled : settled (advancedOf i seq s) := by
  refine ⟨fun x free e mem => ?_, fun quiescing => absurd (h.running.symm.trans quiescing) (by decide)⟩
  have state : (streamOf e.stream (advancedOf i seq s)).state = (streamOf e.stream s).state := by
    rw [advancedOf, streamOf_setStream]
    split
    · next same => rw [same]
    · rfl
  rw [state]
  exact h.hands x (by cases x <;> exact free) e (by cases x <;> exact mem)

/-- The frame of a command that completes at once (R111). -/
theorem Arrives.completes {x : SubEvent} (hands : ∀ v : State, v.lu = s.lu → (streamOf i v).reservation = (streamOf i s).reservation →
      handOver side ⟨i, seq, 0, cmd, false⟩ v = removeEntry side (recordFor ⟨i, seq, 0, cmd, false⟩ (regionOf i v)) (count x v)) :
    ∃ t, exec (.draw stream seq commands) s = .next t ∧ endsAs (advancedOf i seq s) [.accepted, x] t := by
  refine h.ends (fun v arrives => ?_) (advancedOf_settled h) (by cases side <;> rfl)
  rw [hands v (by rw [arrives.same_lu]; cases side <;> rfl)
    (by rw [arrives.same_streamOf i, streamOf_arrived, if_pos rfl])]
  have ends := (arrives.count x).removeEntry side (recordFor ⟨i, seq, 0, cmd, false⟩ (regionOf i v))
  rwa [arrived_removed h] at ends

/-- The state once the engine has taken the frame's command (R114). -/
def begun (side : Side) (i : Fin 8) (seq : Half) (cmd : DrawCommand) (r : ExecRecord) (s : State) : State :=
  engineAsks side (setEngine side (some r) (setQueue side (queueOf side s ++ [⟨i, seq, 0, cmd, true⟩]) (advancedOf i seq s)))

/-- The frame of a command that the engine takes (R47, R114). -/
theorem Arrives.begins (queue : s.fs.holder = none → s.fs.waiting = [])
    (hands : ∀ v : State, v.lu = s.lu → handOver side ⟨i, seq, 0, cmd, false⟩ v =
      beginExecution side (recordFor ⟨i, seq, 0, cmd, false⟩ (regionOf i v)) v) :
    ∃ t, exec (.draw stream seq commands) s = .next t ∧
      endsAs (begun side i seq cmd (recordFor ⟨i, seq, 0, cmd, false⟩ (regionOf i s)) s) [.accepted] t := by
  have fs : (arrived side i seq cmd s).fs = s.fs := by cases side <;> rfl
  have marked : markExecuting (recordFor ⟨i, seq, 0, cmd, false⟩ (regionOf i s)) (queueOf side (arrived side i seq cmd s)) =
      queueOf side s ++ [⟨i, seq, 0, cmd, true⟩] := by
    rw [queueOf_arrived, markExecuting_last fun f mem => arrived_names h _ mem]
    rw [names_recordFor]
    simp
  refine h.ends (fun v arrives => ?_) ?_ ?_
  · have lu : v.lu = s.lu := by rw [arrives.same_lu]; cases side <;> rfl
    have region : regionOf i v = regionOf i s := by unfold regionOf; rw [lu]
    rw [hands v lu, region]
    have ends := arrives.beginExecution side (recordFor ⟨i, seq, 0, cmd, false⟩ (regionOf i s)) (by rw [fs]; exact queue)
    rw [marked, arrived, setQueue_setQueue] at ends
    exact ends
  · refine settled_of_busy (side := side) (by cases side <;> rfl) fun free e mem => ?_
    have idle := arrived_otherIdle h (by cases side <;> exact free) e (by cases side <;> exact mem)
    cases side <;> exact idle
  · cases side <;> rfl

end

/-! ### The commands (R110, R111, R113, R114) -/

theorem clipEmpty_iff (r : ExecRecord) : clipEmpty r = true ↔ r.cx1 < r.cx0 ∨ r.cy1 < r.cy0 := by simp [clipEmpty]

theorem regionOf_of_same {s t : State} (lu : t.lu = s.lu) (i : Fin 8) : regionOf i t = regionOf i s := by
  unfold regionOf
  rw [lu]

/-- A stream without a reservation has none to give back. -/
theorem releaseReservation_none {i : Fin 8} {s : State} (none' : (streamOf i s).reservation = none) : releaseReservation i s = s := by
  unfold releaseReservation
  rw [none']

theorem release_removed {i : Fin 8} {v : State} (none' : (streamOf i v).reservation = none) (side : Side) (r : ExecRecord)
    (x : SubEvent) : releaseReservation i (removeEntry side r (count x v)) = removeEntry side r (count x v) :=
  releaseReservation_none (by rw [removeEntry, streamOf_setQueue, streamOf_count]; exact none')

/-- Settles O22. -/
theorem aFillIsHandedOver : Obligations.AFillIsHandedOver := by
  refine ⟨fun stream seq commands s i side c x y w h cx0 cx1 cy0 cy1 up attached some' short named read ready own plain running
      expected emptyA emptyB free hcx0 hcx1 hcy0 hcy1 => ?_,
    fun stream seq commands s u i side cmd up attached some' short named read ready own plain unreserved running expected hands
      room free hu => ⟨fun dx dy hcmd => ⟨fun still => ?_, fun moves queue => ?_⟩, fun key x y cx1 cy1 keyColour hcmd hcx1 hcy1 =>
        ⟨fun zero => ?_, fun nonzero clipped => ?_⟩⟩⟩
  · have empty (x : Side) : queueOf x s = [] := by cases x; exacts [emptyA, emptyB]
    have arrives : Arrives stream seq commands i side (.fill c x y w h) s :=
      ⟨up, attached, some', short, named, read, ready, own, plain, running, expected,
        fun x _ e mem => absurd (empty x ▸ mem) List.not_mem_nil, by rw [empty]; decide, free⟩
    subst hcx0 hcx1 hcy0 hcy1
    refine ⟨fun ⟨wide, high⟩ queue => ?_, fun clipped => ?_⟩
    · obtain ⟨t, runs, ends⟩ := arrives.begins queue fun v lu => by
        refine if_neg fun clipped => ?_
        rw [clipEmpty_iff, regionOf_of_same lu] at clipped
        exact clipped.elim (Int.not_lt.2 wide) (Int.not_lt.2 high)
      refine ⟨t, runs, Eq.mp (congrArg (endsAs · _ _) ?_) ends⟩
      unfold begun
      rw [empty]
      cases side <;> rfl
    · exact arrives.completes fun v lu _ => by
        refine if_pos ((clipEmpty_iff _).2 ?_)
        rw [regionOf_of_same lu]
        exact clipped
  all_goals subst hu
  all_goals have arrives : Arrives stream seq commands i side cmd s :=
    ⟨up, attached, some', short, named, read, ready, own, plain, running, expected, hands, room, free⟩
  · subst hcmd
    exact arrives.completes fun v _ _ => if_pos still
  · subst hcmd
    obtain ⟨t, runs, ends⟩ := arrives.begins queue fun v _ => if_neg fun still => moves.elim (fun h => h still.1) fun h => h still.2
    refine ⟨t, runs, Eq.mp (congrArg (endsAs · _ _) ?_) ends⟩
    cases side <;> rfl
  · subst hcmd
    refine arrives.completes fun v _ same => ?_
    exact (if_pos zero).trans (release_removed (same.trans unreserved) side _ _)
  · subst hcmd hcx1 hcy1
    refine arrives.completes fun v lu same => ?_
    refine (if_neg nonzero).trans ((if_pos ((clipEmpty_iff _).2 ?_)).trans (release_removed (same.trans unreserved) side _ _))
    rw [regionOf_of_same lu, show x + 15 = x + 16 - 1 by omega, show y + 15 = y + 16 - 1 by omega] at *
    exact clipped

end Sys2Proof.Machine
end

section
/-! PROOFS. The end of an execution: what it leaves before the sequencer's choice, and the entry that this choice hands over; the
settlement of O24. -/

namespace Sys2Proof.Machine

/-! ### What the end leaves (R118 to R120) -/

/-- R120: the entries of a side's queue once the execution of a record has ended. -/
def entriesLeft (side : Side) (r : ExecRecord) (s : State) : List Entry :=
  if r.removed then queueOf side s else (queueOf side s).eraseP r.names

theorem names_iff (r : ExecRecord) (e : Entry) : r.names e = true ↔ e.stream = r.stream ∧ e.seq = r.seq ∧ e.pos = r.pos := by
  simp [ExecRecord.names, and_assoc]

theorem entriesLeft_eq {side : Side} {r : ExecRecord} {s : State} {q : List Entry}
    (h : (r.removed = false ∧ ∃ front e back, queueOf side s = front ++ e :: back ∧ q = front ++ back ∧
        (e.stream = r.stream ∧ e.seq = r.seq ∧ e.pos = r.pos) ∧
        ∀ d ∈ front, ¬ (d.stream = r.stream ∧ d.seq = r.seq ∧ d.pos = r.pos)) ∨
      (r.removed = true ∧ q = queueOf side s)) : entriesLeft side r s = q := by
  rcases h with ⟨stays, front, e, back, queue, left, named, others⟩ | ⟨removed, left⟩
  · have skips : ∀ d ∈ front, ¬ r.names d = true := fun d mem names => others d mem ((names_iff r d).1 names)
    rw [entriesLeft, stays, if_neg (by decide), queue, List.eraseP_append_right _ skips,
      List.eraseP_cons_of_pos ((names_iff r e).2 named), left]
  · rw [entriesLeft, if_pos removed, left]

/-- The end of an execution, where the write and its marks end as D. -/
theorem finishExecution_ends {D s : State} {us : List SubEvent} {r : ExecRecord} (h : endsAs D us (drawn r s))
    (free : D.fs.holder = none) (side : Side) :
    endsAs (granted (setEngine side none (setQueue side (entriesLeft side r s) D)))
      (us ++ [drawnEvent r.command] ++ grantCounts D) (finishExecution side r s) := by
  have queue : queueOf side D = queueOf side s := queueOf_of_same (h.same_sq.symm.trans (drawn_sq r s)) side
  have left : endsAs (setQueue side (entriesLeft side r s) D) us (if r.removed then drawn r s else removeEntry side r (drawn r s)) := by
    unfold entriesLeft
    split
    · rw [← queue, setQueue_self]
      exact h
    · rw [← queue]
      exact h.removeEntry side r
  rw [finishExecution_eq]
  have ends := ((left.count (drawnEvent r.command)).setEngine side none).grantStore (by cases side <;> exact free)
  have counts : grantCounts (setEngine side none (setQueue side (entriesLeft side r s) D)) = grantCounts D := by
    cases side <;> rfl
  rwa [counts] at ends

/-- The pixels written and the blocks marked, no block yet selected (R118). -/
def marked (r : ExecRecord) (s : State) : State :=
  { pixelsWritten r s with pu.dirty := (pixelsWritten r s).pu.dirty.mapIdx fun k d => d || commandBlocks s r k }

theorem marked_rest (r : ExecRecord) (s : State) : marked r s = { s with
    fs.image := writeCommand (panelW s) (panelPixels s) r s.fs.image, fs.holder := none
    pu.dirty := s.pu.dirty.mapIdx fun k d => d || commandBlocks s r k
    pu.port := (pixelsWritten r s).pu.port, free := (pixelsWritten r s).free } := by
  unfold marked
  rw [pixelsWritten_rest]

/-- With no block in flight the port has nothing to read on. -/
theorem marked_idle {r : ExecRecord} {s : State} (idle : s.pu.inFlight = none) : marked r s = { s with
    fs.image := writeCommand (panelW s) (panelPixels s) r s.fs.image, fs.holder := none
    pu.dirty := s.pu.dirty.mapIdx fun k d => d || commandBlocks s r k } := by
  have written : pixelsWritten r s = { s with
      fs.image := writeCommand (panelW s) (panelPixels s) r s.fs.image, fs.holder := none } := readToEnd_idle _ idle
  unfold marked
  rw [written]

theorem drawn_stays {r : ExecRecord} {s : State} (quiet : s.pu.inFlight.isSome = true ∨ s.pu.halted = true) :
    drawn r s = marked r s := by
  refine selectBlock_stays (s := marked r s) ?_
  rw [marked_rest]
  exact quiet.elim .inl fun halted => .inr (.inl halted)

theorem drawn_sends {r : ExecRecord} {s : State} {b : Nat} (idle : s.pu.inFlight = none) (running : s.pu.halted = false)
    (next : isNext (blockCount s) s.pu.scan
      (fun k => (s.pu.dirty.mapIdx fun k d => d || commandBlocks s r k).getD k false) b) :
    drawn r s = sendBlock b (marked r s) := by
  refine selectBlock_sends (s := marked r s) ?_ ?_ ?_
  all_goals rw [marked_rest]
  exacts [idle, running, next]

/-- The send that follows the marks carries the pixels of the picture just written. -/
theorem drawn_sent {r : ExecRecord} {s : State} {b : Nat} (idle : s.pu.inFlight = none) (running : s.pu.halted = false)
    (next : isNext (blockCount s) s.pu.scan
      (fun k => (s.pu.dirty.mapIdx fun k d => d || commandBlocks s r k).getD k false) b) :
    endsAs (sent b ((List.range 256).map fun p =>
        imageRead (writeCommand (panelW s) (panelPixels s) r s.fs.image) (blockPixel s b p)) (marked r s)) [.blockSent] (drawn r s) := by
  have free : (marked r s).fs.holder = none := by rw [marked_rest]
  have ends := (endsAs_refl (marked r s)).sendBlock b
  rw [portPixels_free free, if_neg (by rw [free]; decide)] at ends
  rw [drawn_sends idle running next]
  rw [marked_idle idle] at ends ⊢
  exact ends

/-- Whatever block the selection takes, the write and its marks change the picture, its holder, the panel and the free values. -/
theorem drawn_ends (r : ExecRecord) (s : State) : ∃ pu free, endsAs { s with
      fs.image := writeCommand (panelW s) (panelPixels s) r s.fs.image, fs.holder := none, pu := pu, free := free }
    (if pu.number = s.pu.number then [] else [.blockSent]) (drawn r s) := by
  rcases selectBlock_cases (marked r s) with stays | ⟨b, idle, _, sends⟩
  · have same : drawn r s = marked r s := stays
    refine ⟨(marked r s).pu, (marked r s).free, ?_⟩
    rw [same, if_pos (by rw [marked_rest]), marked_rest]
    exact endsAs_refl _
  · have sends : drawn r s = sendBlock b (marked r s) := sends
    refine ⟨(sent b (portPixels (marked r s) b) (marked r s)).pu, (marked r s).free, ?_⟩
    have free : (marked r s).fs.holder = none := by rw [marked_rest]
    have ends := (endsAs_refl (marked r s)).sendBlock b
    rw [if_neg (by rw [free]; decide)] at ends
    have advances : (sent b (portPixels (marked r s) b) (marked r s)).pu.number ≠ s.pu.number := by
      rw [marked_rest]
      show s.pu.number + 1 ≠ s.pu.number
      simp
    rw [sends, if_neg advances]
    refine Eq.mp (congrArg (endsAs · _ _) ?_) ends
    conv_lhs => rw [marked_rest]
    rw [marked_rest]
    rfl

theorem exec_executionEnd_writing {side : Side} {r : ExecRecord} {s : State} (busy : engineOf side s = some r)
    (writing : s.fs.holder = some (.engine side)) :
    exec (.executionEnd side) s = .next (conclude s (settle (finishExecution side r s))) := by
  rw [exec_executionEnd, execExecutionEnd, busy]
  exact if_pos writing

/-! ### The entry handed over next (R47) -/

theorem markExecuting_at {r : ExecRecord} {front back : List Entry} {e : Entry} (others : ∀ f ∈ front, r.names f = false)
    (named : r.names e = true) : markExecuting r (front ++ e :: back) = front ++ { e with executing := true } :: back := by
  induction front with
  | nil => exact if_pos named
  | cons f front ih =>
    have skips : markExecuting r (f :: (front ++ e :: back)) = f :: markExecuting r (front ++ e :: back) :=
      if_neg (by rw [others f List.mem_cons_self]; decide)
    rw [List.cons_append, skips, ih fun g mem => others g (List.mem_cons_of_mem _ mem)]
    rfl

/-- R108, R109: a record copied from an entry, with the geometry of its region. -/
structure CopiedFrom (e : Entry) (g : Region) (x : ExecRecord) : Prop where
  stream : x.stream = e.stream
  seq : x.seq = e.seq
  pos : x.pos = e.pos
  command : x.command = e.command
  ox : x.ox = g.ox.toNat
  oy : x.oy = g.oy.toNat
  rw' : x.rw = g.rw.toNat
  rh : x.rh = g.rh.toNat
  background : x.background = g.background
  removed : x.removed = false

theorem recordFor_copied (e : Entry) (g : Region) : CopiedFrom e g (recordFor e g) := by
  unfold recordFor
  dsimp only
  split <;> exact ⟨rfl, rfl, rfl, rfl, rfl, rfl, rfl, rfl, rfl, rfl⟩

theorem CopiedFrom.names {e : Entry} {g : Region} {x : ExecRecord} (h : CopiedFrom e g x) : x.names e = true :=
  (names_iff x e).2 ⟨h.stream.symm, h.seq.symm, h.pos.symm⟩

theorem mask_bit (p : Nat → Bool) (k : Fin 4) :
    ((List.range 4).foldl (fun m k => if p k = true then m ||| BitVec.ofNat 4 (2 ^ k) else m) 0).getLsbD k = p k := by
  have bits : ∀ (a b c d : Bool) (k : Fin 4), ([(a, 0), (b, 1), (c, 2), (d, 3)].foldl
      (fun m (x : Bool × Nat) => if x.1 = true then m ||| BitVec.ofNat 4 (2 ^ x.2) else m) 0).getLsbD k = #v[a, b, c, d][k] := by
    decide
  refine (bits (p 0) (p 1) (p 2) (p 3) k).trans ?_
  fin_cases k <;> rfl

theorem sectorMask_bit (lo hi : Nat) (k : Fin 4) : (sectorMask lo hi).getLsbD k = decide (lo ≤ k ∧ k.val ≤ hi) := by
  refine Eq.trans ?_ (mask_bit (fun k => decide (lo ≤ k ∧ k ≤ hi)) k)
  simp only [sectorMask, decide_eq_true_eq]

/-- R112: of the needed sectors none is missing where each of them is there. -/
theorem sectors_there {lo hi : Nat} {sectors : BitVec 4} :
    sectorMask lo hi &&& ~~~ sectors = 0 ↔ ∀ k : Fin 4, lo ≤ k.val → k.val ≤ hi → sectors.getLsbD k = true := by
  constructor
  · intro none' k low high
    have bit := congrArg (·.getLsbD k.val) none'
    simp only [BitVec.getLsbD_and, sectorMask_bit, BitVec.getLsbD_not] at bit
    simpa [low, high] using bit
  · intro all
    refine BitVec.eq_of_getLsbD_eq fun k bound => ?_
    have bit := sectorMask_bit lo hi ⟨k, bound⟩
    rw [BitVec.getLsbD_and, bit, BitVec.getLsbD_not]
    by_cases needed : lo ≤ k ∧ k ≤ hi
    · simp [bound, all ⟨k, bound⟩ needed.1 needed.2]
    · simp [needed]

/-- The state that an execution's end leaves, the picture as img, the panel and the free values as given. -/
def ended (side : Side) (q : List Entry) (img : Image) (pu : PanelUpdater) (free : Nat) (s : State) : State :=
  granted (setEngine side none (setQueue side q { s with fs.image := img, fs.holder := none, pu := pu, free := free }))

/-- The state once an engine has taken the entry of record x, q its queue. -/
def nextBegun (side : Side) (x : ExecRecord) (q : List Entry) (u : State) : State :=
  engineAsks side (setEngine side (some x) (setQueue side q u))

section
variable {side : Side} {x : ExecRecord} {q : List Entry} {u : State} {waiting : List Writer}

/-- R25, R114: the engine has the frame store, or waits for it behind the writers that wait. -/
theorem nextBegun_holder (first : u.fs.holder = waiting.head?) :
    (nextBegun side x q u).fs.holder = (waiting ++ [Writer.engine side]).head? := by
  have holder : (nextBegun side x q u).fs.holder = if u.fs.holder = none then some (.engine side) else u.fs.holder := by
    cases side <;> rfl
  rw [holder, first]
  cases waiting <;> rfl

theorem nextBegun_waiting (first : u.fs.holder = waiting.head?) (rest : u.fs.waiting = waiting.tail) :
    (nextBegun side x q u).fs.waiting = (waiting ++ [Writer.engine side]).tail := by
  have queue : (nextBegun side x q u).fs.waiting =
      if u.fs.holder = none then [] else u.fs.waiting ++ [.engine side] := by cases side <;> rfl
  rw [queue, first, rest]
  cases waiting <;> rfl

end

/-- R47, R120: the end of an execution hands the oldest entry of a READY stream over, where its engine takes it. The handover may
change the tile cache, and with the other engine busy the streams too. -/
theorem executionEnd_hands {side : Side} {r : ExecRecord} {e : Entry} {front back : List Entry} {hits : List SubEvent} {s : State}
    {P : ExecRecord → TileCache → Vector Stream 8 → Prop} (busy : engineOf side s = some r)
    (writing : s.fs.holder = some (.engine side)) (left : entriesLeft side r s = front ++ e :: back)
    (older : ∀ d ∈ front, (streamOf d.stream s).state ≠ .ready) (ready : (streamOf e.stream s).state = .ready)
    (waits : e.executing = false)
    (other : (engineOf (otherSide side) s).isSome = true ∨
      ∀ d ∈ queueOf (otherSide side) s, (streamOf d.stream s).state ≠ .ready)
    (takes : ∀ (u v : State) (us : List SubEvent), endsAs u us v → u.lu.regions = s.lu.regions → u.sq.streams = s.sq.streams →
      u.tc = s.tc → ∃ x tc streams v', CopiedFrom e (regionOf e.stream s) x ∧ P x tc streams ∧
        ((engineOf (otherSide side) s).isSome = true ∨ streams = s.sq.streams) ∧
        handOver side e v = beginExecution side x v' ∧ endsAs { u with tc := tc, sq.streams := streams } (us ++ hits) v') :
    ∃ x tc streams pu free t, exec (.executionEnd side) s = .next t ∧ CopiedFrom e (regionOf e.stream s) x ∧ P x tc streams ∧
      endsAs (nextBegun side x (front ++ { e with executing := true } :: back) { ended side (front ++ e :: back)
          (writeCommand (panelW s) (panelPixels s) r s.fs.image) pu free s with tc := tc, sq.streams := streams })
        ((if pu.number = s.pu.number then [] else [.blockSent]) ++ [drawnEvent r.command] ++ grantCounts s ++ hits) t := by
  obtain ⟨pu, free, draws⟩ := drawn_ends r s
  have ends := finishExecution_ends draws rfl side
  rw [left] at ends
  obtain ⟨x, tc, streams, v', copied, holds, kept, hands, taken⟩ := takes _ _ _ ends (by cases side <;> rfl) (by cases side <;> rfl)
    (by cases side <;> rfl)
  refine ⟨x, tc, streams, pu, free, _, exec_executionEnd_writing busy writing, copied, holds, endsAs.conclude ?_ s⟩
  generalize hu : ({ granted (setEngine side none (setQueue side (front ++ e :: back) { s with
      fs.image := writeCommand (panelW s) (panelPixels s) r s.fs.image, fs.holder := none, pu := pu, free := free }))
    with tc := tc, sq.streams := streams } : State) = u at taken
  have fs : u.fs.holder = none → u.fs.waiting = [] := by
    intro free
    have none' : s.fs.waiting.head? = none := by rw [← hu] at free; cases side <;> exact free
    have empty : s.fs.waiting.tail = [] := by rw [List.head?_eq_none_iff.1 none']; rfl
    rw [← hu]
    cases side <;> exact empty
  have queue : queueOf side u = front ++ e :: back := by rw [← hu]; cases side <;> rfl
  have begins := taken.beginExecution side x fs
  have marks : markExecuting x (front ++ e :: back) = front ++ { e with executing := true } :: back := by
    refine markExecuting_at (fun d mem => Bool.eq_false_iff.2 fun names => older d mem ?_) copied.names
    rw [((names_iff x d).1 names).1, copied.stream, ready]
  rw [queue, marks, ← hands] at begins
  have state (i : Fin 8) (w : State) (sq : w.sq.streams = s.sq.streams) : streamOf i w = streamOf i s := by
    unfold streamOf
    rw [sq]
  have otherIdle (w : State) (sq : (engineOf (otherSide side) s).isSome = true ∨ w.sq.streams = s.sq.streams)
      (queue : queueOf (otherSide side) w = queueOf (otherSide side) s)
      (engine : engineOf (otherSide side) w = engineOf (otherSide side) s) : engineOf (otherSide side) w = none →
      ∀ d ∈ queueOf (otherSide side) w, (streamOf d.stream w).state ≠ .ready := by
    intro idle d mem
    have idle : ¬ (engineOf (otherSide side) s).isSome = true := by rw [← engine, idle]; decide
    rw [state _ w (sq.resolve_left idle)]
    exact (other.resolve_left idle) d (queue ▸ mem)
  refine settle_one ends ?_ ?_ (Eq.mp (congrArg (endsAs · _ _) ?_) begins) ?_ ?_
  · refine eligible_oldest (front := front) (back := back) (by cases side <;> rfl) (by cases side <;> rfl) (fun d mem => ?_) ?_ waits
    · rw [state _ _ (by cases side <;> rfl)]
      exact older d mem
    · rw [state _ _ (by cases side <;> rfl)]
      exact ready
  · exact eligible_none (otherIdle _ (.inr (by cases side <;> rfl)) (by cases side <;> rfl) (by cases side <;> rfl))
  · rw [← hu]
    rfl
  · refine settled_of_busy (side := side) (by cases side <;> rfl) ?_
    exact otherIdle _ (kept.imp id fun same => by cases side <;> exact same) (by cases side <;> rfl) (by cases side <;> rfl)
  · cases side <;> rfl

/-! ### The commands that an engine takes (R110 to R114) -/

/-- R110: the clip rectangle of a record. -/
theorem recordFor_clip {e : Entry} {g : Region} {x y w h : Int} (target : targetOf e.command = some (x, y, w, h)) :
    (recordFor e g).cx0 = max x 0 ∧ (recordFor e g).cx1 = min (x + w - 1) (g.rw.toNat - 1) ∧
      (recordFor e g).cy0 = max y 0 ∧ (recordFor e g).cy1 = min (y + h - 1) (g.rh.toNat - 1) := by
  unfold recordFor
  rw [target]
  exact ⟨rfl, rfl, rfl, rfl⟩

theorem clipEmpty_false {e : Entry} {g : Region} {x y w h : Int} (target : targetOf e.command = some (x, y, w, h))
    (wide : max x 0 ≤ min (x + w - 1) (g.rw.toNat - 1)) (high : max y 0 ≤ min (y + h - 1) (g.rh.toNat - 1)) :
    ¬ clipEmpty (recordFor e g) = true := by
  obtain ⟨cx0, cx1, cy0, cy1⟩ := recordFor_clip (g := g) target
  rw [clipEmpty_iff, cx0, cx1, cy0, cy1, not_or]
  exact ⟨Int.not_lt.2 wide, Int.not_lt.2 high⟩

theorem handOver_fill {side : Side} {e : Entry} {v : State} {c : Half} {x y : Int} {w h : Nat}
    (command : e.command = .fill c x y w h) (visible : ¬ clipEmpty (recordFor e (regionOf e.stream v)) = true) :
    handOver side e v = beginExecution side (recordFor e (regionOf e.stream v)) v := by
  rw [handOver]
  simp only [command]
  exact if_neg visible

theorem handOver_scroll {side : Side} {e : Entry} {v : State} {dx dy : Int} (command : e.command = .scroll dx dy)
    (moves : dx ≠ 0 ∨ dy ≠ 0) : handOver side e v = beginExecution side (recordFor e (regionOf e.stream v)) v := by
  rw [handOver]
  simp only [command]
  exact if_neg fun still => moves.elim (fun h => h still.1) fun h => h still.2

theorem handOver_place {side : Side} {e : Entry} {v : State} {key : Word} {x y : Int} {keyColour : Option Half}
    (command : e.command = .place key x y keyColour) (named : key ≠ 0)
    (visible : ¬ clipEmpty (recordFor e (regionOf e.stream v)) = true) :
    handOver side e v = handPlace side (recordFor e (regionOf e.stream v)) key y v := by
  rw [handOver]
  simp only [command]
  exact (if_neg named).trans (if_neg visible)

/-- R112: the sectors that a PLACE needs are those of its visible tile rows. -/
theorem need_iff {e : Entry} {g : Region} {key : Word} {x y : Int} {keyColour : Option Half}
    (command : e.command = .place key x y keyColour) (high : max y 0 ≤ min (y + 15) ((g.rh.toNat : Int) - 1)) (k : Nat) :
    (needLo (recordFor e g) y ≤ k ∧ k ≤ needHi (recordFor e g) y) ↔
      (max y 0 - y) / 4 ≤ (k : Int) ∧ (k : Int) ≤ (min (y + 15) ((g.rh.toNat : Int) - 1) - y) / 4 := by
  obtain ⟨_, _, cy0, cy1⟩ := recordFor_clip (e := e) (g := g) (x := x) (y := y) (w := 16) (h := 16) (by rw [command]; rfl)
  rw [needLo, needHi, cy0, cy1]
  omega

/-- R73: a lookup that finds every needed sector hits. -/
theorem lookupOf_there {key : Word} {n : Fin 64} {w : Fin 4} {lo hi : Nat} {s : State} (found : foundAt key n w s)
    (there : ∀ k : Fin 4, lo ≤ k.val → k.val ≤ hi → s.tc.dir[n][w].sectors.getLsbD k = true) :
    lookupOf key (sectorMask lo hi) s = .hit w := by
  rw [lookupOf, (foundAt_iff_findWay found.1).2 found]
  refine if_pos ?_
  rw [tileSet_eq found.1]
  exact sectors_there.2 there

theorem lookupOf_of_dir {s t : State} (dir : t.tc.dir = s.tc.dir) {key : Word} {mask : BitVec 4} :
    lookupOf key mask t = lookupOf key mask s := by
  have ways : tileSet key t = tileSet key s := by simp only [tileSet, dir]
  unfold lookupOf
  rw [ways]

/-- R113: the record of a PLACE that hits way w: its first needed sector and the contents of those it needs. -/
def hitRecord (e : Entry) (g : Region) (key : Word) (y : Int) (w : Fin 4) (s : State) : ExecRecord :=
  { recordFor e g with
    firstSector := needLo (recordFor e g) y
    tile := sectorPixels key w (needLo (recordFor e g) y) (needHi (recordFor e g) y) s }

theorem hitRecord_copied (e : Entry) (g : Region) (key : Word) (y : Int) (w : Fin 4) (s : State) :
    CopiedFrom e g (hitRecord e g key y w s) := by
  have copied := recordFor_copied e g
  exact ⟨copied.stream, copied.seq, copied.pos, copied.command, copied.ox, copied.oy, copied.rw', copied.rh, copied.background,
    copied.removed⟩

theorem handPlace_taken {side : Side} {e : Entry} {g : Region} {key : Word} {y : Int} {w : Fin 4} {v : State}
    (hit : lookupOf key (sectorMask (needLo (recordFor e g) y) (needHi (recordFor e g) y)) v = .hit w) :
    handPlace side (recordFor e g) key y v = beginExecution side (hitRecord e g key y w v)
      (releaseReservation e.stream (count .hit (setTileSet key (makeRecent w (tileSet key v)) v))) := by
  have stream := congrArg (fun i => beginExecution side (hitRecord e g key y w v)
    (releaseReservation i (count .hit (setTileSet key (makeRecent w (tileSet key v)) v)))) (recordFor_copied e g).stream
  exact (handPlace_hit hit).trans stream

/-- R113: the engine takes a PLACE that hits, its stream holding no reservation. -/
theorem handPlace_takes {side : Side} {e : Entry} {g : Region} {key : Word} {y : Int} {w : Fin 4} {u v : State}
    {us : List SubEvent} (ends : endsAs u us v) (unreserved : (streamOf e.stream u).reservation = none)
    (hit : lookupOf key (sectorMask (needLo (recordFor e g) y) (needHi (recordFor e g) y)) v = .hit w) :
    ∃ v', handPlace side (recordFor e g) key y v = beginExecution side (hitRecord e g key y w v) v' ∧
      endsAs (setTileSet key (makeRecent w (tileSet key u)) u) (us ++ [.hit]) v' := by
  refine ⟨_, handPlace_taken hit, ?_⟩
  rw [releaseReservation_none, ends.same_tileSet]
  · exact (ends.setTileSet key _).count .hit
  · rw [streamOf_count]
    exact (congrArg Stream.reservation (ends.same_streamOf e.stream)).trans unreserved

/-! ### The settlement -/

theorem writtenImage_engine {s : State} {side : Side} {r : ExecRecord} (writing : s.fs.holder = some (.engine side))
    (busy : engineOf side s = some r) : writtenImage s = writeCommand (panelW s) (panelPixels s) r s.fs.image := by
  rw [writtenImage, writing]
  simp only [busy]

/-- R118: the blocks that a command marks, by the block columns and rows of its rectangle. -/
theorem commandBlocks_eq {s : State} {r : ExecRecord} {mark : Nat → Bool} {x0 x1 y0 y1 : Nat}
    (scroll : (∃ dx dy : Int, r.command = .scroll dx dy) → x0 = r.ox ∧ x1 = r.ox + r.rw - 1 ∧ y0 = r.oy ∧ y1 = r.oy + r.rh - 1)
    (clip : (∀ dx dy : Int, r.command ≠ .scroll dx dy) → x0 = (r.ox + r.cx0).toNat ∧ x1 = (r.ox + r.cx1).toNat ∧
      y0 = (r.oy + r.cy0).toNat ∧ y1 = (r.oy + r.cy1).toNat)
    (marks : ∀ k : Nat, mark k = true ↔ x0 / 16 ≤ k % s.lu.width ∧ k % s.lu.width ≤ x1 / 16 ∧ y0 / 16 ≤ k / s.lu.width ∧
      k / s.lu.width ≤ y1 / 16) : mark = commandBlocks s r := by
  have rect : commandBlocks s r = touches s x0 x1 y0 y1 := by
    unfold commandBlocks
    cases command : r.command with
    | scroll dx dy =>
      obtain ⟨rfl, rfl, rfl, rfl⟩ := scroll ⟨dx, dy, command⟩
      rfl
    | place key x y keyColour =>
      obtain ⟨rfl, rfl, rfl, rfl⟩ := clip fun dx dy same => by rw [command] at same; cases same
      rfl
    | fill c x y w h =>
      obtain ⟨rfl, rfl, rfl, rfl⟩ := clip fun dx dy same => by rw [command] at same; cases same
      rfl
  funext k
  rw [rect, Bool.eq_iff_iff, marks k]
  simp [touches, inBlockRect, and_assoc]

/-- An execution's end that leaves the sequencer no choice ends as the write, its marks and the turns at the frame store do. -/
theorem executionEnd_settled {side : Side} {r : ExecRecord} {D s : State} {us : List SubEvent} (busy : engineOf side s = some r)
    (writing : s.fs.holder = some (.engine side)) (draws : endsAs D us (drawn r s)) (free : D.fs.holder = none)
    (still : settled (granted (setEngine side none (setQueue side (entriesLeft side r s) D)))) :
    ∃ t, exec (.executionEnd side) s = .next t ∧
      endsAs (granted (setEngine side none (setQueue side (entriesLeft side r s) D)))
        (us ++ [drawnEvent r.command] ++ grantCounts D) t := by
  have ends := finishExecution_ends draws free side
  refine ⟨_, exec_executionEnd_writing busy writing, endsAs.conclude ?_ s⟩
  rw [settle_settled (ends.settled still)]
  exact ends

/-- Settles O24. -/
theorem executionEndFreesTheEngine : Obligations.ExecutionEndFreesTheEngine := by
  refine ⟨fun c => ⟨?_, ?_, ?_⟩, fun s => ⟨writtenImage_free, fun side r writing busy => writtenImage_engine writing busy⟩,
    fun side s => ⟨?_, ?_, ?_, ?_⟩⟩
  · rintro ⟨_, _, _, _, rfl⟩
    rfl
  · rintro ⟨_, _, _, _, _, rfl⟩
    rfl
  · rintro ⟨_, _, rfl⟩
    rfl
  · intro idle
    rw [exec_executionEnd, execExecutionEnd]
    split
    · next busy => exact if_neg (idle.resolve_left (by rw [busy]; simp))
    · rfl
  · intro r q img u grants mark x0 x1 y0 y1 busy writing scroll clip marks removes hi hu still hg
    have left := entriesLeft_eq removes
    obtain rfl := commandBlocks_eq scroll clip marks
    subst hi hg
    refine ⟨fun quiet => ?_, fun b idle running next => ?_⟩
    · have draws : endsAs (marked r s) [] (drawn r s) := by rw [drawn_stays quiet]; exact endsAs_refl _
      obtain ⟨t, runs, ends⟩ := executionEnd_settled busy writing draws (by rw [marked_rest])
        (settled_of_same still (by rw [left, hu, marked_rest]; cases side <;> rfl) (by rw [left, hu, marked_rest]; cases side <;> rfl)
          (by rw [left, hu, marked_rest]; cases side <;> rfl))
      rw [left] at ends
      have port : t.pu.port = (pixelsWritten r s).pu.port := by rw [ends.same_pu]; cases side <;> rfl
      have free : t.free = (pixelsWritten r s).free := by rw [ends.1]; cases side <;> rfl
      have counts : grantCounts (marked r s) = if s.fs.waiting.head? = some .teardownFill then [.teardownFill] else [] := by
        rw [marked_rest]
        rfl
      refine ⟨t, runs, ?_, ?_⟩
      · rw [hu, port, free, ← counts]
        refine Eq.mp (congrArg (endsAs · _ _) ?_) ends
        rw [marked_rest]
        cases side <;> rfl
      · unfold readOn
        rw [port]
        exact readToEnd_reads (writeCommand (panelW s) (panelPixels s) r s.fs.image)
          { s with fs.image := writeCommand (panelW s) (panelPixels s) r s.fs.image, fs.holder := none }
    · have dirty : u.pu.dirty = s.pu.dirty.mapIdx fun k d => d || commandBlocks s r k := by rw [hu]
      rw [dirty] at next
      have draws := drawn_sent (r := r) idle running next
      have free : (marked r s).fs.holder = none := by rw [marked_rest]
      obtain ⟨t, runs, ends⟩ := executionEnd_settled busy writing draws free
        (settled_of_same still (by rw [left, hu, marked_rest]; cases side <;> rfl) (by rw [left, hu, marked_rest]; cases side <;> rfl)
          (by rw [left, hu, marked_rest]; cases side <;> rfl))
      rw [left, marked_idle idle] at ends
      refine ⟨t, runs, (Eq.mp (congrArg (endsAs · _ _) ?_) ends).perm (List.Perm.swap _ _ _)⟩
      rw [hu]
      cases side <;> rfl
  · intro r e front back hits grants busy writing removes older ready waits other command hg
    subst hg
    have left : entriesLeft side r s = front ++ e :: back := entriesLeft_eq removes
    obtain ⟨x, tc, streams, pu, free, t, runs, copied, ⟨same, rfl⟩, ends⟩ := executionEnd_hands (hits := hits)
      (P := fun _ tc streams => (hits = [] → tc = s.tc) ∧ streams = s.sq.streams) busy writing left older ready waits
      other fun u v us ends lu sq tc => by
        have region : regionOf e.stream v = regionOf e.stream s := by unfold regionOf; rw [ends.same_lu, lu]
        have kept : endsAs { u with tc := u.tc, sq.streams := u.sq.streams } (us ++ []) v := by rw [List.append_nil]; exact ends
        rcases command with ⟨c, x, y, w, h, fill, rfl, wide, high⟩ | ⟨dx, dy, scroll, rfl, moves⟩ |
          ⟨key, x, y, keyColour, n, w, place, rfl, named, unreserved, found, there, wide, high⟩
        · have visible := clipEmpty_false (g := regionOf e.stream v) (by rw [fill]; rfl) (region ▸ wide) (region ▸ high)
          exact ⟨_, u.tc, _, v, region ▸ recordFor_copied e _, ⟨fun _ => tc, sq⟩, .inr sq, handOver_fill fill visible, kept⟩
        · exact ⟨_, u.tc, _, v, region ▸ recordFor_copied e _, ⟨fun _ => tc, sq⟩, .inr sq, handOver_scroll scroll moves, kept⟩
        · have visible := clipEmpty_false (e := e) (g := regionOf e.stream v) (x := x) (y := y) (w := 16) (h := 16)
            (by rw [place]; rfl) (by rw [region]; omega) (by rw [region]; omega)
          have dir : v.tc.dir = s.tc.dir := by rw [ends.same_tc, tc]
          have hit : lookupOf key (sectorMask (needLo (recordFor e (regionOf e.stream s)) y)
              (needHi (recordFor e (regionOf e.stream s)) y)) v = .hit w := by
            rw [lookupOf_of_dir dir]
            refine lookupOf_there found fun k low high' => ?_
            exact (fun needed => there k needed.1 needed.2) ((need_iff place high k).1 ⟨low, high'⟩)
          have stream : streamOf e.stream u = streamOf e.stream s := by unfold streamOf; rw [sq]
          obtain ⟨v', hands, takes⟩ := handPlace_takes ends (by rw [stream]; exact unreserved) hit
          refine ⟨_, _, u.sq.streams, v', hitRecord_copied e _ key y w v, ⟨fun empty => absurd empty (by simp), sq⟩, .inr sq, ?_, takes⟩
          rw [handOver_place place named visible, region, hands]
    obtain ⟨t', runs', after⟩ := executionEnd_draws busy writing
    obtain rfl : t = t' := by injection runs.symm.trans runs'
    have number : t.pu.number = pu.number := by rw [ends.same_pu]; cases side <;> rfl
    refine ⟨t, runs, (drawn_drawing r s).trans after.drawing, ?_, ?_, ⟨x, ?_, copied.stream, copied.seq, copied.pos, copied.command,
      copied.ox, copied.oy, copied.rw', copied.rh, copied.background, copied.removed⟩, ?_, ?_, ?_, ?_, ?_, ?_, ?_, ?_, ?_, ?_, ?_⟩
    · rw [ends.same_queueOf]; cases side <;> rfl
    · rw [ends.same_queueOf]; cases side <;> rfl
    · rw [ends.same_engineOf]; cases side <;> rfl
    · rw [ends.same_engineOf]; cases side <;> rfl
    · rw [ends.same_sq]; cases side <;> rfl
    · rw [ends.same_sq]; cases side <;> rfl
    · rw [ends.same_tf]; cases side <;> rfl
    · rw [ends.same_inProgress]; cases side <;> rfl
    · rw [ends.1]; cases side <;> rfl
    · intro none'
      rw [ends.same_tc, ← same none']
      cases side <;> rfl
    · rw [after.image, drawn_image]
    · rw [ends.same_fs]
      exact nextBegun_holder (by cases side <;> rfl)
    · rw [ends.same_fs]
      exact nextBegun_waiting (by cases side <;> rfl) (by cases side <;> rfl)
    · rw [number]
      refine countedAs_of_same (u := nextBegun side x _ _) (ends.perm ?_).2.2 (by cases side <;> rfl) (by cases side <;> rfl)
      refine List.perm_iff_count.2 fun x => ?_
      simp only [List.count_append, List.count_cons, List.count_nil, grantCounts]
      omega
  · intro r busy writing
    obtain ⟨t, runs, after⟩ := executionEnd_draws busy writing
    obtain rfl : t = conclude s (settle (finishExecution side r s)) := by
      injection runs.symm.trans (exec_executionEnd_writing busy writing)
    refine ⟨_, runs, (drawn_drawing r s).trans after.drawing, by rw [after.image, drawn_image], fun i => ?_⟩
    have stream : streamOf i (finishExecution side r s) = streamOf i s := by
      unfold streamOf
      rw [finishExecution_sq]
      split
      · rfl
      · cases side <;> rfl
    have kept := settled_streams s (finishExecution side r s) i
    rw [stream] at kept
    exact ⟨kept.expected, kept.rewind, kept.side⟩

end Sys2Proof.Machine
end

section
/-! PROOFS. A PLACE at its handover: the pixels of its tile, a miss taken by the Tile Fault Unit, and a reservation given back at the
hit; the settlement of O23. -/

namespace Sys2Proof.Machine

/-! ### The pixels of a tile (R70) -/

theorem pixelsOf_pair {l : List Byte} {p : Nat} (within : 2 * p + 1 < l.length) :
    (pixelsOf l)[p]? = some (half (l.getD (2 * p) 0) (l.getD (2 * p + 1) 0)) := by
  induction l using pixelsOf.induct generalizing p with
  | case1 lo hi rest ih =>
    rw [List.length_cons, List.length_cons] at within
    cases p with
    | zero => rfl
    | succ p =>
      rw [pixelsOf, List.getElem?_cons_succ, ih (by omega)]
      rfl
  | case2 l short =>
    match l, short with
    | [], _ => exact absurd within (by simp)
    | [_], _ => exact absurd within (by simp)
    | lo :: hi :: rest, short => exact absurd rfl (short lo hi rest)

theorem sectorPixels_pixel {key : Word} {n : Fin 64} (number : n.val = key.toNat % 64) (w : Fin 4) {lo hi p : Nat}
    (within : p < (hi + 1 - lo) * 64) (s : State) : (sectorPixels key w lo hi s)[p]? =
      some (half (cellRead 0 s.tc.store ((n.val * 4 + w.val) * 512 + lo * 128 + 2 * p))
        (cellRead 0 s.tc.store ((n.val * 4 + w.val) * 512 + lo * 128 + 2 * p + 1))) := by
  obtain rfl : setIndex key = n := Fin.ext number.symm
  have length : (cellBlock 0 s.tc.store (sectorAddress key w lo) ((hi + 1 - lo) * 128)).length = (hi + 1 - lo) * 128 := by
    simp [cellBlock]
  have byte (k : Nat) (bound : k < (hi + 1 - lo) * 128) :
      (cellBlock 0 s.tc.store (sectorAddress key w lo) ((hi + 1 - lo) * 128)).getD k 0 =
        cellRead 0 s.tc.store (((setIndex key).val * 4 + w.val) * 512 + lo * 128 + k) := by
    rw [List.getD_eq_getElem _ _ (by omega), cellBlock_getElem]
    rfl
  rw [sectorPixels, pixelsOf_pair (by omega), byte _ (by omega), byte _ (by omega), ← Nat.add_assoc]

/-! ### A miss (R94 to R96) -/

theorem faultOn_iff (key : Word) (s : State) (side : Side) : faultOn key s = some side ↔
    (recordOf side s).active = true ∧ (recordOf side s).key = key ∧
      (side = .b → ¬ (s.tf.recA.active = true ∧ s.tf.recA.key = key)) := by
  by_cases a : s.tf.recA.active = true ∧ s.tf.recA.key = key
  · have first : faultOn key s = some .a := if_pos (by rw [a.1, a.2]; simp)
    rw [first]
    cases side
    · simp [recordOf, a.1, a.2]
    · simp [a]
  · have second : faultOn key s = if s.tf.recB.active && s.tf.recB.key == key then some .b else none := if_neg (by simpa using a)
    rw [second]
    cases side
    · simpa [recordOf] using a
    · simpa [recordOf] using fun _ _ => not_and.1 a

section
variable {u v : State} {us : List SubEvent} (h : endsAs u us v)
include h

theorem endsAs.setWait (i : Fin 8) (st : StreamState) : endsAs (setWait i st u) us (setWait i st v) := by
  unfold Machine.setWait
  rw [h.same_streamOf i]
  exact h.setStream i _

/-- The FAULT transmission of a side is the same one, where the lane has not changed since s. -/
theorem endsAs.joinFault (x : Side) (i : Fin 8) (mask : BitVec 4) (lane : faultOnLane x v = faultOnLane x u) :
    (mask &&& ~~~ (recordOf x u).needed = 0 → endsAs (Machine.setWait i .waitTile (Machine.setRecord x { recordOf x u with
        waiting := (recordOf x u).waiting ||| BitVec.ofNat 8 (2 ^ i.val) } u)) (us ++ [.joined]) (joinFault x i mask v)) ∧
      (mask &&& ~~~ (recordOf x u).needed ≠ 0 → endsAs (Machine.setWait i .waitTile (Machine.setRecord x { recordOf x u with
        waiting := (recordOf x u).waiting ||| BitVec.ofNat 8 (2 ^ i.val), needed := (recordOf x u).needed ||| mask
        timer := some (u.settings.faultTimeout * 1000), send := true
        renewed := (recordOf x u).renewed || faultOnLane x u } u)) (us ++ [.joined, .widened]) (joinFault x i mask v)) := by
  have load : faultLoad v = u.settings.faultTimeout * 1000 := by rw [faultLoad, h.same_settings]; rfl
  unfold Machine.joinFault
  rw [h.same_recordOf x, lane, load]
  refine ⟨fun narrow => ?_, fun wide => ?_⟩
  · dsimp only
    rw [if_pos narrow]
    exact ((h.setRecord x _).count .joined).setWait i .waitTile
  · dsimp only
    rw [if_neg wide]
    refine ((((h.setRecord x _).count .widened).count .joined).setWait i .waitTile).perm ?_
    rw [List.append_assoc]
    exact List.Perm.append_left us (List.Perm.swap _ _ _)

/-- R96: the fault raised on the entry that holds the key. -/
theorem endsAs.raiseFault (side : Side) (i : Fin 8) (key : Word) (mask : BitVec 4) (lane : faultOnLane side v = faultOnLane side u) :
    endsAs { Machine.setWait i .waitTile (Machine.setRecord side
        { active := true, key := key, needed := mask, waiting := BitVec.ofNat 8 (2 ^ i.val), tries := 0
          timer := some (u.settings.faultTimeout * 1000), send := true, renewed := faultOnLane side u } u) with
        tc := (Machine.mapEntry key (fun e => { e with pending := true }) u).tc
        mn.tracker.armed := u.mn.tracker.armed.or (some ⟨side, key, u.tick⟩) }
      (us ++ [.raised]) (raiseFault side i key mask v) := by
  have load : faultLoad v = u.settings.faultTimeout * 1000 := by rw [faultLoad, h.same_settings]; rfl
  have ends := ((((h.mapEntry key fun e => { e with pending := true }).setRecord side
    { active := true, key := key, needed := mask, waiting := BitVec.ofNat 8 (2 ^ i.val), tries := 0
      timer := some (u.settings.faultTimeout * 1000), send := true, renewed := faultOnLane side u }).count .raised).trackRaise
        side key).setWait i .waitTile
  unfold Machine.raiseFault
  rw [load, lane]
  simp only [sendSet, Bool.false_or]
  refine Eq.mp (congrArg (endsAs · _ _) ?_) ends
  have rest : Machine.mapEntry key (fun e => { e with pending := true }) u =
      { u with tc := (Machine.mapEntry key (fun e => { e with pending := true }) u).tc } := by
    unfold Machine.mapEntry
    split <;> rfl
  rw [rest]
  cases side <;> rfl

end

/-! ### A PLACE that arrives alone (R46, R113) -/

/-- The state in which the frame's command waits, its stream in a wait state. -/
def waitsFor (side : Side) (i : Fin 8) (seq : Half) (cmd : DrawCommand) (st : StreamState) (s : State) : State :=
  setStream i { streamOf i s with expected := seq + 1, state := st }
    (setQueue side (queueOf side s ++ [⟨i, seq, 0, cmd, false⟩]) (passed s))

theorem setStream_setStream (i : Fin 8) (r r' : Stream) (s : State) : setStream i r (setStream i r' s) = setStream i r s := by
  simp only [setStream, Vector.set_set]

theorem setWait_arrived (side : Side) (i : Fin 8) (seq : Half) (cmd : DrawCommand) (st : StreamState) (s : State) :
    setWait i st (arrived side i seq cmd s) = waitsFor side i seq cmd st s := by
  have moves (q : List Entry) (r : Stream) (z : State) : setQueue side q (setStream i r z) = setStream i r (setQueue side q z) := by
    cases side <;> rfl
  rw [setWait, arrived, advancedOf, streamOf_setQueue, streamOf_setStream_self, moves, setStream_setStream]
  rfl

theorem setWait_setRecord (i : Fin 8) (st : StreamState) (x : Side) (r : FaultRecord) (s : State) :
    setWait i st (setRecord x r s) = setRecord x r (setWait i st s) := by
  cases x <;> rfl

section
variable {stream : Byte} {seq : Half} {commands : List Byte} {i : Fin 8} {side : Side} {cmd : DrawCommand} {s : State}
  (h : Arrives stream seq commands i side cmd s)
include h

/-- The frame ends as the handover of its command ends, where that leaves nothing more to hand. -/
theorem Arrives.handed {w : State} {us : List SubEvent}
    (hands : endsAs w us (handOver side ⟨i, seq, 0, cmd, false⟩ (count .accepted (arrived side i seq cmd s))))
    (still : settled w) (same : engineOf (otherSide side) w = engineOf (otherSide side) s) :
    ∃ t, exec (.draw stream seq commands) s = .next t ∧ endsAs w us t := by
  refine ⟨_, h.taken, endsAs.conclude ?_ s⟩
  exact settle_one ((endsAs_refl (arrived side i seq cmd s)).count .accepted) (arrived_eligible h)
    (eligible_none (arrived_otherIdle h)) hands still (by rw [same, engineOf_arrived])

/-- With the stream left waiting the sequencer has no choice to make. -/
theorem Arrives.settled_waiting {st : StreamState} {w : State} (waits : st ≠ .ready) (sq : w.sq = (waitsFor side i seq cmd st s).sq)
    (de : w.de = s.de) : settled w := by
  have queue (x : Side) : queueOf x w = if x = side then queueOf side s ++ [⟨i, seq, 0, cmd, false⟩] else queueOf x s := by
    have same : queueOf x w = queueOf x (waitsFor side i seq cmd st s) := by unfold queueOf; rw [sq]
    rw [same]
    cases x <;> cases side <;> rfl
  have state (j : Fin 8) : (streamOf j w).state = if j = i then st else (streamOf j s).state := by
    have same : streamOf j w = streamOf j (waitsFor side i seq cmd st s) := by unfold streamOf; rw [sq]
    rw [same, waitsFor, streamOf_setStream]
    split
    · rfl
    · rw [streamOf_setQueue]
      rfl
  refine ⟨fun x free e mem => ?_, fun quiescing => absurd quiescing ?_⟩
  · rw [state]
    split
    · exact waits
    · next other =>
      have free : engineOf x s = none := by unfold engineOf at free ⊢; rwa [de] at free
      rw [queue] at mem
      split at mem
      · next same =>
        rcases List.mem_append.1 mem with old | new
        · exact h.hands x free e (same ▸ old)
        · exact absurd (by rw [List.mem_singleton.1 new]) other
      · exact h.hands x free e mem
  · have running : w.sq.quiesce = .running := by rw [sq, ← h.running]; cases side <;> rfl
    rw [running]
    decide

end

/-- The clip rectangle of a PLACE lies in its region, and its needed sectors are lo to hi (R110, R112). -/
structure Needs (e : Entry) (g : Region) (y : Int) (lo hi : Nat) : Prop where
  visible : ¬ clipEmpty (recordFor e g) = true
  first : needLo (recordFor e g) y = lo
  last : needHi (recordFor e g) y = hi

theorem needs_of {e : Entry} {g : Region} {key : Word} {x y cy0 cy1 : Int} {keyColour : Option Half} {lo hi : Nat}
    (command : e.command = .place key x y keyColour) (wide : max x 0 ≤ min (x + 15) ((g.rw.toNat : Int) - 1))
    (top : cy0 = max y 0) (bottom : cy1 = min (y + 15) ((g.rh.toNat : Int) - 1)) (high : cy0 ≤ cy1) (first : (lo : Int) = (cy0 - y) / 4)
    (last : (hi : Int) = (cy1 - y) / 4) : Needs e g y lo hi := by
  have target : targetOf e.command = some (x, y, 16, 16) := by rw [command]; rfl
  obtain ⟨_, _, top', bottom'⟩ := recordFor_clip (g := g) target
  refine ⟨clipEmpty_false target (by omega) (by omega), ?_, ?_⟩
  · rw [needLo, top']
    omega
  · rw [needHi, bottom']
    omega

section
variable {stream : Byte} {seq : Half} {commands : List Byte} {i : Fin 8} {side : Side} {key : Word} {x y : Int}
  {keyColour : Option Half} {s : State} {lo hi : Nat}
  (h : Arrives stream seq commands i side (.place key x y keyColour) s) (named : key ≠ 0)
  (needs : Needs ⟨i, seq, 0, .place key x y keyColour, false⟩ (regionOf i s) y lo hi)
  (unreserved : (streamOf i s).reservation = none)
include h named needs unreserved

/-- R113: the miss of a PLACE that arrives alone goes to the Tile Fault Unit. -/
theorem Arrives.misses {miss : SubEvent} {present : Bool}
    (outcome : (∃ w, lookupOf key (sectorMask lo hi) s = .sectorMiss w ∧ miss = .sectorMiss ∧ present = true) ∨
      (lookupOf key (sectorMask lo hi) s = .absent ∧ miss = .absent ∧ present = false)) :
    handOver side ⟨i, seq, 0, .place key x y keyColour, false⟩ (count .accepted (arrived side i seq (.place key x y keyColour) s)) =
      takeMiss side i key (sectorMask lo hi) present
        (count miss (count .accepted (arrived side i seq (.place key x y keyColour) s))) := by
  have ends := (endsAs_refl (arrived side i seq (.place key x y keyColour) s)).count .accepted
  have reservation : (streamOf i (count .accepted (arrived side i seq (.place key x y keyColour) s))).reservation = none := by
    rw [ends.same_streamOf, streamOf_arrived, if_pos rfl]
    exact unreserved
  have region : regionOf i (count .accepted (arrived side i seq (.place key x y keyColour) s)) = regionOf i s := by
    rw [ends.same_regionOf]
    cases side <;> rfl
  have dir : (count .accepted (arrived side i seq (.place key x y keyColour) s)).tc.dir = s.tc.dir := by
    rw [ends.same_tc]
    cases side <;> rfl
  generalize count .accepted (arrived side i seq (.place key x y keyColour) s) = v at reservation region dir
  have plain (sub : SubEvent) : releaseReservation i (count sub v) = count sub v :=
    releaseReservation_none (by rw [streamOf_count]; exact reservation)
  have hands := handOver_place (side := side) (e := ⟨i, seq, 0, .place key x y keyColour, false⟩) (v := v) rfl named
    (by rw [region]; exact needs.visible)
  rw [hands, region]
  rcases outcome with ⟨w, outcome, rfl, rfl⟩ | ⟨outcome, rfl, rfl⟩
  · rw [handPlace_sectorMiss (w := w) (by rw [needs.first, needs.last, lookupOf_of_dir dir, outcome]),
      (recordFor_copied _ _).stream, plain, needs.first, needs.last]
  · rw [handPlace_absent (by rw [needs.first, needs.last, lookupOf_of_dir dir, outcome]),
      (recordFor_copied _ _).stream, plain, needs.first, needs.last]

end

/-! ### The outcomes (R73, R94 to R96) -/

theorem lookupOf_lacks {key : Word} {n : Fin 64} {w : Fin 4} {mask : BitVec 4} {s : State} (found : foundAt key n w s)
    (lacks : mask &&& ~~~ s.tc.dir[n][w].sectors ≠ 0) : lookupOf key mask s = .sectorMiss w := by
  rw [lookupOf, (foundAt_iff_findWay found.1).2 found]
  refine if_neg ?_
  rwa [tileSet_eq found.1]

theorem lookupOf_nowhere {key : Word} {n : Fin 64} {mask : BitVec 4} {s : State} (number : n.val = key.toNat % 64)
    (absent : ∀ w : Fin 4, s.tc.dir[n][w].valid = true → s.tc.dir[n][w].key ≠ key) : lookupOf key mask s = .absent := by
  rw [lookupOf, tileSet_eq number, findWay_none absent]

theorem takeWay_set (key : Word) (w : Fin 4) (e : DirEntry) (ways : TileSet) :
    (takeWay key w ways).set w e = Vector.ofFn fun v : Fin 4 =>
      if v = w then e else if ways[v].age < ways[w].age then { ways[v] with age := ways[v].age + 1 } else ways[v] := by
  refine Vector.ext fun k bound => ?_
  have other := makeRecent_way w ⟨k, bound⟩ ways
  have same : (takeWay key w ways).set w e = (makeRecent w ways).set w e := by simp [takeWay]
  rw [Vector.getElem_ofFn, same, ← Fin.getElem_fin (i := (⟨k, bound⟩ : Fin 4)), set_way, other]
  split
  · rfl
  · split <;> rfl

/-- R96: the entry that holds the key marked pending. -/
theorem pending_found {key : Word} {n : Fin 64} {w : Fin 4} {s : State} (found : foundAt key n w s) :
    (mapEntry key (fun e => { e with pending := true }) s).tc =
      { s.tc with dir := s.tc.dir.set n (s.tc.dir[n].set w { s.tc.dir[n][w] with pending := true }) } := by
  rw [mapEntry_found found]
  rfl

/-- R76, R96: the way taken for the key and marked pending. -/
theorem pending_taken {key : Word} {n : Fin 64} (number : n.val = key.toNat % 64) (w : Fin 4) {s : State}
    (absent : ∀ w : Fin 4, s.tc.dir[n][w].valid = true → s.tc.dir[n][w].key ≠ key) :
    (mapEntry key (fun e => { e with pending := true }) (setTileSet key (takeWay key w (tileSet key s)) s)).tc =
      { s.tc with dir := s.tc.dir.set n (Vector.ofFn fun v : Fin 4 =>
        if v = w then ⟨true, key, 0, 0, false, true, 0⟩
        else if s.tc.dir[n][v].age < s.tc.dir[n][w].age then { s.tc.dir[n][v] with age := s.tc.dir[n][v].age + 1 }
        else s.tc.dir[n][v]) } := by
  have none' : findWay key s.tc.dir[n] = none := findWay_none absent
  have here : findWay key (takeWay key w s.tc.dir[n]) = some w := by
    cases found : findWay key (takeWay key w s.tc.dir[n]) with
    | none => exact absurd (by rw [takeWay_taken]) (findWay_eq_none.1 found w (by rw [takeWay_taken]))
    | some v => rw [takeWay_found none' found]
  have taken : tileSet key (setTileSet key (takeWay key w s.tc.dir[n]) s) = takeWay key w s.tc.dir[n] := by
    rw [tileSet_eq number, setTileSet_eq number]
    simp
  rw [tileSet_eq number s, mapEntry, taken, here]
  dsimp only
  rw [takeWay_taken, setTileSet_eq number, setTileSet_eq number, ← takeWay_set key w]
  simp only [Vector.set_set]

section
variable {stream : Byte} {seq : Half} {commands : List Byte} {i : Fin 8} {side : Side} {key : Word} {x y : Int}
  {keyColour : Option Half} {s : State} {lo hi : Nat} {miss : SubEvent} {present : Bool}

/-- A PLACE that arrives alone and misses, as the Tile Fault Unit takes it. -/
structure Misses (stream : Byte) (seq : Half) (commands : List Byte) (i : Fin 8) (side : Side) (key : Word) (x y : Int)
    (keyColour : Option Half) (lo hi : Nat) (miss : SubEvent) (present : Bool) (s : State) : Prop where
  arrives : Arrives stream seq commands i side (.place key x y keyColour) s
  hands : handOver side ⟨i, seq, 0, .place key x y keyColour, false⟩ (count .accepted (arrived side i seq (.place key x y keyColour) s)) =
    takeMiss side i key (sectorMask lo hi) present
      (count miss (count .accepted (arrived side i seq (.place key x y keyColour) s)))

variable (h : Misses stream seq commands i side key x y keyColour lo hi miss present s)
include h

/-- The frame ends as the Tile Fault Unit leaves the miss, its stream waiting. -/
theorem Misses.ends {st : StreamState} {w : State} {us : List SubEvent}
    (takes : ∀ v, endsAs (arrived side i seq (.place key x y keyColour) s) [.accepted, miss] v → v.lc.tx = s.lc.tx →
      endsAs w us (takeMiss side i key (sectorMask lo hi) present v)) (waits : st ≠ .ready)
    (sq : w.sq = (waitsFor side i seq (.place key x y keyColour) st s).sq) (de : w.de = s.de) :
    ∃ t, exec (.draw stream seq commands) s = .next t ∧ endsAs w us t := by
  refine h.arrives.handed ?_ (h.arrives.settled_waiting waits sq de) (by unfold engineOf; rw [de])
  rw [h.hands]
  refine takes _ (((endsAs_refl _).count .accepted).count miss) ?_
  rw [count_lc, count_lc]
  cases side <;> rfl

omit h in
theorem lane_of_tx {s t : State} (tx : t.lc.tx = s.lc.tx) (x : Side) :
    faultOnLane x t = s.lc.tx.any fun f => f.item == .fault x := by
  unfold faultOnLane
  rw [tx]

omit h in
theorem recordOf_arrived (side' : Side) (cmd : DrawCommand) : recordOf side' (arrived side i seq cmd s) = recordOf side' s :=
  recordOf_of_same (by cases side <;> rfl)

/-- R95: the stream joins the fault on its key. -/
theorem Misses.joins {x' : Side} (fault : faultOn key s = some x') :
    (sectorMask lo hi &&& ~~~ (recordOf x' s).needed = 0 → ∃ t, exec (.draw stream seq commands) s = .next t ∧
      endsAs (setRecord x' { recordOf x' s with
        waiting := (recordOf x' s).waiting ||| BitVec.ofNat 8 (2 ^ i.val) }
          (waitsFor side i seq (.place key x y keyColour) .waitTile s)) [.accepted, miss, .joined] t) ∧
    (sectorMask lo hi &&& ~~~ (recordOf x' s).needed ≠ 0 → ∃ t, exec (.draw stream seq commands) s = .next t ∧
      endsAs (setRecord x' { recordOf x' s with
        waiting := (recordOf x' s).waiting ||| BitVec.ofNat 8 (2 ^ i.val), needed := (recordOf x' s).needed ||| sectorMask lo hi
        timer := some (s.settings.faultTimeout * 1000), send := true
        renewed := (recordOf x' s).renewed || s.lc.tx.any fun f => f.item == .fault x' }
          (waitsFor side i seq (.place key x y keyColour) .waitTile s)) [.accepted, miss, .joined, .widened] t) := by
  have base : (arrived side i seq (.place key x y keyColour) s).lc.tx = s.lc.tx ∧
      (arrived side i seq (.place key x y keyColour) s).settings = s.settings := by
    cases side <;> exact ⟨rfl, rfl⟩
  obtain ⟨baseTx, baseSettings⟩ := base
  have takes (v : State) (ends : endsAs (arrived side i seq (.place key x y keyColour) s) [.accepted, miss] v) :
      takeMiss side i key (sectorMask lo hi) present v = joinFault x' i (sectorMask lo hi) v := by
    have same : faultOn key v = some x' := by
      rw [ends.same_faultOn, ← fault]
      exact faultOn_of_same (by cases side <;> rfl)
    unfold takeMiss
    rw [same]
  constructor
  · intro narrow
    refine h.ends (st := .waitTile) (fun v ends tx => ?_) (by decide) (by cases x' <;> rfl) (by cases x' <;> cases side <;> rfl)
    have joins := (ends.joinFault x' i (sectorMask lo hi) (by rw [lane_of_tx tx, lane_of_tx baseTx])).1
    rw [recordOf_arrived, setWait_setRecord, setWait_arrived] at joins
    rw [takes v ends]
    exact joins narrow
  · intro wide
    refine h.ends (st := .waitTile) (fun v ends tx => ?_) (by decide) (by cases x' <;> rfl) (by cases x' <;> cases side <;> rfl)
    have joins := (ends.joinFault x' i (sectorMask lo hi) (by rw [lane_of_tx tx, lane_of_tx baseTx])).2
    rw [recordOf_arrived, setWait_setRecord, setWait_arrived, baseSettings, lane_of_tx baseTx] at joins
    rw [takes v ends]
    exact joins wide

/-- R94: with no fault on the key and the side's record ACTIVE, the stream waits for that. -/
theorem Misses.waits_slot (unfaulted : faultOn key s = none) (active : (recordOf side s).active = true) :
    ∃ t, exec (.draw stream seq commands) s = .next t ∧
      endsAs (waitsFor side i seq (.place key x y keyColour) .waitSlot s) [.accepted, miss, .slotWait] t := by
  refine h.ends (st := .waitSlot) (fun v ends _ => ?_) (by decide) rfl (by cases side <;> rfl)
  have same : faultOn key v = none := by
    rw [ends.same_faultOn, ← unfaulted]
    exact faultOn_of_same (by cases side <;> rfl)
  have record : (recordOf side v).active = true := by rw [ends.same_recordOf, recordOf_arrived, active]
  have waits := (ends.count .slotWait).setWait i .waitSlot
  rw [setWait_arrived] at waits
  unfold takeMiss
  rw [same]
  exact (if_pos record).symm ▸ waits

end

section
variable {stream : Byte} {seq : Half} {commands : List Byte} {i : Fin 8} {side : Side} {key : Word} {x y : Int}
  {keyColour : Option Half} {s : State} {lo hi : Nat} {n : Fin 64}

/-- R96: the record of a fault just raised. -/
def raisedRecord (side : Side) (i : Fin 8) (key : Word) (mask : BitVec 4) (s : State) : FaultRecord :=
  { active := true, key := key, needed := mask, waiting := BitVec.ofNat 8 (2 ^ i.val), tries := 0
    timer := some (s.settings.faultTimeout * 1000), send := true, renewed := s.lc.tx.any fun f => f.item == .fault side }

/-- R96: what a raised fault leaves, the directory as given. -/
def faultRaised (side : Side) (i : Fin 8) (key : Word) (mask : BitVec 4) (dir : Vector TileSet 64) (s u : State) : State :=
  { setRecord side (raisedRecord side i key mask s) u with
    tc.dir := dir, mn.tracker.armed := s.mn.tracker.armed.or (some ⟨side, key, s.tick⟩) }

theorem arrived_tc (cmd : DrawCommand) : (arrived side i seq cmd s).tc = s.tc := by cases side <;> rfl

theorem arrived_fs (cmd : DrawCommand) : (arrived side i seq cmd s).fs = s.fs := by cases side <;> rfl

section
variable {v : State} {mask : BitVec 4} (unfaulted : faultOn key v = none) (idle : (recordOf side v).active = false)
include unfaulted idle

theorem takeMiss_present : takeMiss side i key mask true v = raiseFault side i key mask v := by
  unfold takeMiss
  rw [unfaulted]
  exact if_neg (by rw [idle]; decide)

theorem takeMiss_taken {w : Fin 4} (chosen : victim (tileSet key v) = some w) :
    takeMiss side i key mask false v = raiseFault side i key mask (allocateWay key w v) := by
  unfold takeMiss
  rw [unfaulted, chosen]
  exact if_neg (by rw [idle]; decide)

theorem takeMiss_full (full : victim (tileSet key v) = none) :
    takeMiss side i key mask false v = setWait i .waitWay (count .wayWait v) := by
  unfold takeMiss
  rw [unfaulted, full]
  exact if_neg (by rw [idle]; decide)

end

theorem arrived_unfaulted {v : State} {us : List SubEvent} {cmd : DrawCommand} (ends : endsAs (arrived side i seq cmd s) us v)
    (unfaulted : faultOn key s = none) (idle : (recordOf side s).active = false) :
    faultOn key v = none ∧ (recordOf side v).active = false := by
  constructor
  · rw [ends.same_faultOn, ← unfaulted]
    exact faultOn_of_same (by cases side <;> rfl)
  · rw [ends.same_recordOf, recordOf_arrived, idle]

/-- R96: a miss on an entry that is there raises a fault on it. -/
theorem Misses.raises_present (h : Misses stream seq commands i side key x y keyColour lo hi .sectorMiss true s)
    (unfaulted : faultOn key s = none) (idle : (recordOf side s).active = false) {w : Fin 4} (found : foundAt key n w s) :
    ∃ t, exec (.draw stream seq commands) s = .next t ∧
      endsAs (faultRaised side i key (sectorMask lo hi) (s.tc.dir.set n (s.tc.dir[n].set w { s.tc.dir[n][w] with pending := true })) s
        (waitsFor side i seq (.place key x y keyColour) .waitTile s)) [.accepted, .sectorMiss, .raised] t := by
  refine h.ends (st := .waitTile) (fun v ends tx => ?_) (by decide) (by cases side <;> rfl) (by cases side <;> rfl)
  obtain ⟨unfaulted, idle⟩ := arrived_unfaulted ends unfaulted idle
  have baseTx : (arrived side i seq (.place key x y keyColour) s).lc.tx = s.lc.tx := by cases side <;> rfl
  have raises := ends.raiseFault side i key (sectorMask lo hi) (by rw [lane_of_tx tx, lane_of_tx baseTx])
  rw [pending_found (foundAt_of_dir found (by rw [arrived_tc])), setWait_setRecord, setWait_arrived, lane_of_tx baseTx] at raises
  rw [takeMiss_present unfaulted idle]
  refine Eq.mp (congrArg (endsAs · _ _) ?_) raises
  simp only [arrived_tc]
  cases side <;> rfl

/-- R76, R96: a miss of an absent key takes a way for it and raises a fault on it. -/
theorem Misses.raises_absent (h : Misses stream seq commands i side key x y keyColour lo hi .absent false s)
    (unfaulted : faultOn key s = none) (idle : (recordOf side s).active = false) (number : n.val = key.toNat % 64)
    (absent : ∀ w : Fin 4, s.tc.dir[n][w].valid = true → s.tc.dir[n][w].key ≠ key) {w : Fin 4} (victim' : isVictim s.tc.dir[n] w) :
    ∃ t, exec (.draw stream seq commands) s = .next t ∧
      endsAs (faultRaised side i key (sectorMask lo hi) (s.tc.dir.set n (Vector.ofFn fun v : Fin 4 =>
          if v = w then ⟨true, key, 0, 0, false, true, 0⟩
          else if s.tc.dir[n][v].age < s.tc.dir[n][w].age then { s.tc.dir[n][v] with age := s.tc.dir[n][v].age + 1 }
          else s.tc.dir[n][v])) s (waitsFor side i seq (.place key x y keyColour) .waitTile s))
        ([.accepted, .absent, .raised] ++ if s.tc.dir[n][w].valid = true then [.evict] else []) t := by
  refine h.ends (st := .waitTile) (fun v ends tx => ?_) (by decide) (by cases side <;> rfl) (by cases side <;> rfl)
  obtain ⟨unfaulted, idle⟩ := arrived_unfaulted ends unfaulted idle
  have baseTx : (arrived side i seq (.place key x y keyColour) s).lc.tx = s.lc.tx := by cases side <;> rfl
  have baseSet : tileSet key (arrived side i seq (.place key x y keyColour) s) = s.tc.dir[n] := by
    rw [tileSet_eq number]
    simp only [arrived_tc]
  have allocates := ends.allocateWay key w
  have lane : (allocateWay key w v).lc.tx = s.lc.tx := by
    rw [← tx, allocateWay]
    split
    · rw [count_lc]
      rfl
    · rfl
  have raises := allocates.raiseFault side i key (sectorMask lo hi) (by rw [lane_of_tx lane]; exact (lane_of_tx baseTx side).symm)
  rw [pending_taken number w (by simpa only [arrived_tc] using absent), setWait_setRecord] at raises
  have chosen : victim (tileSet key v) = some w := by
    rw [ends.same_tileSet, baseSet]
    exact victim_of victim'
  rw [takeMiss_taken unfaulted idle chosen]
  rw [baseSet] at raises
  refine (Eq.mp (congrArg (endsAs · _ _) ?_) raises).perm ?_
  · simp only [arrived_tc]
    rw [show setWait i .waitTile (setTileSet key (takeWay key w s.tc.dir[n]) (arrived side i seq (.place key x y keyColour) s)) =
      setTileSet key (takeWay key w s.tc.dir[n]) (waitsFor side i seq (.place key x y keyColour) .waitTile s) by
        rw [← setWait_arrived]; rfl]
    rw [show faultOnLane side (setTileSet key (takeWay key w s.tc.dir[n]) (arrived side i seq (.place key x y keyColour) s)) =
      s.lc.tx.any fun f => f.item == .fault side from lane_of_tx baseTx side]
    cases side <;> rfl
  · generalize (if s.tc.dir[n][w].valid = true then [SubEvent.evict] else []) = evicts
    refine List.perm_iff_count.2 fun x => ?_
    simp only [List.count_append, List.count_cons, List.count_nil]
    omega

/-- R94: with no way to take the stream waits for one. -/
theorem Misses.waits_way (h : Misses stream seq commands i side key x y keyColour lo hi .absent false s)
    (unfaulted : faultOn key s = none) (idle : (recordOf side s).active = false) (number : n.val = key.toNat % 64)
    (full : noVictim s.tc.dir[n]) : ∃ t, exec (.draw stream seq commands) s = .next t ∧
      endsAs (waitsFor side i seq (.place key x y keyColour) .waitWay s) [.accepted, .absent, .wayWait] t := by
  refine h.ends (st := .waitWay) (fun v ends _ => ?_) (by decide) rfl (by cases side <;> rfl)
  obtain ⟨unfaulted, idle⟩ := arrived_unfaulted ends unfaulted idle
  have waits := (ends.count .wayWait).setWait i .waitWay
  have none' : victim (tileSet key v) = none := by
    rw [ends.same_tileSet, tileSet_eq number]
    simp only [arrived_tc]
    exact victim_none full
  rw [setWait_arrived] at waits
  rw [takeMiss_full unfaulted idle none']
  exact waits

end

/-! ### A hit (R73, R82, R113) -/

theorem drawingOnly_of_ends {s t : State} {us : List SubEvent} {sq : Sequencer} {de : Engines} {dir : Vector TileSet 64} {tf : FaultUnit}
    {fs : FrameStore} {tracker : Tracker} (ends : endsAs { s with
      sq := sq, de := de, tc.dir := dir, tf := tf, fs := fs, mn.tracker := tracker } us t) : drawingOnly s t := by
  obtain ⟨rest, ⟨selections, _, events, lane⟩, _⟩ := ends
  refine ⟨?_, selections, events, lane⟩
  rw [rest]

theorem hitRecord_of_tc {s v : State} (tc : v.tc = s.tc) (e : Entry) (g : Region) (key : Word) (y : Int) (w : Fin 4) :
    hitRecord e g key y w v = hitRecord e g key y w s := by
  unfold hitRecord sectorPixels
  rw [tc]

section
variable {stream : Byte} {seq : Half} {commands : List Byte} {i : Fin 8} {side : Side} {key : Word} {x y : Int}
  {keyColour : Option Half} {s : State} {lo hi : Nat} {n : Fin 64} {w : Fin 4}

/-- R113: a PLACE that arrives alone and hits is taken by its engine. -/
theorem Arrives.hits (h : Arrives stream seq commands i side (.place key x y keyColour) s) (named : key ≠ 0)
    (needs : Needs ⟨i, seq, 0, .place key x y keyColour, false⟩ (regionOf i s) y lo hi)
    (unreserved : (streamOf i s).reservation = none) (found : foundAt key n w s)
    (there : ∀ k : Fin 4, lo ≤ k.val → k.val ≤ hi → s.tc.dir[n][w].sectors.getLsbD k = true)
    (queue : s.fs.holder = none → s.fs.waiting = []) : ∃ t, exec (.draw stream seq commands) s = .next t ∧
      endsAs (nextBegun side (hitRecord ⟨i, seq, 0, .place key x y keyColour, false⟩ (regionOf i s) key y w s)
          (queueOf side s ++ [⟨i, seq, 0, .place key x y keyColour, true⟩])
          { advancedOf i seq s with tc.dir := s.tc.dir.set n (makeRecent w s.tc.dir[n]) }) [.accepted, .hit] t := by
  have ends := (endsAs_refl (arrived side i seq (.place key x y keyColour) s)).count .accepted
  have region : regionOf i (count .accepted (arrived side i seq (.place key x y keyColour) s)) = regionOf i s := by
    rw [ends.same_regionOf]
    cases side <;> rfl
  have tc : (count .accepted (arrived side i seq (.place key x y keyColour) s)).tc = s.tc := by rw [ends.same_tc, arrived_tc]
  have hit : lookupOf key (sectorMask (needLo (recordFor ⟨i, seq, 0, .place key x y keyColour, false⟩ (regionOf i s)) y)
      (needHi (recordFor ⟨i, seq, 0, .place key x y keyColour, false⟩ (regionOf i s)) y))
      (count .accepted (arrived side i seq (.place key x y keyColour) s)) = .hit w := by
    rw [lookupOf_of_dir (congrArg TileCache.dir tc), needs.first, needs.last]
    exact lookupOf_there found there
  obtain ⟨v', hands, takes⟩ := handPlace_takes ends (by rw [streamOf_arrived, if_pos rfl]; exact unreserved) hit
  have fs := arrived_fs (side := side) (i := i) (seq := seq) (s := s) (.place key x y keyColour)
  have begins := takes.beginExecution side
    (hitRecord ⟨i, seq, 0, .place key x y keyColour, false⟩ (regionOf i s) key y w s) (show (arrived side i seq (.place key x y keyColour) s).fs.holder = none →
      (arrived side i seq (.place key x y keyColour) s).fs.waiting = [] by rw [fs]; exact queue)
  have marks : markExecuting (hitRecord ⟨i, seq, 0, .place key x y keyColour, false⟩ (regionOf i s) key y w s)
      (queueOf side s ++ [⟨i, seq, 0, .place key x y keyColour, false⟩]) =
        queueOf side s ++ [⟨i, seq, 0, .place key x y keyColour, true⟩] := by
    have copied := hitRecord_copied ⟨i, seq, 0, .place key x y keyColour, false⟩ (regionOf i s) key y w s
    refine markExecuting_last (fun f mem => Bool.eq_false_iff.2 fun names => h.alone mem ?_) copied.names
    rw [((names_iff _ f).1 names).1, copied.stream]
  rw [← hitRecord_of_tc tc, ← hands] at begins
  refine h.handed ?_ ?_ ?_
  · rw [handOver_place (e := ⟨i, seq, 0, .place key x y keyColour, false⟩) rfl named (by rw [region]; exact needs.visible), region]
    refine Eq.mp (congrArg (endsAs · _ _) ?_) begins
    rw [hitRecord_of_tc tc, show queueOf side (setTileSet key (makeRecent w (tileSet key (arrived side i seq (.place key x y keyColour) s)))
      (arrived side i seq (.place key x y keyColour) s)) = queueOf side s ++ [⟨i, seq, 0, .place key x y keyColour, false⟩] from
        queueOf_arrived, marks, setTileSet_eq found.1, tileSet_eq found.1]
    simp only [arrived_tc]
    cases side <;> rfl
  · refine settled_of_busy (side := side) (by cases side <;> rfl) fun free e mem => ?_
    have idle := arrived_otherIdle h (by cases side <;> exact free) e (by cases side <;> exact mem)
    cases side <;> exact idle
  · cases side <;> rfl

end

/-! ### A hit that gives a reservation back (R82) -/

/-- A lookup's hit leaves the key where it was. -/
theorem foundAt_recent {key : Word} {n : Fin 64} {w : Fin 4} {s : State} (found : foundAt key n w s) :
    foundAt key n w (setTileSet key (makeRecent w (tileSet key s)) s) := by
  have ways : tileSet key (setTileSet key (makeRecent w (tileSet key s)) s) = makeRecent w (tileSet key s) := by
    rw [tileSet_eq found.1, setTileSet_eq found.1]
    simp
  refine (foundAt_iff_findWay found.1).1 ?_
  rw [ways, findWay_congr (ways := tileSet key s) fun v => ?_]
  · exact (foundAt_iff_findWay found.1).2 found
  · rw [makeRecent_way]
    exact ⟨rfl, rfl⟩

/-- R82, R113: the engine takes a PLACE that hits, and its stream's reservation is given back. -/
theorem handPlace_releases {side : Side} {e : Entry} {g : Region} {key : Word} {y : Int} {n : Fin 64} {w : Fin 4} {u v : State}
    {us : List SubEvent} (ends : endsAs u us v) (reserved : (streamOf e.stream u).reservation = some key) (found : foundAt key n w u)
    (hit : lookupOf key (sectorMask (needLo (recordFor e g) y) (needHi (recordFor e g) y)) v = .hit w) :
    ∃ v', handPlace side (recordFor e g) key y v = beginExecution side (hitRecord e g key y w v) v' ∧
      endsAs (released e.stream n w (setTileSet key (makeRecent w (tileSet key u)) u)) (us ++ [.hit]) v' := by
  refine ⟨_, handPlace_taken hit, ?_⟩
  rw [ends.same_tileSet]
  exact ((ends.setTileSet key _).count .hit).releaseReservation reserved (foundAt_recent found)

/-- R72, R82: the entry most recent and one reservation less on it, the other ways of its set aged. -/
theorem released_way {i : Fin 8} {key : Word} {n : Fin 64} {w v : Fin 4} {s : State} (number : n.val = key.toNat % 64) :
    (released i n w (setTileSet key (makeRecent w (tileSet key s)) s)).tc.dir[n][v] =
      if v = w then { s.tc.dir[n][v] with age := 0, reserve := s.tc.dir[n][v].reserve - 1 }
      else if s.tc.dir[n][v].age < s.tc.dir[n][w].age then { s.tc.dir[n][v] with age := s.tc.dir[n][v].age + 1 }
      else s.tc.dir[n][v] := by
  rw [tileSet_eq number, setTileSet_eq number, released]
  dsimp only
  rw [dir_set_way]
  split
  · next same => simp [same, makeRecent, Vector.getElem_ofFn]
  · next other =>
    simp only [Fin.getElem_fin, Vector.getElem_set_self, makeRecent, Vector.getElem_ofFn]
    exact if_neg other

theorem released_others {i : Fin 8} {key : Word} {n k : Fin 64} {w : Fin 4} {s : State} (number : n.val = key.toNat % 64)
    (other : k ≠ n) : (released i n w (setTileSet key (makeRecent w (tileSet key s)) s)).tc.dir[k] = s.tc.dir[k] := by
  have differs : n.val ≠ k.val := fun same => other (Fin.ext same.symm)
  rw [setTileSet_eq number, released]
  simp [differs]

theorem released_streams {i : Fin 8} {key : Word} {n : Fin 64} {w : Fin 4} {s u : State} (number : n.val = key.toNat % 64)
    (streams : u.sq.streams = s.sq.streams) (tc : u.tc = s.tc) (j : Fin 8) :
    streamOf j (released i n w (setTileSet key (makeRecent w (tileSet key u)) u)) = streamOf j (released i n w s) := by
  have stream : streamOf j u = streamOf j s := by unfold streamOf; rw [streams]
  have reserve : (setTileSet key (makeRecent w (tileSet key u)) u).tc.dir[n][w].reserve = s.tc.dir[n][w].reserve := by
    rw [tileSet_eq number, setTileSet_eq number]
    simp [makeRecent, tc]
  rw [streamOf_released, streamOf_released, reserve, show streamOf j (setTileSet key (makeRecent w (tileSet key u)) u) = streamOf j u from
    rfl, stream]

/-! ### The settlement -/

theorem sectorMask_eq {lo hi : Nat} {m : BitVec 4} (bits : ∀ k : Nat, k < 4 → m.getLsbD k = decide (lo ≤ k ∧ k ≤ hi)) :
    m = sectorMask lo hi :=
  BitVec.eq_of_getLsbD_eq fun k bound => (bits k bound).trans (sectorMask_bit lo hi ⟨k, bound⟩).symm

theorem sectorMask_bits (lo hi k : Nat) (bound : k < 4) : (sectorMask lo hi).getLsbD k = decide (lo ≤ k ∧ k ≤ hi) :=
  sectorMask_bit lo hi ⟨k, bound⟩

section
variable {stream : Byte} {seq : Half} {commands : List Byte} {i : Fin 8} {side : Side} {key : Word} {x y : Int}
  {keyColour : Option Half} {s t : State} {lo hi : Nat} {n : Fin 64} {w : Fin 4}

/-- What a hit leaves, told field by field. -/
theorem hit_fields {cmd : DrawCommand} {r : ExecRecord} {us : List SubEvent} (ends : endsAs (nextBegun side r
      (queueOf side s ++ [⟨i, seq, 0, cmd, true⟩])
      { advancedOf i seq s with tc.dir := s.tc.dir.set n (makeRecent w s.tc.dir[n]) }) us t) :
    drawingOnly (passed s) t ∧ engineOf side t = some r ∧
      (∀ v : Fin 4, t.tc.dir[n][v] =
        if v = w then { s.tc.dir[n][v] with age := 0 }
        else if s.tc.dir[n][v].age < s.tc.dir[n][w].age then { s.tc.dir[n][v] with age := s.tc.dir[n][v].age + 1 }
        else s.tc.dir[n][v]) ∧
      (∀ m : Fin 64, m ≠ n → t.tc.dir[m] = s.tc.dir[m]) ∧
      streamOf i t = { streamOf i s with expected := seq + 1 } ∧ t.tf = s.tf ∧ countedAs us s t := by
  generalize hu : nextBegun side r (queueOf side s ++ [⟨i, seq, 0, cmd, true⟩])
    { advancedOf i seq s with tc.dir := s.tc.dir.set n (makeRecent w s.tc.dir[n]) } = u at ends
  have shape : u = { passed s with
      sq := u.sq, de := u.de, tc.dir := u.tc.dir, tf := u.tf, fs := u.fs, mn.tracker := u.mn.tracker } := by
    subst hu
    cases side <;> rfl
  have dir : t.tc.dir = s.tc.dir.set n (makeRecent w s.tc.dir[n]) := by rw [ends.same_tc, ← hu]; cases side <;> rfl
  refine ⟨drawingOnly_of_ends (Eq.mp (congrArg (endsAs · _ _) shape) ends), ?_, fun v => ?_, fun m other => ?_, ?_, ?_, ?_⟩
  · rw [ends.same_engineOf, ← hu]
    cases side <;> rfl
  · simp only [dir, Fin.getElem_fin, Vector.getElem_set_self, makeRecent, Vector.getElem_ofFn]
  · have differs : n.val ≠ m.val := fun same => other (Fin.ext same.symm)
    simp [dir, differs]
  · rw [ends.same_streamOf, ← hu]
    have stream : streamOf i (nextBegun side r (queueOf side s ++ [⟨i, seq, 0, cmd, true⟩])
        { advancedOf i seq s with tc.dir := s.tc.dir.set n (makeRecent w s.tc.dir[n]) }) = streamOf i (advancedOf i seq s) := by
      cases side <;> rfl
    rw [stream, advancedOf, streamOf_setStream_self]
  · rw [ends.same_tf, ← hu]
    cases side <;> rfl
  · exact countedAs_of_same (u := u) ends.2.2 (by subst hu; cases side <;> rfl) (by subst hu; cases side <;> rfl)

/-- What a raised fault leaves, told field by field. -/
theorem raised_fields {cmd : DrawCommand} {mask : BitVec 4} {ways : TileSet} {us : List SubEvent}
    (ends : endsAs (faultRaised side i key mask (s.tc.dir.set n ways) s (waitsFor side i seq cmd .waitTile s)) us t) :
    drawingOnly (passed s) t ∧ recordOf side t = raisedRecord side i key mask s ∧
      recordOf (otherSide side) t = recordOf (otherSide side) s ∧ t.tc.dir[n] = ways ∧
      (∀ m : Fin 64, m ≠ n → t.tc.dir[m] = s.tc.dir[m]) ∧
      streamOf i t = { streamOf i s with expected := seq + 1, state := .waitTile } ∧
      queueOf side t = queueOf side s ++ [⟨i, seq, 0, cmd, false⟩] ∧ t.de = s.de ∧ t.fs = s.fs ∧
      t.mn.tracker.armed = s.mn.tracker.armed.or (some ⟨side, key, s.tick⟩) ∧ countedAs us s t := by
  generalize hu : faultRaised side i key mask (s.tc.dir.set n ways) s (waitsFor side i seq cmd .waitTile s) = u at ends
  have shape : u = { passed s with
      sq := u.sq, de := u.de, tc.dir := u.tc.dir, tf := u.tf, fs := u.fs, mn.tracker := u.mn.tracker } := by
    subst hu
    cases side <;> rfl
  have dir : t.tc.dir = s.tc.dir.set n ways := by rw [ends.same_tc, ← hu]; cases side <;> rfl
  have stream : streamOf i t = streamOf i (waitsFor side i seq cmd .waitTile s) := by
    rw [ends.same_streamOf, ← hu]
    cases side <;> rfl
  refine ⟨drawingOnly_of_ends (Eq.mp (congrArg (endsAs · _ _) shape) ends), ?_, ?_, ?_, fun m other => ?_, ?_, ?_, ?_, ?_, ?_, ?_⟩
  · rw [ends.same_recordOf, ← hu]
    cases side <;> rfl
  · rw [ends.same_recordOf, ← hu]
    cases side <;> rfl
  · simp [dir]
  · have differs : n.val ≠ m.val := fun same => other (Fin.ext same.symm)
    simp [dir, differs]
  · rw [stream, waitsFor, streamOf_setStream_self]
  · rw [ends.same_queueOf, ← hu]
    cases side <;> rfl
  · rw [ends.same_de, ← hu]
    cases side <;> rfl
  · rw [ends.same_fs, ← hu]
    cases side <;> rfl
  · have tracker : t.mn.tracker = u.mn.tracker := ends.2.1.2.1
    rw [tracker, ← hu]
    rfl
  · exact countedAs_of_same (u := { u with mn.tracker := s.mn.tracker }) ends.2.2 (by subst hu; cases side <;> rfl)
      (by subst hu; cases side <;> rfl)

end

/-- R82, R120: an end of an execution hands over a PLACE that hits, and its stream's reservation is given back. -/
theorem executionEnd_releases {side : Side} {s : State} {r : ExecRecord} {e f : Entry} {key : Word} {x y : Int}
    {keyColour : Option Half} {n : Fin 64} {w : Fin 4} {lo hi : Nat} (busy : engineOf side s = some r)
    (writing : s.fs.holder = some (.engine side)) (stays : r.removed = false) (queue : queueOf side s = [e, f])
    (own : e.stream = r.stream ∧ e.seq = r.seq ∧ e.pos = r.pos) (place : f.command = .place key x y keyColour)
    (waits : f.executing = false) (ready : (streamOf f.stream s).state = .ready)
    (reserved : (streamOf f.stream s).reservation = some key) (other : (engineOf (otherSide side) s).isSome = true) (named : key ≠ 0)
    (found : foundAt key n w s) (needs : Needs f (regionOf f.stream s) y lo hi)
    (there : ∀ k : Fin 4, lo ≤ k.val → k.val ≤ hi → s.tc.dir[n][w].sectors.getLsbD k = true) :
    ∃ tc streams pu free us t, exec (.executionEnd side) s = .next t ∧
      ((∀ j : Fin 8, streams[j] = streamOf j (released f.stream n w s)) ∧
        (∀ v : Fin 4, tc.dir[n][v] =
          if v = w then { s.tc.dir[n][v] with age := 0, reserve := s.tc.dir[n][v].reserve - 1 }
          else if s.tc.dir[n][v].age < s.tc.dir[n][w].age then { s.tc.dir[n][v] with age := s.tc.dir[n][v].age + 1 }
          else s.tc.dir[n][v]) ∧
        ∀ k : Fin 64, k ≠ n → tc.dir[k] = s.tc.dir[k]) ∧
      endsAs (nextBegun side (hitRecord f (regionOf f.stream s) key y w s) [{ f with executing := true }]
        { ended side [f] (writeCommand (panelW s) (panelPixels s) r s.fs.image) pu free s with
          tc := tc, sq.streams := streams }) us t := by
  have left : entriesLeft side r s = [] ++ f :: [] :=
    entriesLeft_eq (.inl ⟨stays, [], e, [f], queue, rfl, own, fun d mem => absurd mem List.not_mem_nil⟩)
  obtain ⟨x', tc, streams, pu, free, t, runs, _, ⟨rfl, holds⟩, ends⟩ := executionEnd_hands (hits := [.hit]) (front := [])
    (P := fun x' tc streams => x' = hitRecord f (regionOf f.stream s) key y w s ∧
      (∀ j : Fin 8, streams[j] = streamOf j (released f.stream n w s)) ∧
        (∀ v : Fin 4, tc.dir[n][v] =
          if v = w then { s.tc.dir[n][v] with age := 0, reserve := s.tc.dir[n][v].reserve - 1 }
          else if s.tc.dir[n][v].age < s.tc.dir[n][w].age then { s.tc.dir[n][v] with age := s.tc.dir[n][v].age + 1 }
          else s.tc.dir[n][v]) ∧
        ∀ k : Fin 64, k ≠ n → tc.dir[k] = s.tc.dir[k]) busy writing left (fun d mem => absurd mem List.not_mem_nil) ready waits
    (.inl other) fun u v us ends lu sq tc => by
      have region : regionOf f.stream v = regionOf f.stream s := by unfold regionOf; rw [ends.same_lu, lu]
      have cache : v.tc = s.tc := by rw [ends.same_tc, tc]
      have hit : lookupOf key (sectorMask (needLo (recordFor f (regionOf f.stream s)) y)
          (needHi (recordFor f (regionOf f.stream s)) y)) v = .hit w := by
        rw [lookupOf_of_dir (congrArg TileCache.dir cache), needs.first, needs.last]
        exact lookupOf_there found there
      have stream : streamOf f.stream u = streamOf f.stream s := by unfold streamOf; rw [sq]
      obtain ⟨v', hands, takes⟩ := handPlace_releases (side := side) ends (by rw [stream]; exact reserved)
        (foundAt_of_dir found (by rw [tc])) hit
      refine ⟨_, _, _, v', hitRecord_copied f _ key y w v, ⟨hitRecord_of_tc cache _ _ _ _ _, fun j => ?_, fun w' => ?_,
        fun k differs => ?_⟩, .inl other, ?_, takes⟩
      · exact released_streams found.1 sq tc j
      · exact (released_way (i := f.stream) found.1).trans (by simp only [tc])
      · exact (released_others (i := f.stream) found.1 differs).trans (by simp only [tc])
      · rw [handOver_place place named (by rw [region]; exact needs.visible), region, hands]
  exact ⟨tc, streams, pu, free, _, t, runs, holds, ends⟩

/-- Settles O23. -/
theorem aPlaceIsLookedUp : Obligations.APlaceIsLookedUp := by
  refine ⟨faultOn_iff,
    fun stream seq commands s i side key x y keyColour cx0 cx1 cy0 cy1 n lo hi up attached some' short byte read ready own plain
      unreserved running expected emptyA emptyB free named number hcx0 hcx1 hcy0 hcy1 wide high first last => ?_,
    fun stream seq commands s i side key x y keyColour cy0 cy1 n lo hi m miss u up attached some' short byte read ready own plain
      unreserved running expected hands room free named number wide hcy0 hcy1 high first last bits outcome hu => ?_,
    fun side s r e f key x y keyColour cy0 cy1 n w lo hi busy writing stays queue own1 own2 own3 place waits ready reserved other named
      found wide hcy0 hcy1 high first last there => ?_⟩
  · have empty : queueOf side s = [] := by cases side; exacts [emptyA, emptyB]
    have arrives : Arrives stream seq commands i side (.place key x y keyColour) s :=
      ⟨up, attached, some', short, byte, read, ready, own, plain, running, expected, nothingToHand_of_empty emptyA emptyB,
        by rw [empty]; decide, free⟩
    have needs : Needs ⟨i, seq, 0, .place key x y keyColour, false⟩ (regionOf i s) y lo hi :=
      needs_of rfl (by omega) hcy0 hcy1 high first last
    refine ⟨fun w valid holds queue lowest there => ?_, fun absent faultA faultB idle w invalid lowest => ?_⟩
    · obtain ⟨t, runs, ends⟩ := arrives.hits named needs unreserved ⟨number, valid, holds, lowest⟩ (fun k => there k.val) queue
      obtain ⟨drawing, engine, ways, others, stream', tf, counted⟩ := hit_fields ends
      have copied := hitRecord_copied ⟨i, seq, 0, .place key x y keyColour, false⟩ (regionOf i s) key y w s
      obtain ⟨left, right, top, bottom⟩ := recordFor_clip (e := ⟨i, seq, 0, .place key x y keyColour, false⟩) (g := regionOf i s)
        (x := x) (y := y) (w := 16) (h := 16) rfl
      refine ⟨t, runs, drawing, ⟨_, engine, copied.stream, copied.command, left.trans hcx0.symm, right.trans ?_, top.trans hcy0.symm,
        bottom.trans ?_, needs.first, copied.removed, fun p within => ?_⟩, ways, others, stream', tf, counted⟩
      · omega
      · omega
      · show (sectorPixels key w _ _ s)[p]? = _
        rw [needs.first, needs.last]
        exact sectorPixels_pixel number w within s
    · have unfaulted : faultOn key s = none := by
        refine Option.eq_none_iff_forall_ne_some.2 fun x' fault => ?_
        obtain ⟨active, holds⟩ := faultOn_some fault
        cases x'
        exacts [faultA active holds, faultB active holds]
      have misses : Misses stream seq commands i side key x y keyColour lo hi .absent false s :=
        ⟨arrives, arrives.misses named needs unreserved (.inr ⟨lookupOf_nowhere number absent, rfl, rfl⟩)⟩
      obtain ⟨t, runs, ends⟩ := misses.raises_absent unfaulted idle number absent (w := w) (.inl ⟨invalid, lowest⟩)
      obtain ⟨drawing, record, otherRecord, ways, others, stream', queue, de, fs, armed, counted⟩ := raised_fields ends
      refine ⟨t, runs, drawing, ⟨sectorMask lo hi, sectorMask_bits lo hi, record⟩, otherRecord, fun v => ?_, others, stream', ?_, de, fs,
        armed, ?_⟩
      · rw [ways, Fin.getElem_fin, Vector.getElem_ofFn]
      · rw [queue, empty, List.nil_append]
      · rw [if_neg (by rw [invalid]; decide)] at counted
        exact counted
  · have arrives : Arrives stream seq commands i side (.place key x y keyColour) s :=
      ⟨up, attached, some', short, byte, read, ready, own, plain, running, expected, hands, room, free⟩
    have needs : Needs ⟨i, seq, 0, .place key x y keyColour, false⟩ (regionOf i s) y lo hi :=
      needs_of rfl wide hcy0 hcy1 high first last
    obtain rfl := sectorMask_eq bits
    have effect (st : StreamState) : u st = waitsFor side i seq (.place key x y keyColour) st s := hu st
    simp only [effect]
    have misses : ∃ present, Misses stream seq commands i side key x y keyColour lo hi miss present s := by
      rcases outcome with ⟨w, found, lacks, rfl⟩ | ⟨absent, rfl⟩
      · exact ⟨true, arrives, arrives.misses named needs unreserved (.inl ⟨w, lookupOf_lacks found lacks, rfl, rfl⟩)⟩
      · exact ⟨false, arrives, arrives.misses named needs unreserved (.inr ⟨lookupOf_nowhere number absent, rfl, rfl⟩)⟩
    obtain ⟨present, missed⟩ := misses
    refine ⟨fun x' fault => missed.joins fault, fun unfaulted active => missed.waits_slot unfaulted active, fun unfaulted idle =>
      ⟨fun isAbsent full => ?_, fun w ways taken => ?_⟩⟩
    · subst isAbsent
      have absent := outcome.elim (fun ⟨_, _, _, different⟩ => absurd different (by decide)) And.left
      have misses : Misses stream seq commands i side key x y keyColour lo hi .absent false s :=
        ⟨arrives, arrives.misses named needs unreserved (.inr ⟨lookupOf_nowhere number absent, rfl, rfl⟩)⟩
      exact misses.waits_way unfaulted idle number full
    · rcases taken with ⟨rfl, found, rfl⟩ | ⟨rfl, victim', rfl⟩
      · obtain ⟨w', found', lacks⟩ : ∃ w' : Fin 4, foundAt key n w' s ∧ sectorMask lo hi &&& ~~~ s.tc.dir[n][w'].sectors ≠ 0 :=
          outcome.elim (fun ⟨w', found', lacks, _⟩ => ⟨w', found', lacks⟩) fun h => absurd h.2 (by decide)
        have misses : Misses stream seq commands i side key x y keyColour lo hi .sectorMiss true s :=
          ⟨arrives, arrives.misses named needs unreserved (.inl ⟨w', lookupOf_lacks found' lacks, rfl, rfl⟩)⟩
        obtain ⟨t, runs, ends⟩ := misses.raises_present unfaulted idle found
        have takesNone : (if SubEvent.sectorMiss = .absent ∧ s.tc.dir[n][w].valid = true then [SubEvent.evict] else []) = [] :=
          if_neg fun h => absurd h.1 (by decide)
        refine ⟨t, runs, ?_⟩
        rw [takesNone, List.append_nil]
        exact ends
      · have absent := outcome.elim (fun ⟨_, _, _, different⟩ => absurd different (by decide)) And.left
        have misses : Misses stream seq commands i side key x y keyColour lo hi .absent false s :=
          ⟨arrives, arrives.misses named needs unreserved (.inr ⟨lookupOf_nowhere number absent, rfl, rfl⟩)⟩
        obtain ⟨t, runs, ends⟩ := misses.raises_absent unfaulted idle number absent victim'
        refine ⟨t, runs, ?_⟩
        simp only [true_and]
        exact ends
  · have needs : Needs f (regionOf f.stream s) y lo hi := needs_of place wide hcy0 hcy1 high first last
    obtain ⟨tc, streams, pu, free, us, t, runs, ⟨streams', ways, others⟩, ends⟩ := executionEnd_releases busy writing stays queue
      ⟨own1, own2, own3⟩ place waits ready reserved other named found needs fun k => there k.val
    obtain ⟨t', runs', after⟩ := executionEnd_draws busy writing
    obtain rfl : t = t' := by injection runs.symm.trans runs'
    have copied := hitRecord_copied f (regionOf f.stream s) key y w s
    obtain ⟨_, _, top, bottom⟩ := recordFor_clip (e := f) (g := regionOf f.stream s) (x := x) (y := y) (w := 16) (h := 16)
      (by rw [place]; rfl)
    have cache : t.tc = tc := by rw [ends.same_tc]; cases side <;> rfl
    refine ⟨t, runs, (drawn_drawing r s).trans after.drawing, fun j => ?_, fun v => ?_, fun k differs => ?_, ?_, ?_, ?_,
      ⟨_, ?_, copied.stream, copied.seq, copied.pos, copied.command, top.trans hcy0.symm, bottom.trans ?_, needs.first, copied.removed⟩,
      ?_, ?_⟩
    · rw [← streams' j, ends.same_streamOf]
      cases side <;> rfl
    · simpa only [cache] using ways v
    · simpa only [cache] using others k differs
    · rw [ends.same_tf]; cases side <;> rfl
    · rw [ends.same_queueOf]; cases side <;> rfl
    · rw [ends.same_queueOf]; cases side <;> rfl
    · rw [ends.same_engineOf]; cases side <;> rfl
    · omega
    · rw [ends.same_fs, nextBegun_holder (waiting := s.fs.waiting) (by cases side <;> rfl),
        nextBegun_waiting (waiting := s.fs.waiting) (by cases side <;> rfl) (by cases side <;> rfl)]
      cases s.fs.waiting <;> simp
    · rw [ends.same_sq]; cases side <;> rfl

end Sys2Proof.Machine
end

section
/-! PROOFS. The reattach of a held session (R12): the settlement of O15. -/

namespace Sys2Proof.Machine

/-! ### What a reattach leaves (R12, R104, R151) -/

/-- R151: the KEYS queue with a snapshot handed on. -/
def keysWith (r : Report) (keys : List Report) : List Report := if keys.length < 8 then keys ++ [r] else keys.dropLast ++ [r]

/-- R104: a record presented again, with a fresh timer, its FAULT not on the lane. -/
def represented (load : Nat) (r : FaultRecord) : FaultRecord :=
  if r.active then { r with send := true, timer := some load } else r

theorem queueReport_attached (r : Report) {s : State} (attached : s.lc.attachment = .attached) : queueReport r s =
    count (if s.lc.keys.length < 8 then .reportQueued else .reportCoalesced) { s with lc.keys := keysWith r s.lc.keys } := by
  unfold queueReport keysWith
  rw [if_neg (by rw [attached]; decide)]
  by_cases room : s.lc.keys.length < 8
  · rw [if_pos (by exact room), if_pos room, if_pos room]
  · rw [if_neg (by exact room), if_neg room, if_neg room]

section
variable {u v : State} {us : List SubEvent} (h : endsAs u us v)
include h

theorem endsAs.flagOpenRewinds (reason : RewindReason) (lane : v.lc.tx = none) :
    endsAs (Machine.mapStreams (fun _ r => if r.state ≠ .closed then { r with rewind := some reason } else r) u) us
      (Machine.flagOpenRewinds reason v) := by
  rw [flagOpenRewinds_eq, lane]
  refine Eq.mp (congrArg (endsAs · _ _) ?_) (h.mapStreams fun i r => if r.state ≠ .closed then rewound reason none i r else r)
  simp only [rewound, Option.any_none, Bool.or_false]

theorem endsAs.representFault (side : Side) (lane : v.lc.tx = none) :
    endsAs (Machine.setRecord side (represented (u.settings.faultTimeout * 1000) (recordOf side u)) u)
      (us ++ if (recordOf side u).active then [.represented] else []) (representFault side v) := by
  have load : faultLoad v = u.settings.faultTimeout * 1000 := by rw [faultLoad, h.same_settings]; rfl
  have off : faultOnLane side v = false := by rw [faultOnLane, lane]; rfl
  unfold Machine.representFault represented
  rw [h.same_recordOf side, load, off]
  dsimp only
  cases active : (recordOf side u).active
  · rw [if_neg (by decide), if_neg (by decide), if_neg (by decide), List.append_nil]
    refine Eq.mp (congrArg (endsAs · _ _) ?_) h
    cases side <;> rfl
  · rw [if_pos rfl, if_pos rfl, if_pos rfl]
    refine Eq.mp (congrArg (endsAs · _ _) ?_) ((h.setRecord side _).count .represented)
    simp only [sendSet, Bool.or_false]

theorem endsAs.queueReport (r : Report) (attached : u.lc.attachment = .attached) :
    endsAs { u with lc.keys := keysWith r u.lc.keys }
      (us ++ [if u.lc.keys.length < 8 then .reportQueued else .reportCoalesced]) (queueReport r v) := by
  have attachment : v.lc.attachment = .attached := by rw [← attached, h.1]
  have keys : v.lc.keys = u.lc.keys := by rw [h.1]
  have queued := h.map (fun s => { s with lc.keys := keysWith r s.lc.keys }) (fun _ _ _ _ => rfl) (fun _ => rfl) (fun _ => rfl)
    (fun _ => rfl) fun _ => rfl
  rw [queueReport_attached r attachment, keys]
  rw [keys] at queued
  exact queued.count _

end

/-- R12: the state after a reattach, LINK_RESUMED not yet raised and the lane free. -/
def reattached (s : State) : State := { s with
  lc.attachment := .attached, lc.holdTimer := none, lc.lastCause := s.lc.holdCause, lc.lastDuration := holdMs s
  lc.greet := some .resumed, lc.keys := keysWith s.ks.report s.lc.keys
  sq.streams := Vector.ofFn fun i => if (streamOf i s).state ≠ .closed then { streamOf i s with rewind := some .reattach }
    else streamOf i s
  tf := ⟨represented (s.settings.faultTimeout * 1000) s.tf.recA, represented (s.settings.faultTimeout * 1000) s.tf.recB⟩ }

/-- The attachment's own part of a reattach, the lane free. -/
def greetedAgain (s : State) : State := { s with
  lc.attachment := .attached, lc.holdTimer := none, lc.lastCause := s.lc.holdCause, lc.lastDuration := holdMs s
  lc.greet := some .resumed }

theorem reattach_free {s : State} (free : s.lc.tx = none) : reattach s =
    count .reattach (raiseEvent .linkResumed (resumedDetail s) (reattachSnapshot
      (representFault .b (representFault .a (flagOpenRewinds .reattach (greetedAgain s)))))) := by
  have greeted : flagGreet .resumed { s with
      lc.attachment := .attached, lc.holdTimer := none, lc.lastCause := s.lc.holdCause, lc.lastDuration := holdMs s } =
      greetedAgain s := by
    rw [flagGreet_of_ne_repeated (by decide), free]
    simp only [Option.any_none, Bool.or_false]
    rfl
  unfold reattach
  rw [greeted]

/-- The same with every open stream flagged and the active records presented again. -/
def representedAgain (s : State) : State := { greetedAgain s with
  sq.streams := Vector.ofFn fun i => if (streamOf i s).state ≠ .closed then { streamOf i s with rewind := some .reattach }
    else streamOf i s
  tf := ⟨represented (s.settings.faultTimeout * 1000) s.tf.recA, represented (s.settings.faultTimeout * 1000) s.tf.recB⟩ }

theorem representedAgain_ends {s : State} (free : s.lc.tx = none) :
    endsAs (representedAgain s) ((if s.tf.recA.active then [.represented] else []) ++ if s.tf.recB.active then [.represented] else [])
        (representFault .b (representFault .a (flagOpenRewinds .reattach (greetedAgain s)))) ∧
      (representFault .b (representFault .a (flagOpenRewinds .reattach (greetedAgain s)))).lc.tx = none := by
  have rewinds := (endsAs_refl (greetedAgain s)).flagOpenRewinds .reattach free
  have lane : (flagOpenRewinds .reattach (greetedAgain s)).lc.tx = none := (flagOpenRewinds_kept _ _).same_tx.trans free
  generalize flagOpenRewinds .reattach (greetedAgain s) = v at rewinds lane
  have laneA := (representFault_kept .a v).same_tx.trans lane
  exact ⟨(rewinds.representFault .a lane).representFault .b laneA, (representFault_kept .b _).same_tx.trans laneA⟩

theorem reattach_counts (a b q r : List SubEvent) (x y : SubEvent) :
    (a ++ b ++ [y] ++ q ++ r ++ [x]).Perm ([x, y] ++ q ++ a ++ b ++ r) := by
  refine List.perm_iff_count.2 fun z => ?_
  simp only [List.count_append, List.count_nil, List.count_cons]
  omega

theorem reattach_ends {s : State} (free : s.lc.tx = none) :
    endsAs (raised .linkResumed (resumedDetail s) (reattached s))
      ([.reattach, .reattachSnapshot] ++ (if s.lc.keys.length < 8 then [.reportQueued] else [.reportCoalesced]) ++
        (if s.tf.recA.active then [.represented] else []) ++ (if s.tf.recB.active then [.represented] else []) ++
        raiseCounts .linkResumed s) (reattach s) := by
  obtain ⟨again, lane⟩ := representedAgain_ends free
  rw [reattach_free free, reattachSnapshot]
  generalize representFault .b (representFault .a (flagOpenRewinds .reattach (greetedAgain s))) = v at again lane
  have report : v.ks.report = s.ks.report := by
    rw [again.1]
    rfl
  rw [report]
  have keys := (again.count .reattachSnapshot).queueReport s.ks.report rfl
  have raises := (Machine.endsAs.raise keys .linkResumed (resumedDetail s) (by decide)
    (by rw [queueReport_tx, count_lc, lane]; exact free.symm)).count .reattach
  have queued : [if s.lc.keys.length < 8 then SubEvent.reportQueued else .reportCoalesced] =
      if s.lc.keys.length < 8 then [.reportQueued] else [.reportCoalesced] := by split <;> rfl
  rw [← queued]
  exact (Eq.mp (congrArg (endsAs · _ _) rfl) raises).perm (reattach_counts _ _ _ _ _ _)

/-! ### A raise, and the lane (R18, R162) -/

theorem raised_rest (k : EventKind) (d : BitVec 24) (s : State) :
    raised k d s = { s with me.events := (raised k d s).me.events } := by
  unfold raised
  split <;> rfl

theorem eventSlot_raised (k j : EventKind) (d : BitVec 24) (s : State) : eventSlot j (raised k d s) =
    if s.settings.enables.getLsbD k.number.val = true ∧ j = k then
      slotRaised k d (s.lc.tx.any fun x => x.item == .event k) (eventSlot k s)
    else eventSlot j s := by
  unfold raised
  by_cases enabled : s.settings.enables.getLsbD k.number.val = true
  · rw [if_pos enabled]
    by_cases same : j = k
    · rw [if_pos ⟨enabled, same⟩, same, eventSlot_setEventSlot_self]
    · rw [if_neg (fun h => same h.2), eventSlot_setEventSlot_ne (Ne.symm same)]
  · rw [if_neg enabled, if_neg fun h => enabled h.1]

/-- R17, R18: with GREET flagged, what starts on a free lane is a GREET. -/
theorem conclude_greets {before v : State} (free : v.lc.tx = none) (greet : v.lc.greet.isSome = true) (k : EventKind) :
    ((conclude before v).lc.tx.any fun x => x.item == .event k) = false := by
  cases sending : (conclude before v).lc.tx with
  | none => rfl
  | some x =>
    obtain ⟨_, _, next, _⟩ := arbitrate_starts (v := countEdges before v) (by rw [countEdges_lc]; exact free) sending
    rw [nextItem, if_pos (by rw [countEdges_lc]; exact greet)] at next
    rw [Option.any_some, ← Option.some.inj next]
    rfl

/-! ### The settlement -/

/-- Settles O15. -/
theorem helloReattachesAHeldSession : Obligations.HelloReattachesAHeldSession := by
  intro s up held free
  have ends := reattach_ends (s := passed s) free
  have takes : takeHello s.lc.attachNumber (passed s) = reattach (passed s) := by
    unfold takeHello
    rw [show (passed s).lc.attachment = .held from held]
    exact if_pos rfl
  have greets := conclude_greets (before := s) ((reattach_tx (passed s)).trans free) (by rw [ends.1, raised_rest]; rfl)
  have ended := ends.conclude s
  refine ⟨_, by rw [exec_hello, execHello, frameArrival_eq _ (assembles_up up), passFrame_up _ up, takes], ?_⟩
  generalize conclude s (reattach (passed s)) = t at greets ended
  have slots : ∀ k : EventKind, k ≠ .monitorSaturated → (eventSlot k t).pending = (eventSlot k (raised .linkResumed
      (resumedDetail s) s)).pending ∧ (eventSlot k t).detail = (eventSlot k (raised .linkResumed (resumedDetail s) s)).detail ∧
      (eventSlot k t).renewed = (eventSlot k (raised .linkResumed (resumedDetail s) s)).renewed ∧
      (eventSlot k t).renewal = (eventSlot k (raised .linkResumed (resumedDetail s) s)).renewal := by
    intro k other
    have same : eventSlot k (raised .linkResumed (resumedDetail (passed s)) (reattached (passed s))) =
        eventSlot k (raised .linkResumed (resumedDetail s) s) := by rw [eventSlot_raised, eventSlot_raised]; rfl
    obtain ⟨pending, detail, renewed, renewal⟩ := ended.2.1.2.2.1 k other
    rw [if_neg fun starts => absurd ((greets k).symm.trans starts.2) (by decide)] at renewal
    rw [← same]
    exact ⟨pending, detail, renewed, renewal⟩
  have resumed : s.settings.enables.getLsbD 0 = true → eventSlot .linkResumed (raised .linkResumed (resumedDetail s) s) =
      slotRaised .linkResumed (resumedDetail s) false (eventSlot .linkResumed s) := by
    intro enabled
    rw [eventSlot_raised, if_pos ⟨enabled, rfl⟩, free]
    rfl
  have unraised : s.settings.enables.getLsbD 0 = false →
      eventSlot .linkResumed (raised .linkResumed (resumedDetail s) s) = eventSlot .linkResumed s := by
    intro disabled
    rw [eventSlot_raised, if_neg fun h => absurd (disabled.symm.trans h.1) (by decide)]
  have others (k : EventKind) (other : k ≠ .linkResumed) :
      eventSlot k (raised .linkResumed (resumedDetail s) s) = eventSlot k s := by
    rw [eventSlot_raised, if_neg fun h => other h.2]
  have undisturbed (k : EventKind) : (eventSlot k (raised .linkResumed (resumedDetail s) s)).renewed = (eventSlot k s).renewed ∧
      (eventSlot k (raised .linkResumed (resumedDetail s) s)).renewal = (eventSlot k s).renewal := by
    by_cases own : k = .linkResumed
    · subst own
      cases enabled : s.settings.enables.getLsbD 0
      · rw [unraised enabled]
        exact ⟨rfl, rfl⟩
      · rw [resumed enabled]
        exact ⟨Bool.or_false _, rfl⟩
    · rw [others k own]
      exact ⟨rfl, rfl⟩
  have rest := ended.1
  rw [raised_rest] at rest
  refine ⟨?_, ?_, ?_, ?_, ?_, fun b began => ?_, ?_, ?_, ?_, fun i => ?_, fun side => ?_, fun enabled => ⟨?_, fun b cause began
    caused => ?_⟩, fun disabled => ⟨?_, ?_⟩, fun k other notSaturated => ⟨?_, ?_⟩, fun k notSaturated => ⟨?_, ?_⟩, ?_⟩
  · rw [rest]; rfl
  · rw [rest]; rfl
  · rw [rest]; rfl
  · rw [rest]; rfl
  · rw [rest]; rfl
  · have duration : t.lc.lastDuration = holdMs s := by rw [rest]; rfl
    rw [duration, holdMs, began]
    rfl
  · rw [rest]; rfl
  · rw [rest]; rfl
  · rw [rest]; rfl
  · have stream : streamOf i t = if (streamOf i s).state ≠ .closed then { streamOf i s with rewind := some .reattach }
        else streamOf i s := by
      rw [rest]
      exact Vector.getElem_ofFn _
    rw [stream]
    by_cases closed : (streamOf i s).state = .closed
    · rw [if_neg (not_not.2 closed), if_neg (by rw [isOpen_eq_false closed]; decide)]
    · rw [if_pos closed, if_pos (isOpen_eq_true closed)]
  · have record : recordOf side t = represented (s.settings.faultTimeout * 1000) (recordOf side s) := by
      rw [rest]
      cases side <;> rfl
    rw [record]
    rfl
  · rw [(slots _ (by decide)).1, resumed enabled]
    rfl
  · rw [(slots _ (by decide)).2.1, resumed enabled]
    show resumedDetail s = _
    rw [resumedDetail, holdMs, began, caused]
    cases cause <;> rfl
  · rw [(slots _ (by decide)).1, unraised disabled]
  · rw [(slots _ (by decide)).2.1, unraised disabled]
  · rw [(slots k notSaturated).1, others k other]
  · rw [(slots k notSaturated).2.1, others k other]
  · obtain ⟨_, _, renewed, _⟩ := slots k notSaturated
    rw [renewed, (undisturbed k).1]
  · obtain ⟨_, _, _, renewal⟩ := slots k notSaturated
    rw [renewal, (undisturbed k).2]
  · have tracker : t.mn.tracker = s.mn.tracker := by
      refine ended.2.1.2.1.trans ?_
      rw [raised_rest]
      rfl
    have counted : countedAs ([.reattach, .reattachSnapshot] ++
        (if s.lc.keys.length < 8 then [.reportQueued] else [.reportCoalesced]) ++
        (if s.tf.recA.active then [.represented] else []) ++ (if s.tf.recB.active then [.represented] else []) ++
        raiseCounts .linkResumed s) s t :=
      countedAs_of_same ended.2.2 (by rw [raised_rest]; rfl) (by rw [raised_rest]; rfl)
    have link : t.lc.link = .up := by rw [rest]; exact up
    refine ⟨?_, ?_, ?_, ?_, ?_, ?_, ?_, ?_, ?_, ?_, ?_, ?_, tracker, ?_, link, ?_, ?_, counted⟩
    all_goals rw [rest]; rfl

end Sys2Proof.Machine
end

section
/-! PROOFS. Teardown in every block (R15): the settlement of O16. -/

namespace Sys2Proof.Machine

/-! ### The link and the request in progress (R15, R19, R157) -/

/-- R157: the request in progress after a teardown. -/
def requestLeft (r : Option Request) : Option Request :=
  match r with
  | some r =>
    match r.op with
    | .erase _ => some { r with silent := true }
    | .program _ _ => some { r with silent := true }
    | .quiesce => none
    | .resume => none
    | .tileFlush => none
  | none => none

theorem abandonRequest_eq (s : State) : abandonRequest s = { s with me.inProgress := requestLeft s.me.inProgress } := by
  cases current : s.me.inProgress with
  | none =>
    have stays : abandonRequest s = s := by rw [abandonRequest, current]
    exact stays.trans (idle_eq current).symm
  | some r =>
    obtain ⟨tag, kind, op, silent⟩ := r
    unfold abandonRequest
    rw [current]
    cases op <;> rfl

/-- R19: the lane with what is on it cut. -/
def laneCut (s : State) : State :=
  match s.lc.tx with
  | some x => cutEffect x s
  | none => s

/-- The session's own items of the link and the requests gone, the events not yet raised anew. -/
def disconnected (s : State) : State :=
  { laneCut (abandonRequest (clearEvents s)) with
    lc.attachment := .unattached, lc.attachNumber := 0, lc.holdTimer := none, lc.holdCause := none, lc.holdStart := none
    lc.greet := none, lc.greetRenewed := false, lc.keys := [], lc.replies := [] }

theorem laneCut_none {s : State} (free : s.lc.tx = none) : laneCut s = s := by rw [laneCut, free]

theorem laneCut_some {s : State} {x : Transmission} (sending : s.lc.tx = some x) : laneCut s = cutEffect x s := by
  rw [laneCut, sending]

theorem laneCut_rest (s : State) : laneCut s = { s with
    lc.tx := none, lc.laneOut := (laneCut s).lc.laneOut, lc.greetRenewed := (laneCut s).lc.greetRenewed
    me.events := (laneCut s).me.events, free := s.free + if s.lc.tx.isSome then 1 else 0 } := by
  cases lane : s.lc.tx with
  | none =>
    have same : ({ s with lc.tx := none } : State) = s := by rw [← lane]
    rw [laneCut_none lane]
    exact same.symm
  | some x =>
    rw [laneCut_some lane]
    conv_lhs => rw [cutEffect_eq]
    rw [cutEffect_eq]
    rfl

theorem disconnected_rest (s : State) : disconnected s = { s with
    lc.attachment := .unattached, lc.attachNumber := 0, lc.holdTimer := none, lc.holdCause := none, lc.holdStart := none
    lc.greet := none, lc.greetRenewed := false, lc.keys := [], lc.replies := []
    lc.tx := none, lc.laneOut := (disconnected s).lc.laneOut
    me := ⟨requestLeft s.me.inProgress, (disconnected s).me.events⟩, free := s.free + if s.lc.tx.isSome then 1 else 0 } := by
  have cut := laneCut_rest (abandonRequest (clearEvents s))
  unfold disconnected
  generalize laneCut (abandonRequest (clearEvents s)) = z at cut ⊢
  rw [cut, abandonRequest_eq]
  rfl

theorem disconnected_slot (s : State) (k : EventKind) : eventSlot k (disconnected s) = ⟨false, 0, false, 0⟩ := by
  have cleared : eventSlot k (abandonRequest (clearEvents s)) = ⟨false, 0, false, 0⟩ := by
    rw [abandonRequest_eq]
    simp [eventSlot, clearEvents, EventSlot.clear]
  have same : eventSlot k (disconnected s) = eventSlot k (laneCut (abandonRequest (clearEvents s))) := rfl
  rw [same, laneCut]
  split
  · rw [eventSlot_cutEffect, cleared]
    rfl
  · exact cleared

theorem disconnected_lane {s : State} {x : Transmission} (sending : s.lc.tx = some x) :
    cutOnLane x.frame (disconnected s).lc.laneOut := by
  have sending : (abandonRequest (clearEvents s)).lc.tx = some x := by rw [abandonRequest_eq]; exact sending
  have lane := cutTx_lane sending
  rw [cutTx_some sending, count_lc, ← laneCut_some sending] at lane
  exact lane

theorem teardownLink_ends (s : State) :
    endsAs (disconnected s) (if s.lc.tx.isSome then [.txCut] else []) (teardownLink (abandonRequest (clearEvents s))) := by
  have same : (abandonRequest (clearEvents s)).lc.tx = s.lc.tx := by rw [abandonRequest_eq]; rfl
  have lane : endsAs (laneCut (abandonRequest (clearEvents s))) (if s.lc.tx.isSome then [.txCut] else [])
      (cutTx (abandonRequest (clearEvents s))) := by
    cases tx : s.lc.tx with
    | none =>
      rw [laneCut_none (same.trans tx), cutTx_none (same.trans tx)]
      exact endsAs_refl _
    | some x =>
      rw [laneCut_some (same.trans tx)]
      exact (endsAs_refl _).cutTx (same.trans tx)
  exact lane.lc fun lc => { lc with
    attachment := .unattached, attachNumber := 0, holdTimer := none, holdCause := none, holdStart := none
    greet := none, greetRenewed := false, keys := [], replies := [] }

/-! ### The streams, the cache and the faults (R67, R90, R106) -/

/-- The sequencer, the engines, the directory and the fault records after a teardown. -/
def sessionless (s : State) : State := { s with
  sq := ⟨Vector.ofFn fun i => ⟨.closed, none, (streamOf i s).expected, none, false, none⟩, [], [], .running⟩
  de := ⟨s.de.engineA.map fun r => { r with removed := true }, s.de.engineB.map fun r => { r with removed := true }⟩
  tc.dir := emptyDir, tc.sweep := 64, tf := ⟨FaultRecord.idle, FaultRecord.idle⟩ }

theorem sessionless_eq (s : State) : resetFaults (resetCache (resetStreams s)) = sessionless s := rfl

theorem endsAs.sessionless {u v : State} {us : List SubEvent} (h : endsAs u us v) : endsAs (sessionless u) us (sessionless v) :=
  h.map Machine.sessionless (fun _ _ _ _ => rfl) (fun _ => rfl) (fun _ => rfl) (fun _ => rfl) fun _ => rfl

/-! ### The layout and the fill (R34, R37) -/

theorem stopFill_rest (s : State) : stopFill s = { s with
    fs.image := (stopFill s).fs.image, fs.holder := if s.fs.holder.any Writer.isLayout then none else s.fs.holder
    pu.port := (stopFill s).pu.port, free := (stopFill s).free } := by
  unfold stopFill
  split
  · rw [readToEnd_rest]
    rfl
  · rfl

theorem endsAs.readToEnd {u v : State} {us : List SubEvent} (h : endsAs u us v) (img : Image) :
    endsAs (readToEnd img u) us (Machine.readToEnd img v) := by
  refine h.map (Machine.readToEnd img) (fun s c e x => ?_) (fun s => ?_) (fun s => ?_) (fun s => ?_) fun s => ?_
  · unfold Machine.readToEnd rereadPort
    dsimp only
    split <;> rfl
  all_goals rw [readToEnd_rest]

theorem endsAs.stopFill {u v : State} {us : List SubEvent} (h : endsAs u us v) : endsAs (stopFill u) us (Machine.stopFill v) := by
  have image : writtenImage v = writtenImage u := by
    rw [h.1]
    rfl
  have written : isWritten v = isWritten u := by
    rw [h.1]
    rfl
  have size : panelPixels v = panelPixels u := by
    rw [h.1]
    rfl
  unfold Machine.stopFill
  rw [h.same_fs, image, written, size]
  generalize imageBlend (panelPixels u) (isWritten u) u.fs.image (writtenImage u) = img
  split
  · have stops := Machine.endsAs.readToEnd (h.fs fun fs => { fs with image := img, holder := none }).takeFree img
    rw [h.same_fs] at stops
    exact stops
  · exact h

/-- R34, R37: the fill going on stopped, and a teardown fill waiting behind the draw writes. -/
def refilling (s : State) : State := { stopFill s with
  fs.waiting := s.fs.waiting.filter (fun w => !w.isLayout) ++ [.teardownFill], lu.apply := none, lu.fillColour := none }

theorem requestTeardownFill_eq (s : State) : requestTeardownFill s = grantStore (refilling s) := rfl

theorem endsAs.refilling {u v : State} {us : List SubEvent} (h : endsAs u us v) : endsAs (refilling u) us (refilling v) := by
  have ends := ((Machine.endsAs.stopFill h).fs fun fs => { fs with
    waiting := u.fs.waiting.filter (fun w => !w.isLayout) ++ [.teardownFill] }).lu fun lu => { lu with apply := none, fillColour := none }
  unfold Machine.refilling
  rw [h.same_fs]
  exact ends

/-- The frame store passed on where it is free. -/
def regranted (s : State) : State := if s.fs.holder = none then granted s else s

/-- What passing it on counts. -/
def regrantCounts (s : State) : List SubEvent := if s.fs.holder = none then grantCounts s else []

theorem endsAs.regranted {u v : State} {us : List SubEvent} (h : endsAs u us v) :
    endsAs (regranted u) (us ++ regrantCounts u) (Machine.grantStore v) := by
  unfold Machine.regranted regrantCounts
  by_cases free : u.fs.holder = none
  · rw [if_pos free, if_pos free]
    exact h.grantStore free
  · rw [if_neg free, if_neg free, List.append_nil, Machine.grantStore, if_neg (by rw [h.same_fs]; simpa using free)]
    exact h

/-- R15: the regions after a teardown. -/
def layoutLeft (s : State) : State := { s with
  lu.headerChanged := true, lu.regions := Vector.ofFn fun i => { regionOf i s with changed := true, stale := true } }

theorem layoutLeft_eq (s : State) : setChanged true (staleRegions 0xFF s) = layoutLeft s := by
  unfold setChanged mapRegions staleRegions layoutLeft
  dsimp only
  congr 2
  refine Vector.ext fun i bound => ?_
  have member : (0xFF : BitVec 8).getLsbD i = true := by
    interval_cases i <;> rfl
  rw [Vector.getElem_ofFn, Vector.getElem_ofFn, Fin.getElem_fin, Vector.getElem_ofFn, member, Bool.or_true]

theorem endsAs.layoutLeft {u v : State} {us : List SubEvent} (h : endsAs u us v) (lane : v.lc.tx = u.lc.tx) :
    endsAs (raised .regionStale 0xFF (Machine.layoutLeft u)) (us ++ raiseCounts .regionStale u)
      (setChanged true (Machine.setStale 0xFF v)) := by
  have ends := ((h.setStale 0xFF lane).lu fun lu => { lu with headerChanged := true }).mapRegions fun _ r => { r with changed := true }
  rw [← layoutLeft_eq, ← raised_comm (f := setChanged true) (fun _ => rfl) rfl rfl rfl]
  exact ends

/-! ### The whole teardown (R15) -/

/-- The state in which all but the fill has been torn down. -/
def beforeFill (s : State) : State := raised .regionStale 0xFF (layoutLeft (sessionless (disconnected s)))

/-- R15: the state after a teardown. -/
def sessionEnded (s : State) : State := { regranted (refilling (beforeFill s)) with
  mn.tracker := afterLoss .b (afterLoss .a s.mn.tracker) }

theorem beforeFill_rest (s : State) : beforeFill s = { s with
    lc := (disconnected s).lc
    lu.headerChanged := true, lu.regions := Vector.ofFn fun i => { regionOf i s with changed := true, stale := true }
    sq := ⟨Vector.ofFn fun i => ⟨.closed, none, (streamOf i s).expected, none, false, none⟩, [], [], .running⟩
    de := ⟨s.de.engineA.map fun r => { r with removed := true }, s.de.engineB.map fun r => { r with removed := true }⟩
    tc.dir := emptyDir, tc.sweep := 64, tf := ⟨FaultRecord.idle, FaultRecord.idle⟩
    me := ⟨requestLeft s.me.inProgress, (beforeFill s).me.events⟩, free := s.free + if s.lc.tx.isSome then 1 else 0 } := by
  have rest := disconnected_rest s
  unfold beforeFill
  conv_lhs => rw [raised_rest]
  generalize disconnected s = z at rest ⊢
  rw [rest]
  rfl

theorem refilling_rest (s : State) : refilling s = { s with
    lu.apply := none, lu.fillColour := none
    fs.image := (stopFill s).fs.image, fs.holder := if s.fs.holder.any Writer.isLayout then none else s.fs.holder
    fs.waiting := s.fs.waiting.filter (fun w => !w.isLayout) ++ [.teardownFill]
    pu.port := (stopFill s).pu.port, free := (stopFill s).free } := by
  have rest := stopFill_rest s
  unfold refilling
  generalize stopFill s = z at rest ⊢
  rw [rest]

theorem regranted_rest (s : State) : regranted s = { s with
    lu.fillColour := (regranted s).lu.fillColour, fs.holder := (regranted s).fs.holder, fs.waiting := (regranted s).fs.waiting
    fs.began := (regranted s).fs.began } := by
  unfold regranted
  split <;> rfl

theorem sessionEnded_rest (s : State) : sessionEnded s = { s with
    lc := (disconnected s).lc
    lu.headerChanged := true, lu.regions := Vector.ofFn fun i => { regionOf i s with changed := true, stale := true }
    lu.apply := none, lu.fillColour := (sessionEnded s).lu.fillColour
    sq := ⟨Vector.ofFn fun i => ⟨.closed, none, (streamOf i s).expected, none, false, none⟩, [], [], .running⟩
    de := ⟨s.de.engineA.map fun r => { r with removed := true }, s.de.engineB.map fun r => { r with removed := true }⟩
    tc.dir := emptyDir, tc.sweep := 64, tf := ⟨FaultRecord.idle, FaultRecord.idle⟩
    fs.image := (stopFill (beforeFill s)).fs.image, fs.holder := (sessionEnded s).fs.holder
    fs.waiting := (sessionEnded s).fs.waiting, fs.began := (sessionEnded s).fs.began
    pu.port := (stopFill (beforeFill s)).pu.port
    me := ⟨requestLeft s.me.inProgress, (beforeFill s).me.events⟩, mn.tracker := afterLoss .b (afterLoss .a s.mn.tracker)
    free := (stopFill (beforeFill s)).free } := by
  have granted := regranted_rest (refilling (beforeFill s))
  have refill := refilling_rest (beforeFill s)
  have before := beforeFill_rest s
  unfold sessionEnded
  generalize regranted (refilling (beforeFill s)) = z at granted ⊢
  rw [granted]
  generalize refilling (beforeFill s) = y at refill ⊢
  rw [refill]
  generalize stopFill (beforeFill s) = x at refill ⊢
  generalize beforeFill s = w at before ⊢
  rw [before]

theorem teardown_ends (s : State) : endsAs (sessionEnded s)
    ((if s.lc.tx.isSome then [.txCut] else []) ++ [.teardown] ++ raiseCounts .regionStale s ++
      regrantCounts (refilling (beforeFill s))) (teardown s) := by
  have link := (teardownLink_ends s).count .teardown
  have lane : (count .teardown (teardownLink (abandonRequest (clearEvents s)))).lc.tx = none := by
    rw [count_lc]
    exact cutTx_tx _
  have session := Machine.endsAs.sessionless link
  have ends := endsAs.regranted (Machine.endsAs.refilling (Machine.endsAs.layoutLeft session (lane.trans (by
    show none = (disconnected s).lc.tx
    rw [disconnected_rest]))))
  have tracked := ends.tracker fun k => afterLoss .b (afterLoss .a k)
  have counts : raiseCounts .regionStale (sessionless (disconnected s)) = raiseCounts .regionStale s := by
    unfold raiseCounts sessionless
    rw [disconnected_rest]
  have tracker : (regranted (refilling (beforeFill s))).mn.tracker = s.mn.tracker := by
    rw [regranted_rest, refilling_rest, beforeFill_rest]
  unfold teardown
  dsimp only
  rw [sessionless_eq, teardownLayout, requestTeardownFill_eq, trackTeardown, trackLost_eq, trackLost_eq, ← counts]
  refine Eq.mp (congrArg (endsAs · _ _) ?_) tracked
  unfold sessionEnded
  rw [← tracker]
  rfl

/-! ### The fill and the turns at the frame store (R25, R34, R37) -/

theorem beforeFill_fs (s : State) : (beforeFill s).fs = s.fs := by rw [beforeFill_rest]

theorem beforeFill_pu (s : State) : (beforeFill s).pu = s.pu := by rw [beforeFill_rest]

theorem beforeFill_free (s : State) : (beforeFill s).free = s.free + if s.lc.tx.isSome then 1 else 0 := by rw [beforeFill_rest]

theorem beforeFill_slot (s : State) (k : EventKind) : eventSlot k (beforeFill s) =
    if s.settings.enables.getLsbD 1 = true ∧ k = .regionStale then ⟨true, 0xFF, false, 0⟩ else ⟨false, 0, false, 0⟩ := by
  have slot (j : EventKind) : eventSlot j (layoutLeft (sessionless (disconnected s))) = ⟨false, 0, false, 0⟩ := disconnected_slot s j
  have lane : (layoutLeft (sessionless (disconnected s))).lc.tx = none := by
    show (disconnected s).lc.tx = none
    rw [disconnected_rest]
  have settings : (layoutLeft (sessionless (disconnected s))).settings = s.settings := by
    show (disconnected s).settings = s.settings
    rw [disconnected_rest]
  rw [beforeFill, eventSlot_raised, slot, slot, lane, settings]
  rfl

/-- The picture that a fill going on will leave does not depend on what teardown takes. -/
theorem beforeFill_written {s : State} (filling : s.fs.holder.any Writer.isLayout = true) :
    writtenImage (beforeFill s) = writtenImage s := by
  have region (i : Fin 8) : regionOf i (beforeFill s) = { regionOf i s with changed := true, stale := true } := by
    rw [beforeFill_rest]
    exact Vector.getElem_ofFn _
  have layout : (beforeFill s).lu.apply = s.lu.apply ∧ (beforeFill s).lu.fillColour = s.lu.fillColour ∧
      (beforeFill s).lu.border = s.lu.border ∧ panelW (beforeFill s) = panelW s ∧ panelPixels (beforeFill s) = panelPixels s := by
    rw [beforeFill_rest]
    exact ⟨rfl, rfl, rfl, rfl, rfl⟩
  obtain ⟨apply, colour, border, width, size⟩ := layout
  have paints (mask : BitVec 8) : applyImage (beforeFill s) mask = applyImage s mask := by
    unfold applyImage
    simp only [region, border, width, size, beforeFill_fs]
  unfold writtenImage
  rw [beforeFill_fs, apply, colour]
  cases holder : s.fs.holder with
  | none => rfl
  | some w =>
    cases w with
    | engine side => rw [holder] at filling; exact absurd filling Bool.false_ne_true
    | layoutApply =>
      cases s.lu.apply with
      | none => rfl
      | some mask => exact paints mask
    | teardownFill => cases s.lu.fillColour <;> rfl

/-- R25, R37: the turns at the frame store after a teardown. -/
structure TurnsLeft (s t : State) : Prop where
  colour : t.lu.fillColour = if t.fs.holder = some .teardownFill then some s.lu.undocked else none
  waits : t.fs.holder = some .teardownFill ∨ .teardownFill ∈ t.fs.waiting
  engine : ∀ side : Side, s.fs.holder = some (.engine side) → t.fs.holder = some (.engine side) ∧
    t.fs.waiting = (s.fs.waiting.filter fun w => !w.isLayout) ++ [.teardownFill]

theorem refilling_fs (s : State) : (refilling (beforeFill s)).fs.holder = (if s.fs.holder.any Writer.isLayout then none else s.fs.holder) ∧
    (refilling (beforeFill s)).fs.waiting = s.fs.waiting.filter (fun w => !w.isLayout) ++ [.teardownFill] ∧
    (refilling (beforeFill s)).lu.fillColour = none ∧ (refilling (beforeFill s)).lu.undocked = s.lu.undocked := by
  rw [refilling_rest]
  dsimp only
  rw [beforeFill_fs, beforeFill_rest]
  exact ⟨rfl, rfl, rfl, rfl⟩

theorem turnsLeft (s : State) : TurnsLeft s (sessionEnded s) ∧
    regrantCounts (refilling (beforeFill s)) = if (sessionEnded s).fs.holder = some .teardownFill then [.teardownFill] else [] := by
  obtain ⟨holder, waiting, colour, undocked⟩ := refilling_fs s
  have fs : (sessionEnded s).fs = (regranted (refilling (beforeFill s))).fs := rfl
  have lu : (sessionEnded s).lu = (regranted (refilling (beforeFill s))).lu := rfl
  by_cases free : (refilling (beforeFill s)).fs.holder = none
  · have grants : regranted (refilling (beforeFill s)) = granted (refilling (beforeFill s)) := if_pos free
    have counts : regrantCounts (refilling (beforeFill s)) = grantCounts (refilling (beforeFill s)) := if_pos free
    rw [grants] at fs lu
    have first : (sessionEnded s).fs.holder = (refilling (beforeFill s)).fs.waiting.head? := by rw [fs]; rfl
    have rest : (sessionEnded s).fs.waiting = (refilling (beforeFill s)).fs.waiting.tail := by rw [fs]; rfl
    refine ⟨⟨?_, ?_, fun side busy => ?_⟩, ?_⟩
    · rw [lu, first, ← undocked, ← colour]
      rfl
    · rw [first, rest, waiting]
      cases s.fs.waiting.filter fun w => !w.isLayout with
      | nil => exact .inl rfl
      | cons w rest => exact .inr (List.mem_append_right _ List.mem_cons_self)
    · rw [holder, busy] at free
      exact absurd free (by simp [Writer.isLayout])
    · rw [counts, first]
      rfl
  · have grants : regranted (refilling (beforeFill s)) = refilling (beforeFill s) := if_neg free
    have counts : regrantCounts (refilling (beforeFill s)) = [] := if_neg free
    rw [grants] at fs lu
    have other : (sessionEnded s).fs.holder ≠ some .teardownFill := by
      rw [fs, holder]
      split
      · simp
      · next off => exact fun fill => off (by rw [fill]; rfl)
    refine ⟨⟨?_, ?_, fun side busy => ⟨?_, ?_⟩⟩, ?_⟩
    · rw [lu, colour, if_neg other]
    · rw [fs, waiting]
      exact .inr (List.mem_append_right _ List.mem_cons_self)
    · rw [fs, holder, busy]
      rfl
    · rw [fs, waiting]
    · rw [counts, if_neg other]

/-- R24, R34, R37: the picture and the port after a teardown. -/
structure PictureLeft (s t : State) : Prop where
  idle : (s.fs.holder.any Writer.isLayout) = false → t.fs.image = s.fs.image ∧ t.pu = s.pu ∧
    t.free = s.free + if s.lc.tx.isSome then 1 else 0
  pixels : ∀ a : Nat, a < panelPixels s → imageRead t.fs.image a = imageRead s.fs.image a ∨
    imageRead t.fs.image a = imageRead (writtenImage s) a
  written : s.fs.holder.any Writer.isLayout = true → ∀ a : Nat, a < panelPixels s → isWritten s a = true →
    imageRead t.fs.image a = imageRead (writtenImage s) a
  port : s.fs.holder.any Writer.isLayout = true → readOn t.fs.image s t
  panel : t.pu = { s.pu with port := t.pu.port }

theorem pictureLeft {s t : State} (image : t.fs.image = (stopFill (beforeFill s)).fs.image)
    (pu : t.pu = { s.pu with port := (stopFill (beforeFill s)).pu.port }) (free : t.free = (stopFill (beforeFill s)).free) :
    PictureLeft s t := by
  have size : panelPixels (beforeFill s) = panelPixels s := by rw [beforeFill_rest]; rfl
  have fs := beforeFill_fs s
  refine ⟨fun off => ?_, fun a within => ?_, fun on a within written => ?_, fun on => ?_, by rw [pu]⟩
  · have idle : stopFill (beforeFill s) = beforeFill s := stopFill_idle (by rw [fs]; exact off)
    rw [idle] at image pu free
    rw [beforeFill_pu] at pu
    exact ⟨image.trans (congrArg FrameStore.image fs), pu, free.trans (beforeFill_free s)⟩
  · rw [image]
    cases filling : s.fs.holder.any Writer.isLayout with
    | false => exact .inl (by rw [stopFill_idle (by rw [fs]; exact filling), fs])
    | true =>
      have pixel := stopFill_pixel (beforeFill s) (a := a) (by rw [size]; exact within)
      rwa [fs, beforeFill_written filling] at pixel
  · rw [image, stopFill_written (beforeFill s) (by rw [fs]; exact on) (by rw [size]; exact within)
      (isWritten_mono fs (by rw [beforeFill_free]; omega) written), beforeFill_written on]
  · have port : t.pu.port = (stopFill (beforeFill s)).pu.port := by rw [pu]
    have stops : stopFill (beforeFill s) = readToEnd (stopFill (beforeFill s)).fs.image (takeFree { beforeFill s with
        fs.image := (stopFill (beforeFill s)).fs.image, fs.holder := none }) := by
      have fills : stopFill (beforeFill s) = _ := if_pos (by rw [fs]; exact on)
      have picture : (stopFill (beforeFill s)).fs.image = imageBlend (panelPixels (beforeFill s)) (isWritten (beforeFill s))
          (beforeFill s).fs.image (writtenImage (beforeFill s)) := by
        rw [fills, readToEnd_rest]
        rfl
      rw [picture, fills]
    have reads := readToEnd_reads (stopFill (beforeFill s)).fs.image (takeFree { beforeFill s with
        fs.image := (stopFill (beforeFill s)).fs.image, fs.holder := none })
    rw [← stops] at reads
    unfold readOn at reads ⊢
    rw [port, image]
    rw [show (takeFree { beforeFill s with
      fs.image := (stopFill (beforeFill s)).fs.image, fs.holder := none }).pu = s.pu from beforeFill_pu s] at reads
    have pixel (i p : Nat) : blockPixel (takeFree { beforeFill s with
        fs.image := (stopFill (beforeFill s)).fs.image, fs.holder := none }) i p = blockPixel s i p := by
      have layout : (takeFree { beforeFill s with
          fs.image := (stopFill (beforeFill s)).fs.image, fs.holder := none }).lu.width = s.lu.width := by
        show (beforeFill s).lu.width = s.lu.width
        rw [beforeFill_rest]
      unfold blockPixel panelW
      rw [layout]
    simp only [pixel] at reads
    exact reads

/-! ### The settlement -/

/-- The clauses of a teardown that do not tell its two causes apart. -/
structure SessionLeft (s t : State) : Prop where
  turns : TurnsLeft s t
  picture : PictureLeft s t
  streams : ∀ i : Fin 8, streamOf i t = ⟨.closed, none, (streamOf i s).expected, none, false, none⟩
  queues : t.sq.queueA = [] ∧ t.sq.queueB = [] ∧ t.sq.quiesce = .running
  engines : ∀ side : Side, engineOf side t = (engineOf side s).map fun r => { r with removed := true }
  dir : ∀ n : Fin 64, ∀ w : Fin 4, t.tc.dir[n][w] = ⟨false, 0, 0, w.val, false, false, 0⟩
  cache : t.tc.sweep = 64 ∧ t.tc.store = s.tc.store
  records : t.tf = ⟨⟨false, 0, 0, 0, 0, none, false, false⟩, ⟨false, 0, 0, 0, 0, none, false, false⟩⟩
  regions : ∀ i : Fin 8, regionOf i t = { regionOf i s with changed := true, stale := true }
  layout : t.lu.headerChanged = true ∧ t.lu.apply = none ∧ t.lu.width = s.lu.width ∧ t.lu.height = s.lu.height ∧
    t.lu.border = s.lu.border ∧ t.lu.undocked = s.lu.undocked ∧ t.lu.imageUsed = s.lu.imageUsed
  stale : eventSlot .regionStale t = if s.settings.enables.getLsbD 1 = true then ⟨true, 0xFF, false, 0⟩ else ⟨false, 0, false, 0⟩
  events : ∀ k : EventKind, k ≠ .regionStale → k ≠ .monitorSaturated → eventSlot k t = ⟨false, 0, false, 0⟩
  request : t.me.inProgress = requestLeft s.me.inProgress
  tracker : t.mn.tracker = afterLoss .b (afterLoss .a s.mn.tracker)
  rest : t.ks = s.ks ∧ t.settings = s.settings ∧ t.flash = s.flash ∧ t.tick = s.tick ∧ t.msTimer = s.msTimer ∧ t.pending = s.pending
  counted : countedAs ([.teardown] ++ (if s.lc.tx.isSome then [.txCut] else []) ++
    (if t.fs.holder = some .teardownFill then [.teardownFill] else []) ++ raiseCounts .regionStale s) s t

theorem sessionLeft {s t : State} {lc : LinkCtl} (ends : endsAs { sessionEnded s with lc := lc }
    ((if s.lc.tx.isSome then [.txCut] else []) ++ [.teardown] ++ raiseCounts .regionStale s ++
      regrantCounts (refilling (beforeFill s))) t) (noEvent : ∀ k, (t.lc.tx.any fun x => x.item == .event k) = false) :
    SessionLeft s t := by
  obtain ⟨turns, counts⟩ := turnsLeft s
  have rest := ends.1
  have fs : t.fs = (sessionEnded s).fs := by rw [rest]
  have lu : t.lu = (sessionEnded s).lu := by rw [rest]
  have ended := sessionEnded_rest s
  have slots (k : EventKind) (other : k ≠ .monitorSaturated) : eventSlot k t = eventSlot k (beforeFill s) := by
    obtain ⟨pending, detail, renewed, renewal⟩ := ends.2.1.2.2.1 k other
    rw [if_neg fun starts => absurd ((noEvent k).symm.trans starts.2) (by decide)] at renewal
    have same : eventSlot k { sessionEnded s with lc := lc } = eventSlot k (beforeFill s) := by
      unfold eventSlot
      rw [ended]
    rw [← same]
    exact EventSlot.ext_fields pending detail renewed renewal
  rw [ended] at rest
  refine ⟨⟨?_, ?_, ?_⟩, pictureLeft ?_ ?_ ?_, fun i => ?_, ?_, fun side => ?_, fun n w => ?_, ?_, ?_, fun i => ?_, ?_, ?_, fun k a b => ?_,
    ?_, ?_, ?_, ?_⟩
  · rw [lu, fs]; exact turns.colour
  · rw [fs]; exact turns.waits
  · rw [fs]; exact turns.engine
  · rw [fs, ended]
  · rw [rest]
  · rw [rest]
  · rw [rest]; exact Vector.getElem_ofFn _
  · rw [rest]; exact ⟨rfl, rfl, rfl⟩
  · rw [rest]; cases side <;> rfl
  · have dir : t.tc.dir = emptyDir := by rw [rest]
    simp [dir, emptyDir, emptySet, DirEntry.invalid]
  · rw [rest]; exact ⟨rfl, rfl⟩
  · rw [rest]; rfl
  · rw [rest]; exact Vector.getElem_ofFn _
  · rw [rest]; exact ⟨rfl, rfl, rfl, rfl, rfl, rfl, rfl⟩
  · rw [slots _ (by decide), beforeFill_slot]
    simp only [and_true]
  · rw [slots k b, beforeFill_slot, if_neg fun h => a h.2]
  · rw [rest]
  · exact ends.2.1.2.1
  · rw [rest]; exact ⟨rfl, rfl, rfl, rfl, rfl, rfl⟩
  · rw [counts] at ends
    rw [fs]
    refine countedAs_of_same (u := { sessionEnded s with lc := lc, mn.tracker := s.mn.tracker }) (ends.perm ?_).2.2 (by rw [ended])
      (by rw [ended])
    refine List.perm_iff_count.2 fun x => ?_
    simp only [List.count_append]
    omega

/-- R8, R9: the link's items after a fresh attach on a free lane. -/
def attachedAs (number : Word) (lc : LinkCtl) : LinkCtl := { lc with
  attachment := .attached, attachNumber := if number = 0 then lc.attachCounter else number
  attachCounter := if number = 0 then (if lc.attachCounter = 0xFFFFFFFF then 1 else lc.attachCounter + 1) else lc.attachCounter
  greet := some .newSession }

theorem freshAttach_free (number : Word) {v : State} (free : v.lc.tx = none) :
    freshAttach number v = { v with lc := attachedAs number v.lc } := by
  have off : (v.lc.tx.any fun x => x.item == .greet) = false := by rw [free]; rfl
  unfold attachedAs
  by_cases zero : number = 0
  · subst zero
    rw [freshAttach_zero, off, Bool.or_false, if_pos rfl, if_pos rfl]
  · rw [freshAttach_of_ne_zero zero, off, Bool.or_false, if_neg zero, if_neg zero]

/-- With the attachment gone nothing starts on the lane. -/
theorem conclude_unattached {before v : State} (free : v.lc.tx = none) (gone : v.lc.attachment = .unattached) :
    (conclude before v).lc.tx = none := by
  cases sending : (conclude before v).lc.tx with
  | none => rfl
  | some x =>
    obtain ⟨_, attached, _⟩ := arbitrate_starts (v := countEdges before v) (by rw [countEdges_lc]; exact free) sending
    rw [countEdges_lc, gone] at attached
    exact absurd attached (by decide)

theorem sessionEnded_lc (s : State) : (sessionEnded s).lc = (disconnected s).lc := by rw [sessionEnded_rest]

theorem disconnected_lc (s : State) : (disconnected s).lc = { s.lc with
    attachment := .unattached, attachNumber := 0, holdTimer := none, holdCause := none, holdStart := none
    greet := none, greetRenewed := false, keys := [], replies := [], tx := none, laneOut := (disconnected s).lc.laneOut } := by
  conv_lhs => rw [disconnected_rest]

/-- The link's items that both causes of a teardown leave alike. -/
structure LinkLeft (s t : State) : Prop where
  hold : t.lc.holdTimer = none ∧ t.lc.holdCause = none ∧ t.lc.holdStart = none
  queues : t.lc.keys = [] ∧ t.lc.replies = [] ∧ t.lc.greetRenewed = false
  receive : t.lc.link = s.lc.link ∧ t.lc.alignCount = s.lc.alignCount ∧ t.lc.framingCount = s.lc.framingCount ∧
    t.lc.assembly = s.lc.assembly ∧ t.lc.lossCount = s.lc.lossCount ∧ t.lc.lastCause = s.lc.lastCause ∧
    t.lc.lastDuration = s.lc.lastDuration
  lane : ∀ x, s.lc.tx = some x → cutOnLane x.frame t.lc.laneOut

theorem holdTimerExpiry_tears {s : State} (expired : s.lc.holdTimer = some 0) : ∃ t, exec .holdTimerExpiry s = .next t ∧
    SessionLeft s t ∧ LinkLeft s t ∧ t.lc.attachment = .unattached ∧ t.lc.tx = none ∧ t.lc.attachNumber = 0 ∧ t.lc.greet = none ∧
      t.lc.attachCounter = s.lc.attachCounter ∧ t.lc.failureCount = s.lc.failureCount := by
  have runs : exec .holdTimerExpiry s = .next (conclude s (teardown s)) := by
    show execHoldTimerExpiry s = _
    exact if_pos expired
  have torn := teardown_ends s
  have link := disconnected_lc s
  have gone : (teardown s).lc.attachment = .unattached := by rw [torn.1, sessionEnded_lc, link]
  have free := conclude_unattached (before := s) (teardown_tx s) gone
  have ends := torn.conclude s
  refine ⟨_, runs, ?_⟩
  generalize conclude s (teardown s) = t at free ends
  have lc : t.lc = { (disconnected s).lc with tx := t.lc.tx } := by rw [ends.1, sessionEnded_lc]
  have lane : t.lc.laneOut = (disconnected s).lc.laneOut := by rw [lc]
  rw [link] at lc
  refine ⟨sessionLeft (lc := (sessionEnded s).lc) ends fun k => by rw [free]; rfl, ⟨?_, ?_, ?_, fun x sending => ?_⟩, ?_, free, ?_, ?_, ?_, ?_⟩
  · rw [lc]; exact ⟨rfl, rfl, rfl⟩
  · rw [lc]; exact ⟨rfl, rfl, rfl⟩
  · rw [lc]; exact ⟨rfl, rfl, rfl, rfl, rfl, rfl, rfl⟩
  · rw [lane]; exact disconnected_lane sending
  all_goals rw [lc]

theorem hello_tears {number : Word} {s : State} (up : s.lc.link = .up) (attached : s.lc.attachment ≠ .unattached)
    (other : number ≠ s.lc.attachNumber) : ∃ t, exec (.hello number) s = .next t ∧ SessionLeft s t ∧ LinkLeft s t ∧
      t.lc.attachment = .attached ∧ t.lc.greet = some .newSession ∧ t.lc.failureCount = 0 ∧
      t.lc.attachNumber = (if number = 0 then s.lc.attachCounter else number) ∧
      t.lc.attachCounter =
        if number = 0 then (if s.lc.attachCounter = 0xFFFFFFFF then 1 else s.lc.attachCounter + 1) else s.lc.attachCounter := by
  have takes : takeHello number (passed s) = { teardown (passed s) with lc := attachedAs number (teardown (passed s)).lc } := by
    rw [takeHello_other (s := passed s) attached other, freshAttach_free number (teardown_tx _)]
  have torn := (teardown_ends (passed s)).lc (attachedAs number)
  have greets := conclude_greets (before := s) (v := { teardown (passed s) with lc := attachedAs number (teardown (passed s)).lc })
    (teardown_tx (passed s)) rfl
  have ends := torn.conclude s
  have link := disconnected_lc (passed s)
  refine ⟨_, by rw [exec_hello, execHello, frameArrival_eq _ (assembles_up up), passFrame_up _ up, takes], ?_⟩
  generalize conclude s { teardown (passed s) with lc := attachedAs number (teardown (passed s)).lc } = t at greets ends
  have lc : t.lc = { attachedAs number (disconnected (passed s)).lc with tx := t.lc.tx } := by rw [ends.1, sessionEnded_lc]
  have lane : t.lc.laneOut = (disconnected (passed s)).lc.laneOut := by rw [lc]; rfl
  rw [link] at lc
  have left := sessionLeft ends greets
  refine ⟨⟨⟨left.turns.colour, left.turns.waits, left.turns.engine⟩, ⟨left.picture.idle, left.picture.pixels, left.picture.written,
    left.picture.port, left.picture.panel⟩, left.streams, left.queues, left.engines, left.dir, left.cache, left.records, left.regions,
    left.layout, left.stale, left.events, left.request, left.tracker, left.rest, left.counted⟩, ⟨?_, ?_, ?_, fun x sending => ?_⟩,
    ?_, ?_, ?_, ?_, ?_⟩
  · rw [lc]; exact ⟨rfl, rfl, rfl⟩
  · rw [lc]; exact ⟨rfl, rfl, rfl⟩
  · rw [lc]; exact ⟨rfl, rfl, rfl, rfl, rfl, rfl, rfl⟩
  · rw [lane]; exact disconnected_lane (s := passed s) sending
  all_goals rw [lc]; rfl

theorem requestLeft_some {s t : State} {r : Request} (current : s.me.inProgress = some r)
    (left : t.me.inProgress = requestLeft s.me.inProgress) :
    ((∃ page, r.op = .erase page) ∨ (∃ offset data, r.op = .program offset data) →
      t.me.inProgress = some { r with silent := true }) ∧
    (r.op = .quiesce ∨ r.op = .resume ∨ r.op = .tileFlush → t.me.inProgress = none) := by
  rw [left, current]
  obtain ⟨tag, kind, op, silent⟩ := r
  constructor
  · rintro (⟨page, rfl⟩ | ⟨offset, data, rfl⟩) <;> rfl
  · rintro (rfl | rfl | rfl) <;> rfl

/-- R106, R172: a followed fault is lost, whichever side it is on. -/
theorem lossOfBoth (k : Tracker) : (afterLoss .b (afterLoss .a k)).armed = none ∧
    (afterLoss .b (afterLoss .a k)).lost = (if k.armed.isSome then min (k.lost + 1) 4294967295 else k.lost) ∧
    (afterLoss .b (afterLoss .a k)).last = k.last ∧ (afterLoss .b (afterLoss .a k)).max = k.max ∧
    (afterLoss .b (afterLoss .a k)).completed = k.completed := by
  cases armed : k.armed with
  | none => simp [afterLoss, armed]
  | some f => cases side : f.side <;> simp [afterLoss, armed, side]

/-- Settles O16. -/
theorem teardownEndsTheSession : Obligations.TeardownEndsTheSession := by
  refine ⟨fun c s cause => ?_, fun s idle => ?_⟩
  · have tears : ∃ t, exec c s = .next t ∧ SessionLeft s t ∧ LinkLeft s t ∧
        (c = .holdTimerExpiry → t.lc.attachment = .unattached ∧ t.lc.tx = none ∧ t.lc.attachNumber = 0 ∧ t.lc.greet = none ∧
          t.lc.attachCounter = s.lc.attachCounter ∧ t.lc.failureCount = s.lc.failureCount) ∧
        ∀ n, c = .hello n → t.lc.attachment = .attached ∧ t.lc.greet = some .newSession ∧ t.lc.failureCount = 0 ∧
          (n ≠ 0 → t.lc.attachNumber = n ∧ t.lc.attachCounter = s.lc.attachCounter) ∧
          (n = 0 → t.lc.attachNumber = s.lc.attachCounter ∧
            t.lc.attachCounter = if s.lc.attachCounter = 0xFFFFFFFF then 1 else s.lc.attachCounter + 1) := by
      rcases cause with ⟨rfl, expired⟩ | ⟨n, rfl, up, attached, other⟩
      · obtain ⟨t, runs, left, link, expiry⟩ := holdTimerExpiry_tears expired
        exact ⟨t, runs, left, link, fun _ => expiry, fun n differs => by cases differs⟩
      · obtain ⟨t, runs, left, link, attachment, greet, failures, number, counter⟩ := hello_tears up attached other
        refine ⟨t, runs, left, link, fun differs => (by cases differs), fun m same => ?_⟩
        cases same
        refine ⟨attachment, greet, failures, fun given => ?_, fun zero => ?_⟩
        · rw [if_neg given] at number counter
          exact ⟨number, counter⟩
        · rw [if_pos zero] at number counter
          exact ⟨number, counter⟩
    obtain ⟨t, runs, left, link, expiry, hello⟩ := tears
    obtain ⟨timer, holdCause, start⟩ := link.hold
    obtain ⟨keys, replies, greetRenewed⟩ := link.queues
    obtain ⟨up, align, framing, assembly, loss, lastCause, duration⟩ := link.receive
    obtain ⟨queueA, queueB, quiesce⟩ := left.queues
    obtain ⟨sweep, store⟩ := left.cache
    obtain ⟨header, apply, layout⟩ := left.layout
    obtain ⟨ks, settings, flash, tick, msTimer, pending⟩ := left.rest
    have tracker := left.tracker
    have lost := lossOfBoth s.mn.tracker
    rw [← tracker] at lost
    obtain ⟨armed, lost, last, max, completed⟩ := lost
    exact ⟨t, runs, expiry, hello, timer, holdCause, start, keys, replies, greetRenewed, up, align, framing, assembly, loss, lastCause,
      duration, left.streams, queueA, queueB, quiesce, left.engines, left.dir, sweep, store, left.records, header, left.regions, apply,
      layout, left.turns.colour, left.picture.idle, left.picture.pixels, left.picture.written, left.picture.port, left.picture.panel,
      left.turns.waits, left.turns.engine, link.lane, left.stale, left.events, fun r current => requestLeft_some current left.request,
      fun idle => by rw [left.request, idle]; rfl, armed, lost, last, max, completed, ks, settings, flash, tick, msTimer, pending,
      left.counted⟩
  · show execHoldTimerExpiry s = _
    exact if_neg idle

end Sys2Proof.Machine
end

section
/-! PROOFS. Reading the tables (R158, section 11.7): the settlement of O31. -/

namespace Sys2Proof.Machine

/-! ### The tables and their numbers (section 11.7) -/

theorem tableOfCode_iff (code : Byte) (tb : Table) : tableOfCode code = some tb ↔
    [(Table.ident, 1, 8), (.layout, 9, 11), (.stream, 9, 11), (.tileDir, 256, 8), (.fault, 2, 10), (.keymap, 384, 2),
      (.settings, 1, 10), (.panel, 1, 7), (.link, 1, 16), (.monitor, 5, 26)][code.toNat]? = some (tb, tb.entries, tb.size) := by
  have paired : [(Table.ident, 1, 8), (.layout, 9, 11), (.stream, 9, 11), (.tileDir, 256, 8), (.fault, 2, 10), (.keymap, 384, 2),
      (.settings, 1, 10), (.panel, 1, 7), (.link, 1, 16), (.monitor, 5, 26)]
      = [Table.ident, .layout, .stream, .tileDir, .fault, .keymap, .settings, .panel, .link, .monitor].map
        fun x => (x, x.entries, x.size) := rfl
  rw [paired, List.getElem?_map]
  refine ⟨fun named => Option.map_eq_some_iff.2 ⟨tb, named, rfl⟩, fun named => ?_⟩
  obtain ⟨x, there, same⟩ := Option.map_eq_some_iff.1 named
  cases same
  exact there

theorem tableOfCode_none {code : Byte} (large : 10 ≤ code.toNat) : tableOfCode code = none := List.getElem?_eq_none large

/-! ### What the count of a request leaves of an entry (log 32) -/

/-- A count changes no entry but those of the MONITOR table. -/
theorem entryBytes_count {tb : Table} (other : tb ≠ .monitor) (u : SubEvent) (k : Nat) (s : State) :
    entryBytes tb k (count u s) = entryBytes tb k s := by
  rw [count_eq]
  cases tb with
  | monitor => exact absurd rfl other
  | _ => rfl

theorem addWhere_passed (fuel : Nat) (p : Counter → Bool) (n : Nat) (s : State) :
    addWhere fuel p n (passed s) = passed (addWhere fuel p n s) := by
  induction fuel generalizing p n s with
  | zero => rfl
  | succ fuel ih =>
    have each (is : List (Fin 4)) (t : State) :
        is.foldl (fun t i =>
          if eventEnabled .monitorSaturated t then
            addWhere fuel (Counter.selects SubEvent.eventRaised) 1
              (setEventSlot .monitorSaturated
                (raisedSlot .monitorSaturated (BitVec.ofNat 24 (2 ^ i.val)) (eventOnLane .monitorSaturated t)
                  (eventSlot .monitorSaturated t)) t)
          else t) (passed t) =
        passed (is.foldl (fun t i =>
          if eventEnabled .monitorSaturated t then
            addWhere fuel (Counter.selects SubEvent.eventRaised) 1
              (setEventSlot .monitorSaturated
                (raisedSlot .monitorSaturated (BitVec.ofNat 24 (2 ^ i.val)) (eventOnLane .monitorSaturated t)
                  (eventSlot .monitorSaturated t)) t)
          else t) t) := by
      induction is generalizing t with
      | nil => rfl
      | cons i is next =>
        rw [List.foldl_cons, List.foldl_cons, ← next]
        congr 1
        rw [apply_ite passed, ← ih]
        rfl
    exact each _ (addCounters p n s)

/-- A passing frame changes no entry, before or after a count. -/
theorem entryBytes_count_passed (tb : Table) (u : SubEvent) (k : Nat) (s : State) :
    entryBytes tb k (count u (passed s)) = entryBytes tb k (count u s) := by
  have commutes : count u (passed s) = passed (count u s) := addWhere_passed _ _ _ _
  rw [commutes]
  cases tb <;> rfl

/-! ### The fields of an entry -/

theorem le16_shifts (h : Half) : le16 h = [h.setWidth 8, (h >>> 8).setWidth 8] := by
  have shifted (n : Nat) : h.extractLsb' n 8 = (h >>> n).setWidth 8 := by ext i bound; simp
  rw [le16, shifted, shifted, BitVec.ushiftRight_zero]

theorem le32_shifts (w : Word) :
    le32 w = [w.setWidth 8, (w >>> 8).setWidth 8, (w >>> 16).setWidth 8, (w >>> 24).setWidth 8] := by
  have shifted (n : Nat) : w.extractLsb' n 8 = (w >>> n).setWidth 8 := by ext i bound; simp
  rw [le32, shifted, shifted, shifted, shifted, BitVec.ushiftRight_zero]

section
variable {b : Nat → Byte} {bit : Bool → Nat → Nat} (bytes : ∀ k, b k = BitVec.ofNat 8 k)
  (bits : ∀ x k, bit x k = if x then 2 ^ k else 0)

include bytes in
theorem byteOf_byte (n : Nat) : byteOf n = b n := (bytes n).symm

include bytes in
/-- A field of fewer than eight bits as a byte. -/
theorem setWidth_byte {w : Nat} (v : BitVec w) : v.setWidth 8 = b v.toNat := by
  rw [bytes, BitVec.ofNat_toNat]

include bytes bits

theorem flagBit_byte (x : Bool) (n : Nat) : flagBit x n = b (bit x n) := by
  rw [bytes, bits]
  cases x <;> rfl

theorem flagBits_two (x y : Bool) : flagBit x 0 ||| flagBit y 1 = b (bit x 0 + bit y 1) := by
  rw [bytes, bits, bits]
  cases x <;> cases y <;> rfl

theorem flagBits_three (x y z : Bool) : flagBit x 0 ||| flagBit y 1 ||| flagBit z 2 = b (bit x 0 + bit y 1 + bit z 2) := by
  rw [bytes, bits, bits, bits]
  cases x <;> cases y <;> cases z <;> rfl

end

/-! ### The codes of section 11.7 -/

theorem streamState_code (x : StreamState) :
    x.code = if x = .closed then 0 else if x = .ready then 1 else if x = .waitTile then 2 else if x = .waitSlot then 3 else 4 := by
  cases x <;> rfl

theorem side_code (x : Option Side) : (x.map sideCode).getD 255 = if x = some .a then 0 else if x = some .b then 1 else 255 := by
  rcases x with absent | side
  · rfl
  · cases side <;> rfl

theorem rewindReason_code (x : Option RewindReason) : (x.map RewindReason.code).getD 0 =
    if x = none then 0 else if x = some .gap then 1 else if x = some .shed then 2 else if x = some .quiesceEnd then 3 else 4 := by
  rcases x with absent | reason
  · rfl
  · cases reason <;> rfl

theorem quiesceState_code (x : QuiesceState) : x.code = if x = .running then 0 else if x = .quiescing then 1 else 2 := by
  cases x <;> rfl

theorem linkState_code (x : LinkState) :
    x.code = if x = .down then 0 else if x = .aligning then 1 else if x = .framing then 2 else 3 := by
  cases x <;> rfl

theorem attachment_code (x : Attachment) : x.code = if x = .unattached then 0 else if x = .attached then 1 else 2 := by
  cases x <;> rfl

theorem departCause_code (x : Option DepartCause) :
    (x.map DepartCause.code).getD 0 = if x = none then 0 else if x = some .lossDetector then 1 else 2 := by
  rcases x with absent | cause
  · rfl
  · cases cause <;> rfl

theorem greetOutcome_code (x : Option GreetOutcome) : (x.map GreetOutcome.code).getD 0 =
    if x = none then 0 else if x = some .newSession then 1 else if x = some .resumed then 2 else 3 := by
  rcases x with absent | outcome
  · rfl
  · cases outcome <;> rfl

/-! ### The entries of the tables (section 11.7) -/

section
variable {s : State} {b : Nat → Byte} {bit : Bool → Nat → Nat} (bytes : ∀ k, b k = BitVec.ofNat 8 k)
  (bits : ∀ x k, bit x k = if x then 2 ^ k else 0)
include bytes

theorem queued_byte (i : Fin 8) : byteOf (queued i s) =
    b (if (streamOf i s).side = none then 0
      else ((if (streamOf i s).side = some .a then s.sq.queueA else s.sq.queueB).filter fun e => e.stream == i).length) := by
  rw [byteOf_byte bytes]
  unfold queued
  cases (streamOf i s).side with
  | none => rfl
  | some side =>
    rw [← List.countP_eq_length_filter]
    cases side <;> rfl

theorem settings_entry : entryBytes .settings 0 s =
    [b s.settings.lossLimit, b s.settings.holdTime] ++ le16 (BitVec.ofNat 16 s.settings.scanPeriod) ++
      [b s.settings.depth, b s.settings.faultTimeout, b s.settings.retryLimit, b s.settings.shedThreshold,
       b s.settings.enables.toNat, 0] := by
  show settingsEntry s.settings = _
  unfold settingsEntry
  simp only [byteOf_byte bytes, setWidth_byte bytes, bytes2]

theorem link_entry : entryBytes .link 0 s =
    [if s.lc.link = .down then 0 else if s.lc.link = .aligning then 1 else if s.lc.link = .framing then 2 else 3,
     if s.lc.attachment = .unattached then 0 else if s.lc.attachment = .attached then 1 else 2] ++
      le32 s.lc.attachNumber ++ le32 s.lc.attachCounter ++
      [if s.lc.lastCause = none then 0 else if s.lc.lastCause = some .lossDetector then 1 else 2] ++
      le16 (BitVec.ofNat 16 s.lc.lastDuration) ++
      [b s.lc.keys.length, b s.lc.replies.length,
       if s.lc.greet = none then 0 else if s.lc.greet = some .newSession then 1
       else if s.lc.greet = some .resumed then 2 else 3] := by
  show linkEntry s = _
  unfold linkEntry
  rw [linkState_code, attachment_code, departCause_code, greetOutcome_code, byteOf_byte bytes, byteOf_byte bytes, bytes2]

theorem keymap_entry {i : Fin 384} {k : KeyEntry} (there : s.ks.keymap[i] = k) :
    (k = .none → entryBytes .keymap i.val s = [0, 0]) ∧
    (∀ c : Byte, k = .ordinary c → entryBytes .keymap i.val s = [1, c]) ∧
    (∀ m : Fin 8, k = .modifier m → entryBytes .keymap i.val s = [2, b m.val]) ∧
    (∀ m : Fin 3, k = .layer m → entryBytes .keymap i.val s = [3, b m.val]) ∧
    (k = .localAction .backlightUp → entryBytes .keymap i.val s = [4, 1]) ∧
    (k = .localAction .backlightDown → entryBytes .keymap i.val s = [4, 2]) := by
  have entry : entryBytes .keymap i.val s = keyEntryBytes k := by
    show keyEntryBytes (s.ks.keymap.toList.getD i.val .none) = _
    rw [List.getD_eq_getElem _ _ (by simp), Vector.getElem_toList]
    exact congrArg keyEntryBytes there
  refine ⟨?_, ?_, ?_, ?_, ?_, ?_⟩
  · rintro rfl; exact entry
  · rintro c rfl; exact entry
  · rintro m rfl; rw [entry, bytes]; rfl
  · rintro m rfl; rw [entry, bytes]; rfl
  · rintro rfl; exact entry
  · rintro rfl; exact entry

include bits

theorem ident_entry : entryBytes .ident 0 s =
    le16 0x0A47 ++ le16 4120 ++ [1, b s.lu.width, b s.lu.height, b (bit s.lu.imageUsed 0)] := by
  show identBytes s = _
  unfold identBytes
  rw [flagBit_byte bytes bits, byteOf_byte bytes, byteOf_byte bytes]
  rfl

theorem header_entry : entryBytes .layout 0 s =
    b (bit s.lu.headerChanged 1) :: le16 s.lu.border ++ le16 s.lu.undocked ++ [0, 0, 0, 0, 0, 0] := by
  show headerEntry s = _
  unfold headerEntry
  rw [flagBit_byte bytes bits]
  rfl

theorem region_entry (i : Fin 8) {r : Region} (there : regionOf i s = r) : entryBytes .layout (i.val + 1) s =
    b (bit r.enabled 0 + bit r.changed 1 + bit r.stale 2) :: le16 r.ox ++ le16 r.oy ++ le16 r.rw ++ le16 r.rh ++
      le16 r.background := by
  have index : Fin.ofNat 8 (i.val + 1 - 1) = i := Fin.ext (Nat.mod_eq_of_lt i.isLt)
  show regionBytes (regionOf (Fin.ofNat 8 (i.val + 1 - 1)) s) = _
  rw [index, there, regionBytes, flagBits_three bytes bits]
  rfl

theorem stream_entry (i : Fin 8) {r : Stream} (there : streamOf i s = r) : entryBytes .stream (i.val + 1) s =
    [if r.state = .closed then 0 else if r.state = .ready then 1 else if r.state = .waitTile then 2
      else if r.state = .waitSlot then 3 else 4,
     if r.side = some .a then 0 else if r.side = some .b then 1 else 255] ++ le16 r.expected ++
    [if r.rewind = none then 0 else if r.rewind = some .gap then 1 else if r.rewind = some .shed then 2
      else if r.rewind = some .quiesceEnd then 3 else 4,
     b (if r.side = none then 0 else ((if r.side = some .a then s.sq.queueA else s.sq.queueB).filter
      fun e => e.stream == i).length)] ++
    le32 (r.reservation.getD 0) ++ [b (bit (regionOf i s).stale 0)] := by
  have index : Fin.ofNat 8 (i.val + 1 - 1) = i := Fin.ext (Nat.mod_eq_of_lt i.isLt)
  show streamEntry (Fin.ofNat 8 (i.val + 1 - 1)) s = _
  rw [index, ← there]
  simp only [streamEntry]
  rw [streamState_code, side_code, rewindReason_code, queued_byte bytes, flagBit_byte bytes bits]

theorem directory_entry (n : Fin 64) (w : Fin 4) {e : DirEntry} (there : s.tc.dir[n][w] = e) :
    entryBytes .tileDir (4 * n.val + w.val) s =
      b (bit e.valid 0 + bit e.pinned 1 + bit e.pending 2) :: le32 e.key ++ [b e.sectors.toNat, b e.age, b e.reserve] := by
  have set : Fin.ofNat 64 ((4 * n.val + w.val) / 4) = n := Fin.ext (show (4 * n.val + w.val) / 4 % 64 = n.val by omega)
  have way : Fin.ofNat 4 (4 * n.val + w.val) = w := Fin.ext (show (4 * n.val + w.val) % 4 = w.val by omega)
  have entry (m : Fin 64) (v : Fin 4) (m' : m = n) (v' : v = w) : dirEntryBytes (s.tc.dir[m])[v] = dirEntryBytes e := by
    subst m' v'
    rw [there]
  rw [show entryBytes .tileDir (4 * n.val + w.val) s = dirEntryBytes e from entry _ _ set way, dirEntryBytes, flagBits_three bytes bits, setWidth_byte bytes, byteOf_byte bytes, byteOf_byte bytes]
  rfl

theorem fault_entry {n : Nat} {r : FaultRecord} (there : (n = 0 ∧ s.tf.recA = r) ∨ (n = 1 ∧ s.tf.recB = r)) :
    entryBytes .fault n s = b (bit r.active 0) :: le32 r.key ++
      [b r.needed.toNat, r.waiting, b r.tries, b ((r.timer.getD 0 + 999) / 1000), b (bit r.send 0)] := by
  have entry : entryBytes .fault n s = faultEntry r := by
    rcases there with ⟨rfl, rfl⟩ | ⟨rfl, rfl⟩ <;> rfl
  rw [entry, faultEntry, flagBit_byte bytes bits, flagBit_byte bytes bits, setWidth_byte bytes, byteOf_byte bytes, byteOf_byte bytes]
  rfl

theorem panel_entry : entryBytes .panel 0 s =
    [b s.lu.width, b s.lu.height, b s.pu.level, b (bit s.pu.halted 0 + bit s.pu.inFlight.isSome 1), b s.pu.streak] ++
      le16 (BitVec.ofNat 16 (s.pu.dirty.filter id).length) := by
  have dirty : s.pu.dirty.count true = (s.pu.dirty.filter id).length := by
    rw [← List.countP_eq_length_filter]
    exact List.countP_congr fun x _ => by cases x <;> simp
  show panelEntry s = _
  unfold panelEntry
  rw [flagBits_two bytes bits, byteOf_byte bytes, byteOf_byte bytes, byteOf_byte bytes, byteOf_byte bytes, bytes2, dirty]

end

theorem counter_entry {s : State} (n : Fin 4) {c : Counter} (there : s.mn.counters[n] = c) : entryBytes .monitor n.val s =
    le32 (BitVec.ofNat 32 c.value) ++ [modeCode c.mode, groupCode c.group] ++ le32 c.mask ++ [conditionCode c.condition] ++
      List.replicate 15 0 := by
  have entry (m : Fin 4) (m' : m = n) : counterEntry s.mn.counters[m] = counterEntry c := by
    subst m'
    rw [there]
  show (if n.val < 4 then counterEntry s.mn.counters[Fin.ofNat 4 n.val] else trackerEntry s.mn.tracker) = _
  rw [if_pos n.isLt, entry _ (Fin.ext (Nat.mod_eq_of_lt n.isLt))]
  rfl

theorem tracker_entry_armed {s : State} {x : Tracked} (armed : s.mn.tracker.armed = some x) :
    (entryBytes .monitor 4 s).take 10 = [1, if x.side = .a then 0 else 1] ++ le32 x.key ++ le32 (BitVec.ofNat 32 x.start) := by
  show (trackerEntry s.mn.tracker).take 10 = _
  unfold trackerEntry
  rw [armed]
  obtain ⟨side, key, start⟩ := x
  cases side <;> rfl

theorem tracker_entry_unarmed {s : State} (armed : s.mn.tracker.armed = none) :
    (entryBytes .monitor 4 s).take 10 = List.replicate 10 0 := by
  show (trackerEntry s.mn.tracker).take 10 = _
  unfold trackerEntry
  rw [armed]
  rfl

theorem tracker_entry_results (s : State) : (entryBytes .monitor 4 s).drop 10 =
    le32 (BitVec.ofNat 32 s.mn.tracker.last) ++ le32 (BitVec.ofNat 32 s.mn.tracker.max) ++
      le32 (BitVec.ofNat 32 s.mn.tracker.completed) ++ le32 (BitVec.ofNat 32 s.mn.tracker.lost) := by
  show (trackerEntry s.mn.tracker).drop 10 = _
  unfold trackerEntry
  cases s.mn.tracker.armed <;> rfl

/-! ### The reply to a TABLE_READ (R158) -/

section
variable {tag table : Byte} {first : Half} {number : Byte} {s : State} (taken : takesRequest s)
include taken

theorem tableRead_badTable (large : 10 ≤ table.toNat) : ∃ t, exec (.tableRead tag table first number) s = .next t ∧
    endsAs (replied tag 0x01 .badTable [] s) [.reqTaken] t :=
  request_replied taken (by unfold doTableRead; rw [tableOfCode_none large]; rfl)

theorem tableRead_badIndex {tb : Table} (named : tableOfCode table = some tb) (past : tb.entries ≤ first.toNat) :
    ∃ t, exec (.tableRead tag table first number) s = .next t ∧ endsAs (replied tag 0x01 .badIndex [] s) [.reqTaken] t :=
  request_replied taken (by unfold doTableRead; rw [named]; exact if_pos past)

theorem tableRead_badValue {tb : Table} (named : tableOfCode table = some tb) (within : first.toNat < tb.entries)
    (zero : number = 0) : ∃ t, exec (.tableRead tag table first number) s = .next t ∧
    endsAs (replied tag 0x01 .badValue [] s) [.reqTaken] t :=
  request_replied taken (by
    unfold doTableRead
    rw [named]
    exact (if_neg (by omega)).trans (if_pos zero))

theorem tableRead_ok {tb : Table} (named : tableOfCode table = some tb) (within : first.toNat < tb.entries)
    (asked : number ≠ 0) : ∃ t, exec (.tableRead tag table first number) s = .next t ∧
    endsAs (replied tag 0x01 .ok (readData table tb first number.toNat (count .reqTaken s)) s) [.reqTaken] t := by
  refine request_replied taken ?_
  have data : readData table tb first number.toNat (count .reqTaken (passed s)) =
      readData table tb first number.toNat (count .reqTaken s) := by
    unfold readData
    simp only [entryBytes_count_passed]
  unfold doTableRead
  rw [named, ← data]
  exact (if_neg (by omega)).trans (if_neg asked)

end

/-- Settles O31: each check of TABLE_READ ends the request with its reply, and each entry is laid out field by field. -/
theorem tableReadAnswersItsEntries : Obligations.TableReadAnswersItsEntries := by
  unfold Obligations.TableReadAnswersItsEntries
  refine ⟨tableOfCode_iff, fun tag table kind first number s taken => ⟨request_replied taken rfl, tableRead_badTable taken,
    fun tb named => ⟨tableRead_badIndex taken named, tableRead_badValue taken named, fun within asked n least => ?_⟩⟩, le16_shifts,
    le32_shifts, fun s b bit bytes bits => ?_⟩
  · obtain ⟨t, runs, ends⟩ := tableRead_ok (tag := tag) taken named within asked
    subst least
    exact ⟨t, runs, ends, fun other k => entryBytes_count other _ k s⟩
  · exact ⟨ident_entry bytes bits, header_entry bytes bits, fun i r => region_entry bytes bits i, by
      show s.sq.quiesce.code :: _ = _
      rw [quiesceState_code], fun i r => stream_entry bytes bits i, fun n w e => directory_entry bytes bits n w,
      fun n r => fault_entry bytes bits, fun i k => keymap_entry bytes, settings_entry bytes, panel_entry bytes bits,
      link_entry bytes, fun n c => counter_entry n, fun x => tracker_entry_armed, tracker_entry_unarmed, tracker_entry_results s⟩

end Sys2Proof.Machine
end

section
/-! PROOFS. Writing the tables (R159, R174): the settlement of O32. -/

namespace Sys2Proof.Machine

/-! ### The write that a TABLE_WRITE is -/

section
variable {table : Byte} {entry : Half} {contents : List Byte} {tb : Table} (named : tableOfCode table = some tb)
include named

/-- R159: a write of an entry that is there, with contents of the entries' size, goes to the table's own rule. -/
theorem doTableWrite_entry (whole : contents.length = tb.size) (within : entry.toNat < tb.entries) (tag : Byte) :
    doTableWrite tag table entry contents = writeEntry tb tag entry contents := by
  funext s
  unfold doTableWrite
  rw [named]
  exact (if_neg (not_not.2 whole)).trans (if_neg (by omega))

theorem doTableWrite_badRequest (whole : contents.length ≠ tb.size) (tag : Byte) :
    doTableWrite tag table entry contents = answer tag 2 .badRequest := by
  funext s
  unfold doTableWrite
  rw [named]
  exact if_pos whole

theorem doTableWrite_badIndex (whole : contents.length = tb.size) (past : tb.entries ≤ entry.toNat) (tag : Byte) :
    doTableWrite tag table entry contents = answer tag 2 .badIndex := by
  funext s
  unfold doTableWrite
  rw [named]
  exact (if_neg (not_not.2 whole)).trans (if_pos past)

end

theorem doTableWrite_badTable {table : Byte} (large : 10 ≤ table.toNat) (tag : Byte) (entry : Half) (contents : List Byte) :
    doTableWrite tag table entry contents = answer tag 2 .badTable := by
  funext s
  unfold doTableWrite
  rw [tableOfCode_none large]

theorem writeEntry_readOnly {tb : Table} {entry : Half}
    (readOnly : tb = .ident ∨ tb = .tileDir ∨ tb = .fault ∨ tb = .link ∨ tb = .monitor ∨ (tb = .stream ∧ entry = 0)) (tag : Byte)
    (contents : List Byte) : writeEntry tb tag entry contents = answer tag 2 .readOnly := by
  funext s
  rcases readOnly with rfl | rfl | rfl | rfl | rfl | ⟨rfl, rfl⟩ <;> rfl

theorem writeEntry_region {entry : Half} {i : Fin 8} (number : entry.toNat = i.val + 1) (tag : Byte) (e : List Byte) :
    writeEntry .layout tag entry e = doRegionWrite tag i ((byteAt e 0).getLsbD 0) (halfAt e 1) (halfAt e 3) (halfAt e 5)
      (halfAt e 7) (halfAt e 9) := by
  funext s
  have index : Fin.ofNat 8 (entry.toNat - 1) = i := Fin.ext (by show (entry.toNat - 1) % 8 = i.val; omega)
  refine (if_neg (show entry.toNat ≠ 0 by omega)).trans ?_
  rw [index]

theorem writeEntry_stream {entry : Half} {i : Fin 8} (number : entry.toNat = i.val + 1) (tag : Byte) (e : List Byte) :
    writeEntry .stream tag entry e = doStreamWrite tag i ((byteAt e 10).getLsbD 0) := by
  funext s
  have index : Fin.ofNat 8 (entry.toNat - 1) = i := Fin.ext (by show (entry.toNat - 1) % 8 = i.val; omega)
  refine (if_neg (show entry.toNat ≠ 0 by omega)).trans ?_
  rw [index]

/-! ### The one reply of a write (R159) -/

/-- Whether t holds the replies of s and one more, to the write with the tag. -/
def RepliesOnce (tag : Byte) (s t : State) : Prop := ∃ status, t.lc.replies = s.lc.replies ++ [⟨tag, 2, status, []⟩]

theorem applyLevel_lc (level : Nat) (s : State) : (applyLevel level s).lc = s.lc := by
  unfold applyLevel
  split_ifs
  · rfl
  · rw [raiseEvent_lc, count_lc]

theorem answer_once (tag : Byte) (status : Status) {s v : State} (same : v.lc = s.lc) : RepliesOnce tag s (answer tag 2 status v) :=
  ⟨status, by show v.lc.replies ++ _ = _; rw [same]⟩

theorem refuseLayout_once (tag : Byte) (status : Status) (s : State) : RepliesOnce tag s (refuseLayout tag status s) := by
  exact answer_once tag status (count_lc _ _)

theorem doRegionWrite_once (tag : Byte) (i : Fin 8) (enabled : Bool) (ox oy rw rh background : Half) (s : State) :
    RepliesOnce tag s (doRegionWrite tag i enabled ox oy rw rh background s) := by
  unfold doRegionWrite
  split_ifs
  · exact refuseLayout_once _ _ _
  · exact refuseLayout_once _ _ _
  · exact refuseLayout_once _ _ _
  · exact refuseLayout_once _ _ _
  · exact answer_once _ _ rfl

theorem doKeymapWrite_once (tag : Byte) (entry : Half) (cls value : Byte) (s : State) :
    RepliesOnce tag s (doKeymapWrite tag entry cls value s) := by
  unfold doKeymapWrite
  split
  · cases keyEntryOf cls value with
    | none => exact answer_once _ _ rfl
    | some e => exact answer_once _ _ rfl
  · exact answer_once _ _ rfl

theorem writeEntry_once (tb : Table) (tag : Byte) (entry : Half) (e : List Byte) (s : State) :
    RepliesOnce tag s (writeEntry tb tag entry e s) := by
  cases tb with
  | ident | tileDir | fault | link | monitor => exact answer_once _ _ rfl
  | layout =>
    simp only [writeEntry]
    split_ifs
    · unfold doHeaderWrite
      split_ifs
      · exact answer_once _ _ rfl
      · exact refuseLayout_once _ _ _
    · exact doRegionWrite_once _ _ _ _ _ _ _ _ _
  | stream =>
    simp only [writeEntry]
    split_ifs
    · exact answer_once _ _ rfl
    · unfold doStreamWrite
      refine answer_once _ _ ?_
      split_ifs <;> rfl
  | keymap => exact doKeymapWrite_once _ _ _ _ _
  | settings =>
    show RepliesOnce tag s (doSettingsWrite tag _ s)
    rw [doSettingsWrite_eq]
    exact answer_once _ _ rfl
  | panel =>
    show RepliesOnce tag s (doPanelWrite _ _ _ _ s)
    unfold doPanelWrite
    split_ifs
    · exact answer_once _ _ (by rw [applyLevel_lc])
    · exact answer_once _ _ rfl

theorem doTableWrite_once (tag table : Byte) (entry : Half) (contents : List Byte) (s : State) :
    RepliesOnce tag s (doTableWrite tag table entry contents s) := by
  unfold doTableWrite
  cases tableOfCode table with
  | none => exact answer_once _ _ rfl
  | some tb =>
    dsimp only
    split_ifs
    · exact answer_once _ _ rfl
    · exact answer_once _ _ rfl
    · exact writeEntry_once _ _ _ _ _

theorem half_toNat (lo hi : Byte) : (half lo hi).toNat = lo.toNat + 256 * hi.toNat := by
  rw [half, BitVec.toNat_append, ← Nat.shiftLeft_add_eq_or_of_lt lo.isLt, Nat.shiftLeft_eq]
  omega

/-! ### The tables with a write rule of their own -/

section
variable {entry : Half} {contents : List Byte} (tag : Byte)

theorem exec_tableWrite_as {table : Byte} {tb : Table} (short : contents.length ≤ 155) (named : tableOfCode table = some tb)
    (whole : contents.length = tb.size) (within : entry.toNat < tb.entries) (s : State) :
    exec (.tableWrite tag table entry contents) s = requestArrival tag 2 (writeEntry tb tag entry contents) s := by
  rw [exec_tableWrite short, doTableWrite_entry named whole within]

theorem exec_tableWrite_header (whole : contents.length = 11) (zero : entry = 0) (s : State) :
    exec (.tableWrite tag 1 entry contents) s = exec (.layoutHeaderWrite tag (halfAt contents 1) (halfAt contents 3)) s := by
  subst zero
  rw [exec_tableWrite_as (tb := .layout) tag (by omega) rfl whole (by decide), exec_headerWrite]
  rfl

theorem exec_tableWrite_region (whole : contents.length = 11) {i : Fin 8} (number : entry.toNat = i.val + 1) (s : State) :
    exec (.tableWrite tag 1 entry contents) s = exec (.layoutRegionWrite tag i ((byteAt contents 0).getLsbD 0)
      (halfAt contents 1) (halfAt contents 3) (halfAt contents 5) (halfAt contents 7) (halfAt contents 9)) s := by
  rw [exec_tableWrite_as (tb := .layout) tag (by omega) rfl whole (show entry.toNat < 9 by omega), exec_regionWrite,
    writeEntry_region number]

theorem exec_tableWrite_stream (whole : contents.length = 11) {i : Fin 8} (number : entry.toNat = i.val + 1) (s : State) :
    exec (.tableWrite tag 2 entry contents) s = exec (.streamWrite tag i ((byteAt contents 10).getLsbD 0)) s := by
  rw [exec_tableWrite_as (tb := .stream) tag (by omega) rfl whole (show entry.toNat < 9 by omega), exec_streamWrite,
    writeEntry_stream number]

theorem exec_tableWrite_keymap (whole : contents.length = 2) (s : State) :
    exec (.tableWrite tag 5 entry contents) s = exec (.keymapWrite tag entry (byteAt contents 0) (byteAt contents 1)) s := by
  rw [exec_keymapWrite]
  by_cases within : entry.toNat < 384
  · rw [exec_tableWrite_as (tb := .keymap) tag (by omega) rfl whole within]
    rfl
  · have refused : doKeymapWrite tag entry (byteAt contents 0) (byteAt contents 1) = answer tag 2 .badIndex :=
      funext fun t => dif_neg within
    rw [exec_tableWrite (by omega), refused,
      doTableWrite_badIndex (tb := .keymap) rfl whole (show 384 ≤ entry.toNat by omega)]

theorem exec_tableWrite_settings (whole : contents.length = 10) (zero : entry = 0) (s : State) :
    exec (.tableWrite tag 6 entry contents) s = exec (.settingsWrite tag (byteAt contents 0) (byteAt contents 1)
      (halfAt contents 2) (byteAt contents 4) (byteAt contents 5) (byteAt contents 6) (byteAt contents 7)
      (byteAt contents 8)) s := by
  subst zero
  rw [exec_tableWrite_as (tb := .settings) tag (by omega) rfl whole (by decide), exec_settingsWrite]
  rfl

theorem exec_tableWrite_panel (whole : contents.length = 7) (zero : entry = 0) (s : State) :
    exec (.tableWrite tag 7 entry contents) s =
      exec (.panelWrite tag (byteAt contents 0) (byteAt contents 1) (byteAt contents 2)) s := by
  subst zero
  rw [exec_tableWrite_as (tb := .panel) tag (by omega) rfl whole (by decide), exec_panelWrite]
  rfl

end

/-- Settles O32: each write is the command of its table, whose effect the statements about that command give. -/
theorem tableWriteGoesToItsTable : Obligations.TableWriteGoesToItsTable := by
  unfold Obligations.TableWriteGoesToItsTable
  intro tag table entry contents s short
  refine ⟨fun taken => ?_, ?_, ?_, ?_, ?_, ?_, ?_, fun taken => ⟨fun large => ?_, fun tb named => ⟨fun whole => ?_,
    fun whole past => ?_, fun whole within readOnly => ?_⟩⟩, ?_, fun i whole number => ⟨?_, ?_⟩, ?_, ?_, ?_⟩
  · rw [exec_tableWrite short, requestArrival_taken _ _ _ taken]
    refine ⟨_, rfl, ?_⟩
    obtain ⟨status, once⟩ := doTableWrite_once tag table entry contents (count .reqTaken (passed s))
    refine ⟨status, ?_⟩
    rw [conclude_replies, once, count_lc]
    rfl
  · rintro taken rfl whole zero quiesced
    rw [exec_tableWrite_header tag whole zero]
    exact ((layoutWritesNeedAQuiescedScreen.2 tag s taken).1 _ _).1 quiesced
  · rintro i r taken rfl whole number quiesced same legal
    rw [exec_tableWrite_region tag whole number]
    have writes := ((layoutWritesNeedAQuiescedScreen.2 tag s taken).2 i r.enabled r.ox r.oy r.rw r.rh r.background _ _ Iff.rfl
      Iff.rfl).2.2.2.2 quiesced
    subst same
    refine writes (legal.imp_left ?_)
    rintro ⟨enabled, wide, high, right, bottom, apart⟩
    exact ⟨enabled, ⟨wide, high, right, bottom⟩, apart⟩
  · rintro i taken rfl whole number
    rw [exec_tableWrite_stream tag whole number]
    exact (streamKeymapAndSettingsWrites.1 tag s taken).1 i _
  · rintro e taken rfl whole within good
    rw [exec_tableWrite_keymap tag whole]
    exact (((streamKeymapAndSettingsWrites.1 tag s taken).2 entry _ _).2 within).2 e good
  · rintro b taken rfl whole zero bytes
    rw [exec_tableWrite_settings tag whole zero]
    have writes := streamKeymapAndSettingsWrites.2 tag (byteAt contents 0) (byteAt contents 1) (halfAt contents 2)
      (byteAt contents 4) (byteAt contents 5) (byteAt contents 6) (byteAt contents 7) (byteAt contents 8) s taken
    rw [show (halfAt contents 2).toNat = b 2 + 256 * b 3 by rw [bytes, bytes]; exact half_toNat _ _] at writes
    simp only [← bytes] at writes
    exact writes
  · rintro level taken rfl whole zero width height rfl
    rw [exec_tableWrite_panel tag whole zero]
    obtain ⟨-, keeps, changes⟩ := (panelWritesAndRestart tag s taken).1 (byteAt contents 0) (byteAt contents 1) (byteAt contents 2)
    by_cases same : min (byteAt contents 2).toNat 15 = s.pu.level
    · obtain ⟨t, runs, ends⟩ := keeps width height same
      exact ⟨t, runs, fun _ => ends, fun other => absurd same other⟩
    · obtain ⟨t, runs, ends⟩ := changes width height same
      exact ⟨t, runs, fun held => absurd held same, fun _ => ends⟩
  · rw [exec_tableWrite short, doTableWrite_badTable large]
    exact request_replied taken rfl
  · rw [exec_tableWrite short, doTableWrite_badRequest named whole]
    exact request_replied taken rfl
  · rw [exec_tableWrite short, doTableWrite_badIndex named whole past]
    exact request_replied taken rfl
  · rw [exec_tableWrite_as tag short named whole within, writeEntry_readOnly readOnly]
    exact request_replied taken rfl
  · rintro rfl whole zero
    exact exec_tableWrite_header tag whole zero s
  · rintro rfl
    exact exec_tableWrite_region tag whole number s
  · rintro rfl
    exact exec_tableWrite_stream tag whole number s
  · rintro rfl whole
    exact exec_tableWrite_keymap tag whole s
  · rintro rfl whole zero
    exact exec_tableWrite_settings tag whole zero s
  · rintro rfl whole zero
    exact exec_tableWrite_panel tag whole zero s

end Sys2Proof.Machine
end

section
/-! PROOFS. Commands and the bytes that spell them (sections 11.1 to 11.7): the settlement of O7. -/

namespace Sys2Proof.Machine

/-! ### How each command is spelled -/

/-- The frame that holds a command's payload (section 11.1). -/
theorem spelled_holds {c : Instr} {kind : Byte} {payload : List Byte} (holds : payloadOf c = some (kind, payload)) :
    ∃ head : List Byte, head = [kind, BitVec.ofNat 8 payload.length] ∧
      spelled c = some (head ++ payload ++ le16 (frameCheck (head ++ payload))) :=
  ⟨_, rfl, spelled_of_payload holds⟩

/-- The number of an entry as the two bytes of a TABLE_WRITE. -/
theorem entryNumber_bytes (i : Fin 8) : le16 (BitVec.ofNat 16 (i.val + 1)) = [BitVec.ofNat 8 (i.val + 1), 0] := by
  revert i
  decide

theorem flagBit_zero (x : Bool) : flagBit x 0 = if x then 1 else 0 := by cases x <;> rfl

/-! ### The frame and its payload -/

theorem dispatchBytes_buildFrame (kind : Byte) (payload : List Byte) :
    dispatchBytes (buildFrame kind payload) = dispatchPayload kind payload := by
  have cut : ((buildFrame kind payload).drop 2).take ((buildFrame kind payload).length - 4) = payload := by
    have length : (buildFrame kind payload).length - 4 = payload.length := by
      simp [buildFrame, le16]
    rw [length]
    show (payload ++ le16 _).take payload.length = payload
    exact List.take_left
  funext s
  unfold dispatchBytes
  rw [cut]
  rfl

theorem framePasses_buildFrame (kind : Byte) {payload : List Byte} (short : payload.length ≤ 160) :
    framePasses (buildFrame kind payload) = true :=
  (framePasses_iff _).2 ⟨_, payload, kind, rfl, short, rfl⟩

/-- R3: an end delimiter that closes a frame which passes the check is the arrival of that frame. -/
theorem endDelimiter_passes {bs : List Byte} {s : State} (open' : s.lc.link = .framing ∨ s.lc.link = .up)
    (filling : s.lc.assembly = some bs) (passes : framePasses bs = true) :
    exec (.symbolGroup .endDelimiter) s =
      frameArrival (passFrame (dispatchBytes bs)) { s with lc.assembly := none, lc.lossCount := 0 } := by
  have effect : takeGroup .endDelimiter s = passFrame (dispatchBytes bs) { s with lc.assembly := none, lc.lossCount := 0 } := by
    rw [takeGroup_assembles _ open', restartLoss_valid (by decide),
      (assembleGroup_open (s := { s with lc.lossCount := 0 }) filling).2.2.1]
    unfold closeFrame
    rw [if_pos passes]
  rw [exec_symbolGroup, effect, conclude_before (holds_receive none 0 s)]
  exact (frameArrival_eq _ ((assembles_iff { s with lc.assembly := none, lc.lossCount := 0 }).2 open')).symm

/-! ### The arguments of a request -/

theorem halfAt_le16 (v : Half) (rest : List Byte) : halfAt (le16 v ++ rest) 0 = v := half_le16 v

theorem wordAt_le32 (v : Word) (rest : List Byte) : wordAt (le32 v ++ rest) 0 = v := word_le32 v

/-- The arguments of a TABLE_WRITE make that write. -/
theorem runRequest_tableWrite (tag table : Byte) (entry : Half) (contents : List Byte) :
    runRequest tag 2 (writeArgs table entry contents) = doTableWrite tag table entry contents := by
  funext s
  have number : halfAt (writeArgs table entry contents) 1 = entry := half_le16 entry
  have long : 3 ≤ (writeArgs table entry contents).length := by simp [writeArgs, le16]
  unfold runRequest
  dsimp only
  rw [if_neg (fun other => absurd other.1 (by decide)), if_pos ⟨rfl, long⟩, number]
  rfl

/-- A write of an entry is the TABLE_WRITE with the entry's number and bytes. -/
theorem exec_entryWrite {c : Instr} {tag : Byte} {args : List Byte} (request : requestOf c = some (tag, 2))
    (written : argsOf c = some args) (good : c.wf = true) :
    ∃ table entry contents, args = writeArgs table entry contents ∧ contents.length ≤ 155 ∧
      ∀ s, exec c s = exec (.tableWrite tag table entry contents) s := by
  have number (i : Fin 8) : (BitVec.ofNat 16 (i.val + 1)).toNat = i.val + 1 := by
    rw [BitVec.toNat_ofNat]
    exact Nat.mod_eq_of_lt (by omega)
  cases c with
  | tableWrite t table entry contents =>
    cases request
    cases written
    exact ⟨_, _, _, rfl, by simpa [Instr.wf] using good, fun _ => rfl⟩
  | layoutHeaderWrite t border undocked =>
    cases request
    cases written
    refine ⟨_, _, _, rfl, (by decide : 11 ≤ 155), fun s => ?_⟩
    rw [exec_tableWrite_header tag rfl rfl]
    exact congrArg₂ (fun x y => exec (.layoutHeaderWrite tag x y) s) (half_le16 border).symm (half_le16 undocked).symm
  | layoutRegionWrite t i enabled ox oy rw rh background =>
    cases request
    cases written
    refine ⟨_, _, _, rfl, (by decide : 11 ≤ 155), fun s => ?_⟩
    rw [exec_tableWrite_region tag rfl (number i)]
    have flag : (flagBit enabled 0).getLsbD 0 = enabled := by cases enabled <;> rfl
    show _ = exec (.layoutRegionWrite tag i ((flagBit enabled 0).getLsbD 0) (half _ _) (half _ _) (half _ _) (half _ _) (half _ _)) s
    rw [flag]
    show _ = exec (.layoutRegionWrite tag i enabled (half (ox.extractLsb' 0 8) (ox.extractLsb' 8 8))
      (half (oy.extractLsb' 0 8) (oy.extractLsb' 8 8)) (half (rw.extractLsb' 0 8) (rw.extractLsb' 8 8))
      (half (rh.extractLsb' 0 8) (rh.extractLsb' 8 8)) (half (background.extractLsb' 0 8) (background.extractLsb' 8 8))) s
    simp only [half_le16]
  | streamWrite t i stale =>
    cases request
    cases written
    refine ⟨_, _, _, rfl, (by decide : 11 ≤ 155), fun s => ?_⟩
    rw [exec_tableWrite_stream tag rfl (number i)]
    have flag : (flagBit stale 0).getLsbD 0 = stale := by cases stale <;> rfl
    exact congrArg (fun x => exec (.streamWrite tag i x) s) flag.symm
  | keymapWrite t entry cls value =>
    cases request
    cases written
    refine ⟨_, _, _, rfl, (by decide : 2 ≤ 155), fun s => ?_⟩
    rw [exec_tableWrite_keymap tag rfl]
    rfl
  | settingsWrite t loss hold scan depth fault retry shed enables =>
    cases request
    cases written
    refine ⟨_, _, _, rfl, (by decide : 10 ≤ 155), fun s => ?_⟩
    rw [exec_tableWrite_settings tag rfl rfl]
    exact congrArg (fun x => exec (.settingsWrite tag loss hold x depth fault retry shed enables) s) (half_le16 scan).symm
  | panelWrite t width height level =>
    cases request
    cases written
    refine ⟨_, _, _, rfl, (by decide : 7 ≤ 155), fun s => ?_⟩
    rw [exec_tableWrite_panel tag rfl rfl]
    rfl
  | badRequest => cases written
  | _ => cases request

/-- The arguments that spell a request make that request. -/
theorem exec_runs {c : Instr} {tag kind : Byte} {args : List Byte} (request : requestOf c = some (tag, kind))
    (written : argsOf c = some args) (good : c.wf = true) (s : State) :
    exec c s = requestArrival tag kind (runRequest tag kind args) s := by
  have write (two : kind = 2) : exec c s = requestArrival tag kind (runRequest tag kind args) s := by
    subst two
    obtain ⟨table, entry, contents, rfl, short, same⟩ := exec_entryWrite request written good
    rw [same, exec_tableWrite short, runRequest_tableWrite]
  have as (run : State → State) (same : ∀ u, runRequest tag kind args u = run u) (arrives : exec c s = requestArrival tag kind run s) :
      exec c s = requestArrival tag kind (runRequest tag kind args) s := by
    rw [arrives, funext same]
  cases c with
  | tableWrite | layoutHeaderWrite | layoutRegionWrite | streamWrite | keymapWrite | settingsWrite | panelWrite =>
    exact write (congrArg Prod.snd (Option.some.inj request)).symm
  | tableRead t table first number =>
    cases request
    cases written
    refine as (doTableRead tag table first number) (fun u => ?_) rfl
    exact congrArg (doTableRead tag table · number u) (half_le16 first)
  | streamOpen t stream start =>
    cases request
    cases written
    exact as (doStreamOpen tag stream start) (fun u => congrArg (doStreamOpen tag stream · u) (half_le16 start)) rfl
  | tilePin t key =>
    cases request
    cases written
    exact as (doTilePin tag key) (fun u => congrArg (doTilePin tag · u) (word_le32 key)) rfl
  | tileUnpin t key =>
    cases request
    cases written
    exact as (doTileUnpin tag key) (fun u => congrArg (doTileUnpin tag · u) (word_le32 key)) rfl
  | storeWrite t offset data =>
    cases request
    cases written
    have short : data.length ≤ 156 := by simpa [Instr.wf] using good
    exact as (doStoreWrite tag offset data) (fun u => congrArg (doStoreWrite tag · data u) (half_le16 offset)) (exec_storeWrite short _ _ _)
  | storeRead t offset number =>
    cases request
    cases written
    exact as (doStoreRead tag offset number) (fun u => congrArg (doStoreRead tag · number u) (half_le16 offset)) rfl
  | monitorSet t entry mode group mask condition =>
    cases request
    cases written
    exact as (doMonitorSet tag entry mode group mask condition)
      (fun u => congrArg (doMonitorSet tag entry mode group · condition u) (word_le32 mask)) rfl
  | badRequest => cases written
  | quiesce t | resume t | tileFlush t | panelRestart t | dockReset t | streamClose t stream | storeErase t page =>
    cases request
    cases written
    rfl
  | _ => cases request

/-! ### The dispatch of a payload (R16) -/

theorem dispatchPayload_request (tag kind : Byte) (args : List Byte) :
    dispatchPayload 5 (tag :: kind :: args) = ifAttached (takeRequest tag kind (runRequest tag kind args)) := by
  funext s
  have long : 2 ≤ (tag :: kind :: args).length := by simp
  unfold dispatchPayload
  dsimp only
  rw [if_neg (fun other => absurd other.1 (by decide)), if_neg (by decide), if_neg (fun other => absurd other.1 (by decide)),
    if_neg (fun other => absurd other.1 (by decide)), if_pos ⟨rfl, long⟩]
  rfl

/-- What a spelled command is: HELLO, IDLE, DRAW, TILE, or a request with arguments, with its payload. -/
theorem payloadOf_some {c : Instr} {kind : Byte} {payload : List Byte} (spells : payloadOf c = some (kind, payload)) :
    (∃ n, c = .hello n ∧ kind = 1 ∧ payload = le32 n) ∨ (c = .idle ∧ kind = 2 ∧ payload = []) ∨
      (∃ stream seq commands, c = .draw stream seq commands ∧ kind = 3 ∧ payload = stream :: le16 seq ++ commands) ∨
      (∃ key sector data, c = .tile key sector data ∧ kind = 4 ∧ payload = le32 key ++ sector :: data) ∨
      (∃ tag number args, requestOf c = some (tag, number) ∧ argsOf c = some args ∧ kind = 5 ∧ payload = tag :: number :: args) := by
  rcases payloadOf_cases (Option.isSome_of_eq_some spells) with ⟨n, rfl⟩ | rfl | ⟨stream, seq, commands, rfl⟩ | ⟨key, sector, data, rfl⟩ |
    request
  · cases spells
    exact .inl ⟨n, rfl, rfl, rfl⟩
  · cases spells
    exact .inr (.inl ⟨rfl, rfl, rfl⟩)
  · cases spells
    exact .inr (.inr (.inl ⟨_, _, _, rfl, rfl, rfl⟩))
  · cases spells
    exact .inr (.inr (.inr (.inl ⟨_, _, _, rfl, rfl, rfl⟩)))
  · obtain ⟨⟨tag, number⟩, request⟩ := Option.isSome_iff_exists.1 request
    rcases argsOf_request request with rfl | written
    · cases spells
    · obtain ⟨args, written⟩ := Option.isSome_iff_exists.1 written
      rw [payloadOf_request request written] at spells
      cases spells
      exact .inr (.inr (.inr (.inr ⟨tag, number, args, request, written, rfl, rfl⟩)))

/-- The payload that spells a command, once its frame has passed, does what the command does. -/
theorem exec_payload {c : Instr} {kind : Byte} {payload : List Byte} (spells : payloadOf c = some (kind, payload))
    (good : c.wf = true) (s : State) : exec c s = frameArrival (passFrame (dispatchPayload kind payload)) s := by
  have as (run : State → State) (arrives : exec c s = frameArrival (passFrame run) s)
      (same : dispatchPayload kind payload = run) : exec c s = frameArrival (passFrame (dispatchPayload kind payload)) s := by
    rw [arrives, same]
  rcases payloadOf_some spells with ⟨n, rfl, rfl, rfl⟩ | ⟨rfl, rfl, rfl⟩ | ⟨stream, seq, commands, rfl, rfl, rfl⟩ |
    ⟨key, sector, data, rfl, rfl, rfl⟩ | ⟨tag, number, args, request, written, rfl, rfl⟩
  · exact as (takeHello n) rfl (funext fun u => congrArg (takeHello · u) (word_le32 n))
  · exact as id rfl rfl
  · simp only [Instr.wf, Bool.and_eq_true, decide_eq_true_eq] at good
    refine as _ (exec_draw_fits (List.length_pos_iff.1 good.1) good.2 _ _ _) (funext fun u => ?_)
    have long : 4 ≤ (stream :: le16 seq ++ commands).length := by
      simp [le16]
      omega
    unfold dispatchPayload
    dsimp only
    rw [if_neg (fun other => absurd other.1 (by decide)), if_neg (by decide), if_pos ⟨rfl, long⟩]
    exact congrArg (fun x => ifAttached (doDraw stream x commands) u) (half_le16 seq)
  · have whole : data.length = 128 := by simpa [Instr.wf] using good
    refine as _ (exec_tile whole _ _ _) (funext fun u => ?_)
    have long : (le32 key ++ sector :: data).length = 133 := by simp [le32, whole]
    unfold dispatchPayload
    dsimp only
    rw [if_neg (fun other => absurd other.1 (by decide)), if_neg (by decide), if_neg (fun other => absurd other.1 (by decide)),
      if_pos ⟨rfl, long⟩]
    exact congrArg (fun x => ifAttached (doTile x sector data) u) (word_le32 key)
  · exact as _ (exec_runs request written good s) (dispatchPayload_request tag number args)

theorem args_short {c : Instr} {args : List Byte} (written : argsOf c = some args) (good : c.wf = true) : args.length ≤ 158 := by
  cases c with
  | tableWrite t table entry contents =>
    cases written
    have short : contents.length ≤ 155 := by simpa [Instr.wf] using good
    simp [writeArgs, le16]
    omega
  | storeWrite t offset data =>
    cases written
    have short : data.length ≤ 156 := by simpa [Instr.wf] using good
    simp [le16]
    omega
  | tableRead | layoutHeaderWrite | layoutRegionWrite | streamWrite | keymapWrite | settingsWrite | panelWrite | streamOpen
  | streamClose | quiesce | resume | tileFlush | tilePin | tileUnpin | panelRestart | dockReset | storeErase | storeRead
  | monitorSet =>
    cases written
    exact Nat.le_of_ble_eq_true rfl
  | _ => cases written

theorem payload_short {c : Instr} {kind : Byte} {payload : List Byte} (spells : payloadOf c = some (kind, payload))
    (good : c.wf = true) : payload.length ≤ 160 := by
  rcases payloadOf_some spells with ⟨n, rfl, rfl, rfl⟩ | ⟨rfl, rfl, rfl⟩ | ⟨stream, seq, commands, rfl, rfl, rfl⟩ |
    ⟨key, sector, data, rfl, rfl, rfl⟩ | ⟨tag, number, args, request, written, rfl, rfl⟩
  · simp [le32]
  · simp
  · simp only [Instr.wf, Bool.and_eq_true, decide_eq_true_eq] at good
    simp [le16]
    omega
  · have whole : data.length = 128 := by simpa [Instr.wf] using good
    simp [le32, whole]
  · have short := args_short written good
    simp only [List.length_cons]
    omega

/-! ### Frames that spell no command (R16, R156, R174) -/

/-- R16: a kind or a payload length that section 11.2 does not allow. -/
abbrev frameUnknown (kind n : Nat) : Prop :=
  kind = 0 ∨ 5 < kind ∨ (kind = 1 ∧ n ≠ 4) ∨ (kind = 3 ∧ n < 4) ∨ (kind = 4 ∧ n ≠ 133) ∨ (kind = 5 ∧ n < 2)

theorem dispatchPayload_unknown {kind : Byte} {payload : List Byte} (unknown : frameUnknown kind.toNat payload.length) :
    dispatchPayload kind payload = count .badFrame := by
  have number (k : Byte) (same : kind = k) : kind.toNat = k.toNat := congrArg BitVec.toNat same
  funext s
  unfold dispatchPayload
  dsimp only
  rw [if_neg, if_neg, if_neg, if_neg, if_neg]
  · rintro ⟨same, length⟩
    have : kind.toNat = 5 := number _ same
    omega
  · rintro ⟨same, length⟩
    have : kind.toNat = 4 := number _ same
    omega
  · rintro ⟨same, length⟩
    have : kind.toNat = 3 := number _ same
    omega
  · intro same
    have : kind.toNat = 2 := number _ same
    omega
  · rintro ⟨same, length⟩
    have : kind.toNat = 1 := number _ same
    omega

/-- R156: a request kind or a length of its arguments that section 11.6 does not allow. -/
abbrev requestUnknown (request m : Nat) : Prop :=
  request = 0 ∨ 15 < request ∨ (request = 1 ∧ m ≠ 4) ∨ (request = 2 ∧ m < 3) ∨ (request = 3 ∧ m ≠ 3) ∨
    (request = 4 ∧ m ≠ 1) ∨ (5 ≤ request ∧ request ≤ 7 ∧ m ≠ 0) ∨ (8 ≤ request ∧ request ≤ 9 ∧ m ≠ 4) ∨
    (10 ≤ request ∧ request ≤ 11 ∧ m ≠ 0) ∨ (request = 12 ∧ m ≠ 1) ∨ (request = 13 ∧ m < 2) ∨ (request = 14 ∧ m ≠ 3) ∨
    (request = 15 ∧ m ≠ 8)

theorem runRequest_unknown {kind : Byte} {args : List Byte} (unknown : requestUnknown kind.toNat args.length) (tag : Byte) :
    runRequest tag kind args = answer tag kind .badRequest := by
  have skip (k : Byte) (form : Prop) [Decidable form] (misfits : kind.toNat = k.toNat → ¬ form) (x y : State) :
      (if kind = k ∧ form then x else y) = y :=
    if_neg fun both => misfits (congrArg BitVec.toNat both.1) both.2
  funext s
  unfold runRequest
  dsimp only
  rw [skip, skip, skip, skip, skip, skip, skip, skip, skip, skip, skip, skip, skip, skip, skip]
  all_goals
    intro number
    simp only [BitVec.reduceToNat] at number
    omega

/-- R174: a TABLE_WRITE with contents of another size than the table's entries. -/
theorem runRequest_misfit {args : List Byte} {tb : Table} (named : tableOfCode (byteAt args 0) = some tb) (long : 3 ≤ args.length)
    (misfit : args.length ≠ 3 + tb.size) (tag : Byte) : runRequest tag 2 args = answer tag 2 .badRequest := by
  funext s
  unfold runRequest
  dsimp only
  rw [if_neg (fun other => absurd other.1 (by decide)), if_pos ⟨rfl, long⟩,
    doTableWrite_badRequest named (by rw [List.length_drop]; omega)]

/-! ### The settlement -/

/-- The bytes of a spelled command, closed by an end delimiter, are the command. -/
theorem endDelimiter_spelled {c : Instr} {bs : List Byte} {s : State} (spells : spelled c = some bs) (good : c.wf = true)
    (open' : s.lc.link = .framing ∨ s.lc.link = .up) (filling : s.lc.assembly = some bs) :
    exec (.symbolGroup .endDelimiter) s = exec c { s with lc.assembly := none, lc.lossCount := 0 } := by
  obtain ⟨⟨kind, payload⟩, holds, rfl⟩ := Option.map_eq_some_iff.1 spells
  rw [endDelimiter_passes open' filling (framePasses_buildFrame kind (payload_short holds good)), dispatchBytes_buildFrame,
    exec_payload holds good]

/-- A frame that passes the check is dispatched by its kind byte and its payload. -/
theorem endDelimiter_dispatches {bs : List Byte} {s : State} {n : Nat} (open' : s.lc.link = .framing ∨ s.lc.link = .up)
    (filling : s.lc.assembly = some bs) (passes : framePasses bs = true) (length : n + 4 = bs.length) :
    ∃ payload : List Byte, payload.length = n ∧ bs = buildFrame (byteAt bs 0) payload ∧
      exec (.symbolGroup .endDelimiter) s =
        frameArrival (passFrame (dispatchPayload (byteAt bs 0) payload)) { s with lc.assembly := none, lc.lossCount := 0 } := by
  obtain ⟨head, payload, kind, rfl, short, whole⟩ := (framePasses_iff bs).1 passes
  have built : bs = buildFrame kind payload := whole
  have first : byteAt bs 0 = kind := by rw [built]; rfl
  refine ⟨payload, ?_, ?_, ?_⟩
  · rw [built] at length
    simp [buildFrame, le16] at length
    omega
  · rw [first, ← built]
  · rw [endDelimiter_passes open' filling passes, first, ← dispatchBytes_buildFrame, ← built]

/-- Settles O7: each command's frame holds its payload, whose dispatch is the command; what spells none is BAD_FRAME, IDLE or
BAD_REQUEST. -/
theorem spelledFramesRunTheirCommands : Obligations.SpelledFramesRunTheirCommands := by
  unfold Obligations.SpelledFramesRunTheirCommands
  refine ⟨half_toNat, fun spells means => ?_, fun c bs s spelt good => endDelimiter_spelled spelt good,
    fun bs s u kind n open' filling passes same number length => ?_⟩
  · have holds {c : Instr} {kind : Byte} {payload payload' : List Byte} (has : payloadOf c = some (kind, payload'))
        (same : payload' = payload) : spells c kind payload :=
      (means _ _ _).2 (spelled_holds (same ▸ has))
    refine ⟨fun n => holds rfl rfl, holds rfl rfl, fun stream seq commands => holds rfl rfl, fun key sector data => holds rfl rfl,
      fun tag => ⟨fun table first number => holds rfl rfl, fun table entry contents => holds rfl rfl,
      fun border undocked => holds rfl rfl, fun i enabled ox oy rw rh background => holds rfl ?_, fun i stale => holds rfl ?_,
      fun entry cls value => holds rfl rfl, fun loss hold scan depth fault retry shed enables => holds rfl rfl,
      fun width height level => holds rfl rfl, fun stream start => holds rfl rfl, fun stream => holds rfl rfl, holds rfl rfl,
      holds rfl rfl, holds rfl rfl, fun key => holds rfl rfl, fun key => holds rfl rfl, holds rfl rfl, holds rfl rfl,
      fun page => holds rfl rfl, fun offset data => holds rfl rfl, fun offset number => holds rfl rfl,
      fun entry mode group mask condition => holds rfl rfl⟩⟩
    · rw [writeArgs, entryNumber_bytes, flagBit_zero]
      rfl
    · rw [writeArgs, entryNumber_bytes, flagBit_zero]
      rfl
  · obtain ⟨payload, size, built, dispatched⟩ := endDelimiter_dispatches open' filling passes length
    subst same number size
    rw [dispatched]
    refine ⟨fun unknown => ?_, fun idle => ?_, fun request m management length request' unknown => ?_⟩
    · rw [dispatchPayload_unknown unknown]
      rfl
    · rw [show byteAt bs 0 = 2 from BitVec.eq_of_toNat_eq idle]
      rfl
    · obtain ⟨tag, kind, args, rfl⟩ : ∃ tag kind args, payload = tag :: kind :: args := by
        match payload, length with
        | tag :: kind :: args, _ => exact ⟨tag, kind, args, rfl⟩
      have five : byteAt bs 0 = 5 := BitVec.eq_of_toNat_eq management
      have third : byteAt bs 2 = tag := by rw [built]; rfl
      have fourth : byteAt bs 3 = kind := by rw [built]; rfl
      have size : args.length = m := by simpa using length
      have bad : runRequest tag kind args = answer tag kind .badRequest := by
        rw [fourth] at request'
        subst size request'
        by_cases misfit : ∃ tb, kind.toNat = 2 ∧ 3 ≤ args.length ∧ tableOfCode (byteAt bs 4) = some tb ∧ args.length ≠ 3 + tb.size
        · obtain ⟨tb, two, long, named, other⟩ := misfit
          obtain rfl : kind = 2 := BitVec.eq_of_toNat_eq two
          have fifth : byteAt bs 4 = byteAt args 0 := by
            match args, long with
            | a :: rest, _ => rw [built]; rfl
          exact runRequest_misfit (fifth ▸ named) long other tag
        · exact runRequest_unknown (by simp only [misfit, false_or] at unknown; exact unknown) tag
      rw [five, dispatchPayload_request, bad, third, fourth]
      rfl

end Sys2Proof.Machine
end

section
/-! PROOFS. Power-on reset in every block (R21, R28, R38, R164, R168, R169): the settlement of O4. -/

namespace Sys2Proof.Machine

/-! ### The validity of the image (R168) -/

theorem sum_bytes (bs : List Byte) (acc : Half) :
    (bs.foldl (fun acc b => acc + b.setWidth 16) acc).toNat = (acc.toNat + (bs.map BitVec.toNat).sum) % 65536 := by
  induction bs generalizing acc with
  | nil => simp only [List.foldl_nil, List.map_nil, List.sum_nil, Nat.add_zero]; exact (Nat.mod_eq_of_lt acc.isLt).symm
  | cons b bs ih =>
    rw [List.foldl_cons, ih, BitVec.toNat_add, BitVec.toNat_setWidth, List.map_cons, List.sum_cons]
    have small := b.isLt
    omega

theorem cellBlock_eq_range (m : List Host.Cell) (a n : Nat) :
    cellBlock 255 m a n = (List.range n).map fun k => cellRead 255 m (a + k) := by
  refine List.ext_getElem (by simp) fun i _ _ => ?_
  rw [cellBlock_getElem, List.getElem_map, List.getElem_range]

theorem byteAt_cellBlock (m : List Host.Cell) (a : Nat) {n i : Nat} (within : i < n) :
    byteAt (cellBlock 255 m a n) i = cellRead 255 m (a + i) := by
  have bound : i < (cellBlock 255 m a n).length := by simpa using within
  rw [byteAt, List.getD_eq_getElem _ _ bound, cellBlock_getElem]

theorem imageSum_toNat (m : List Host.Cell) (n : Nat) :
    (imageSum m n).toNat = ((List.range n).map fun k => (cellRead 255 m (8 + k)).toNat).sum % 65536 := by
  rw [imageSum, sum_bytes, cellBlock_eq_range, List.map_map]
  exact congrArg (· % 65536) (Nat.zero_add _)

theorem imageValid_iff (m : List Host.Cell) : imageValid m = true ↔
    (cellRead 255 m 0 = 0x21 ∧ cellRead 255 m 1 = 0x4E ∧ cellRead 255 m 2 = 0x3C ∧ cellRead 255 m 3 = 0x5A) ∧
      ∃ n : Nat, n = (cellRead 255 m 4).toNat + 256 * (cellRead 255 m 5).toNat ∧ 873 ≤ n ∧ n ≤ 4088 ∧
        ((List.range n).map fun k => (cellRead 255 m (8 + k)).toNat).sum % 65536 =
          (cellRead 255 m 6).toNat + 256 * (cellRead 255 m 7).toNat := by
  have header (i : Nat) (within : i < 8) : byteAt (imageHeader m) i = cellRead 255 m i := by
    rw [imageHeader, byteAt_cellBlock _ _ within, Nat.zero_add]
  have marker (b0 b1 b2 b3 : Byte) : word b0 b1 b2 b3 = Config.imageMarker ↔ b0 = 0x21 ∧ b1 = 0x4E ∧ b2 = 0x3C ∧ b3 = 0x5A := by
    refine ⟨fun same => ?_, ?_⟩
    · have bytes := congrArg le32 same
      rw [le32_word] at bytes
      have literal : le32 Config.imageMarker = [0x21, 0x4E, 0x3C, 0x5A] := by decide
      rw [literal] at bytes
      simpa using bytes
    · rintro ⟨rfl, rfl, rfl, rfl⟩
      decide
  unfold imageValid
  simp only [Bool.and_eq_true, beq_iff_eq, decide_eq_true_eq, wordAt, halfAt, Nat.reduceAdd, header _ (show 0 < 8 by omega),
    header _ (show 1 < 8 by omega), header _ (show 2 < 8 by omega), header _ (show 3 < 8 by omega), header _ (show 4 < 8 by omega),
    header _ (show 5 < 8 by omega), header _ (show 6 < 8 by omega), header _ (show 7 < 8 by omega), marker]
  have sum (n : Nat) (h : Half) : imageSum m n = h ↔
      ((List.range n).map fun k => (cellRead 255 m (8 + k)).toNat).sum % 65536 = h.toNat := by
    rw [← BitVec.toNat_inj, imageSum_toNat]
  rw [sum, half_toNat, half_toNat]
  refine ⟨?_, ?_⟩
  · rintro ⟨⟨⟨bytes, least⟩, most⟩, total⟩
    exact ⟨bytes, _, rfl, least, most, total⟩
  · rintro ⟨bytes, n, rfl, least, most, total⟩
    exact ⟨⟨⟨bytes, least⟩, most⟩, total⟩

/-! ### The store that a reset finds (R164) -/

/-- A choice, byte by byte, between what is there and what a write would leave. -/
theorem cellRead_chosen (m : List Host.Cell) (o : Nat) (new : List Byte) (kept : Nat → Bool) (a : Nat) :
    cellRead 255 (cellWrite 255 m o (new.zipIdx.map fun b => if kept (o + b.2) then cellRead 255 m (o + b.2) else b.1)) a =
      if h : o ≤ a ∧ a < o + new.length then (if kept a then cellRead 255 m a else new[a - o]) else cellRead 255 m a := by
  split
  · next h =>
    obtain ⟨i, rfl⟩ := Nat.exists_eq_add_of_le h.1
    rw [cellRead_cellWrite_inside _ _ _ _ _ (by simp; omega)]
    simp
  · next h =>
    exact cellRead_cellWrite_outside _ _ _ _ _ (by simp; omega)

theorem cutFlash_idle {s : State} (idle : s.me.inProgress = none) : cutFlash s = s.flash := by
  unfold cutFlash
  rw [idle]

theorem cutFlash_other {s : State} {r : Request} (current : s.me.inProgress = some r)
    (other : r.op = .quiesce ∨ r.op = .resume ∨ r.op = .tileFlush) : cutFlash s = s.flash := by
  obtain ⟨tag, kind, op, silent⟩ := r
  unfold cutFlash
  rw [current]
  rcases other with rfl | rfl | rfl <;> rfl

/-- R164: a byte under an erase that the reset ends holds what it held or 255. -/
theorem cutFlash_erase {s : State} {r : Request} {page : Nat} (current : s.me.inProgress = some r) (op : r.op = .erase page) (a : Nat) :
    (1024 * page ≤ a ∧ a < 1024 * page + 1024 →
      cellRead 255 (cutFlash s) a = cellRead 255 s.flash a ∨ cellRead 255 (cutFlash s) a = 255) ∧
    (a < 1024 * page ∨ 1024 * page + 1024 ≤ a → cellRead 255 (cutFlash s) a = cellRead 255 s.flash a) := by
  obtain ⟨tag, kind, op', silent⟩ := r
  subst op
  have flash : cutFlash s = cellWrite 255 s.flash (1024 * page) ((List.replicate 1024 (255 : Byte)).zipIdx.map fun b =>
      if Config.flashByteKept s.free (1024 * page + b.2) then cellRead 255 s.flash (1024 * page + b.2) else b.1) := by
    unfold cutFlash
    rw [current]
    rfl
  rw [flash, cellRead_chosen]
  refine ⟨fun inside => ?_, fun outside => ?_⟩
  · rw [dif_pos (by rw [List.length_replicate]; exact inside)]
    split
    · exact .inl rfl
    · exact .inr (List.getElem_replicate _)
  · rw [dif_neg (by rw [List.length_replicate]; omega)]

/-- R164: a byte under a program that the reset ends holds what it held or what the program leaves. -/
theorem cutFlash_program {s : State} {r : Request} {offset : Nat} {data : List Byte} (current : s.me.inProgress = some r)
    (op : r.op = .program offset data) (a : Nat) :
    (∀ i : Nat, i < data.length → a = offset + i → cellRead 255 (cutFlash s) a = cellRead 255 s.flash a ∨
      cellRead 255 (cutFlash s) a = cellRead 255 s.flash a &&& byteAt data i) ∧
    (a < offset ∨ offset + data.length ≤ a → cellRead 255 (cutFlash s) a = cellRead 255 s.flash a) := by
  obtain ⟨tag, kind, op', silent⟩ := r
  subst op
  have flash : cutFlash s = cellWrite 255 s.flash offset ((programmed s.flash offset data).zipIdx.map fun b =>
      if Config.flashByteKept s.free (offset + b.2) then cellRead 255 s.flash (offset + b.2) else b.1) := by
    unfold cutFlash
    rw [current]
  rw [flash, cellRead_chosen]
  refine ⟨fun i within same => ?_, fun outside => ?_⟩
  · subst same
    rw [dif_pos (by rw [programmed_length]; omega)]
    split
    · exact .inl rfl
    · refine .inr ?_
      rw [programmed_getElem]
      simp only [Nat.add_sub_cancel_left]
  · rw [dif_neg (by rw [programmed_length]; omega)]

/-! ### The items of the image (R28, R133, R144, R160, R169) -/

theorem loadRegions_append (width height : Nat) (rs : List Region) (r : Region) :
    loadRegions width height (rs ++ [r]) = loadRegions width height rs ++ [loadRegion width height (loadRegions width height rs) r] := by
  simp [loadRegions]

theorem loadRegions_length (width height : Nat) (rs : List Region) : (loadRegions width height rs).length = rs.length := by
  induction rs using List.reverseRecOn with
  | nil => rfl
  | append_singleton rs r ih => rw [loadRegions_append, List.length_append, List.length_append, ih]; rfl

/-- R28: each region is loaded against those loaded before it. -/
theorem loadRegions_at (width height : Nat) (rs : List Region) {i : Nat} (within : i < rs.length) :
    (loadRegions width height rs)[i]? = some (loadRegion width height ((loadRegions width height rs).take i) rs[i]) := by
  induction rs using List.reverseRecOn with
  | nil => cases within
  | append_singleton rs r ih =>
    have length := loadRegions_length width height rs
    rw [loadRegions_append]
    by_cases before : i < rs.length
    · rw [List.getElem?_append_left (by omega), ih before, List.take_append_of_le_length (by omega), List.getElem_append_left before]
    · have last : i = rs.length := by
        rw [List.length_append, List.length_singleton] at within
        omega
      subst last
      rw [List.getElem?_append_right (by omega), length, Nat.sub_self, List.take_append_of_le_length (by omega),
        List.take_of_length_le (by omega)]
      simp

/-- The eight regions that section 11.10 stores. -/
def storedRegions (bs : List Byte) : List Region := (List.range 8).map fun r => regionOfEntry (bs.drop (6 + 11 * r))

theorem storedRegions_length (bs : List Byte) : (storedRegions bs).length = 8 := by simp [storedRegions]

theorem byteAt_drop (bs : List Byte) (n i : Nat) : byteAt (bs.drop n) i = byteAt bs (n + i) := by
  simp [byteAt, List.getD_eq_getElem?_getD]

theorem halfAt_drop (bs : List Byte) (n i : Nat) : halfAt (bs.drop n) i = halfAt bs (n + i) := by
  rw [halfAt, halfAt, byteAt_drop, byteAt_drop, Nat.add_assoc]

theorem byteAt_image (m : List Host.Cell) {i : Nat} (within : i < 873) : byteAt (imageBytes m) i = cellRead 255 m (8 + i) :=
  byteAt_cellBlock m 8 within

theorem halfAt_image (m : List Host.Cell) {i : Nat} (within : i + 1 < 873) :
    halfAt (imageBytes m) i = half (cellRead 255 m (8 + i)) (cellRead 255 m (8 + i + 1)) := by
  rw [halfAt, byteAt_image m (by omega), byteAt_image m within]
  rfl

/-- R28: a region as the image leaves it, by the regions before it. -/
theorem loadImage_region (bs : List Byte) (i : Fin 8) :
    (loadImage bs).regions[i] = loadRegion (loadImage bs).width (loadImage bs).height
      ((loadRegions (loadImage bs).width (loadImage bs).height (storedRegions bs)).take i.val)
      (regionOfEntry (bs.drop (6 + 11 * i.val))) := by
  have there := loadRegions_at (loadImage bs).width (loadImage bs).height (storedRegions bs) (i := i.val)
    (by rw [storedRegions_length]; exact i.isLt)
  have stored : (storedRegions bs)[i.val]'(by rw [storedRegions_length]; exact i.isLt) = regionOfEntry (bs.drop (6 + 11 * i.val)) := by
    simp [storedRegions]
  rw [stored] at there
  have getD : (loadImage bs).regions[i] = (loadRegions (loadImage bs).width (loadImage bs).height (storedRegions bs)).getD i.val
      ⟨false, 0, 0, 0, 0, 0, true, true⟩ := Vector.getElem_ofFn _
  rw [getD, List.getD_eq_getElem?_getD, there, Option.getD_some]

/-- R28: the regions loaded before a region are those of lower numbers. -/
theorem loaded_before (bs : List Byte) (i : Fin 8) (p : Region → Prop) :
    (∀ b ∈ (loadRegions (loadImage bs).width (loadImage bs).height (storedRegions bs)).take i.val, p b) ↔
      ∀ j : Fin 8, j < i → p (loadImage bs).regions[j] := by
  have length := loadRegions_length (loadImage bs).width (loadImage bs).height (storedRegions bs)
  rw [storedRegions_length] at length
  have getD (j : Fin 8) : (loadImage bs).regions[j] =
      (loadRegions (loadImage bs).width (loadImage bs).height (storedRegions bs))[j.val]'(by omega) := by
    refine (Vector.getElem_ofFn _).trans ?_
    exact List.getD_eq_getElem _ _ _
  refine ⟨fun all j before => ?_, fun all b there => ?_⟩
  · rw [getD]
    exact all _ (List.mem_take_iff_getElem.2 ⟨j.val, by have : j.val < i.val := before; omega, rfl⟩)
  · obtain ⟨j, before, rfl⟩ := List.mem_take_iff_getElem.1 there
    have within : j < 8 := by omega
    exact getD ⟨j, within⟩ ▸ all ⟨j, within⟩ (show j < i.val by omega)

/-- R28: geometry and enabling of a loaded region. -/
theorem loadImage_region_enabled (bs : List Byte) (i : Fin 8) : (loadImage bs).regions[i].enabled = true ↔
    (byteAt bs (6 + 11 * i.val)).getLsbD 0 = true ∧
    16 ≤ (loadImage bs).regions[i].rw.toNat ∧ 16 ≤ (loadImage bs).regions[i].rh.toNat ∧
    (loadImage bs).regions[i].ox.toNat + (loadImage bs).regions[i].rw.toNat ≤ 16 * (loadImage bs).width ∧
    (loadImage bs).regions[i].oy.toNat + (loadImage bs).regions[i].rh.toNat ≤ 16 * (loadImage bs).height ∧
    ∀ j : Fin 8, j < i → (loadImage bs).regions[j].enabled = true →
      rectsOverlap (loadImage bs).regions[i].ox (loadImage bs).regions[i].oy (loadImage bs).regions[i].rw
        (loadImage bs).regions[i].rh (loadImage bs).regions[j].ox (loadImage bs).regions[j].oy (loadImage bs).regions[j].rw
        (loadImage bs).regions[j].rh = false := by
  have first : (regionOfEntry (bs.drop (6 + 11 * i.val))).enabled = (byteAt bs (6 + 11 * i.val)).getLsbD 0 := by
    show (byteAt (bs.drop (6 + 11 * i.val)) 0).getLsbD 0 = _
    rw [byteAt_drop, Nat.add_zero]
  have apart := loaded_before bs i fun b => b.enabled = true →
    rectsOverlap (regionOfEntry (bs.drop (6 + 11 * i.val))).ox (regionOfEntry (bs.drop (6 + 11 * i.val))).oy
      (regionOfEntry (bs.drop (6 + 11 * i.val))).rw (regionOfEntry (bs.drop (6 + 11 * i.val))).rh b.ox b.oy b.rw b.rh = false
  rw [loadImage_region bs i]
  simp only [loadRegion, Bool.and_eq_true, first, regionFits_iff, List.all_eq_true, Bool.not_eq_true', Bool.and_eq_false_imp]
  rw [apart, and_assoc, and_assoc, and_assoc, and_assoc]

/-- R144, R148: an entry of the image, NONE where no class allows it. -/
theorem keyEntryOf_loaded (cls value : Byte) : (keyEntryOf cls value).getD .none =
    if cls = 1 ∧ value ≠ 0 then .ordinary value
    else if cls = 2 ∧ value.toNat < 8 then .modifier (Fin.ofNat 8 value.toNat)
    else if cls = 3 ∧ value = 1 then .layer 1
    else if cls = 3 ∧ value = 2 then .layer 2
    else if cls = 4 ∧ value = 1 then .localAction .backlightUp
    else if cls = 4 ∧ value = 2 then .localAction .backlightDown
    else .none := by
  unfold keyEntryOf
  by_cases one : cls = 1
  · subst one
    grind
  by_cases two : cls = 2
  · subst two
    grind
  by_cases three : cls = 3
  · subst three
    grind
  by_cases four : cls = 4
  · subst four
    grind
  · grind

/-! ### The state that a power-on reset leaves -/

/-- R169: what a power-on reset loads. -/
def itemsOf (flash : List Host.Cell) : Loaded := if imageValid flash then loadImage (imageBytes flash) else Loaded.default

/-- R169: the pending set after the load. -/
def eventsOf (flash : List Host.Cell) : Vector EventSlot 6 :=
  if imageValid flash then Vector.replicate 6 EventSlot.clear
  else (Vector.replicate 6 EventSlot.clear).set 5 { EventSlot.clear with pending := true }

/-- The machine after a power-on reset, its first selection made (log 18). -/
def poweredOn (flash : List Host.Cell) (used : Bool) (x : Loaded) (events : Vector EventSlot 6) (free : Nat) (pending : List Instr) :
    State :=
  { powerOnState flash used x free pending with
    me.events := events
    pu.dirty := (List.replicate (x.width * x.height) true).set 0 false, pu.number := 1, pu.scan := 1
    pu.inFlight := some ⟨0, 1, 10000⟩, pu.port := some ⟨0, 1, List.replicate 256 x.undocked, 0⟩ }

/-- The counters of a Monitor right after reset count nothing. -/
theorem count_initial {s : State} (fresh : s.mn = Monitor.initial) (u : SubEvent) : count u s = s := by
  refine addWhere_none (fun n => ?_) 5 1
  have counter : s.mn.counters[n] = Counter.initial := by
    rw [fresh]
    exact Vector.getElem_replicate n.isLt
  rw [counter]
  simp [Counter.selects, Counter.initial]

theorem itemsOf_fits (flash : List Host.Cell) : loadedFits (itemsOf flash) := by
  unfold itemsOf
  split
  · exact loadImage_fits _
  · exact default_fits

theorem powerOn_eq (flash : List Host.Cell) (free : Nat) (pending : List Instr) :
    powerOn flash free pending = poweredOn flash (imageValid flash) (itemsOf flash) (eventsOf flash) free pending := by
  have select (s : State) (start : s = { powerOnState flash (imageValid flash) (itemsOf flash) free pending with
      me.events := eventsOf flash }) : selectBlock s =
        poweredOn flash (imageValid flash) (itemsOf flash) (eventsOf flash) free pending := by
    obtain ⟨wide, high, -⟩ := itemsOf_fits flash
    have blocks : 1 < (itemsOf flash).width * (itemsOf flash).height := by nlinarith
    generalize itemsOf flash = x at *
    have dirty : s.pu.dirty = List.replicate (x.width * x.height) true := by rw [start]; rfl
    have scan : s.pu.scan = 0 := by rw [start]; rfl
    have total : blockCount s = x.width * x.height := by rw [start]; rfl
    have holder : s.fs.holder = none := by rw [start]; rfl
    have first : isNext (blockCount s) s.pu.scan (fun k => s.pu.dirty.getD k false) 0 := by
      refine ⟨by omega, ?_, .inl ⟨by omega, fun j _ before => absurd before (Nat.not_lt_zero j)⟩⟩
      show s.pu.dirty.getD 0 false = true
      rw [dirty, List.getD_eq_getElem _ _ (by rw [List.length_replicate]; omega), List.getElem_replicate]
    have pixels : portPixels s 0 = List.replicate 256 x.undocked := by
      have uniform (a : Nat) : imageRead s.fs.image a = x.undocked := by
        rw [start]
        exact imageRead_uniform _ _
      rw [portPixels_free holder]
      simp only [uniform, List.map_const', List.length_range]
    rw [selectBlock_sends (by rw [start]; rfl) (by rw [start]; rfl) first, sendBlock,
      count_initial (by rw [start]; rfl), if_neg (by omega), pixels, holder, start]
    rfl
  unfold powerOn
  refine select _ ?_
  cases valid : imageValid flash with
  | true => simp only [itemsOf, eventsOf, valid, if_true]; rfl
  | false =>
    have enabled : eventEnabled .storeDefaulted (powerOnState flash false Loaded.default free pending) = true := by
      show Settings.default.enables.getLsbD 5 = true
      decide
    simp only [itemsOf, eventsOf, valid]
    exact (if_pos enabled).trans (count_initial rfl _)

section
variable (flash : List Host.Cell) (free : Nat) (pending : List Instr)

/-- The state that a power-on reset leaves, by the store it finds. -/
def afterPowerOn : State := poweredOn flash (imageValid flash) (itemsOf flash) (eventsOf flash) free pending

theorem streamOf_afterPowerOn (i : Fin 8) : streamOf i (afterPowerOn flash free pending) = ⟨.closed, none, 0, none, false, none⟩ :=
  Vector.getElem_replicate i.isLt

theorem dir_afterPowerOn (n : Fin 64) (w : Fin 4) :
    (afterPowerOn flash free pending).tc.dir[n][w] = ⟨false, 0, 0, w.val, false, false, 0⟩ := by
  have set : emptyDir[n] = emptySet := Vector.getElem_replicate n.isLt
  show emptyDir[n][w] = _
  rw [set]
  exact Vector.getElem_ofFn w.isLt

theorem keyAt_afterPowerOn (p : Fin 128) : keyAt p (afterPowerOn flash free pending) = ⟨false, 0, false, false⟩ :=
  Vector.getElem_replicate p.isLt

theorem counters_afterPowerOn (n : Fin 4) :
    (afterPowerOn flash free pending).mn.counters[n] = ⟨0, .occurrence, .tileLookup, 0, .anyStreamWaiting⟩ :=
  Vector.getElem_replicate n.isLt

/-- R169: STORE_DEFAULTED alone is pending, when the image is invalid. -/
theorem eventSlot_afterPowerOn (k : EventKind) : eventSlot k (afterPowerOn flash free pending) =
    ⟨k == .storeDefaulted && !imageValid flash, 0, false, 0⟩ := by
  show (eventsOf flash)[k.number] = _
  unfold eventsOf
  cases imageValid flash <;> cases k <;> rfl

/-- R125, R127: every block but block 0 is dirty. -/
theorem dirty_afterPowerOn (u : State) (t : u = afterPowerOn flash free pending) :
    u.pu.dirty.length = u.lu.width * u.lu.height ∧ u.pu.dirty.getD 0 true = false ∧
      ∀ i : Nat, 0 < i → i < u.lu.width * u.lu.height → u.pu.dirty.getD i false = true := by
  have dirty : u.pu.dirty = (List.replicate (u.lu.width * u.lu.height) true).set 0 false := by rw [t]; rfl
  obtain ⟨wide, high, -⟩ := itemsOf_fits flash
  have blocks : 0 < u.lu.width * u.lu.height := by
    rw [t]
    show 0 < (itemsOf flash).width * (itemsOf flash).height
    nlinarith
  rw [dirty]
  refine ⟨by simp, ?_, fun i positive within => ?_⟩
  · rw [List.getD_eq_getElem _ _ (by simpa using blocks), List.getElem_set_self]
  · rw [List.getD_eq_getElem _ _ (by simpa using within), List.getElem_set_ne (by omega), List.getElem_replicate]

theorem regions_fresh (i : Fin 8) :
    (regionOf i (afterPowerOn flash free pending)).changed = true ∧ (regionOf i (afterPowerOn flash free pending)).stale = true := by
  show (itemsOf flash).regions[i].changed = true ∧ (itemsOf flash).regions[i].stale = true
  unfold itemsOf
  split
  · rw [loadImage_region]
    exact ⟨rfl, rfl⟩
  · exact (show ∀ i : Fin 8, Loaded.default.regions[i].changed = true ∧ Loaded.default.regions[i].stale = true by decide) i

theorem settings_afterPowerOn : settingsLegal (afterPowerOn flash free pending).settings := by
  show settingsLegal (itemsOf flash).settings
  unfold itemsOf
  split
  · exact settingsOf_legal _ _ _ _ _ _ _ _
  · exact default_settingsLegal

/-- R28, R144, R160, R169: what a valid image gives. -/
theorem itemsOf_valid (valid : imageValid flash = true) : itemsOf flash = loadImage (imageBytes flash) := if_pos valid

theorem itemsOf_invalid (invalid : imageValid flash = false) : itemsOf flash = Loaded.default := if_neg (by rw [invalid]; decide)

end

section
variable {flash : List Host.Cell}

theorem image_scalars : (loadImage (imageBytes flash)).width = min 120 (max 20 (cellRead 255 flash 8).toNat) ∧
    (loadImage (imageBytes flash)).height = min 75 (max 12 (cellRead 255 flash 9).toNat) ∧
    (loadImage (imageBytes flash)).border = half (cellRead 255 flash 10) (cellRead 255 flash 11) ∧
    (loadImage (imageBytes flash)).undocked = half (cellRead 255 flash 12) (cellRead 255 flash 13) ∧
    (loadImage (imageBytes flash)).level = min (cellRead 255 flash 102).toNat 15 := by
  simp only [loadImage, byteAt_image _ (show 0 < 873 by omega), byteAt_image _ (show 1 < 873 by omega),
    byteAt_image _ (show 94 < 873 by omega), halfAt_image _ (show 2 + 1 < 873 by omega), halfAt_image _ (show 4 + 1 < 873 by omega)]
  exact ⟨rfl, rfl, trivial, trivial, rfl⟩

theorem image_region (i : Fin 8) {field : Nat → Half}
    (fields : ∀ a : Nat, field a = half (cellRead 255 flash a) (cellRead 255 flash (a + 1))) :
    (loadImage (imageBytes flash)).regions[i].ox = field (15 + 11 * i.val) ∧
      (loadImage (imageBytes flash)).regions[i].oy = field (17 + 11 * i.val) ∧
      (loadImage (imageBytes flash)).regions[i].rw = field (19 + 11 * i.val) ∧
      (loadImage (imageBytes flash)).regions[i].rh = field (21 + 11 * i.val) ∧
      (loadImage (imageBytes flash)).regions[i].background = field (23 + 11 * i.val) := by
  have at' (n k : Nat) (sum : 8 + (6 + 11 * i.val + k) = n) (within : k ≤ 9) :
      halfAt ((imageBytes flash).drop (6 + 11 * i.val)) k = field n := by
    rw [halfAt_drop, halfAt_image _ (by omega), fields, sum]
  rw [loadImage_region]
  exact ⟨at' _ 1 (by omega) (by omega), at' _ 3 (by omega) (by omega), at' _ 5 (by omega) (by omega),
    at' _ 7 (by omega) (by omega), at' _ 9 (by omega) (by omega)⟩

theorem image_keymap (i : Fin 384) : (loadImage (imageBytes flash)).keymap[i] =
    (keyEntryOf (cellRead 255 flash (103 + 2 * i.val)) (cellRead 255 flash (104 + 2 * i.val))).getD .none := by
  refine (Vector.getElem_ofFn i.isLt).trans ?_
  rw [byteAt_image _ (by omega), byteAt_image _ (by omega), show 8 + (95 + 2 * i.val) = 103 + 2 * i.val by omega,
    show 8 + (96 + 2 * i.val) = 104 + 2 * i.val by omega]

theorem image_settings : (loadImage (imageBytes flash)).settings =
    settingsOf (cellRead 255 flash 871) (cellRead 255 flash 872) (half (cellRead 255 flash 873) (cellRead 255 flash 874))
      (cellRead 255 flash 875) (cellRead 255 flash 876) (cellRead 255 flash 877) (cellRead 255 flash 878) (cellRead 255 flash 879) := by
  have at' {k : Nat} (within : k ≤ 9) : byteAt ((imageBytes flash).drop 863) k = cellRead 255 flash (871 + k) := by
    rw [byteAt_drop, byteAt_image _ (by omega)]
    congr 1
    omega
  show settingsOfEntry ((imageBytes flash).drop 863) = _
  rw [settingsOfEntry, halfAt, at' (by omega), at' (by omega), at' (by omega), at' (by omega), at' (by omega), at' (by omega),
    at' (by omega), at' (by omega), at' (by omega)]

end

/-- R169: the defaults. -/
theorem defaults {x : Loaded} (items : x = Loaded.default) : x.width = 80 ∧ x.height = 50 ∧ x.border = 0 ∧ x.undocked = 10565 ∧
    x.level = 8 ∧ x.settings = ⟨4, 150, 1000, 4, 40, 3, 6, 0x3F⟩ ∧ x.keymap = State.reset.ks.keymap ∧
    x.regions[(0 : Fin 8)] = ⟨true, 0, 0, 1280, 800, 0, true, true⟩ ∧
    ∀ i : Fin 8, i ≠ 0 → x.regions[i] = ⟨false, 0, 0, 0, 0, 0, true, true⟩ := by
  subst items
  refine ⟨rfl, rfl, rfl, rfl, rfl, rfl, rfl, by decide, by decide⟩

/-- Settles O4: the state after the reset is written out by the store it finds, and each item of the image is read from its
bytes. -/
theorem powerOnResetRestoresEveryBlock : Obligations.PowerOnResetRestoresEveryBlock := by
  unfold Obligations.PowerOnResetRestoresEveryBlock
  refine ⟨imageValid_iff, fun s => ⟨afterPowerOn (cutFlash s) (s.free + 1) s.pending, congrArg _ (powerOn_eq _ _ _), rfl, ?_⟩⟩
  refine ⟨⟨rfl, rfl, rfl, rfl, rfl, rfl, rfl, rfl, rfl, rfl, rfl, rfl, rfl, rfl, rfl, rfl, rfl, rfl, rfl⟩,
    streamOf_afterPowerOn _ _ _, rfl, rfl, rfl, rfl, rfl, dir_afterPowerOn _ _ _, rfl, rfl, imageRead_uniform _, rfl, rfl, rfl,
    regions_fresh _ _ _, rfl, rfl, rfl, ⟨rfl, rfl, rfl, rfl⟩, dirty_afterPowerOn _ _ _ _ rfl, rfl, rfl, rfl,
    keyAt_afterPowerOn _ _ _, rfl, rfl, rfl, rfl, rfl, eventSlot_afterPowerOn _ _ _, counters_afterPowerOn _ _ _, rfl,
    fun invalid => ?_, fun valid => ?_, fun valid field fields => ?_, settings_afterPowerOn _ _ _, fun r current =>
      ⟨fun page op => cutFlash_erase current op, fun offset data op => cutFlash_program current op, cutFlash_other current⟩,
    cutFlash_idle⟩
  · exact defaults (itemsOf_invalid _ invalid)
  · have scalars := image_scalars (flash := cutFlash s)
    rw [← itemsOf_valid (cutFlash s) valid] at scalars
    exact scalars
  · refine ⟨fun i => ?_, fun i cls value first second => ?_, fun byte bytes => ?_⟩
    · have geometry := image_region (flash := cutFlash s) i fields
      have enabled := loadImage_region_enabled (imageBytes (cutFlash s)) i
      rw [byteAt_image _ (by omega), show 8 + (6 + 11 * i.val) = 14 + 11 * i.val by omega] at enabled
      rw [← itemsOf_valid (cutFlash s) valid] at geometry enabled
      obtain ⟨ox, oy, rw, rh, background⟩ := geometry
      exact ⟨ox, oy, rw, rh, background, enabled⟩
    · have entry := image_keymap (flash := cutFlash s) i
      rw [← itemsOf_valid (cutFlash s) valid, keyEntryOf_loaded] at entry
      subst first second
      exact entry
    · have settings := image_settings (flash := cutFlash s)
      rw [← itemsOf_valid (cutFlash s) valid, settingsOf_eq] at settings
      simp only [bytes, fields]
      exact settings

end Sys2Proof.Machine
end

section
/-! PROOFS. What a scan counts and raises (R134, R141, R147, R151). -/

namespace Sys2Proof.Machine

/-! ### The backlight over the actions of a scan (R134, R147) -/

theorem levelChanges_append (level : Nat) (as bs : List LocalAction) :
    levelChanges level (as ++ bs) = levelChanges level as + levelChanges (as.foldl levelAfter level) bs := by
  induction as generalizing level with
  | nil => simp [levelChanges]
  | cons a as ih => rw [List.cons_append, levelChanges, levelChanges, ih, List.foldl_cons, Nat.add_assoc]

/-- Actions that never change the level leave it where it was. -/
theorem level_unchanged {level : Nat} {acts : List LocalAction} (none : levelChanges level acts = 0) :
    acts.foldl levelAfter level = level := by
  induction acts with
  | nil => rfl
  | cons a acts ih =>
    rw [levelChanges] at none
    split at none
    · next same =>
      rw [same] at none
      rw [List.foldl_cons, same, ih (by omega)]
    · omega

theorem localLevel_eq (a : LocalAction) (level : Nat) : localLevel a level = levelAfter level a := by cases a <;> rfl

/-- The level and the BACKLIGHT event after the actions. -/
def lit (acts : List LocalAction) (u : State) : State :=
  if levelChanges u.pu.level acts = 0 then u
  else raised .backlight (BitVec.ofNat 24 (acts.foldl levelAfter u.pu.level)) { u with pu.level := acts.foldl levelAfter u.pu.level }

/-- What the actions count. -/
def litCounts (acts : List LocalAction) (u : State) : List SubEvent :=
  List.replicate acts.length .localAction ++ List.replicate (levelChanges u.pu.level acts) .backlightChange ++
    (List.replicate (levelChanges u.pu.level acts) (raiseCounts .backlight u)).flatten

@[simp] theorem lit_none (u : State) : lit [] u = u := rfl

@[simp] theorem litCounts_none (u : State) : litCounts [] u = [] := rfl

theorem lit_rest (acts : List LocalAction) (u : State) :
    lit acts u = { u with pu.level := acts.foldl levelAfter u.pu.level, me.events := (lit acts u).me.events } := by
  unfold lit
  split
  · next none => rw [level_unchanged none]
  · conv_lhs => rw [raised_rest]

@[simp] theorem lit_level (acts : List LocalAction) (u : State) : (lit acts u).pu.level = acts.foldl levelAfter u.pu.level := by
  rw [lit_rest]

@[simp] theorem lit_settings (acts : List LocalAction) (u : State) : (lit acts u).settings = u.settings := by rw [lit_rest]

@[simp] theorem lit_lc (acts : List LocalAction) (u : State) : (lit acts u).lc = u.lc := by rw [lit_rest]

@[simp] theorem lit_mn (acts : List LocalAction) (u : State) : (lit acts u).mn = u.mn := by rw [lit_rest]

/-- The last raise of BACKLIGHT has the last word. -/
theorem raised_again (d e : BitVec 24) (n : Nat) (u : State) :
    raised .backlight e { raised .backlight d u with pu.level := n } = raised .backlight e { u with pu.level := n } := by
  have slot (own : Bool) (x : EventSlot) : slotRaised .backlight e own (slotRaised .backlight d own x) = slotRaised .backlight e own x := by
    cases own <;> simp [slotRaised]
  by_cases enabled : u.settings.enables.getLsbD EventKind.backlight.number.val = true
  · have taken (c : BitVec 24) (v : State) (same : v.settings = u.settings) : raised .backlight c v =
        setEventSlot .backlight (slotRaised .backlight c (v.lc.tx.any fun x => x.item == .event .backlight) (eventSlot .backlight v)) v :=
      if_pos (by rw [same]; exact enabled)
    have taken' (v : State) (same : v.settings = u.settings) : raised .backlight e { v with pu.level := n } =
        setEventSlot .backlight (slotRaised .backlight e (v.lc.tx.any fun x => x.item == .event .backlight) (eventSlot .backlight v))
          { v with pu.level := n } :=
      taken e _ same
    have inner := taken d u rfl
    generalize raised .backlight d u = v at inner ⊢
    rw [taken' v (by rw [inner]; rfl), taken' u rfl, inner]
    simp only [setEventSlot, eventSlot, Vector.set_set]
    rw [show ∀ (xs : Vector EventSlot 6) (y : EventSlot), (xs.set EventKind.backlight.number y)[EventKind.backlight.number] = y from
      fun xs y => Vector.getElem_set_self _, slot]
  · have dropped (c : BitVec 24) (v : State) (same : v.settings = u.settings) : raised .backlight c v = v :=
      if_neg (by rw [same]; exact enabled)
    rw [dropped d u rfl]

theorem lit_append (as bs : List LocalAction) (u : State) : lit (as ++ bs) u = lit bs (lit as u) := by
  have sum := levelChanges_append u.pu.level as bs
  by_cases first : levelChanges u.pu.level as = 0
  · have same := level_unchanged first
    rw [same] at sum
    rw [show lit as u = u from if_pos first, lit, lit, sum, first, Nat.zero_add, List.foldl_append, same]
  · by_cases second : levelChanges (as.foldl levelAfter u.pu.level) bs = 0
    · rw [lit, if_neg (by omega), List.foldl_append, level_unchanged second,
        show lit bs (lit as u) = lit as u from if_pos (by rw [lit_level]; exact second)]
      exact (if_neg first).symm
    · rw [lit, if_neg (by omega), List.foldl_append,
        show lit bs (lit as u) = _ from if_neg (by rw [lit_level]; exact second), lit_level,
        show lit as u = _ from if_neg first, raised_again]

theorem lit_ks (acts : List LocalAction) (k : KeyScanner) (u : State) : lit acts { u with ks := k } = { lit acts u with ks := k } := by
  unfold lit raised
  dsimp only
  split_ifs <;> rfl

theorem litCounts_append (as bs : List LocalAction) (u : State) :
    (litCounts as u ++ litCounts bs (lit as u)).Perm (litCounts (as ++ bs) u) := by
  have counts : raiseCounts .backlight (lit as u) = raiseCounts .backlight u := by rw [raiseCounts, lit_settings]; rfl
  unfold litCounts
  rw [counts, lit_level, levelChanges_append, List.length_append, List.replicate_add, List.replicate_add, List.replicate_add,
    List.flatten_append]
  refine List.perm_iff_count.2 fun x => ?_
  simp only [List.count_append]
  omega

/-! ### What each step of a scan counts (R141, R143, R147) -/

/-- From v to w a scan counts us and carries out the actions acts, and changes the Key Scanner else. -/
def Scans (v w : State) (us : List SubEvent) (acts : List LocalAction) : Prop :=
  w.lc.tx = v.lc.tx ∧ ∀ u cs, endsAs u cs v → v.lc.tx = u.lc.tx →
    endsAs { lit acts u with ks := w.ks } (cs ++ us ++ litCounts acts u) w

theorem Scans.trans {v w x : State} {us us' : List SubEvent} {as as' : List LocalAction} (h : Scans v w us as)
    (g : Scans w x us' as') : Scans v x (us ++ us') (as ++ as') := by
  refine ⟨g.1.trans h.1, fun u cs ends lane => ?_⟩
  have first := h.2 u cs ends lane
  have second := g.2 _ _ first (by rw [h.1, lane]; show _ = (lit as u).lc.tx; rw [lit_lc])
  rw [lit_ks] at second
  rw [lit_append]
  refine second.perm ?_
  have same : litCounts as' { lit as u with ks := w.ks } = litCounts as' (lit as u) := rfl
  rw [same]
  have sum := List.perm_iff_count.1 (litCounts_append as as' u)
  refine List.perm_iff_count.2 fun a => ?_
  have sum := sum a
  simp only [List.count_append] at sum ⊢
  omega

theorem Scans.perm {v w : State} {us us' : List SubEvent} {as : List LocalAction} (h : Scans v w us as) (same : us.Perm us') :
    Scans v w us' as :=
  ⟨h.1, fun u cs ends lane => (h.2 u cs ends lane).perm ((same.append_left cs).append_right _)⟩

theorem Scans.refl (v : State) : Scans v v [] [] := by
  refine ⟨rfl, fun u cs ends _ => ?_⟩
  have same : v.ks = u.ks := by rw [ends.1]
  rw [lit_none, litCounts_none, List.append_nil, List.append_nil, same]
  exact ends

theorem ks_scans (k : KeyScanner) (v : State) : Scans v { v with ks := k } [] [] := by
  refine ⟨rfl, fun u cs ends _ => ?_⟩
  rw [lit_none, litCounts_none, List.append_nil, List.append_nil]
  exact ends.ks fun _ => k

theorem countN_scans (x : SubEvent) (n : Nat) (v : State) : Scans v (countN x n v) (List.replicate n x) [] := by
  refine ⟨by rw [(countN_counted x n v).same_lc], fun u cs ends _ => ?_⟩
  have same : (countN x n v).ks = u.ks := by rw [(countN_counted x n v).same_ks, ends.1]
  rw [lit_none, litCounts_none, List.append_nil, same]
  exact ends.countN x n

theorem count_scans (x : SubEvent) (v : State) : Scans v (count x v) [x] [] := countN_scans x 1 v

/-- R147: a LOCAL action acts on the level and is counted. -/
theorem actLocal_scans (e : KeyEntry) (n : Nat) (l : Fin 3) (v : State) : Scans v (actLocal e v) [] (actionsOf [⟨n, e, l⟩]) := by
  cases e with
  | localAction a =>
    refine ⟨?_, fun u cs ends lane => ?_⟩
    · show (applyLevel _ (count .localAction v)).lc.tx = _
      rw [applyLevel_lc, count_lc]
    have ks : (actLocal (.localAction a) v).ks = u.ks := by rw [actLocal_ks, ends.1]
    have level : v.pu.level = u.pu.level := by rw [ends.1]
    have level' : (count .localAction v).pu.level = u.pu.level := by rw [count_pu, level]
    have held : (lit [a] u).ks = u.ks := by rw [lit_rest]
    have same : ({ lit [a] u with ks := (actLocal (.localAction a) v).ks } : State) = lit [a] u := by rw [ks, ← held]
    show endsAs { lit [a] u with ks := (actLocal (.localAction a) v).ks } (cs ++ [] ++ litCounts [a] u) (actLocal (.localAction a) v)
    rw [same, actLocal, localLevel_eq, level, applyLevel, level']
    by_cases stays : levelAfter u.pu.level a = u.pu.level
    · have none : levelChanges u.pu.level [a] = 0 := by simp [levelChanges, stays]
      rw [if_pos stays, lit, if_pos none, litCounts, none]
      exact (ends.count .localAction).perm (by simp)
    · have one : levelChanges u.pu.level [a] = 1 := by simp [levelChanges, stays]
      rw [if_neg stays, lit, if_neg (by omega), litCounts, one]
      have moved := (ends.count .localAction).pu fun pu => { pu with level := levelAfter u.pu.level a }
      refine ((moved.count .backlightChange).raise .backlight (BitVec.ofNat 24 (levelAfter u.pu.level a)) (by decide) ?_).perm ?_
      · rw [count_lc]
        show (count .localAction v).lc.tx = u.lc.tx
        rw [count_lc, lane]
      · simp [raiseCounts]
  | _ => exact Scans.refl v

theorem actionsOf_append (xs ys : List Latched) : actionsOf (xs ++ ys) = actionsOf xs ++ actionsOf ys := List.filterMap_append

theorem actionsOf_cons (r : Latched) (rs : List Latched) : actionsOf (r :: rs) = actionsOf [r] ++ actionsOf rs :=
  actionsOf_append [r] rs

/-- R145, R147: a resolution latches its record and carries out its action. -/
theorem resolveKey_scans (p : Pos) (v : State) :
    Scans v (resolveKey p v) [] (actionsOf [latchIn v.ks.keymap v.ks.latched p]) := by
  have latched := ks_scans { v.ks with latched := v.ks.latched ++ [latchFor p v] } v
  refine Eq.mp ?_ (latched.trans (actLocal_scans (latchFor p v).entry (latchFor p v).pos (latchFor p v).layer _))
  rw [latchFor_eq]
  rfl

theorem setKey_scans (p : Pos) (k : KeyPosition) (v : State) : Scans v (setKey p k v) [] [] := ks_scans _ v

/-- R141, R146: each release is counted. -/
theorem releaseKey_scans (v : State) (p : Pos) : Scans v (releaseKey v p) [.releaseAccepted] [] :=
  (ks_scans _ v).trans (count_scans _ _)

theorem releaseAll_scans (l : List Pos) (v : State) :
    Scans v (l.foldl releaseKey v) (List.replicate l.length .releaseAccepted) [] := by
  induction l generalizing v with
  | nil => exact Scans.refl v
  | cons p l ih => exact (releaseKey_scans v p).trans (ih _)

/-- R143: the withheld positions that another release frees are counted and resolved in turn. -/
theorem reevaluateAll_scans {l : List Pos} (distinct : l.Nodup) (v : State) :
    Scans v (l.foldl reevaluateKey v) (List.replicate (freed v l).length .ghostResolved)
      (actionsOf (latchAll v.ks.keymap v.ks.latched (freed v l))) := by
  induction l generalizing v with
  | nil => exact Scans.refl v
  | cons p l ih =>
    obtain ⟨once, distinct⟩ := List.nodup_cons.1 distinct
    have next := ih distinct (reevaluateKey v p)
    rw [freed_reevaluateKey once, reevaluateKey_ks] at next
    rw [List.foldl_cons]
    by_cases free : ((keyAt p v).withheld && !isPhantom p v) = true
    · have first : freed v (p :: l) = p :: freed v l := List.filter_cons_of_pos free
      rw [if_pos free] at next
      rw [first]
      have resolved : Scans v (reevaluateKey v p) [.ghostResolved] (actionsOf [latchIn v.ks.keymap v.ks.latched p]) := by
        rw [reevaluateKey, if_pos free]
        have chain := ((setKey_scans p { keyAt p v with withheld := false } v).trans (count_scans .ghostResolved _)).trans
          (resolveKey_scans p _)
        rw [count_ks] at chain
        exact chain
      have chain := resolved.trans next
      rw [latchAll, actionsOf_cons, List.length_cons, List.replicate_succ]
      exact chain
    · have first : freed v (p :: l) = freed v l := List.filter_cons_of_neg free
      rw [if_neg free] at next
      rw [first]
      have same : reevaluateKey v p = v := if_neg free
      rw [same] at next ⊢
      exact next

/-- R141, R142, R145: each press is counted, and withheld or resolved. -/
theorem pressKey_scans (v : State) (p : Pos) : Scans v (pressKey v p) (.pressAccepted :: if isPhantom p v then [.ghostWithheld] else [])
    (actionsOf (if isPhantom p v then [] else [latchIn v.ks.keymap v.ks.latched p])) := by
  have counted := (setKey_scans p { keyAt p v with pressed := true, withheld := isPhantom p v } v).trans (count_scans .pressAccepted _)
  rw [pressKey]
  by_cases phantom : isPhantom p v = true
  · simp only [phantom, if_true] at counted ⊢
    exact counted.trans (count_scans _ _)
  · have chain := counted.trans (resolveKey_scans p _)
    rw [count_ks] at chain
    simp only [phantom] at chain ⊢
    exact chain

theorem pressAll_scans {l : List Pos} (ascending : l.Pairwise (· < ·)) (v : State) :
    Scans v (l.foldl pressKey v)
      (List.replicate l.length .pressAccepted ++ List.replicate (l.filter (ghosts v l)).length .ghostWithheld)
      (actionsOf (latchAll v.ks.keymap v.ks.latched (l.filter fun p => !ghosts v l p))) := by
  induction l generalizing v with
  | nil => exact Scans.refl v
  | cons p l ih =>
    obtain ⟨above, rest⟩ := List.pairwise_cons.1 ascending
    have later : ∀ q ∈ l, ghosts (pressKey v p) l q = ghosts v (p :: l) q := fun q there => ghosts_pressKey above there
    have next := ih rest (pressKey v p)
    rw [List.filter_congr later, List.filter_congr fun q there => congrArg (! ·) (later q there), pressKey_ks] at next
    have chain := (pressKey_scans v p).trans next
    have head := ghosts_head (s := v) above
    rw [List.foldl_cons]
    by_cases phantom : isPhantom p v = true
    · rw [phantom] at head
      simp only [phantom, if_true, List.append_nil] at chain
      rw [List.filter_cons_of_pos (by exact head), List.filter_cons_of_neg (by simp [head])]
      refine chain.perm (List.perm_iff_count.2 fun x => ?_)
      simp only [List.length_cons, List.replicate_succ, List.cons_append, List.nil_append, List.count_append, List.count_cons]
      omega
    · rw [Bool.not_eq_true] at phantom
      rw [phantom] at head
      simp only [phantom] at chain
      rw [List.filter_cons_of_neg (by simp [head]), List.filter_cons_of_pos (by simp [head]), latchAll, actionsOf_cons]
      exact chain.perm (List.Perm.refl _)

end Sys2Proof.Machine
end

section
/-! PROOFS. A scan from its reading to its report (R138 to R151): the settlement of O50. -/

namespace Sys2Proof.Machine

/-! ### The keys that a scan changes (R141) -/

/-- The records that stay when the releases are done. -/
def stays (s : State) : List Latched := s.ks.latched.filter fun r => (releasedKeys s).all fun p => r.pos != p.val

/-- The withheld positions that the releases free. -/
def freedKeys (s : State) : List Pos :=
  if (releasedKeys s).isEmpty then [] else freed ((releasedKeys s).foldl releaseKey s) (List.finRange 128)

/-- The presses that are withheld. -/
def ghostKeys (s : State) : List Pos := (pressedKeys s).filter (ghosts (afterReleases s) (pressedKeys s))

/-- The presses that are resolved. -/
def clearKeys (s : State) : List Pos := (pressedKeys s).filter fun p => !ghosts (afterReleases s) (pressedKeys s) p

/-- The records that a scan adds. -/
def added (s : State) : List Latched := latchAll s.ks.keymap (stays s) (freedKeys s ++ clearKeys s)

theorem releaseAll_keymap (l : List Pos) (s : State) : (l.foldl releaseKey s).ks.keymap = s.ks.keymap := by
  induction l generalizing s with
  | nil => rfl
  | cons p l ih => rw [List.foldl_cons, ih, releaseKey_ks]

theorem releaseAll_stays (s : State) : ((releasedKeys s).foldl releaseKey s).ks.latched = stays s := latched_releaseAll _ _

theorem afterReleases_ks (s : State) : (afterReleases s).ks.keymap = s.ks.keymap ∧
    (afterReleases s).ks.latched = stays s ++ latchAll s.ks.keymap (stays s) (freedKeys s) := by
  unfold afterReleases freedKeys
  split
  · exact ⟨releaseAll_keymap _ s, by rw [releaseAll_stays, latchAll, List.append_nil]⟩
  · have ks := reevaluateAll_ks (List.nodup_finRange 128) ((releasedKeys s).foldl releaseKey s)
    rw [releaseAll_stays, releaseAll_keymap] at ks
    exact ⟨by rw [ks, releaseAll_keymap], by rw [ks]⟩

theorem changeKeys_latched (s : State) : (changeKeys s).ks.latched = stays s ++ added s := by
  obtain ⟨keymap, latched⟩ := afterReleases_ks s
  rw [changeKeys_eq, pressAll_ks (pressedKeys_ascending s)]
  show (afterReleases s).ks.latched ++ latchAll (afterReleases s).ks.keymap (afterReleases s).ks.latched (clearKeys s) = _
  rw [keymap, latched, List.append_assoc, added, latchAll_append]

/-- Two states of the Key Scanner that differ in positions and latched keys alone. -/
def sameBoard (k l : KeyScanner) : Prop := l = { k with positions := l.positions, latched := l.latched }

theorem sameBoard.trans {k l m : KeyScanner} (h : sameBoard k l) (g : sameBoard l m) : sameBoard k m := by
  unfold sameBoard at *
  rw [g, h]

theorem foldl_sameBoard {f : State → Pos → State} (each : ∀ s p, sameBoard s.ks (f s p).ks) (l : List Pos) (s : State) :
    sameBoard s.ks (l.foldl f s).ks := by
  induction l generalizing s with
  | nil => rfl
  | cons p l ih => exact (each s p).trans (ih _)

theorem changeKeys_rest (s : State) : sameBoard s.ks (changeKeys s).ks := by
  have releases := foldl_sameBoard (f := releaseKey) (fun s p => by rw [releaseKey_ks]; rfl) (releasedKeys s) s
  have after : sameBoard s.ks (afterReleases s).ks := by
    unfold afterReleases
    split
    · exact releases
    · exact releases.trans (foldl_sameBoard (fun s p => by rw [reevaluateKey_ks]; split <;> rfl) _ _)
  exact after.trans (foldl_sameBoard (f := pressKey) (fun s p => by rw [pressKey_ks]; rfl) _ _)

/-- R141, R143, R147: what the three steps count and act. -/
theorem changeKeys_scans (s : State) : Scans s (changeKeys s)
    (List.replicate (releasedKeys s).length .releaseAccepted ++ List.replicate (freedKeys s).length .ghostResolved ++
      (List.replicate (pressedKeys s).length .pressAccepted ++ List.replicate (ghostKeys s).length .ghostWithheld))
    (actionsOf (added s)) := by
  obtain ⟨keymap, latched⟩ := afterReleases_ks s
  have released : Scans s (afterReleases s)
      (List.replicate (releasedKeys s).length .releaseAccepted ++ List.replicate (freedKeys s).length .ghostResolved)
      (actionsOf (latchAll s.ks.keymap (stays s) (freedKeys s))) := by
    have first := releaseAll_scans (releasedKeys s) s
    unfold afterReleases freedKeys
    split
    · rw [List.length_nil, List.replicate_zero, List.append_nil]
      exact first
    · have second := first.trans (reevaluateAll_scans (List.nodup_finRange 128) ((releasedKeys s).foldl releaseKey s))
      rw [releaseAll_stays, releaseAll_keymap] at second
      exact second
  have pressed := released.trans (pressAll_scans (pressedKeys_ascending s) (afterReleases s))
  rw [keymap, latched, ← actionsOf_append, ← latchAll_append] at pressed
  exact pressed

/-! ### What a scan leaves at a position (R139, R142, R143) -/

theorem changeKeys_pressed (s : State) (p : Pos) : (keyAt p (changeKeys s)).pressed =
    if (keyAt p s).pressed then (keyAt p s).count != 0 else (keyAt p s).count == s.settings.depth := by
  rw [changeKeys_eq, keyAt_pressAll (pressedKeys_ascending s)]
  by_cases new : p ∈ pressedKeys s
  · obtain ⟨released, full⟩ := mem_pressedKeys.1 new
    simp [new, released, full]
  · rw [if_neg new, afterReleases_pressed]
    rw [mem_pressedKeys] at new
    by_cases pressed : (keyAt p s).pressed = true
    · simp [pressed]
    · rw [Bool.not_eq_true] at pressed
      simp [pressed] at new ⊢
      exact new

theorem changeKeys_withheld (s : State) (p : Pos) : (keyAt p (changeKeys s)).withheld =
    if p ∈ pressedKeys s then ghosts (afterReleases s) (pressedKeys s) p
    else if p ∈ releasedKeys s ∨ p ∈ freedKeys s then false else (keyAt p s).withheld := by
  rw [changeKeys_eq, keyAt_pressAll (pressedKeys_ascending s)]
  by_cases new : p ∈ pressedKeys s
  · simp [new]
  · rw [if_neg new, if_neg new]
    have released : (keyAt p ((releasedKeys s).foldl releaseKey s)).withheld =
        if p ∈ releasedKeys s then false else (keyAt p s).withheld := by
      rw [keyAt_releaseAll]
      split <;> rfl
    unfold afterReleases freedKeys
    split
    · rw [released]
      simp
    · rw [keyAt_reevaluateAll (List.nodup_finRange 128)]
      by_cases free : p ∈ freed ((releasedKeys s).foldl releaseKey s) (List.finRange 128)
      · simp [free]
      · rw [if_neg free, released]
        simp [free]

theorem changeKeys_raw (s : State) (p : Pos) : (keyAt p (changeKeys s)).raw = (keyAt p s).raw := by
  have released : (keyAt p ((releasedKeys s).foldl releaseKey s)).raw = (keyAt p s).raw := by
    rw [keyAt_releaseAll]
    split <;> rfl
  have after : (keyAt p (afterReleases s)).raw = (keyAt p s).raw := by
    unfold afterReleases
    split
    · exact released
    · rw [keyAt_reevaluateAll (List.nodup_finRange 128)]
      split
      · exact released
      · exact released
  rw [changeKeys_eq, keyAt_pressAll (pressedKeys_ascending s), ← after]
  split <;> rfl

/-! ### The phantom condition (R142) -/

theorem phantomIn_iff (pressed : Pos → Bool) (p : Pos) : phantomIn pressed p = true ↔ meetsPhantom pressed p := by
  have place (d : Fin 8) (n : Fin 16) : (posOf d n).val = d.val * 16 + n.val := Nat.mod_eq_of_lt (by omega)
  have drive : (Fin.ofNat 8 (p.val / 16)).val = p.val / 16 := Nat.mod_eq_of_lt (by omega)
  have sense : (Fin.ofNat 16 p.val).val = p.val % 16 := rfl
  have spot (q : Fin 128) (d : Fin 8) (n : Fin 16) (drive : d.val = q.val / 16) (sense : n.val = q.val % 16) : posOf d n = q :=
    Fin.ext (by rw [place]; omega)
  unfold phantomIn
  simp only [List.any_eq_true, List.mem_finRange, true_and, Bool.and_eq_true, bne_iff_ne, ne_eq, Fin.ext_iff, drive, sense]
  refine ⟨?_, ?_⟩
  · rintro ⟨d, ⟨otherDrive, first⟩, n, ⟨otherSense, third⟩, second⟩
    refine ⟨_, _, _, first, second, third, ?_⟩
    rw [place, place, place, drive, sense]
    omega
  · rintro ⟨a, b, c, first, second, third, otherDrive, sameSense, sameDrive, otherSense, driveC, senseC⟩
    refine ⟨⟨a.val / 16, by omega⟩, ⟨otherDrive, ?_⟩, ⟨b.val % 16, by omega⟩, ⟨otherSense, ?_⟩, ?_⟩
    · rw [spot a _ _ rfl (by omega)]
      exact first
    · rw [spot c _ _ (by omega) (by show b.val % 16 = _; omega)]
      exact third
    · rw [spot b _ _ (by show a.val / 16 = _; omega) rfl]
      exact second

/-! ### The report (R149 to R151) -/

/-- R151: the KEYS queue after a scan that leaves the report. -/
def keysAfter (report : Report) (u : State) : List Report :=
  if report = u.ks.report ∨ u.lc.attachment = .unattached then u.lc.keys else keysWith report u.lc.keys

/-- What the report of a scan counts. -/
def reportCounts (report : Report) (u : State) : List SubEvent :=
  if report = u.ks.report then []
  else .reportBuilt :: if u.lc.attachment = .unattached then []
    else if u.lc.keys.length < 8 then [.reportQueued] else [.reportCoalesced]

theorem buildReport_ends {u v : State} {cs : List SubEvent} (ends : endsAs u cs v) :
    endsAs { u with ks.report := reportedState u.ks.latched, lc.keys := keysAfter (reportedState u.ks.latched) u }
      (cs ++ reportCounts (reportedState u.ks.latched) u) (buildReport v) := by
  have ks : v.ks = u.ks := by rw [ends.1]
  rw [buildReport, ks]
  generalize reportedState u.ks.latched = report
  unfold keysAfter reportCounts
  by_cases same : report = u.ks.report
  · subst same
    rw [if_pos rfl, if_pos (.inl rfl), if_pos rfl, List.append_nil]
    exact ends
  · rw [if_neg same, if_neg same]
    have built := (ends.ks fun ks => { ks with report := report }).count .reportBuilt
    rw [ks] at built
    generalize count .reportBuilt { v with ks := { u.ks with report := report } } = w at built ⊢
    have attachment : w.lc.attachment = u.lc.attachment := by rw [built.1]
    have keys : w.lc.keys = u.lc.keys := by rw [built.1]
    rw [queueReport, attachment, keys]
    by_cases away : u.lc.attachment = .unattached
    · rw [if_pos away, if_pos (.inr away), if_pos away]
      exact built
    · rw [if_neg away, if_neg (not_or.2 ⟨same, away⟩), if_neg away, keysWith]
      by_cases room : u.lc.keys.length < 8
      · rw [if_pos room, if_pos room, if_pos (show u.lc.keys.length < Config.keysDepth from room)]
        exact ((built.lc fun lc => { lc with keys := u.lc.keys ++ [report] }).count .reportQueued).perm (by simp)
      · rw [if_neg room, if_neg room, if_neg (show ¬ u.lc.keys.length < Config.keysDepth from room)]
        exact ((built.lc fun lc => { lc with keys := u.lc.keys.dropLast ++ [report] }).count .reportCoalesced).perm (by simp)

/-! ### The whole scan (R138) -/

theorem mapKeys_board (f : Pos → KeyPosition → KeyPosition) (s : State) :
    sameBoard s.ks (mapKeys f s).ks ∧ mapKeys f s = { s with ks := (mapKeys f s).ks } := by
  unfold mapKeys
  generalize (Vector.ofFn fun p => f p s.ks.positions[p]) = positions
  exact ⟨rfl, rfl⟩

theorem readMatrix_scans (contacts : BitVec 128) (s : State) : Scans s (readMatrix contacts s) [] [] := by
  unfold readMatrix
  have board := (mapKeys_board (fun p k => readKey s.settings.depth (contacts.getLsbD p.val) k) s).2
  generalize mapKeys (fun p k => readKey s.settings.depth (contacts.getLsbD p.val) k) s = v at board ⊢
  rw [board]
  exact ks_scans _ s

theorem Scans.reads {s v : State} (read : Scans s v [] []) (n : Nat) :
    Scans s (countN .chatter n (count .scan v)) (.scan :: List.replicate n .chatter) [] :=
  (read.trans (count_scans .scan v)).trans (countN_scans .chatter n _)

theorem counted_scans (contacts : BitVec 128) (s : State) :
    Scans s (counted contacts s) (.scan :: List.replicate (noisyKeys contacts s) .chatter) [] :=
  (readMatrix_scans contacts s).reads (noisyKeys contacts s)

/-- R149 to R151: the report at the end of a scan. -/
theorem Scans.reported {s w v : State} {us : List SubEvent} {acts : List LocalAction} (h : Scans s w us acts)
    (board : sameBoard s.ks w.ks) {timer n : Nat} (timed : v = { buildReport w with ks.scanTimer := timer, ks.scans := n }) :
    endsAs { lit acts s with ks := v.ks, lc.keys := keysAfter v.ks.report s }
      (us ++ litCounts acts s ++ reportCounts v.ks.report s) v := by
  have built := (buildReport_ends (h.2 s [] (endsAs_refl s) rfl)).ks fun ks => { ks with scanTimer := timer, scans := n }
  have before : w.ks.report = s.ks.report := by rw [show w.ks = _ from board]
  have ks : v.ks = { w.ks with report := reportedState w.ks.latched, scanTimer := timer, scans := n } := by
    rw [timed]
    show ({ (buildReport w).ks with scanTimer := timer, scans := n } : KeyScanner) = _
    rw [buildReport_ks]
  have report : v.ks.report = reportedState w.ks.latched := by rw [ks]
  have queue : keysAfter (reportedState w.ks.latched) { lit acts s with ks := w.ks } = keysAfter v.ks.report s := by
    unfold keysAfter
    rw [report, lit_lc, before]
  have counts : reportCounts (reportedState w.ks.latched) { lit acts s with ks := w.ks } = reportCounts v.ks.report s := by
    unfold reportCounts
    rw [report, lit_lc, before]
  rw [← queue, ← counts, ks, timed]
  exact built

/-! ### The keys of a scan by the positions before and after it -/

section
variable (contacts : BitVec 128) (s : State)

theorem counted_settings : (counted contacts s).settings = s.settings := by
  rw [((counted_scans contacts s).2 s [] (endsAs_refl s) rfl).1]
  rfl

theorem counted_keymap : (counted contacts s).ks.keymap = s.ks.keymap := by
  rw [counted_ks, show (readMatrix contacts s).ks = _ from (mapKeys_board _ s).1]

/-- R139: what is pressed after the scan. -/
def pressedAfter (p : Pos) : Bool := (keyAt p (changeKeys (counted contacts s))).pressed

/-- The positions pressed before the scan and after it. -/
def keptIn (p : Pos) : Bool := (keyAt p s).pressed && pressedAfter contacts s p

/-- The positions pressed anew. -/
def freshIn (p : Pos) : Bool := !(keyAt p s).pressed && pressedAfter contacts s p

theorem pressedAfter_eq (p : Pos) : pressedAfter contacts s p =
    if (keyAt p s).pressed then newCount s.settings.depth (contacts.getLsbD p.val) (keyAt p s).count != 0
    else newCount s.settings.depth (contacts.getLsbD p.val) (keyAt p s).count == s.settings.depth := by
  rw [pressedAfter, changeKeys_pressed, keyAt_counted, counted_settings]
  rfl

theorem mem_released (p : Pos) : p ∈ releasedKeys (counted contacts s) ↔ (keyAt p s).pressed = true ∧ pressedAfter contacts s p = false := by
  rw [mem_releasedKeys, keyAt_counted, pressedAfter_eq]
  refine and_congr_right fun (pressed : (keyAt p s).pressed = true) => ?_
  simp [pressed, readKey]

theorem mem_pressed (p : Pos) : p ∈ pressedKeys (counted contacts s) ↔ freshIn contacts s p = true := by
  rw [mem_pressedKeys, keyAt_counted, counted_settings, freshIn, Bool.and_eq_true, Bool.not_eq_true', pressedAfter_eq]
  refine and_congr_right fun (released : (keyAt p s).pressed = false) => ?_
  simp [released, readKey]

theorem released_filter : releasedKeys (counted contacts s) =
    (List.finRange 128).filter fun p => (keyAt p s).pressed && !pressedAfter contacts s p := by
  refine List.filter_congr fun p _ => Bool.eq_iff_iff.2 ?_
  have same := mem_released contacts s p
  simp only [releasedKeys, List.mem_filter, List.mem_finRange, true_and] at same
  rw [same, Bool.and_eq_true, Bool.not_eq_true']

theorem pressed_filter : pressedKeys (counted contacts s) = (List.finRange 128).filter (freshIn contacts s) := by
  refine List.filter_congr fun p _ => Bool.eq_iff_iff.2 ?_
  have same := mem_pressed contacts s p
  simp only [pressedKeys, List.mem_filter, List.mem_finRange, true_and] at same
  exact same

theorem afterReleases_kept (q : Pos) : (keyAt q (afterReleases (counted contacts s))).pressed = keptIn contacts s q := by
  rw [afterReleases_pressed, keyAt_counted, keptIn, pressedAfter_eq]
  show ((keyAt q s).pressed && _) = _
  cases (keyAt q s).pressed <;> rfl

theorem released_kept (q : Pos) : (keyAt q ((releasedKeys (counted contacts s)).foldl releaseKey (counted contacts s))).pressed =
    keptIn contacts s q := by
  rw [← afterReleases_kept]
  unfold afterReleases
  split
  · rfl
  · rw [reevaluateAll_pressed]

/-- R142: the presses that meet the condition against what stays pressed and the presses below. -/
theorem ghosts_iff (p : Pos) : ghosts (afterReleases (counted contacts s)) (pressedKeys (counted contacts s)) p = true ↔
    meetsPhantom (fun q => keptIn contacts s q || (freshIn contacts s q && decide (q < p))) p := by
  rw [← phantomIn_iff, ghosts]
  have same : pressedBelow (afterReleases (counted contacts s)) (pressedKeys (counted contacts s)) p =
      fun q => keptIn contacts s q || (freshIn contacts s q && decide (q < p)) := by
    funext q
    rw [pressedBelow, afterReleases_kept]
    have fresh : decide (q ∈ pressedKeys (counted contacts s)) = freshIn contacts s q :=
      Bool.eq_iff_iff.2 (by rw [decide_eq_true_eq, mem_pressed])
    rw [fresh]
  rw [same]

/-- R143: the withheld positions that another release frees. -/
theorem mem_freedKeys (legal : ∀ p : Pos, (keyAt p s).withheld = true → (keyAt p s).pressed = true) (p : Pos) :
    p ∈ freedKeys (counted contacts s) ↔ ¬ (∀ q, (keyAt q s).pressed = true → keptIn contacts s q = true) ∧
      keptIn contacts s p = true ∧ (keyAt p s).withheld = true ∧ ¬ meetsPhantom (keptIn contacts s) p := by
  have quiet : (releasedKeys (counted contacts s)).isEmpty = true ↔ ∀ q, (keyAt q s).pressed = true → keptIn contacts s q = true := by
    rw [List.isEmpty_iff, List.eq_nil_iff_forall_not_mem]
    refine forall_congr' fun q => ?_
    rw [mem_released, keptIn, Bool.and_eq_true, not_and, Bool.not_eq_false]
    exact ⟨fun stays pressed => ⟨pressed, stays pressed⟩, fun stays pressed => (stays pressed).2⟩
  unfold freedKeys
  by_cases none : (releasedKeys (counted contacts s)).isEmpty = true
  · rw [if_pos none]
    exact ⟨fun there => absurd there List.not_mem_nil, fun both => absurd (quiet.1 none) both.1⟩
  · rw [if_neg none, mem_freed]
    have pressed := released_kept contacts s
    have phantom : isPhantom p ((releasedKeys (counted contacts s)).foldl releaseKey (counted contacts s)) = false ↔
        ¬ meetsPhantom (keptIn contacts s) p := by
      rw [isPhantom_eq, ← phantomIn_iff, Bool.not_eq_true]
      simp only [pressed]
    have withheld : (keyAt p ((releasedKeys (counted contacts s)).foldl releaseKey (counted contacts s))).withheld = true ↔
        keptIn contacts s p = true ∧ (keyAt p s).withheld = true := by
      rw [keyAt_releaseAll, keyAt_counted]
      by_cases gone : p ∈ releasedKeys (counted contacts s)
      · rw [if_pos gone]
        rw [mem_released] at gone
        simp [KeyPosition.letGo, keptIn, gone.2]
      · rw [if_neg gone]
        rw [mem_released, not_and, Bool.not_eq_false] at gone
        show (keyAt p s).withheld = true ↔ _
        rw [keptIn, Bool.and_eq_true]
        exact ⟨fun held => ⟨⟨legal p held, gone (legal p held)⟩, held⟩, fun both => both.2⟩
    rw [phantom, withheld, ← quiet]
    simp only [List.mem_finRange, true_and, none, and_assoc]
    simp

end

end Sys2Proof.Machine
end

section
/-! PROOFS. Scans: the settlements of O50 and O51. -/

namespace Sys2Proof.Machine

section
variable {contacts : BitVec 128} {s : State} {kept fresh : Fin 128 → Bool}
  (legal : ∀ p : Pos, (keyAt p s).withheld = true → (keyAt p s).pressed = true)

/-- R142, R143: what is withheld after the scan. -/
theorem withheldAfter_eq (p : Pos) : (keyAt p (changeKeys (counted contacts s))).withheld =
    if freshIn contacts s p then ghosts (afterReleases (counted contacts s)) (pressedKeys (counted contacts s)) p
    else if p ∈ releasedKeys (counted contacts s) ∨ p ∈ freedKeys (counted contacts s) then false else (keyAt p s).withheld := by
  rw [changeKeys_withheld, keyAt_counted]
  by_cases new : freshIn contacts s p = true
  · rw [if_pos ((mem_pressed contacts s p).2 new), if_pos new]
  · rw [if_neg (fun there => new ((mem_pressed contacts s p).1 there)), if_neg new]
    rfl

include legal

theorem withheldAfter_iff (p : Pos) : (keyAt p (changeKeys (counted contacts s))).withheld = true ↔
    (keptIn contacts s p = true ∧ (keyAt p s).withheld = true ∧
      ((∀ q : Fin 128, (keyAt q s).pressed = true → keptIn contacts s q = true) ∨ meetsPhantom (keptIn contacts s) p)) ∨
    (freshIn contacts s p = true ∧ meetsPhantom (fun q => keptIn contacts s q || (freshIn contacts s q && decide (q < p))) p) := by
  rw [withheldAfter_eq]
  by_cases new : freshIn contacts s p = true
  · have notKept : keptIn contacts s p = false := by
      rw [freshIn, Bool.and_eq_true, Bool.not_eq_true'] at new
      rw [keptIn, new.1, Bool.false_and]
    rw [if_pos new, ghosts_iff, notKept, new]
    simp only [Bool.false_eq_true, false_and, false_or, true_and]
  · rw [if_neg new]
    simp only [new, Bool.false_eq_true, false_and, or_false]
    have gone : p ∈ releasedKeys (counted contacts s) → keptIn contacts s p = false := fun there => by
      rw [keptIn, ((mem_released contacts s p).1 there).2, Bool.and_false]
    have held (withheld : (keyAt p s).withheld = true) (there : p ∉ releasedKeys (counted contacts s)) : keptIn contacts s p = true := by
      rw [mem_released, not_and, Bool.not_eq_false] at there
      rw [keptIn, legal p withheld, there (legal p withheld)]
      rfl
    by_cases out : p ∈ releasedKeys (counted contacts s)
    · rw [if_pos (.inl out), gone out]
      simp
    · by_cases free : p ∈ freedKeys (counted contacts s)
      · obtain ⟨some', -, -, clear⟩ := (mem_freedKeys contacts s legal p).1 free
        rw [if_pos (.inr free)]
        refine ⟨fun wrong => (by cases wrong), fun ⟨_, _, either⟩ => (either.elim some' clear).elim⟩
      · rw [if_neg (not_or.2 ⟨out, free⟩)]
        refine ⟨fun withheld => ⟨held withheld out, withheld, ?_⟩, fun both => both.2.1⟩
        by_contra neither
        rw [not_or] at neither
        exact free ((mem_freedKeys contacts s legal p).2 ⟨neither.1, held withheld out, withheld, neither.2⟩)

theorem freed_filter : freedKeys (counted contacts s) = (List.finRange 128).filter fun p =>
    keptIn contacts s p && (keyAt p s).withheld && !(keyAt p (changeKeys (counted contacts s))).withheld := by
  have sublist : freedKeys (counted contacts s) = (List.finRange 128).filter fun p => decide (p ∈ freedKeys (counted contacts s)) := by
    unfold freedKeys
    split
    · exact (List.filter_eq_nil_iff.2 fun p _ => by simp).symm
    · exact List.filter_congr fun p _ => Bool.eq_iff_iff.2 (by simp [mem_freed])
  rw [sublist]
  refine List.filter_congr fun p _ => Bool.eq_iff_iff.2 ?_
  rw [decide_eq_true_eq, mem_freedKeys contacts s legal, Bool.and_eq_true, Bool.and_eq_true, Bool.not_eq_true', ← Bool.not_eq_true,
    withheldAfter_iff legal]
  have notFresh (kept : keptIn contacts s p = true) : ¬ freshIn contacts s p = true := by
    rw [keptIn, Bool.and_eq_true] at kept
    simp [freshIn, kept.1]
  refine ⟨fun ⟨some', kept, withheld, clear⟩ => ⟨⟨kept, withheld⟩, ?_⟩, fun ⟨⟨kept, withheld⟩, clear⟩ => ?_⟩
  · rintro (⟨_, _, none | phantom⟩ | ⟨new, _⟩)
    · exact some' none
    · exact clear phantom
    · exact notFresh kept new
  · rw [not_or, not_and, not_and, not_or] at clear
    obtain ⟨some', phantom⟩ := clear.1 kept withheld
    exact ⟨some', kept, withheld, phantom⟩

omit legal

theorem pressed_part (g h : Pos → Bool) (same : ∀ p, freshIn contacts s p = true → g p = h p) :
    (pressedKeys (counted contacts s)).filter g = (List.finRange 128).filter fun p => freshIn contacts s p && h p := by
  rw [pressed_filter, List.filter_filter]
  refine List.filter_congr fun p _ => ?_
  rw [Bool.and_comm]
  by_cases new : freshIn contacts s p = true
  · rw [same p new]
  · rw [Bool.not_eq_true] at new
    rw [new, Bool.false_and, Bool.false_and]

theorem ghost_filter : ghostKeys (counted contacts s) = (List.finRange 128).filter fun p =>
    freshIn contacts s p && (keyAt p (changeKeys (counted contacts s))).withheld :=
  pressed_part _ _ fun p new => by rw [withheldAfter_eq, if_pos new]

theorem clear_filter : clearKeys (counted contacts s) = (List.finRange 128).filter fun p =>
    freshIn contacts s p && !(keyAt p (changeKeys (counted contacts s))).withheld :=
  pressed_part _ _ fun p new => by rw [withheldAfter_eq, if_pos new]

theorem noisyKeys_eq : noisyKeys contacts s = (List.finRange 128).countP fun p =>
    contacts.getLsbD p.val != (keyAt p s).pressed && pressedAfter contacts s p == (keyAt p s).pressed := by
  refine List.countP_congr fun p _ => Bool.eq_iff_iff.1 ?_
  have read : keyAt p (readMatrix contacts s) = readKey s.settings.depth (contacts.getLsbD p.val) (keyAt p s) := by
    rw [← keyAt_counted]
    exact (keyAt_of_positions (by rw [counted_ks]) p).symm
  rw [read, pressedAfter_eq, chatters, becomesPressed, becomesReleased]
  show ((contacts.getLsbD p.val != (keyAt p s).pressed) &&
    !(!(keyAt p s).pressed && newCount s.settings.depth (contacts.getLsbD p.val) (keyAt p s).count == s.settings.depth) &&
    !((keyAt p s).pressed && newCount s.settings.depth (contacts.getLsbD p.val) (keyAt p s).count == 0)) = _
  cases (keyAt p s).pressed
  · simp
  · simp [bne]

theorem stays_eq : stays (counted contacts s) = s.ks.latched.filter fun r => (List.finRange 128).all fun p =>
    p.val != r.pos || !(keyAt p s).pressed || pressedAfter contacts s p := by
  unfold stays
  rw [latched_counted, released_filter]
  refine List.filter_congr fun r _ => ?_
  rw [List.all_filter]
  congr 1
  funext p
  rw [bne_comm]
  cases (keyAt p s).pressed <;> cases pressedAfter contacts s p <;> simp

end

/-! ### The reported state (R149) -/

theorem distinctCodes_append (rs : List Latched) (r : Latched) : distinctCodes (rs ++ [r]) =
    match codeOf r.entry with
    | some c => if (distinctCodes rs).contains c then distinctCodes rs else distinctCodes rs ++ [c]
    | none => distinctCodes rs := by
  unfold distinctCodes
  rw [List.foldl_append]
  rfl

theorem distinctCodes_eq (rs : List Latched) : distinctCodes rs = (rs.filterMap fun r => codeOf r.entry).eraseDups := by
  induction rs using List.reverseRecOn with
  | nil => rfl
  | append_singleton rs r ih =>
    rw [distinctCodes_append, List.filterMap_append, List.eraseDups_append, ih]
    cases entry : codeOf r.entry with
    | none => simp [entry, List.removeAll]
    | some c =>
      have last : [r].filterMap (fun r => codeOf r.entry) = [c] := by simp [entry]
      rw [last]
      generalize rs.filterMap (fun r => codeOf r.entry) = codes
      have member : codes.eraseDups.contains c = codes.contains c := Bool.eq_iff_iff.2 (by simp)
      dsimp only
      rw [member, List.removeAll, List.filter_singleton, show codes.contains c = List.elem c codes from rfl]
      cases List.elem c codes
      · rfl
      · exact (List.append_nil _).symm

theorem modifierBit_bit (e : KeyEntry) (m : Fin 8) : (modifierBit e).getLsbD m.val = true ↔ e = .modifier m := by
  cases e with
  | modifier i =>
    rw [KeyEntry.modifier.injEq]
    revert i m
    decide
  | _ => simp [modifierBit]

theorem reported_mods (rs : List Latched) (m : Fin 8) :
    (reportedState rs).mods.getLsbD m.val = true ↔ ∃ r ∈ rs, r.entry = .modifier m := by
  have fold (acc : BitVec 8) : (rs.foldl (fun m r => m ||| modifierBit r.entry) acc).getLsbD m.val = true ↔
      acc.getLsbD m.val = true ∨ ∃ r ∈ rs, r.entry = .modifier m := by
    induction rs generalizing acc with
    | nil => simp
    | cons r rs ih =>
      rw [List.foldl_cons, ih, BitVec.getLsbD_or, Bool.or_eq_true, modifierBit_bit, or_assoc]
      simp
  refine (fold 0).trans ?_
  simp

theorem reportedState_spells {rs : List Latched} {r : Report} {codes : List Byte} (report : r = reportedState rs)
    (spelt : codes = (rs.filterMap fun l => codeOf l.entry).eraseDups) :
    r.codes = codes.take 8 ∧ (r.overflow = true ↔ 8 < codes.length) ∧
      ∀ m : Fin 8, r.mods.getLsbD m.val = true ↔ ∃ l ∈ rs, l.entry = .modifier m := by
  rw [← distinctCodes_eq] at spelt
  subst report spelt
  exact ⟨rfl, decide_eq_true_iff, reported_mods rs⟩

/-! ### What a scan leaves (R138 to R151) -/

/-- What the changes of keys count in a scan. -/
def changeCounts (c : State) : List SubEvent :=
  List.replicate (releasedKeys c).length .releaseAccepted ++ List.replicate (freedKeys c).length .ghostResolved ++
    (List.replicate (pressedKeys c).length .pressAccepted ++ List.replicate (ghostKeys c).length .ghostWithheld)

/-- What a scan counts but for its actions and its report. -/
def scanCounts (contacts : BitVec 128) (s : State) : List SubEvent :=
  (.scan :: List.replicate (noisyKeys contacts s) .chatter) ++ changeCounts (counted contacts s)

theorem Scans.changes {s c v : State} {us : List SubEvent} (read : Scans s c us []) (board : sameBoard s.ks c.ks) {timer n : Nat}
    (timed : v = { buildReport (changeKeys c) with ks.scanTimer := timer, ks.scans := n }) :
    endsAs { lit (actionsOf (added c)) s with ks := v.ks, lc.keys := keysAfter v.ks.report s }
      (us ++ changeCounts c ++ litCounts (actionsOf (added c)) s ++ reportCounts v.ks.report s) v :=
  (read.trans (changeKeys_scans c)).reported (board.trans (changeKeys_rest c)) timed

theorem exec_scan_idle {contacts : BitVec 128} {s : State} (running : s.ks.scanTimer ≠ 0) : exec (.scan contacts) s = .next s :=
  if_neg running

/-- The end of a scan, its keys, its counts and its report written out. -/
theorem exec_scan_ends {contacts : BitVec 128} {s : State} (due : s.ks.scanTimer = 0) :
    ∃ t, exec (.scan contacts) s = .next t ∧ t.ks = (scanKeys contacts s).ks ∧
      endsAs { lit (actionsOf (added (counted contacts s))) s with ks := t.ks, lc.keys := keysAfter t.ks.report s }
        (scanCounts contacts s ++ litCounts (actionsOf (added (counted contacts s))) s ++ reportCounts t.ks.report s) t := by
  refine ⟨conclude s (scanKeys contacts s), if_pos due, conclude_ks _ _, ?_⟩
  rw [conclude_ks]
  have board : sameBoard s.ks (counted contacts s).ks := by
    rw [counted_ks]
    exact (mapKeys_board _ s).1
  exact ((counted_scans contacts s).changes board (scanKeys_eq contacts s)).conclude s

/-- The bookkeeping of an event depends on the Monitor, the pending set and the lane alone. -/
theorem bookkeepingOnly_of_same {u v t : State} (h : bookkeepingOnly u t) (mn : v.mn = u.mn) (events : v.me.events = u.me.events)
    (tx : v.lc.tx = u.lc.tx) : bookkeepingOnly v t := by
  unfold bookkeepingOnly eventsKept eventStarts eventSlot selectionsKept at h ⊢
  rw [mn, events, tx]
  exact h

/-- R134, R162: the pending set after the actions of a scan. -/
theorem lit_events (acts : List LocalAction) (s : State) : (lit acts s).me.events =
    (if levelChanges s.pu.level acts = 0 then s else raised .backlight (BitVec.ofNat 24 (acts.foldl levelAfter s.pu.level)) s).me.events := by
  unfold lit
  split
  · rfl
  · unfold raised
    dsimp only
    split <;> rfl

theorem sameBoard.keymap {k l : KeyScanner} (h : sameBoard k l) : l.keymap = k.keymap := by rw [show l = _ from h]

theorem board_fields {k w : KeyScanner} {report : Report} {timer n : Nat}
    (board : k = { w with report := report, scanTimer := timer, scans := n }) :
    k.latched = w.latched ∧ k.keymap = w.keymap ∧ k.report = report ∧ k.scanTimer = timer ∧ k.scans = n := by
  subst board
  exact ⟨rfl, rfl, rfl, rfl, rfl⟩

theorem buildReport_timed {w v : State} {timer n : Nat} (timed : v = { buildReport w with ks.scanTimer := timer, ks.scans := n }) :
    v.ks = { w.ks with report := reportedState w.ks.latched, scanTimer := timer, scans := n } := by
  subst timed
  show ({ (buildReport w).ks with scanTimer := timer, scans := n } : KeyScanner) = _
  rw [buildReport_ks]

/-- The Key Scanner after a scan, but for its positions. -/
theorem scanKeys_board (contacts : BitVec 128) (s : State) :
    (scanKeys contacts s).ks.latched = stays (counted contacts s) ++ added (counted contacts s) ∧
    (scanKeys contacts s).ks.keymap = s.ks.keymap ∧
    (scanKeys contacts s).ks.report = reportedState (scanKeys contacts s).ks.latched ∧
    (scanKeys contacts s).ks.scanTimer = s.settings.scanPeriod ∧ (scanKeys contacts s).ks.scans = min (s.ks.scans + 1) 2 := by
  obtain ⟨latched, keymap, report, timer, scans⟩ := board_fields (buildReport_timed (scanKeys_eq contacts s))
  have changed := changeKeys_latched (counted contacts s)
  have board := (changeKeys_rest (counted contacts s)).keymap.trans (counted_keymap contacts s)
  rw [← latched] at report
  exact ⟨latched.trans changed, keymap.trans board, report, timer, scans⟩

/-- What a scan leaves outside the Key Scanner. -/
theorem scan_leaves {acts : List LocalAction} {k : KeyScanner} {q : List Report} {cs : List SubEvent} {s t : State}
    (ends : endsAs { lit acts s with ks := k, lc.keys := q } cs t) :
    t.pu.level = acts.foldl levelAfter s.pu.level ∧ t.lc.keys = q ∧
      bookkeepingOnly (if levelChanges s.pu.level acts = 0 then s else raised .backlight (BitVec.ofNat 24 t.pu.level) s) t ∧
      countedAs cs s t ∧
      t = { s with
        ks := t.ks, lc.keys := t.lc.keys, lc.tx := t.lc.tx, pu.level := t.pu.level, me.events := t.me.events, mn := t.mn } := by
  obtain ⟨rest, books, counts⟩ := ends
  have level : t.pu.level = acts.foldl levelAfter s.pu.level := by
    rw [rest]
    exact lit_level acts s
  refine ⟨level, by rw [rest], ?_, countedAs_of_same counts (lit_mn acts s) (lit_settings acts s), ?_⟩
  · rw [level]
    refine bookkeepingOnly_of_same books ?_ (lit_events acts s).symm ?_
    · show _ = (lit acts s).mn
      rw [lit_mn]
      split
      · rfl
      · rw [raised_rest]
    · show _ = (lit acts s).lc.tx
      rw [lit_lc]
      split
      · rfl
      · rw [raised_rest]
  · have mn : t.mn = { s.mn with counters := t.mn.counters } := by
      conv_lhs => rw [rest]
      show ({ (lit acts s).mn with counters := _ } : Monitor) = _
      rw [lit_mn]
    rw [mn]
    rw [lit_rest] at rest
    generalize (lit acts s).me.events = e at rest
    rw [rest]

/-- Settles O50: the three steps of a scan are read off position by position, and its counts are added up along them. -/
theorem aScanDebouncesEveryPosition : Obligations.AScanDebouncesEveryPosition := by
  unfold Obligations.AScanDebouncesEveryPosition
  refine ⟨fun latched r codes report spelt => reportedState_spells report (spelt.trans ?_), fun contacts s =>
    ⟨exec_scan_idle, fun due => ?_⟩⟩
  · congr 2
    funext l
    cases l.entry <;> rfl
  obtain ⟨t, runs, ks, ends⟩ := exec_scan_ends (contacts := contacts) due
  have key (p : Fin 128) : keyAt p t = keyAt p (changeKeys (counted contacts s)) := by
    rw [keyAt, ks]
    exact keyAt_scanKeys contacts s p
  obtain ⟨latched, keymap, report, timer, scans⟩ := scanKeys_board contacts s
  rw [← ks] at latched keymap report timer scans
  obtain ⟨level, keys, books, counts, rest⟩ := scan_leaves ends
  refine ⟨t, runs, fun p closed count contact number => ?_, timer, scans, keymap, report, fun same => ?_, fun differs away => ?_,
    fun kept fresh legal keptSame freshSame => ?_, ?_⟩
  · have pressed := pressedAfter_eq contacts s p
    rw [pressedAfter, ← key] at pressed
    subst closed count
    refine ⟨?_, ?_, pressed⟩
    · rw [key, changeKeys_raw, keyAt_counted]
      rfl
    · rw [key, changeKeys_count, keyAt_counted]
      rfl
  · rw [keys]
    exact if_pos same
  · rw [keys]
    exact if_neg (not_or.2 ⟨differs, away⟩)
  · have after (p : Fin 128) : pressedAfter contacts s p = (keyAt p t).pressed := by rw [pressedAfter, key]
    obtain rfl : kept = keptIn contacts s := funext fun p => by rw [keptSame, keptIn, after]
    obtain rfl : fresh = freshIn contacts s := funext fun p => by rw [freshSame, freshIn, after]
    refine ⟨fun p => by rw [key]; exact withheldAfter_iff legal p, added (counted contacts s), ?_, ?_, level, books, ?_⟩
    · rw [latched, stays_eq]
      simp only [keptIn, Bool.or_and_distrib_left, Bool.not_or_self, Bool.or_true, Bool.true_and, Bool.or_assoc]
    · rw [added, latchAll_pos, freed_filter legal, clear_filter]
      simp only [key]
    · have noisy := noisyKeys_eq (contacts := contacts) (s := s)
      rw [scanCounts, changeCounts, noisy, released_filter, freed_filter legal, pressed_filter, ghost_filter, litCounts, reportCounts] at counts
      simp only [← List.countP_eq_length_filter, after, ← key, List.append_assoc, List.cons_append, List.nil_append] at counts ⊢
      exact counts
  · exact rest

end Sys2Proof.Machine
end

section
/-! PROOFS. How a key is latched (R145, R146): the settlement of O51. -/

namespace Sys2Proof.Machine

/-! ### The layer in which a position is resolved (R145) -/

/-- The highest layer of a fold over records. -/
theorem foldl_layers (latched : List Latched) (acc : Nat) : acc ≤ latched.foldl (fun m r => max m (layerOf r.entry)) acc ∧
    (∀ r ∈ latched, layerOf r.entry ≤ latched.foldl (fun m r => max m (layerOf r.entry)) acc) ∧
    (latched.foldl (fun m r => max m (layerOf r.entry)) acc = acc ∨
      ∃ r ∈ latched, latched.foldl (fun m r => max m (layerOf r.entry)) acc = layerOf r.entry) := by
  induction latched generalizing acc with
  | nil => exact ⟨Nat.le_refl _, fun r there => (by cases there), .inl rfl⟩
  | cons x latched ih =>
    obtain ⟨above, each, least⟩ := ih (max acc (layerOf x.entry))
    rw [List.foldl_cons]
    refine ⟨by omega, fun r there => ?_, ?_⟩
    · rcases List.mem_cons.1 there with rfl | there
      · omega
      · exact each r there
    · rcases least with same | ⟨r, there, same⟩
      · rcases Nat.le_total acc (layerOf x.entry) with less | more
        · exact .inr ⟨x, List.mem_cons_self, by omega⟩
        · exact .inl (by omega)
      · exact .inr ⟨r, List.mem_cons_of_mem _ there, same⟩

theorem activeLayer_of_activeIs {latched : List Latched} {n : Fin 3} (active : activeIs latched n) : activeLayer latched = n.val := by
  obtain ⟨most, held⟩ := active
  obtain ⟨-, each, least⟩ := foldl_layers latched 0
  refine Nat.le_antisymm ?_ ?_
  · rcases least with zero | ⟨r, there, same⟩
    · rw [activeLayer, zero]
      exact Nat.zero_le _
    · rw [activeLayer, same]
      cases entry : r.entry with
      | layer m => exact most r there m entry
      | _ => exact Nat.zero_le _
  · rcases held with rfl | ⟨r, there, entry⟩
    · exact Nat.zero_le _
    · have := each r there
      rw [entry] at this
      exact this

theorem latchIn_latches {s : State} {latched : List Latched} {n : Fin 3} (active : activeIs latched n) (p : Fin 128) :
    latchesIn s n p (latchIn s.ks.keymap latched p) := by
  intro i place
  have entry (k : Nat) (bound : k < 384) : s.ks.keymap.toList.getD k .none = s.ks.keymap[k] := by
    rw [List.getD_eq_getElem _ _ (by simpa using bound), Vector.getElem_toList]
  rw [latchIn, activeLayer_of_activeIs active, entry _ (by omega), entry _ (by omega)]
  have there : s.ks.keymap[n.val * 128 + p.val]'(by omega) = s.ks.keymap[i] := by
    simp only [← place]
    rfl
  have bottom : s.ks.keymap[0 * 128 + p.val]'(by omega) = s.ks.keymap[p.val] := by simp only [Nat.zero_mul, Nat.zero_add]
  have layer : Fin.ofNat 3 n.val = n := Fin.ext (Nat.mod_eq_of_lt n.isLt)
  rw [there, bottom, layer]

/-- Each record that a scan adds is resolved with the records before it. -/
theorem latchAll_at {keymap : Vector KeyEntry 384} {latched : List Latched} {ps : List Pos} {i : Nat} {r : Latched}
    (there : (latchAll keymap latched ps)[i]? = some r) :
    ∃ p : Pos, r = latchIn keymap (latched ++ (latchAll keymap latched ps).take i) p := by
  induction ps generalizing latched i with
  | nil => cases there
  | cons p ps ih =>
    cases i with
    | zero =>
      cases there
      exact ⟨p, by rw [List.take_zero, List.append_nil]⟩
    | succ i =>
      obtain ⟨q, same⟩ := ih there
      refine ⟨q, ?_⟩
      rw [same, latchAll, List.take_succ_cons, List.append_assoc]
      rfl

/-! ### One key alone (R142, R147, R149) -/

theorem filter_only {g : Pos → Bool} {p : Pos} (only : ∀ q, g q = true ↔ q = p) : (List.finRange 128).filter g = [p] := by
  have same : g = (· == p) := funext fun q => Bool.eq_iff_iff.2 (by rw [only, beq_iff_eq])
  rw [same, List.filter_beq, List.count_eq_one_of_mem (List.nodup_finRange 128) (List.mem_finRange p)]
  rfl

theorem reported_ordinary (n : Nat) (code : Byte) (l : Fin 3) : reportedState [⟨n, .ordinary code, l⟩] = ⟨0, [code], false⟩ := by
  simp [reportedState, distinctCodes, codeOf, modifierBit]

theorem reported_modifier (n : Nat) (m : Fin 8) (l : Fin 3) :
    reportedState [⟨n, .modifier m, l⟩] = ⟨BitVec.ofNat 8 (2 ^ m.val), [], false⟩ := by
  simp [reportedState, distinctCodes, codeOf, modifierBit]

section
variable {contacts : BitVec 128} {s : State} {p : Fin 128} (depth : 1 ≤ s.settings.depth)
  (rest : ∀ q : Fin 128, q ≠ p → contacts.getLsbD q.val = false ∧ keyAt q s = ⟨false, 0, false, false⟩)
include depth rest

/-- A position at rest stays at rest. -/
theorem rest_stays {q : Fin 128} (other : q ≠ p) : (keyAt q s).pressed = false ∧ pressedAfter contacts s q = false := by
  obtain ⟨contact, record⟩ := rest q other
  rw [pressedAfter_eq, record, contact]
  refine ⟨rfl, ?_⟩
  show (0 == s.settings.depth) = false
  exact beq_false_of_ne (by omega)

theorem press_alone (contact : contacts.getLsbD p.val = true) (released : (keyAt p s).pressed = false)
    (clear : (keyAt p s).withheld = false) (last : (keyAt p s).count + 1 = s.settings.depth) (empty : s.ks.latched = []) :
    stays (counted contacts s) = [] ∧ added (counted contacts s) = [⟨p.val, s.ks.keymap[p.val], 0⟩] ∧
      (keyAt p (changeKeys (counted contacts s))).withheld = false := by
  have alone (q : Fin 128) (other : q ≠ p) := rest_stays depth rest other
  have kept (q : Fin 128) : keptIn contacts s q = false := by
    by_cases same : q = p
    · rw [same, keptIn, released, Bool.false_and]
    · rw [keptIn, (alone q same).1, Bool.false_and]
  have presses : pressedAfter contacts s p = true := by
    rw [pressedAfter_eq, released, contact]
    show (min ((keyAt p s).count + 1) s.settings.depth == s.settings.depth) = true
    rw [last, Nat.min_self, beq_self_eq_true]
  have fresh (q : Fin 128) : freshIn contacts s q = true ↔ q = p := by
    by_cases same : q = p
    · rw [same, freshIn, released, presses]
      simp
    · rw [freshIn, (alone q same).2, Bool.and_false]
      simp [same]
  have legal (q : Fin 128) (held : (keyAt q s).withheld = true) : (keyAt q s).pressed = true := by
    by_cases same : q = p
    · rw [same, clear] at held
      cases held
    · rw [(rest q same).2] at held
      cases held
  have unheld : (keyAt p (changeKeys (counted contacts s))).withheld = false := by
    rw [← Bool.not_eq_true, withheldAfter_iff legal, kept]
    rintro (⟨wrong, _⟩ | ⟨_, a, _, _, one, _⟩)
    · cases wrong
    · dsimp only at one
      rw [kept, Bool.false_or, Bool.and_eq_true, fresh, decide_eq_true_eq] at one
      exact absurd one.2 (one.1 ▸ lt_irrefl _)
  have freed : freedKeys (counted contacts s) = [] := by
    rw [freed_filter legal]
    exact List.filter_eq_nil_iff.2 fun q _ => by rw [kept, Bool.false_and, Bool.false_and]; decide
  have resolved : clearKeys (counted contacts s) = [p] := by
    rw [clear_filter]
    refine filter_only fun q => ?_
    rw [Bool.and_eq_true, fresh]
    exact ⟨fun both => both.1, fun same => ⟨same, by rw [same, unheld]; rfl⟩⟩
  have none : stays (counted contacts s) = [] := by rw [stays_eq, empty, List.filter_nil]
  refine ⟨none, ?_, unheld⟩
  rw [added, none, freed, resolved, counted_keymap]
  have bottom := latchIn_latches (s := s) (latched := []) (n := 0) ⟨fun r there => (by cases there), .inl rfl⟩ p
    ⟨p.val, by omega⟩ (by simp)
  refine congrArg (fun r => [r]) (bottom.trans ?_)
  exact ite_self _

theorem release_alone {r : Latched} (contact : contacts.getLsbD p.val = false) (pressed : (keyAt p s).pressed = true)
    (clear : (keyAt p s).withheld = false) (last : (keyAt p s).count = 1) (only : s.ks.latched = [r]) (place : r.pos = p.val) :
    stays (counted contacts s) = [] ∧ added (counted contacts s) = [] := by
  have alone (q : Fin 128) (other : q ≠ p) := rest_stays depth rest other
  have gone : pressedAfter contacts s p = false := by
    rw [pressedAfter_eq, pressed, contact, last]
    rfl
  have kept (q : Fin 128) : keptIn contacts s q = false := by
    by_cases same : q = p
    · rw [same, keptIn, gone, Bool.and_false]
    · rw [keptIn, (alone q same).1, Bool.false_and]
  have fresh (q : Fin 128) : freshIn contacts s q = false := by
    by_cases same : q = p
    · rw [same, freshIn, gone, Bool.and_false]
    · rw [freshIn, (alone q same).2, Bool.and_false]
  have legal (q : Fin 128) (held : (keyAt q s).withheld = true) : (keyAt q s).pressed = true := by
    by_cases same : q = p
    · rw [same, clear] at held
      cases held
    · rw [(rest q same).2] at held
      cases held
  have freed : freedKeys (counted contacts s) = [] := by
    rw [freed_filter legal]
    exact List.filter_eq_nil_iff.2 fun q _ => by rw [kept, Bool.false_and, Bool.false_and]; decide
  have resolved : clearKeys (counted contacts s) = [] := by
    rw [clear_filter]
    exact List.filter_eq_nil_iff.2 fun q _ => by rw [fresh, Bool.false_and]; decide
  refine ⟨?_, by rw [added, freed, resolved]; rfl⟩
  rw [stays_eq, only]
  refine List.filter_eq_nil_iff.2 fun x there all => ?_
  rw [List.mem_singleton] at there
  have leaves := List.all_eq_true.1 all p (List.mem_finRange p)
  rw [there, place, pressed, gone] at leaves
  simp at leaves

end

/-- Settles O51: the records that a scan adds are resolved one after another, each with those before it. -/
theorem aKeyIsLatchedFromPressToRelease : Obligations.AKeyIsLatchedFromPressToRelease := by
  unfold Obligations.AKeyIsLatchedFromPressToRelease
  refine ⟨fun contacts s due => ?_, fun contacts s p due depth rest => ⟨fun contact released clear last empty => ?_,
    fun r contact pressed clear last only place => ?_⟩⟩
  · obtain ⟨t, runs, ks, -⟩ := exec_scan_ends (contacts := contacts) due
    have after (p : Fin 128) : pressedAfter contacts s p = (keyAt p t).pressed := by
      rw [pressedAfter, ← keyAt_scanKeys, keyAt, keyAt, ks]
    have latched : t.ks.latched = stays (counted contacts s) ++ added (counted contacts s) := by rw [ks, (scanKeys_board contacts s).1]
    refine ⟨t, runs, stays (counted contacts s), ?_, ?_, fun k r p n late there place active => ?_⟩
    · rw [stays_eq]
      simp only [after]
    · rw [latched, List.take_left]
    · rw [latched] at there active
      rw [List.getElem?_append_right late, added, counted_keymap] at there
      rw [List.take_append, List.take_of_length_le late, added, counted_keymap] at active
      obtain ⟨q, same⟩ := latchAll_at there
      obtain rfl : q = p := Fin.ext (by rw [← place, same, latchIn_pos])
      rw [same]
      exact latchIn_latches active q
  · obtain ⟨t, runs, ks, ends⟩ := exec_scan_ends (contacts := contacts) due
    obtain ⟨level, -, -, -, -⟩ := scan_leaves ends
    obtain ⟨latched, -, report, -, -⟩ := scanKeys_board contacts s
    obtain ⟨none, one, unheld⟩ := press_alone depth rest contact released clear last empty
    rw [← ks, none, one, List.nil_append] at latched
    rw [← ks, latched] at report
    rw [one] at level
    refine ⟨t, runs, latched, ?_, fun code entry => ?_, fun m entry => ?_, fun entry => ?_, fun entry => ?_⟩
    · rw [keyAt, ks, ← keyAt, keyAt_scanKeys]
      exact unheld
    · rw [entry] at report level
      exact ⟨report.trans (reported_ordinary _ _ _), level⟩
    · rw [entry] at report
      exact report.trans (reported_modifier _ _ _)
    · rw [entry] at level
      exact level
    · rw [entry] at level
      exact level
  · obtain ⟨t, runs, ks, ends⟩ := exec_scan_ends (contacts := contacts) due
    obtain ⟨level, -, -, -, -⟩ := scan_leaves ends
    obtain ⟨latched, -, report, -, -⟩ := scanKeys_board contacts s
    obtain ⟨none, none'⟩ := release_alone depth rest contact pressed clear last only place
    rw [← ks, none, none', List.nil_append] at latched
    rw [← ks, latched] at report
    rw [none'] at level
    exact ⟨t, runs, latched, report, level⟩

end Sys2Proof.Machine
end

section
/-! PROOFS. The laws of a session taken apart by what they read: the streams with the side queues and the engines, the reservations with
the directory, the fault records with the directory, and the streams that the faults keep waiting. -/

namespace Sys2Proof.Machine

/-! ### The laws by parts -/

/-- R40, R41, R44, R47, R49: what the streams, the side queues and the engines keep for one another. -/
structure Queues (s : State) : Prop where
  sided : ∀ i : Fin 8, (streamOf i s).state ≠ .closed ↔ (streamOf i s).side.isSome = true
  shut : ∀ i : Fin 8, (streamOf i s).state = .closed → (streamOf i s).rewind = none ∧ (streamOf i s).reservation = none
  queued : ∀ side, ∀ e ∈ queueOf side s, (streamOf e.stream s).side = some side
  reserved : ∀ i : Fin 8, (streamOf i s).reservation.isSome = true → (streamOf i s).state = .ready
  awaits : ∀ (i : Fin 8) (side : Side), (streamOf i s).side = some side →
    (streamOf i s).state.waits = true ∨ (streamOf i s).reservation.isSome = true →
    ∃ e, (queueOf side s).find? (fun e => e.stream == i) = some e ∧ e.command.isPlace = true ∧ e.executing = false
  executing : ∀ side, (queueOf side s).countP Entry.executing =
    if ((engineOf side s).any fun r => !r.removed) = true then 1 else 0
  engine : ∀ side r, engineOf side s = some r → r.removed = false →
    (∃ e, (queueOf side s).find? r.names = some e ∧ e.executing = true) ∧ (streamOf r.stream s).state = .ready ∧
      (streamOf r.stream s).reservation = none

/-- Whether a valid entry of the directory has a key. -/
def holdsKey (key : Word) (s : State) : Prop := ∃ (n : Fin 64) (w : Fin 4), s.tc.dir[n][w].valid = true ∧ s.tc.dir[n][w].key = key

/-- R81: what the reservations and the directory keep for one another. -/
structure Reserves (s : State) : Prop where
  whole : ∀ (n : Fin 64) (w : Fin 4), s.tc.dir[n][w].reserve ≠ 0 → s.tc.dir[n][w].sectors ≠ 0
  counted : ∀ (n : Fin 64) (w : Fin 4), s.tc.dir[n][w].valid = true → s.tc.dir[n][w].reserve = reservers s.tc.dir[n][w].key s
  held : ∀ (i : Fin 8) (key : Word), (streamOf i s).reservation = some key → holdsKey key s

/-- R92: an ACTIVE record. -/
structure Faulting (r : FaultRecord) : Prop where
  key : r.key ≠ 0
  needed : r.needed ≠ 0
  waiting : r.waiting ≠ 0
  tries : r.tries ≤ 7
  timer : r.timer.isSome = true

/-- Whether a record is of an active fault on a key. -/
def FaultRecord.isOn (r : FaultRecord) (key : Word) : Prop := r.active = true ∧ r.key = key

/-- R92, R93: what the fault records and the directory keep for one another. -/
structure Faults (s : State) : Prop where
  idle : ∀ side, (recordOf side s).active = false → recordOf side s = FaultRecord.idle
  active : ∀ side, (recordOf side s).active = true → Faulting (recordOf side s)
  held : ∀ side, (recordOf side s).active = true → holdsKey (recordOf side s).key s
  once : ∀ key, (recordOf .a s).isOn key → ¬ (recordOf .b s).isOn key
  pending : ∀ (n : Fin 64) (w : Fin 4), s.tc.dir[n][w].pending = true ↔
    s.tc.dir[n][w].valid = true ∧ ∃ side, (recordOf side s).isOn s.tc.dir[n][w].key
  apart : ∀ i : Fin 8, (recordOf .a s).waiting.getLsbD i.val = true → (recordOf .b s).waiting.getLsbD i.val = false

/-- R93: a stream is in the waiting set of a fault exactly in WAIT_TILE. -/
def Awaited (s : State) : Prop :=
  ∀ i : Fin 8, (streamOf i s).state = .waitTile ↔ ∃ side, (recordOf side s).waiting.getLsbD i.val = true

/-- The laws of the blocks that draw. -/
structure Drawn (s : State) : Prop where
  queues : Queues s
  reserves : Reserves s
  faults : Faults s
  awaited : Awaited s
  dir : dirLegal s

/-! ### Keys in the directory -/

theorem dirLegal.home {s : State} (h : dirLegal s) {n : Fin 64} {w : Fin 4} (valid : s.tc.dir[n][w].valid = true) :
    s.tc.dir[n][w].key ≠ 0 ∧ setIndex s.tc.dir[n][w].key = n := (h n).2.1.2.1 w valid

/-- A key is in one entry. -/
theorem dirLegal.unique {s : State} (h : dirLegal s) {n m : Fin 64} {w v : Fin 4} (valid : s.tc.dir[n][w].valid = true)
    (other : s.tc.dir[m][v].valid = true) (same : s.tc.dir[n][w].key = s.tc.dir[m][v].key) : n = m ∧ w = v := by
  have sets : n = m := by rw [← (h.home valid).2, same, (h.home other).2]
  subst sets
  exact ⟨rfl, (h n).2.1.2.2 w v valid other same⟩

theorem findWay_holds {key : Word} {s : State} {w : Fin 4} (found : findWay key (tileSet key s) = some w) :
    s.tc.dir[setIndex key][w].valid = true ∧ s.tc.dir[setIndex key][w].key = key := findWay_some found

theorem holdsKey_of_found {key : Word} {s : State} {w : Fin 4} (found : findWay key (tileSet key s) = some w) : holdsKey key s :=
  ⟨_, w, findWay_holds found⟩

theorem dirLegal.holds_iff {s : State} (h : dirLegal s) {key : Word} :
    holdsKey key s ↔ (findWay key (tileSet key s)).isSome = true := by
  constructor
  · rintro ⟨n, w, valid, rfl⟩
    by_contra absent
    have index := (h.home valid).2
    refine findWay_eq_none.1 (Option.not_isSome_iff_eq_none.1 absent) w ?_ ?_ <;> simp only [tileSet, index, valid]
  · intro found
    obtain ⟨w, found⟩ := Option.isSome_iff_exists.1 found
    exact holdsKey_of_found found

theorem dirLegal.found {s : State} (h : dirLegal s) {n : Fin 64} {w : Fin 4} (valid : s.tc.dir[n][w].valid = true) :
    findWay s.tc.dir[n][w].key (tileSet s.tc.dir[n][w].key s) = some w := by
  obtain ⟨v, found⟩ := Option.isSome_iff_exists.1 (h.holds_iff.1 ⟨n, w, valid, rfl⟩)
  obtain ⟨valid', same⟩ := findWay_holds found
  rw [found, (h.unique valid' valid same).2]

/-! ### The laws of a session -/

theorem recordOf_a (s : State) : recordOf .a s = s.tf.recA := rfl
theorem recordOf_b (s : State) : recordOf .b s = s.tf.recB := rfl

theorem exists_side {p : Side → Prop} : (∃ side, p side) ↔ p .a ∨ p .b :=
  ⟨fun ⟨side, h⟩ => by cases side; exacts [.inl h, .inr h], fun h => h.elim (⟨_, ·⟩) (⟨_, ·⟩)⟩

theorem forall_side {p : Side → Prop} : (∀ side, p side) ↔ p .a ∧ p .b :=
  ⟨fun h => ⟨h .a, h .b⟩, fun h side => by cases side; exacts [h.1, h.2]⟩

theorem faultOn_isSome (key : Word) (s : State) : (faultOn key s).isSome = true ↔ ∃ side, (recordOf side s).isOn key := by
  simp only [exists_side, recordOf_a, recordOf_b, FaultRecord.isOn, faultOn]
  by_cases a : s.tf.recA.active = true ∧ s.tf.recA.key = key
  · simp [a]
  · by_cases b : s.tf.recB.active = true ∧ s.tf.recB.key = key <;> simp [a, b]

/-- Two masks have no member together. -/
theorem masks_apart (a b : BitVec 8) : a &&& b = 0 ↔ ∀ i : Fin 8, a.getLsbD i.val = true → b.getLsbD i.val = false := by
  constructor
  · intro apart i member
    have bit := congrArg (fun m => m.getLsbD i.val) apart
    simpa [member] using bit
  · intro h
    refine BitVec.eq_of_getLsbD_eq fun k inside => ?_
    by_cases member : a.getLsbD k = true
    · simp [h ⟨k, inside⟩ member]
    · simp [member]

theorem queues_iff (s : State) : Queues s ↔ streamsLegal s ∧ waitsLegal s ∧ executingLegal s := by
  have openly (i : Fin 8) : isOpen i s = true ↔ (streamOf i s).state ≠ .closed := by simp [isOpen]
  constructor
  · intro h
    refine ⟨⟨fun i => ?_, fun i closed => h.shut i ?_, h.queued .a, h.queued .b⟩, fun i some' => ⟨h.reserved i, ?_⟩,
      fun side => ⟨h.executing side, fun r busy kept => ?_⟩⟩
    · rw [Bool.eq_iff_iff, openly]
      exact h.sided i
    · by_contra other
      rw [(openly i).2 other] at closed
      exact absurd closed (by decide)
    · have opened : (streamOf i s).state ≠ .closed := by
        rcases some' with waits | reserved
        · intro closed
          rw [closed] at waits
          exact absurd waits (by decide)
        · rw [h.reserved i reserved]
          decide
      obtain ⟨side, own⟩ := Option.isSome_iff_exists.1 ((h.sided i).1 opened)
      obtain ⟨e, oldest, place, waits⟩ := h.awaits i side own some'
      simp only [oldestEntry, own]
      rw [oldest]
      simp [place, waits]
    · obtain ⟨⟨e, names, executing⟩, ready, unreserved⟩ := h.engine side r busy kept
      rw [names]
      exact ⟨executing, ready, unreserved⟩
  · rintro ⟨⟨sided, shut, queueA, queueB⟩, waits, executing⟩
    refine ⟨fun i => ?_, fun i closed => shut i ?_, fun side => ?_, fun i reserved => (waits i (.inr reserved)).1 reserved,
      fun i side own some' => ?_, fun side => (executing side).1, fun side r busy kept => ?_⟩
    · rw [← openly, sided]
    · rw [Bool.eq_false_iff]
      exact fun other => (openly i).1 other closed
    · cases side
      · exact queueA
      · exact queueB
    · have oldest := (waits i some').2
      simp only [oldestEntry, own] at oldest
      cases found : (queueOf side s).find? fun e => e.stream == i with
      | none => rw [found] at oldest; exact absurd oldest (by decide)
      | some e =>
        rw [found] at oldest
        exact ⟨e, rfl, by simpa using oldest⟩
    · obtain ⟨names, ready, unreserved⟩ := (executing side).2 r busy kept
      cases found : (queueOf side s).find? r.names with
      | none => rw [found] at names; exact absurd names (by decide)
      | some e => rw [found] at names; exact ⟨⟨e, rfl, names⟩, ready, unreserved⟩

theorem reserves_iff {s : State} (dir : dirLegal s) : Reserves s ↔ reservesLegal s := by
  refine ⟨fun h => ⟨h.whole, h.counted, fun i => ?_⟩, fun ⟨whole, counted, found⟩ => ⟨whole, counted, fun i key holds => ?_⟩⟩
  · cases holds : (streamOf i s).reservation with
    | none => rfl
    | some key => exact dir.holds_iff.1 (h.held i key holds)
  · have := found i
    rw [holds] at this
    exact dir.holds_iff.2 this

theorem faults_iff {s : State} (dir : dirLegal s) : Faults s ∧ Awaited s ↔ faultsLegal s := by
  simp only [faultsLegal, List.forall_mem_cons, List.not_mem_nil, false_implies, implies_true, and_true, masks_apart,
    ← dir.holds_iff, BitVec.getLsbD_or, Bool.or_eq_true]
  have pending (n : Fin 64) (w : Fin 4) : (s.tc.dir[n][w].pending = (s.tc.dir[n][w].valid && (faultOn s.tc.dir[n][w].key s).isSome)) ↔
      (s.tc.dir[n][w].pending = true ↔ s.tc.dir[n][w].valid = true ∧ ∃ side, (recordOf side s).isOn s.tc.dir[n][w].key) := by
    rw [Bool.eq_iff_iff, Bool.and_eq_true, faultOn_isSome]
  simp only [pending]
  constructor
  · rintro ⟨h, awaited⟩
    refine ⟨⟨h.idle .a, h.idle .b⟩, ⟨fun on => ?_, fun on => ?_⟩, fun a b same => h.once _ ⟨a, rfl⟩ ⟨b, same.symm⟩, h.pending,
      h.apart, fun i => (awaited i).trans exists_side⟩
    · have r := h.active .a on
      exact ⟨r.key, r.needed, r.waiting, r.tries, r.timer, h.held .a on⟩
    · have r := h.active .b on
      exact ⟨r.key, r.needed, r.waiting, r.tries, r.timer, h.held .b on⟩
  · rintro ⟨idle, ⟨a, b⟩, once, pending, apart, awaited⟩
    refine ⟨⟨forall_side.2 idle, forall_side.2 ⟨fun on => ?_, fun on => ?_⟩, forall_side.2 ⟨fun on => ?_, fun on => ?_⟩,
      fun key onA onB => once onA.1 onB.1 (onA.2.trans onB.2.symm), pending, apart⟩, fun i => (awaited i).trans (exists_side (p := fun side => (recordOf side s).waiting.getLsbD i.val = true)).symm⟩
    · obtain ⟨key, needed, waiting, tries, timer, _⟩ := a on
      exact ⟨key, needed, waiting, tries, timer⟩
    · obtain ⟨key, needed, waiting, tries, timer, _⟩ := b on
      exact ⟨key, needed, waiting, tries, timer⟩
    · obtain ⟨_, _, _, _, _, held⟩ := a on
      exact held
    · obtain ⟨_, _, _, _, _, held⟩ := b on
      exact held

theorem drawn_iff (s : State) : Drawn s ↔ streamsLegal s ∧ waitsLegal s ∧ executingLegal s ∧ reservesLegal s ∧ faultsLegal s ∧
    dirLegal s := by
  constructor
  · rintro ⟨queues, reserves, faults, awaited, dir⟩
    obtain ⟨streams, waits, executing⟩ := (queues_iff s).1 queues
    exact ⟨streams, waits, executing, (reserves_iff dir).1 reserves, (faults_iff dir).1 ⟨faults, awaited⟩, dir⟩
  · rintro ⟨streams, waits, executing, reserves, faults, dir⟩
    obtain ⟨faults, awaited⟩ := (faults_iff dir).2 faults
    exact ⟨(queues_iff s).2 ⟨streams, waits, executing⟩, (reserves_iff dir).2 reserves, faults, awaited, dir⟩

end Sys2Proof.Machine
end

section
/-! PROOFS. What keeps the laws of the streams, the side queues and the engines: streams that are woken or released, entries that join,
are shed, skipped, handed over or completed, and streams that begin to wait, open and close. -/

namespace Sys2Proof.Machine

/-! ### First entries of a list -/

theorem first_split {p : Entry → Bool} {q : List Entry} {e : Entry} (first : q.find? p = some e) :
    ∃ front back, q = front ++ e :: back ∧ (∀ d ∈ front, p d = false) ∧ p e = true ∧ q.eraseP p = front ++ back := by
  obtain ⟨is, front, back, split', before⟩ := List.find?_eq_some_iff_append.1 first
  refine ⟨front, back, split', fun d mem => by simpa using before d mem, is, ?_⟩
  rw [split', List.eraseP_append_right _ fun d mem => by simpa using before d mem, List.eraseP_cons_of_pos is]

/-- A search that passes an entry over finds the same without it. -/
theorem find_dropped {p : Entry → Bool} {front back : List Entry} {e d : Entry} (found : (front ++ e :: back).find? p = some d)
    (over' : p e = false) : (front ++ back).find? p = some d := by
  rw [List.find?_append, List.find?_cons_of_neg (by simp [over'])] at found
  rw [List.find?_append, found]

/-- A search that passes an entry over finds the same with another in its place that it passes over. -/
theorem find_replaced {p : Entry → Bool} {front back : List Entry} {e d : Entry} (x : Entry)
    (found : (front ++ e :: back).find? p = some d) (over' : p e = false) (skips : p x = false) :
    (front ++ x :: back).find? p = some d := by
  have := find_dropped found over'
  rw [List.find?_append] at this
  rw [List.find?_append, List.find?_cons_of_neg (by simp [skips]), this]

/-- A search finds the same in what a filter keeps when the filter keeps what it finds. -/
theorem find_filtered {p kept : Entry → Bool} {q : List Entry} {e : Entry} (found : q.find? p = some e) (keeps : kept e = true) :
    (q.filter kept).find? p = some e := by
  obtain ⟨front, back, rfl, before, is, _⟩ := first_split found
  rw [List.filter_append, List.filter_cons_of_pos keeps, List.find?_append,
    List.find?_eq_none.2 fun d mem => by simp [before d (List.mem_of_mem_filter mem)], List.find?_cons_of_pos is]
  rfl

/-! ### Streams that change little -/

/-- A stream that keeps its side and its place among the laws: it may be woken, may take or give back a reservation while it is READY,
and its numbers and marks are free. -/
structure Relaxed (r r' : Stream) : Prop where
  side : r'.side = r.side
  closed : r'.state = .closed ↔ r.state = .closed
  shut : r.state = .closed → r.rewind = none ∧ r.reservation = none → r'.rewind = none ∧ r'.reservation = none
  reserved : (r.reservation.isSome = true → r.state = .ready) → r'.reservation.isSome = true → r'.state = .ready
  waits : r'.state.waits = true ∨ r'.reservation.isSome = true → r.state.waits = true ∨ r.reservation.isSome = true
  ready : r.state = .ready → r'.state = .ready ∧ (r.reservation = none → r'.reservation = none)

theorem Relaxed.refl (r : Stream) : Relaxed r r := ⟨rfl, .rfl, fun _ h => h, fun h => h, fun h => h, fun h => ⟨h, id⟩⟩

theorem Relaxed.trans {a b c : Stream} (h : Relaxed a b) (g : Relaxed b c) : Relaxed a c where
  side := g.side.trans h.side
  closed := g.closed.trans h.closed
  shut closed unflagged := g.shut (h.closed.2 closed) (h.shut closed unflagged)
  reserved ready := g.reserved (h.reserved ready)
  waits some' := h.waits (g.waits some')
  ready on := ⟨(g.ready (h.ready on).1).1, (g.ready (h.ready on).1).2 ∘ (h.ready on).2⟩

/-- A waiting stream is woken, with or without a reservation. -/
theorem Relaxed.woken {r : Stream} (waits : r.state.waits = true) (reservation : Option Word) :
    Relaxed r { r with state := .ready, reservation := reservation } where
  side := rfl
  closed := ⟨fun h => (nomatch h), fun h => absurd waits (by rw [h]; decide)⟩
  shut h := absurd waits (by rw [h]; decide)
  reserved _ _ := rfl
  waits _ := .inl waits
  ready h := absurd waits (by rw [h]; decide)

/-- A reservation is given back. -/
theorem Relaxed.released (r : Stream) : Relaxed r { r with reservation := none } where
  side := rfl
  closed := .rfl
  shut _ h := ⟨h.1, rfl⟩
  reserved _ h := absurd h Bool.false_ne_true
  waits := fun h => h.elim .inl fun other => absurd other Bool.false_ne_true
  ready h := ⟨h, fun _ => rfl⟩

/-- The numbers and marks of an open stream. -/
theorem Relaxed.marked {r : Stream} (opened : r.state ≠ .closed) (expected : Half) (rewind : Option RewindReason) (renewed : Bool) :
    Relaxed r { r with expected := expected, rewind := rewind, renewed := renewed } where
  side := rfl
  closed := .rfl
  shut h := absurd h opened
  reserved h := h
  waits h := h
  ready h := ⟨h, id⟩

theorem waits_open {r : Stream} (waits : r.state.waits = true) : r.state ≠ .closed := fun closed =>
  absurd waits (by rw [closed]; decide)

/-! ### Entries that come and go -/

/-- Streams change little, entries of open streams come, and entries that no stream waits on and no engine executes go. -/
theorem Queues.change {s t : State} (h : Queues s) (streams : ∀ i : Fin 8, Relaxed (streamOf i s) (streamOf i t))
    (engines : ∀ side, engineOf side t = engineOf side s)
    (queued : ∀ side, ∀ e ∈ queueOf side t, (streamOf e.stream s).side = some side)
    (oldest : ∀ side i e, (streamOf i s).side = some side →
      (streamOf i t).state.waits = true ∨ (streamOf i t).reservation.isSome = true →
      (queueOf side s).find? (fun e => e.stream == i) = some e → (queueOf side t).find? (fun e => e.stream == i) = some e)
    (executing : ∀ side, (queueOf side t).countP Entry.executing = (queueOf side s).countP Entry.executing)
    (named : ∀ side r e, engineOf side s = some r → r.removed = false → (queueOf side s).find? r.names = some e →
      (streamOf r.stream s).state = .ready → (streamOf r.stream s).reservation = none → e.executing = true →
      (queueOf side t).find? r.names = some e) : Queues t where
  sided i := by
    rw [(streams i).side, Ne, (streams i).closed]
    exact h.sided i
  shut i closed := (streams i).shut ((streams i).closed.1 closed) (h.shut i ((streams i).closed.1 closed))
  queued side e mem := by
    rw [(streams e.stream).side]
    exact queued side e mem
  reserved i := (streams i).reserved (h.reserved i)
  awaits i side own some' := by
    rw [(streams i).side] at own
    obtain ⟨e, first, place, waits⟩ := h.awaits i side own ((streams i).waits some')
    exact ⟨e, oldest side i e own some' first, place, waits⟩
  executing side := by
    rw [executing, engines]
    exact h.executing side
  engine side r busy kept := by
    rw [engines] at busy
    obtain ⟨⟨e, first, is⟩, ready, unreserved⟩ := h.engine side r busy kept
    exact ⟨⟨e, named side r e busy kept first ready unreserved is, is⟩, ((streams r.stream).ready ready).1, ((streams r.stream).ready ready).2 unreserved⟩

/-- Streams change little, and the side queues and the engines do not change. -/
theorem Queues.relaxed {s t : State} (h : Queues s) (streams : ∀ i : Fin 8, Relaxed (streamOf i s) (streamOf i t))
    (queues : ∀ side, queueOf side t = queueOf side s) (engines : ∀ side, engineOf side t = engineOf side s) : Queues t :=
  h.change streams engines (fun side e mem => h.queued side e (by rwa [queues] at mem))
    (fun side i e _ _ first => by rw [queues]; exact first) (fun side => by rw [queues])
    fun side r e _ _ first _ _ _ => by rw [queues]; exact first

theorem Queues.of_same {s t : State} (h : Queues s) (sq : t.sq = s.sq) (de : t.de = s.de) : Queues t :=
  h.relaxed (fun i => by rw [streamOf_of_same sq]; exact .refl _) (queueOf_of_same sq) (engineOf_of_same de)

theorem Queues.opened {s : State} (h : Queues s) {i : Fin 8} {side : Side} (own : (streamOf i s).side = some side) :
    (streamOf i s).state ≠ .closed := (h.sided i).2 (by rw [own]; rfl)

theorem Queues.opened_entry {s : State} (h : Queues s) {side : Side} {e : Entry} (mem : e ∈ queueOf side s) :
    (streamOf e.stream s).state ≠ .closed := h.opened (h.queued side e mem)

/-- At a FREE engine nothing is executing. -/
theorem Queues.idle {s : State} (h : Queues s) {side : Side} (free : engineOf side s = none) {e : Entry} (mem : e ∈ queueOf side s) :
    e.executing = false := by
  have none' := h.executing side
  rw [free, if_neg (by decide), List.countP_eq_zero] at none'
  simpa using none' e mem

theorem side_cases (side x : Side) : x = side ∨ x = otherSide side := by cases side <;> cases x <;> decide

theorem queueOf_setQueue (side x : Side) (q : List Entry) (s : State) :
    queueOf x (setQueue side q s) = if x = side then q else queueOf x s := by
  cases side <;> cases x <;> rfl

theorem engineOf_setEngine (side x : Side) (r : Option ExecRecord) (s : State) :
    engineOf x (setEngine side r s) = if x = side then r else engineOf x s := by
  cases side <;> cases x <;> rfl

theorem engineOf_setQueue (side x : Side) (q : List Entry) (s : State) : engineOf x (setQueue side q s) = engineOf x s := by
  cases side <;> cases x <;> rfl

theorem queueOf_setEngine (side x : Side) (r : Option ExecRecord) (s : State) : queueOf x (setEngine side r s) = queueOf x s := by
  cases side <;> cases x <;> rfl

theorem streamOf_setEngine (side : Side) (r : Option ExecRecord) (i : Fin 8) (s : State) :
    streamOf i (setEngine side r s) = streamOf i s := by
  cases side <;> rfl

/-- One side queue changes: entries of its open streams come, and entries that no stream waits on and no engine executes go. -/
theorem Queues.setQueue {s : State} (h : Queues s) {side : Side} {q : List Entry}
    (queued : ∀ e ∈ q, (streamOf e.stream s).side = some side)
    (oldest : ∀ i e, (streamOf i s).state.waits = true ∨ (streamOf i s).reservation.isSome = true →
      (queueOf side s).find? (fun e => e.stream == i) = some e → q.find? (fun e => e.stream == i) = some e)
    (executing : q.countP Entry.executing = (queueOf side s).countP Entry.executing)
    (named : ∀ r e, engineOf side s = some r → r.removed = false → (queueOf side s).find? r.names = some e →
      (streamOf r.stream s).state = .ready → (streamOf r.stream s).reservation = none → e.executing = true →
      q.find? r.names = some e) : Queues (setQueue side q s) := by
  refine h.change (fun i => by rw [streamOf_setQueue]; exact .refl _) (fun x => engineOf_setQueue side x q s)
    (fun x e mem => ?_) (fun x i e _ some' first => ?_) (fun x => ?_) (fun x r e busy kept first ready unreserved is => ?_)
  · rw [queueOf_setQueue] at mem
    split at mem
    next same => exact same ▸ queued e mem
    next => exact h.queued x e mem
  · rw [streamOf_setQueue] at some'
    rw [queueOf_setQueue]
    split
    next same => exact oldest i e some' (same ▸ first)
    next => exact first
  · rw [queueOf_setQueue]
    split
    next same => rw [same, executing]
    next => rfl
  · rw [queueOf_setQueue]
    split
    next same => exact named r e (same ▸ busy) kept (same ▸ first) ready unreserved is
    next => exact first

/-- One stream changes little. -/
theorem Queues.setStream {s : State} (h : Queues s) {i : Fin 8} {r : Stream} (relaxed : Relaxed (streamOf i s) r) :
    Queues (setStream i r s) :=
  h.relaxed (fun j => by
    rw [streamOf_setStream]
    split
    next same => rw [same]; exact relaxed
    next => exact .refl _) (fun side => queueOf_setStream side i r s) fun side => by cases side <;> rfl

/-- Entries of an open stream join its side queue. -/
theorem Queues.joins {s : State} (h : Queues s) {side : Side} {i : Fin 8} (own : (streamOf i s).side = some side) {es : List Entry}
    (fresh : ∀ e ∈ es, e.stream = i ∧ e.executing = false) : Queues (Machine.setQueue side (queueOf side s ++ es) s) := by
  refine h.setQueue (fun e mem => ?_) (fun i e _ first => ?_) ?_ fun r e _ _ first _ _ _ => ?_
  · rcases List.mem_append.1 mem with old | new
    · exact h.queued side e old
    · rw [(fresh e new).1, own]
  · rw [List.find?_append, first, Option.some_or]
  · rw [List.countP_append, List.countP_eq_zero (l := es).2 fun e mem => by simp [(fresh e mem).2], Nat.add_zero]
  · rw [List.find?_append, first, Option.some_or]

/-- Entries that no stream waits on and no engine executes leave a side queue. -/
theorem Queues.filtered {s : State} (h : Queues s) {side : Side} {kept : Entry → Bool}
    (executing : ∀ e ∈ queueOf side s, e.executing = true → kept e = true)
    (oldest : ∀ i e, (streamOf i s).state.waits = true ∨ (streamOf i s).reservation.isSome = true →
      (queueOf side s).find? (fun e => e.stream == i) = some e → kept e = true) :
    Queues (Machine.setQueue side ((queueOf side s).filter kept) s) := by
  refine h.setQueue (fun e mem => h.queued side e (List.mem_of_mem_filter mem))
    (fun i e some' first => find_filtered first (oldest i e some' first)) ?_
    fun r e _ _ first _ _ is => find_filtered first (executing e (List.mem_of_find?_eq_some first) is)
  rw [List.countP_filter]
  refine List.countP_congr fun e mem => ?_
  simp only [Bool.and_eq_true, and_iff_left_iff_imp]
  exact executing e mem

/-- An entry of a stream that is READY without a reservation leaves the queue of a FREE engine. -/
theorem Queues.removes {s : State} (h : Queues s) {side : Side} (free : engineOf side s = none) {p : Entry → Bool} {e : Entry}
    (first : (queueOf side s).find? p = some e) (ready : (streamOf e.stream s).state = .ready)
    (unreserved : (streamOf e.stream s).reservation = none) : Queues (Machine.setQueue side ((queueOf side s).eraseP p) s) := by
  obtain ⟨front, back, split', _, _, erased⟩ := first_split first
  have mem : e ∈ queueOf side s := List.mem_of_find?_eq_some first
  refine h.setQueue (fun d mem => h.queued side d (List.mem_of_mem_eraseP mem)) (fun i d some' found => ?_) ?_
    fun r d busy => absurd (free.symm.trans busy) (by simp)
  · rw [split'] at found
    rw [erased]
    refine find_dropped found (beq_eq_false_iff_ne.2 ?_)
    rintro rfl
    rcases some' with waits | reserved
    · rw [ready] at waits
      exact absurd waits (by decide)
    · rw [unreserved] at reserved
      exact absurd reserved (by decide)
  · rw [erased, split', List.countP_append, List.countP_append, List.countP_cons_of_neg (by simp [h.idle free mem])]

/-! ### Entries at the engines -/

/-- A record that was copied from the entry that it names first. -/
theorem markExecuting_first {r : ExecRecord} {q front back : List Entry} {e : Entry} (split' : q = front ++ e :: back)
    (before : ∀ d ∈ front, r.names d = false) (named : r.names e = true) :
    markExecuting r q = front ++ { e with executing := true } :: back := by
  rw [split']
  exact markExecuting_at before named

/-- R47, R114: a FREE engine takes the oldest entry that a record names. -/
theorem Queues.takes {s : State} (h : Queues s) {side : Side} (free : engineOf side s = none) {r : ExecRecord} {e : Entry}
    (first : (queueOf side s).find? r.names = some e) (ready : (streamOf r.stream s).state = .ready)
    (unreserved : (streamOf r.stream s).reservation = none) (kept : r.removed = false) :
    Queues (setEngine side (some r) (Machine.setQueue side (markExecuting r (queueOf side s)) s)) := by
  obtain ⟨front, back, split', before, named, _⟩ := first_split first
  have marked := markExecuting_first split' before named
  have mem : e ∈ queueOf side s := List.mem_of_find?_eq_some first
  have own : e.stream = r.stream := by
    simp only [ExecRecord.names, Bool.and_eq_true, beq_iff_eq] at named
    exact named.1.1
  have named' : r.names { e with executing := true } = true := named
  have streams (i : Fin 8) : streamOf i (setEngine side (some r) (Machine.setQueue side (markExecuting r (queueOf side s)) s)) =
      streamOf i s := by rw [streamOf_setEngine, streamOf_setQueue]
  have queues (x : Side) : queueOf x (setEngine side (some r) (Machine.setQueue side (markExecuting r (queueOf side s)) s)) =
      if x = side then front ++ { e with executing := true } :: back else queueOf x s := by
    rw [queueOf_setEngine, queueOf_setQueue, marked]
  have engines (x : Side) : engineOf x (setEngine side (some r) (Machine.setQueue side (markExecuting r (queueOf side s)) s)) =
      if x = side then some r else engineOf x s := by
    rw [engineOf_setEngine, engineOf_setQueue]
  refine ⟨fun i => by rw [streams]; exact h.sided i, fun i => by rw [streams]; exact h.shut i, fun x d => ?_,
    fun i => by rw [streams]; exact h.reserved i, fun i x => ?_, fun x => ?_, fun x r' => ?_⟩
  · rw [queues, streams]
    split
    next same =>
      subst same
      intro mem'
      rcases List.mem_append.1 mem' with before' | here | after
      · exact h.queued x d (by rw [split']; exact List.mem_append_left _ before')
      · exact h.queued x e mem
      · exact h.queued x d (by rw [split']; exact List.mem_append_right _ (.tail _ (by assumption)))
    next => exact h.queued x d
  · rw [queues, streams]
    split
    next same =>
      subst same
      intro side' some'
      obtain ⟨d, found, place, waits⟩ := h.awaits i x side' some'
      have other : e.stream ≠ i := by
        rw [own]
        rintro rfl
        rcases some' with waits | reserved
        · rw [ready] at waits
          exact absurd waits (by decide)
        · rw [unreserved] at reserved
          exact absurd reserved (by decide)
      rw [split'] at found
      exact ⟨d, find_replaced _ found (beq_eq_false_iff_ne.2 other) (beq_eq_false_iff_ne.2 other), place, waits⟩
    next => exact h.awaits i x
  · rw [queues, engines]
    split
    next same =>
      subst same
      have zero := h.executing x
      rw [free, if_neg (by decide), split', List.countP_append, List.countP_cons] at zero
      rw [if_pos (by simp [kept]), List.countP_append, List.countP_cons_of_pos rfl]
      omega
    next => exact h.executing x
  · rw [queues, engines, streams]
    split
    next same =>
      intro busy _
      cases busy
      refine ⟨⟨{ e with executing := true }, ?_, rfl⟩, ready, unreserved⟩
      rw [List.find?_append, List.find?_eq_none.2 fun d mem => by simp [before d mem], List.find?_cons_of_pos named']
      rfl
    next => exact h.engine x r'

/-- R119, R120: an engine ends the execution of the entry that its record names, or of one that was removed. -/
theorem Queues.completes {s : State} (h : Queues s) {side : Side} {r : ExecRecord} (busy : engineOf side s = some r) :
    Queues (setEngine side none (if r.removed = true then s else removeEntry side r s)) := by
  have streams (i : Fin 8) : streamOf i (setEngine side none (if r.removed = true then s else removeEntry side r s)) = streamOf i s := by
    rw [streamOf_setEngine]
    split
    · rfl
    · rw [removeEntry, streamOf_setQueue]
  have queues (x : Side) : queueOf x (setEngine side none (if r.removed = true then s else removeEntry side r s)) =
      if x = side ∧ r.removed = false then (queueOf side s).eraseP r.names else queueOf x s := by
    rw [queueOf_setEngine]
    cases r.removed
    · rw [if_neg (by decide), removeEntry, queueOf_setQueue]
      simp
    · rw [if_pos rfl, if_neg fun both => absurd both.2 (by decide)]
  have engines (x : Side) : engineOf x (setEngine side none (if r.removed = true then s else removeEntry side r s)) =
      if x = side then none else engineOf x s := by
    rw [engineOf_setEngine]
    split
    · rfl
    · split
      · rfl
      · rw [removeEntry, engineOf_setQueue]
  have count := h.executing side
  rw [busy] at count
  refine ⟨fun i => by rw [streams]; exact h.sided i, fun i => by rw [streams]; exact h.shut i, fun x d => ?_,
    fun i => by rw [streams]; exact h.reserved i, fun i x => ?_, fun x => ?_, fun x r' => ?_⟩
  · rw [queues, streams]
    split
    next same =>
      intro mem
      rw [same.1]
      exact h.queued side d (List.mem_of_mem_eraseP mem)
    next => exact h.queued x d
  · rw [queues, streams]
    split
    next same =>
      intro own some'
      rw [same.1] at own
      obtain ⟨d, found, place, waits⟩ := h.awaits i side own some'
      obtain ⟨⟨e, first, _⟩, ready, unreserved⟩ := h.engine side r busy same.2
      obtain ⟨front, back, split', _, named, erased⟩ := first_split first
      simp only [ExecRecord.names, Bool.and_eq_true, beq_iff_eq] at named
      rw [split'] at found
      rw [erased]
      refine ⟨d, find_dropped found (beq_eq_false_iff_ne.2 ?_), place, waits⟩
      rintro rfl
      rw [named.1.1] at some'
      rcases some' with waits | reserved
      · rw [ready] at waits
        exact absurd waits (by decide)
      · rw [unreserved] at reserved
        exact absurd reserved (by decide)
    next => exact h.awaits i x
  · rw [engines]
    by_cases same : x = side
    · subst same
      rw [if_pos rfl, queues]
      cases removed : r.removed
      · rw [if_pos ⟨rfl, rfl⟩, if_neg (by decide)]
        obtain ⟨⟨e, first, is⟩, _⟩ := h.engine x r busy removed
        obtain ⟨front, back, split', _, _, erased⟩ := first_split first
        rw [split', List.countP_append, List.countP_cons_of_pos is, if_pos (by simp [removed])] at count
        rw [erased, List.countP_append]
        omega
      · rw [if_neg fun both => absurd both.2 (by decide), count]
        simp [removed]
    · rw [if_neg same, queues, if_neg fun both => same both.1]
      exact h.executing x
  · rw [engines, streams]
    by_cases same : x = side
    · rw [if_pos same]
      intro busy'
      cases busy'
    · rw [if_neg same, queues, if_neg fun both => same both.1]
      exact h.engine x r'

end Sys2Proof.Machine
end

section
/-! PROOFS. The laws of the streams, the side queues and the engines where a stream begins to wait, is skipped, shed, closed or opened,
and where nothing is queued. -/

namespace Sys2Proof.Machine

/-! ### The entry under execution -/

/-- A stream with an entry under execution is READY and holds no reservation. -/
theorem Queues.executing_ready {s : State} (h : Queues s) {side : Side} {d : Entry} (mem : d ∈ queueOf side s)
    (executing : d.executing = true) :
    ∃ r, engineOf side s = some r ∧ r.removed = false ∧ d.stream = r.stream ∧ (streamOf d.stream s).state = .ready ∧
      (streamOf d.stream s).reservation = none := by
  have count := h.executing side
  have some' : 0 < (queueOf side s).countP Entry.executing := List.countP_pos_iff.2 ⟨d, mem, executing⟩
  cases busy : engineOf side s with
  | none =>
    rw [busy, if_neg (by decide)] at count
    omega
  | some r =>
    cases removed : r.removed with
    | true =>
      rw [busy, if_neg (by simp [removed])] at count
      omega
    | false =>
      obtain ⟨⟨e, first, is⟩, ready, unreserved⟩ := h.engine side r busy removed
      obtain ⟨front, back, split', _, named, _⟩ := first_split first
      simp only [ExecRecord.names, Bool.and_eq_true, beq_iff_eq] at named
      rw [busy, if_pos (by simp [removed]), split', List.countP_append, List.countP_cons_of_pos is] at count
      have front0 : front.countP Entry.executing = 0 := by omega
      have back0 : back.countP Entry.executing = 0 := by omega
      have own : d.stream = r.stream := by
        rw [split'] at mem
        rcases List.mem_append.1 mem with before | here | after
        · exact absurd executing (by simpa using List.countP_eq_zero.1 front0 d before)
        · exact named.1.1
        · exact absurd executing (by simpa using List.countP_eq_zero.1 back0 d (by assumption))
      exact ⟨r, rfl, removed, own, by rw [own]; exact ready, by rw [own]; exact unreserved⟩

/-- A stream that waits or holds a reservation has no entry under execution. -/
theorem Queues.not_executing {s : State} (h : Queues s) {side : Side} {d : Entry} (mem : d ∈ queueOf side s)
    (some' : (streamOf d.stream s).state.waits = true ∨ (streamOf d.stream s).reservation.isSome = true) : d.executing = false := by
  by_contra executing
  obtain ⟨_, _, _, _, ready, unreserved⟩ := h.executing_ready mem (Bool.of_not_eq_false executing)
  rw [ready, unreserved] at some'
  exact absurd some' (by decide)

/-- A waiting stream holds no reservation. -/
theorem Queues.waits_unreserved {s : State} (h : Queues s) {i : Fin 8} (waits : (streamOf i s).state.waits = true) :
    (streamOf i s).reservation = none := by
  by_contra reserved
  have ready := h.reserved i (Option.isSome_iff_ne_none.2 reserved)
  rw [ready] at waits
  exact absurd waits (by decide)

/-- The entry that the sequencer hands over is the first of its stream. -/
theorem Queues.eligible_first {s : State} (h : Queues s) {side : Side} {e : Entry} (hands : eligible side s = some e)
    {p : Entry → Bool} (own : ∀ d, p d = true → d.stream = e.stream) (is : p e = true) : (queueOf side s).find? p = some e := by
  obtain ⟨free, ready, _, _⟩ := eligible_some hands
  simp only [eligible, free, Option.isSome_none, Bool.false_eq_true, if_false] at hands
  obtain ⟨front, back, split', before, _, _⟩ := first_split hands
  rw [split', List.find?_append, List.find?_eq_none.2 fun d mem picked => ?_, List.find?_cons_of_pos is]
  · rfl
  · have none' := before d mem
    rw [h.idle free (by rw [split']; exact List.mem_append_left _ mem), own d picked, ready] at none'
    exact absurd none' (by decide)

/-! ### Streams that wait, and streams that are shed or skipped -/

/-- R49: the stream of the entry handed over begins to wait on it, a PLACE. -/
theorem Queues.setWait {s : State} (h : Queues s) {side : Side} (free : engineOf side s = none) {i : Fin 8} {e : Entry}
    (own : (streamOf i s).side = some side) (unreserved : (streamOf i s).reservation = none)
    (first : (queueOf side s).find? (fun e => e.stream == i) = some e) (place : e.command.isPlace = true) {w : StreamState}
    (waits : w.waits = true) : Queues (Machine.setWait i w s) := by
  have opened := h.opened own
  have mem : e ∈ queueOf side s := List.mem_of_find?_eq_some first
  have streams (j : Fin 8) : streamOf j (Machine.setWait i w s) = if j = i then { streamOf i s with state := w } else streamOf j s :=
    streamOf_setStream i j _ s
  have queues (x : Side) : queueOf x (Machine.setWait i w s) = queueOf x s := queueOf_setStream x i _ s
  have engines (x : Side) : engineOf x (Machine.setWait i w s) = engineOf x s := by cases x <;> rfl
  have same (j : Fin 8) : (streamOf j (Machine.setWait i w s)).side = (streamOf j s).side ∧
      (streamOf j (Machine.setWait i w s)).reservation = (streamOf j s).reservation ∧
      (streamOf j (Machine.setWait i w s)).rewind = (streamOf j s).rewind := by
    rw [streams]
    split
    next here => rw [here]; exact ⟨rfl, rfl, rfl⟩
    next => exact ⟨rfl, rfl, rfl⟩
  have closed : w ≠ .closed := fun shut => absurd waits (by rw [shut]; decide)
  refine ⟨fun j => ?_, fun j shut => ?_, fun x d mem => ?_, fun j reserved => ?_, fun j x own' some' => ?_, fun x => ?_,
    fun x r busy kept => ?_⟩
  · rw [(same j).1, ← h.sided j, streams]
    split
    next here => rw [here]; exact ⟨fun _ => opened, fun _ => closed⟩
    next => exact .rfl
  · rw [(same j).2.1, (same j).2.2]
    rw [streams] at shut
    split at shut
    next => exact absurd shut closed
    next => exact h.shut j shut
  · rw [queues] at mem
    rw [(same _).1]
    exact h.queued x d mem
  · rw [(same j).2.1] at reserved
    rw [streams]
    split
    next here =>
      rw [here, unreserved] at reserved
      exact absurd reserved (by decide)
    next => exact h.reserved j reserved
  · rw [(same j).1] at own'
    rw [queues]
    by_cases here : j = i
    · subst here
      cases own.symm.trans own'
      exact ⟨e, first, place, h.idle free mem⟩
    · rw [streams, if_neg here] at some'
      exact h.awaits j x own' some'
  · rw [queues, engines]
    exact h.executing x
  · rw [engines] at busy
    obtain ⟨⟨d, found, is⟩, ready, unreserved'⟩ := h.engine x r busy kept
    have other : r.stream ≠ i := by
      intro here
      have named := List.find?_some found
      simp only [ExecRecord.names, Bool.and_eq_true, beq_iff_eq] at named
      have side' := h.queued x d (List.mem_of_find?_eq_some found)
      rw [named.1.1, here, own] at side'
      cases side'
      exact absurd (free.symm.trans busy) (by simp)
    rw [queues, streams, if_neg other]
    exact ⟨⟨d, found, is⟩, ready, unreserved'⟩

/-- R49, R102: the oldest entry of a waiting stream is skipped, and the stream is READY. -/
theorem Queues.skips {s : State} (h : Queues s) {i : Fin 8} {side : Side} (own : (streamOf i s).side = some side)
    (waits : (streamOf i s).state.waits = true) : Queues (headSkipped i side s) := by
  obtain ⟨e, first, _, idle⟩ := h.awaits i side own (.inl waits)
  obtain ⟨front, back, split', _, _, erased⟩ := first_split first
  have unreserved := h.waits_unreserved waits
  have stream : e.stream = i := by simpa using List.find?_some first
  have queues (x : Side) : queueOf x (headSkipped i side s) = if x = side then front ++ back else queueOf x s := by
    rw [queueOf_headSkipped, erased]
  refine h.change (fun j => ?_) (fun x => by cases side <;> cases x <;> rfl) (fun x d mem => ?_) (fun x j d _ some' found => ?_)
    (fun x => ?_) fun x r d busy kept found ready _ is => ?_
  · rw [streamOf_headSkipped]
    split
    next here => rw [here]; exact .woken waits _
    next => exact .refl _
  · rw [queues] at mem
    split at mem
    next here =>
      rw [here]
      refine h.queued side d ?_
      rw [split']
      rcases List.mem_append.1 mem with before | after
      · exact List.mem_append_left _ before
      · exact List.mem_append_right _ (.tail _ after)
    next => exact h.queued x d mem
  · rw [queues]
    split
    next here =>
      subst here
      rw [split'] at found
      refine find_dropped found (beq_eq_false_iff_ne.2 ?_)
      rintro same
      rw [← same, stream, streamOf_headSkipped, if_pos rfl, unreserved] at some'
      exact absurd some' (by simp [StreamState.waits])
    next => exact found
  · rw [queues]
    split
    next here => rw [here, split', List.countP_append, List.countP_append, List.countP_cons_of_neg (by simp [idle])]
    next => rfl
  · rw [queues]
    split
    next here =>
      subst here
      rw [split'] at found
      refine find_dropped found ?_
      simp only [ExecRecord.names, Bool.and_eq_false_imp, Bool.and_eq_true, beq_iff_eq, and_imp]
      intro same
      rw [← same, stream] at ready
      rw [ready] at waits
      exact absurd waits (by decide)
    next => exact found

theorem younger_stream {v : Fin 8} {q : List Entry} {e : Entry} (is : younger v q e = true) : e.stream = v := by
  simp only [younger, Bool.and_eq_true, beq_iff_eq] at is
  exact is.1

/-- R57: what a shed takes of a waiting stream. -/
theorem Queues.sheds {s : State} (h : Queues s) {side : Side} {v : Fin 8} (waits : (streamOf v s).state.waits = true) :
    Queues (Machine.setQueue side ((queueOf side s).filter fun e => !younger v (queueOf side s) e) s) := by
  refine h.filtered (fun e mem executing => ?_) fun i e some' first => ?_
  · rw [Bool.not_eq_true', Bool.eq_false_iff]
    intro is
    have := h.not_executing mem (.inl (by rw [younger_stream is]; exact waits))
    rw [executing] at this
    cases this
  · rw [Bool.not_eq_true', Bool.eq_false_iff]
    intro is
    have stream : e.stream = i := by simpa using List.find?_some first
    have same : v = i := (younger_stream is).symm.trans stream
    subst same
    simp [younger, oldestSeq, first] at is

/-! ### Streams that open and close -/

/-- R44, R45: a stream closes: its entries leave its side queue, and the one under execution is removed. -/
theorem Queues.closes {s t : State} (h : Queues s) {i : Fin 8} {side : Side} (own : (streamOf i s).side = some side)
    (closed : (streamOf i t).state = .closed ∧ (streamOf i t).side = none ∧ (streamOf i t).rewind = none ∧
      (streamOf i t).reservation = none)
    (others : ∀ j : Fin 8, j ≠ i → Relaxed (streamOf j s) (streamOf j t))
    (queues : ∀ x, queueOf x t = if x = side then (queueOf side s).filter fun e => e.stream != i else queueOf x s)
    (engines : ∀ x, engineOf x t = if x = side then
      (engineOf side s).map fun r => if r.stream = i then { r with removed := true } else r else engineOf x s) : Queues t := by
  obtain ⟨shut, noSide, unflagged, unreserved⟩ := closed
  have away (x : Side) (e : Entry) (mem : e ∈ queueOf x t) : e ∈ queueOf x s ∧ e.stream ≠ i := by
    rw [queues] at mem
    split at mem
    next here => rw [here]; simpa using mem
    next other =>
      refine ⟨mem, ?_⟩
      rintro rfl
      exact other (Option.some.inj ((h.queued x e mem).symm.trans own))
  have unexecuted {j : Fin 8} (other : j ≠ i) {x : Side} {e : Entry}
      (found : (queueOf x s).find? (fun e => e.stream == j) = some e) :
      (queueOf x t).find? (fun e => e.stream == j) = some e := by
    rw [queues]
    split
    next here =>
      subst here
      refine find_filtered found ?_
      have stream : e.stream = j := by simpa using List.find?_some found
      simpa [stream] using other
    next => exact found
  refine ⟨fun j => ?_, fun j closed => ?_, fun x e mem => ?_, fun j reserved => ?_, fun j x own' some' => ?_, fun x => ?_,
    fun x r busy kept => ?_⟩
  · by_cases here : j = i
    · rw [here, shut, noSide]
      exact ⟨fun other => absurd rfl other, fun other => absurd other (by decide)⟩
    · rw [(others j here).side, Ne, (others j here).closed]
      exact h.sided j
  · by_cases here : j = i
    · rw [here]
      exact ⟨unflagged, unreserved⟩
    · have closed' := (others j here).closed.1 closed
      exact (others j here).shut closed' (h.shut j closed')
  · obtain ⟨mem', other⟩ := away x e mem
    rw [(others _ other).side]
    exact h.queued x e mem'
  · by_cases here : j = i
    · rw [here, unreserved] at reserved
      exact absurd reserved (by decide)
    · exact (others j here).reserved (h.reserved j) reserved
  · have here : j ≠ i := by
      rintro rfl
      rw [noSide] at own'
      cases own'
    rw [(others j here).side] at own'
    obtain ⟨e, first, place, waits⟩ := h.awaits j x own' ((others j here).waits some')
    exact ⟨e, unexecuted here first, place, waits⟩
  · rw [queues, engines]
    split
    next here =>
      subst here
      have count := h.executing x
      have gone (e : Entry) (mem : e ∈ (queueOf x s).filter fun e => e.stream != i) (is : e.executing = true) :
          ∃ r, engineOf x s = some r ∧ r.removed = false ∧ r.stream ≠ i := by
        simp only [List.mem_filter, bne_iff_ne, ne_eq] at mem
        obtain ⟨r, busy, removed, stream, _⟩ := h.executing_ready mem.1 is
        exact ⟨r, busy, removed, stream ▸ mem.2⟩
      by_cases working : ∃ r, engineOf x s = some r ∧ r.removed = false ∧ r.stream ≠ i
      · obtain ⟨r, busy, removed, other⟩ := working
        rw [busy, if_pos (by simp [removed])] at count
        rw [busy, Option.map_some, if_neg other, if_pos (by simp [removed]), ← count, List.countP_filter]
        refine List.countP_congr fun e mem => ?_
        simp only [Bool.and_eq_true, bne_iff_ne, ne_eq, and_iff_left_iff_imp]
        intro is
        obtain ⟨r', busy', _, stream, _⟩ := h.executing_ready mem is
        cases busy.symm.trans busy'
        rw [stream]
        exact other
      · rw [List.countP_eq_zero.2 fun e mem is => working (gone e mem is), if_neg]
        cases busy : engineOf x s with
        | none => simp
        | some r =>
          intro is
          simp only [Option.map_some, Option.any_some, Bool.not_eq_true'] at is
          split at is
          next => cases is
          next other => exact working ⟨r, busy, is, other⟩
    next => exact h.executing x
  · rw [engines] at busy
    have settled {r : ExecRecord} (busy : engineOf x s = some r) (kept : r.removed = false) (other : r.stream ≠ i) :
        (∃ e, (queueOf x t).find? r.names = some e ∧ e.executing = true) ∧ (streamOf r.stream t).state = .ready ∧
          (streamOf r.stream t).reservation = none := by
      obtain ⟨⟨e, found, is⟩, ready, unreserved⟩ := h.engine x r busy kept
      refine ⟨⟨e, ?_, is⟩, ((others _ other).ready ready).1, ((others _ other).ready ready).2 unreserved⟩
      rw [queues]
      split
      next here =>
        subst here
        have named := List.find?_some found
        simp only [ExecRecord.names, Bool.and_eq_true, beq_iff_eq] at named
        exact find_filtered found (by simpa [named.1.1] using other)
      next => exact found
    split at busy
    next here =>
      subst here
      obtain ⟨r', busy', rfl⟩ := Option.map_eq_some_iff.1 busy
      split at kept
      next => cases kept
      next other =>
        rw [if_neg other]
        exact settled busy' kept other
    next here =>
      refine settled busy kept fun same => ?_
      obtain ⟨⟨e, found, _⟩, _⟩ := h.engine x r busy kept
      have named := List.find?_some found
      simp only [ExecRecord.names, Bool.and_eq_true, beq_iff_eq] at named
      have side' := h.queued x e (List.mem_of_find?_eq_some found)
      rw [named.1.1, same, own] at side'
      exact here (Option.some.inj side').symm

/-- R42: a closed stream opens on a side. -/
theorem Queues.opens {s t : State} (h : Queues s) {i : Fin 8} (closed : (streamOf i s).state = .closed)
    (opened : (streamOf i t).state = .ready ∧ (streamOf i t).side.isSome = true ∧ (streamOf i t).reservation = none)
    (others : ∀ j : Fin 8, j ≠ i → streamOf j t = streamOf j s) (queues : ∀ x, queueOf x t = queueOf x s)
    (engines : ∀ x, engineOf x t = engineOf x s) : Queues t := by
  obtain ⟨ready, sided, unreserved⟩ := opened
  have away {x : Side} {e : Entry} (mem : e ∈ queueOf x s) : e.stream ≠ i := fun here => h.opened_entry mem (here ▸ closed)
  refine ⟨fun j => ?_, fun j closed => ?_, fun x e mem => ?_, fun j reserved => ?_, fun j x own' some' => ?_, fun x => ?_,
    fun x r busy kept => ?_⟩
  · by_cases here : j = i
    · rw [here, ready]
      exact ⟨fun _ => sided, fun _ => by decide⟩
    · rw [others j here]
      exact h.sided j
  · by_cases here : j = i
    · rw [here, ready] at closed
      cases closed
    · rw [others j here] at closed ⊢
      exact h.shut j closed
  · rw [queues] at mem
    rw [others _ (away mem)]
    exact h.queued x e mem
  · by_cases here : j = i
    · rw [here, unreserved] at reserved
      exact absurd reserved (by decide)
    · rw [others j here] at reserved ⊢
      exact h.reserved j reserved
  · by_cases here : j = i
    · rw [here, unreserved, ready] at some'
      exact absurd some' (by decide)
    · rw [others j here] at own' some'
      rw [queues]
      exact h.awaits j x own' some'
  · rw [queues, engines]
    exact h.executing x
  · rw [engines] at busy
    have named := h.engine x r busy kept
    have other : r.stream ≠ i := by
      intro here
      rw [here, closed] at named
      exact absurd named.2.1 (by decide)
    rw [queues, others _ other]
    exact named

/-- Nothing is queued, no engine has an entry of a queue, and every stream is closed or READY. -/
theorem Queues.of_empty {s : State} (empty : ∀ side, queueOf side s = [])
    (engines : ∀ side r, engineOf side s = some r → r.removed = true)
    (streams : ∀ i : Fin 8, (streamOf i s).reservation = none ∧
      ((streamOf i s).state = .ready ∧ (streamOf i s).side.isSome = true ∨
        (streamOf i s).state = .closed ∧ (streamOf i s).side = none ∧ (streamOf i s).rewind = none)) : Queues s where
  sided i := by
    rcases (streams i).2 with ⟨ready, sided⟩ | ⟨closed, noSide, _⟩
    · rw [ready]
      exact ⟨fun _ => sided, fun _ => by decide⟩
    · rw [closed, noSide]
      exact ⟨fun other => absurd rfl other, fun other => absurd other (by decide)⟩
  shut i closed := by
    rcases (streams i).2 with ⟨ready, _⟩ | ⟨_, _, unflagged⟩
    · rw [closed] at ready
      cases ready
    · exact ⟨unflagged, (streams i).1⟩
  queued side e mem := by
    rw [empty] at mem
    cases mem
  reserved i reserved := by
    rw [(streams i).1] at reserved
    exact absurd reserved (by decide)
  awaits i side _ some' := by
    rw [(streams i).1] at some'
    rcases (streams i).2 with ⟨ready, _⟩ | ⟨closed, _⟩
    · rw [ready] at some'
      exact absurd some' (by decide)
    · rw [closed] at some'
      exact absurd some' (by decide)
  executing side := by
    rw [empty, if_neg]
    · rfl
    · cases busy : engineOf side s with
      | none => decide
      | some r => simp [engines side r busy]
  engine side r busy kept := by
    rw [engines side r busy] at kept
    cases kept

end Sys2Proof.Machine
end

section
/-! PROOFS. The reservations and the directory: what each operation of the Tile Cache and the Tile Fault Unit does to an entry, and that
the reserve counts stay the numbers of the streams that reserve. -/

namespace Sys2Proof.Machine

/-! ### Entries of the directory -/

theorem setTileSet_at (key : Word) (ways : TileSet) (s : State) (m : Fin 64) (v : Fin 4) :
    (setTileSet key ways s).tc.dir[m][v] = if m = setIndex key then ways[v] else s.tc.dir[m][v] := by
  unfold setTileSet
  split
  next here =>
    subst here
    exact congrArg (fun ways : TileSet => ways[v]) (Vector.getElem_set_self _)
  next other =>
    exact congrArg (fun ways : TileSet => ways[v]) (Vector.getElem_set_ne (setIndex key).isLt m.isLt fun same => other (Fin.ext same).symm)

/-- One entry of a directory is written. -/
def wrote (n : Fin 64) (w : Fin 4) (e : DirEntry) (s t : State) : Prop :=
  ∀ (m : Fin 64) (v : Fin 4), t.tc.dir[m][v] = if m = n ∧ v = w then e else s.tc.dir[m][v]

theorem setTileSet_wrote (key : Word) (w : Fin 4) (e : DirEntry) (s : State) :
    wrote (setIndex key) w e s (setTileSet key ((tileSet key s).set w e) s) := by
  intro m v
  rw [setTileSet_at]
  split
  next here =>
    rw [set_way, here]
    simp only [true_and]
    rfl
  next other => rw [if_neg fun both => other both.1]

theorem mapEntry_wrote {key : Word} {f : DirEntry → DirEntry} {s : State} {w : Fin 4}
    (found : findWay key (tileSet key s) = some w) :
    wrote (setIndex key) w (f s.tc.dir[setIndex key][w]) s (mapEntry key f s) := by
  unfold mapEntry
  rw [found]
  exact setTileSet_wrote key w _ s

theorem wrote_here {n : Fin 64} {w : Fin 4} {e : DirEntry} {s t : State} (h : wrote n w e s t) : t.tc.dir[n][w] = e := by
  rw [h, if_pos ⟨rfl, rfl⟩]

/-- An entry that keeps what the reservations and the faults read of it. -/
structure SameTile (e e' : DirEntry) : Prop where
  valid : e'.valid = e.valid
  key : e'.key = e.key
  sectors : e'.sectors = e.sectors
  pending : e'.pending = e.pending
  reserve : e'.reserve = e.reserve

theorem SameTile.refl (e : DirEntry) : SameTile e e := ⟨rfl, rfl, rfl, rfl, rfl⟩

theorem makeRecent_same (key : Word) (w : Fin 4) (s : State) (m : Fin 64) (v : Fin 4) :
    SameTile s.tc.dir[m][v] (setTileSet key (makeRecent w (tileSet key s)) s).tc.dir[m][v] := by
  rw [setTileSet_at]
  split
  next here =>
    subst here
    rw [makeRecent_way]
    exact ⟨rfl, rfl, rfl, rfl, rfl⟩
  next => exact .refl _

theorem holdsKey_of_same {key : Word} {s t : State} (h : holdsKey key s)
    (entries : ∀ (n : Fin 64) (w : Fin 4), t.tc.dir[n][w].valid = s.tc.dir[n][w].valid ∧ t.tc.dir[n][w].key = s.tc.dir[n][w].key) :
    holdsKey key t := by
  obtain ⟨n, w, valid, holds⟩ := h
  exact ⟨n, w, (entries n w).1.trans valid, (entries n w).2.trans holds⟩

/-! ### Reservations -/

theorem reservers_of_same {s t : State} (same : ∀ i : Fin 8, (streamOf i t).reservation = (streamOf i s).reservation) (key : Word) :
    reservers key t = reservers key s := by
  unfold reservers
  simp only [same]

theorem reservers_eq_zero {key : Word} {s : State} : reservers key s = 0 ↔ ∀ i : Fin 8, (streamOf i s).reservation ≠ some key := by
  simp [reservers, List.countP_eq_zero]

/-- A stream gives back its reservation. -/
theorem reservers_given {s t : State} {i : Fin 8} {key : Word} (holds : (streamOf i s).reservation = some key)
    (given : (streamOf i t).reservation = none)
    (others : ∀ j : Fin 8, j ≠ i → (streamOf j t).reservation = (streamOf j s).reservation) (k : Word) :
    reservers k t + (if k = key then 1 else 0) = reservers k s := by
  split
  next here =>
    subst here
    refine countP_leaves (List.nodup_finRange 8) (List.mem_finRange i) ?_ ?_ fun j other => by rw [others j other]
    · simp [holds]
    · simp [given]
  next other =>
    refine List.countP_congr fun j _ => ?_
    by_cases here : j = i
    · subst here
      simp [holds, given, Ne.symm other]
    · rw [others j here]

/-- The entries keep what the reservations read of them, or gain sectors. -/
theorem Reserves.change {s t : State} (h : Reserves s)
    (reservations : ∀ i : Fin 8, (streamOf i t).reservation = (streamOf i s).reservation)
    (entries : ∀ (n : Fin 64) (w : Fin 4), t.tc.dir[n][w].valid = s.tc.dir[n][w].valid ∧
      t.tc.dir[n][w].key = s.tc.dir[n][w].key ∧ t.tc.dir[n][w].reserve = s.tc.dir[n][w].reserve ∧
      (s.tc.dir[n][w].sectors ≠ 0 → t.tc.dir[n][w].sectors ≠ 0)) : Reserves t where
  whole n w reserved := by
    obtain ⟨_, _, reserve, sectors⟩ := entries n w
    rw [reserve] at reserved
    exact sectors (h.whole n w reserved)
  counted n w valid := by
    obtain ⟨valid', key, reserve, _⟩ := entries n w
    rw [reserve, key, reservers_of_same reservations]
    exact h.counted n w (valid'.symm.trans valid)
  held i key holds := by
    rw [reservations] at holds
    exact holdsKey_of_same (h.held i key holds) fun n w => ⟨(entries n w).1, (entries n w).2.1⟩

theorem Reserves.of_same {s t : State} (h : Reserves s)
    (reservations : ∀ i : Fin 8, (streamOf i t).reservation = (streamOf i s).reservation) (dir : t.tc.dir = s.tc.dir) : Reserves t :=
  h.change reservations fun n w => by rw [dir]; exact ⟨rfl, rfl, rfl, id⟩

theorem Reserves.same_tiles {s t : State} (h : Reserves s)
    (reservations : ∀ i : Fin 8, (streamOf i t).reservation = (streamOf i s).reservation)
    (tiles : ∀ (n : Fin 64) (w : Fin 4), SameTile s.tc.dir[n][w] t.tc.dir[n][w]) : Reserves t :=
  h.change reservations fun n w =>
    ⟨(tiles n w).valid, (tiles n w).key, (tiles n w).reserve, by rw [(tiles n w).sectors]; exact id⟩

/-- An entry that no stream reserves is not counted as reserved. -/
theorem Reserves.unreserved {s : State} (h : Reserves s) {n : Fin 64} {w : Fin 4} (valid : s.tc.dir[n][w].valid = true)
    (none' : s.tc.dir[n][w].reserve = 0) (i : Fin 8) : (streamOf i s).reservation ≠ some s.tc.dir[n][w].key :=
  reservers_eq_zero.1 ((h.counted n w valid).symm.trans none') i

/-- R82: a stream gives back its reservation, and the entry counts one less. -/
theorem Reserves.gives {s t : State} (h : Reserves s) (dir : dirLegal s) {i : Fin 8} {key : Word}
    (holds : (streamOf i s).reservation = some key) (given : (streamOf i t).reservation = none)
    (others : ∀ j : Fin 8, j ≠ i → (streamOf j t).reservation = (streamOf j s).reservation) {n : Fin 64} {w : Fin 4}
    (valid : s.tc.dir[n][w].valid = true) (named : s.tc.dir[n][w].key = key)
    (written : wrote n w { s.tc.dir[n][w] with reserve := s.tc.dir[n][w].reserve - 1 } s t) : Reserves t := by
  have entry (m : Fin 64) (v : Fin 4) : t.tc.dir[m][v] = { s.tc.dir[m][v] with
      reserve := s.tc.dir[m][v].reserve - (if m = n ∧ v = w then 1 else 0) } := by
    rw [written]
    split
    next here => rw [here.1, here.2]
    next => rfl
  refine ⟨fun m v reserved => ?_, fun m v valid' => ?_, fun j k holds' => ?_⟩
  · rw [entry] at reserved ⊢
    refine h.whole m v fun zero => reserved ?_
    dsimp only
    omega
  · rw [entry] at valid' ⊢
    have count := reservers_given holds given others s.tc.dir[m][v].key
    rw [← h.counted m v valid'] at count
    have here : (m = n ∧ v = w) ↔ s.tc.dir[m][v].key = key := by
      constructor
      · rintro ⟨rfl, rfl⟩
        exact named
      · intro same
        exact dir.unique valid' valid (same.trans named.symm)
    simp only [here]
    omega
  · have before : (streamOf j s).reservation = some k := by
      by_cases here : j = i
      · rw [here, given] at holds'
        cases holds'
      · rwa [others j here] at holds'
    exact holdsKey_of_same (h.held j k before) fun m v => by rw [entry]; exact ⟨rfl, rfl⟩

/-- R75, R76: an entry that is invalid or not reserved is taken for a key that no entry has. -/
theorem Reserves.takes {s t : State} (h : Reserves s)
    (reservations : ∀ i : Fin 8, (streamOf i t).reservation = (streamOf i s).reservation) {n : Fin 64} {w : Fin 4} {key : Word}
    (absent : ¬ holdsKey key s) (spare : s.tc.dir[n][w].valid = true → s.tc.dir[n][w].reserve = 0)
    (here : t.tc.dir[n][w] = ⟨true, key, 0, 0, false, false, 0⟩)
    (others : ∀ (m : Fin 64) (v : Fin 4), ¬ (m = n ∧ v = w) → SameTile s.tc.dir[m][v] t.tc.dir[m][v]) : Reserves t := by
  refine ⟨fun m v reserved => ?_, fun m v valid => ?_, fun i k holds => ?_⟩
  · by_cases same : m = n ∧ v = w
    · rw [same.1, same.2, here] at reserved
      exact absurd rfl reserved
    · rw [(others m v same).reserve] at reserved
      rw [(others m v same).sectors]
      exact h.whole m v reserved
  · rw [reservers_of_same reservations]
    by_cases same : m = n ∧ v = w
    · rw [same.1, same.2, here]
      exact (reservers_eq_zero.2 fun i holds => absent (h.held i key holds)).symm
    · rw [(others m v same).reserve, (others m v same).key]
      exact h.counted m v ((others m v same).valid.symm.trans valid)
  · rw [reservations] at holds
    obtain ⟨m, v, valid, named⟩ := h.held i k holds
    by_cases same : m = n ∧ v = w
    · rw [same.1, same.2] at valid named
      exact absurd holds (named ▸ h.unreserved valid (spare valid) i)
    · exact ⟨m, v, (others m v same).valid.trans valid, (others m v same).key.trans named⟩

theorem countP_disjoint {α : Type} {p q r : α → Bool} {l : List α} (either : ∀ a ∈ l, r a = (p a || q a))
    (apart : ∀ a ∈ l, ¬ (p a = true ∧ q a = true)) : l.countP r = l.countP p + l.countP q := by
  induction l with
  | nil => rfl
  | cons a l ih =>
    have rest := ih (fun b mem => either b (.tail _ mem)) fun b mem => apart b (.tail _ mem)
    have here := either a (.head _)
    have alone := apart a (.head _)
    rw [List.countP_cons, List.countP_cons, List.countP_cons, rest, here]
    cases p' : p a <;> cases q' : q a <;> simp_all <;> omega

/-- R99: each stream of a waiting set takes a reservation on an entry that holds a sector. -/
theorem Reserves.gains {s t : State} (h : Reserves s) (dir : dirLegal s) {members : BitVec 8} {key : Word}
    (free : ∀ i : Fin 8, members.getLsbD i.val = true → (streamOf i s).reservation = none)
    (taken : ∀ i : Fin 8, (streamOf i t).reservation =
      if members.getLsbD i.val = true then some key else (streamOf i s).reservation)
    {n : Fin 64} {w : Fin 4} (valid : s.tc.dir[n][w].valid = true) (named : s.tc.dir[n][w].key = key)
    (sectors : s.tc.dir[n][w].sectors ≠ 0)
    (written : wrote n w { s.tc.dir[n][w] with
      pending := false, reserve := s.tc.dir[n][w].reserve + (membersOf members).length } s t) : Reserves t := by
  have entry (m : Fin 64) (v : Fin 4) : t.tc.dir[m][v].valid = s.tc.dir[m][v].valid ∧ t.tc.dir[m][v].key = s.tc.dir[m][v].key ∧
      t.tc.dir[m][v].sectors = s.tc.dir[m][v].sectors ∧ t.tc.dir[m][v].reserve =
        s.tc.dir[m][v].reserve + (if m = n ∧ v = w then (membersOf members).length else 0) := by
    rw [written]
    split
    next here => rw [here.1, here.2]; exact ⟨rfl, rfl, rfl, rfl⟩
    next => exact ⟨rfl, rfl, rfl, rfl⟩
  have count (k : Word) : reservers k t = reservers k s + (if k = key then (membersOf members).length else 0) := by
    split
    next here =>
      subst here
      rw [membersOf, ← List.countP_eq_length_filter]
      refine countP_disjoint (fun i _ => ?_) fun i _ both => ?_
      · rw [taken]
        cases members.getLsbD i.val <;> simp
      · rw [free i both.2] at both
        exact absurd both.1 (by simp)
    next other =>
      rw [Nat.add_zero]
      refine List.countP_congr fun i _ => ?_
      rw [taken]
      split
      next member => simp [free i member, Ne.symm other]
      next => rfl
  refine ⟨fun m v reserved => ?_, fun m v valid' => ?_, fun i k holds => ?_⟩
  · obtain ⟨_, _, same, reserve⟩ := entry m v
    rw [same]
    by_cases here : m = n ∧ v = w
    · rw [here.1, here.2]
      exact sectors
    · rw [reserve, if_neg here, Nat.add_zero] at reserved
      exact h.whole m v reserved
  · obtain ⟨sameValid, sameKey, _, reserve⟩ := entry m v
    rw [sameValid] at valid'
    have here : (m = n ∧ v = w) ↔ s.tc.dir[m][v].key = key := by
      constructor
      · rintro ⟨rfl, rfl⟩
        exact named
      · intro same
        exact dir.unique valid' valid (same.trans named.symm)
    rw [sameKey, reserve, count, h.counted m v valid']
    simp only [here]
  · have present : holdsKey k s := by
      rw [taken] at holds
      split at holds
      next =>
        cases holds
        exact ⟨n, w, valid, named⟩
      next => exact h.held i k holds
    exact holdsKey_of_same present fun m v => ⟨(entry m v).1, (entry m v).2.1⟩

/-- R71, R102, R103: an entry that is no longer pending, and with no sector valid is invalid; what has a reservation has a sector. -/
theorem Reserves.clears {s t : State} (h : Reserves s)
    (reservations : ∀ i : Fin 8, (streamOf i t).reservation = (streamOf i s).reservation) {n : Fin 64} {w : Fin 4}
    (written : wrote n w (clearPending s.tc.dir[n][w]) s t) : Reserves t := by
  by_cases empty : s.tc.dir[n][w].sectors = 0
  · have spare : s.tc.dir[n][w].reserve = 0 := by
      by_contra reserved
      exact h.whole n w reserved empty
    have gone : clearPending s.tc.dir[n][w] = DirEntry.invalid s.tc.dir[n][w].age := if_pos empty
    refine ⟨fun m v reserved => ?_, fun m v valid => ?_, fun i k holds => ?_⟩
    · rw [written] at reserved ⊢
      split at reserved
      next => exact absurd rfl (gone ▸ reserved)
      next other =>
        rw [if_neg other]
        exact h.whole m v reserved
    · rw [reservers_of_same reservations]
      rw [written] at valid ⊢
      split at valid
      next =>
        rw [gone] at valid
        cases valid
      next other =>
        rw [if_neg other]
        exact h.counted m v valid
    · rw [reservations] at holds
      obtain ⟨m, v, valid, named⟩ := h.held i k holds
      by_cases here : m = n ∧ v = w
      · rw [here.1, here.2] at valid named
        exact absurd holds (named ▸ h.unreserved valid spare i)
      · exact ⟨m, v, by rw [written, if_neg here]; exact valid, by rw [written, if_neg here]; exact named⟩
  · have kept : clearPending s.tc.dir[n][w] = { s.tc.dir[n][w] with pending := false } := if_neg empty
    refine h.change reservations fun m v => ?_
    rw [written, kept]
    split
    next here => rw [here.1, here.2]; exact ⟨rfl, rfl, rfl, id⟩
    next => exact ⟨rfl, rfl, rfl, id⟩

/-- No stream holds a reservation, and no entry is reserved. -/
theorem Reserves.of_unreserved {s : State} (streams : ∀ i : Fin 8, (streamOf i s).reservation = none)
    (entries : ∀ (n : Fin 64) (w : Fin 4), s.tc.dir[n][w].reserve = 0) : Reserves s where
  whole n w reserved := absurd (entries n w) reserved
  counted n w _ := by
    rw [entries]
    exact (reservers_eq_zero.2 fun i holds => by rw [streams] at holds; cases holds).symm
  held i key holds := by
    rw [streams] at holds
    cases holds

/-- With no reservation held no entry is reserved. -/
theorem Reserves.none_reserved {s : State} (h : Reserves s) (dir : dirLegal s)
    (streams : ∀ i : Fin 8, (streamOf i s).reservation = none) (n : Fin 64) (w : Fin 4) : s.tc.dir[n][w].reserve = 0 := by
  cases valid : s.tc.dir[n][w].valid with
  | true =>
    rw [h.counted n w valid]
    exact reservers_eq_zero.2 fun i holds => by rw [streams] at holds; cases holds
  | false =>
    rw [(dir n).2.1.1 w valid]
    rfl

end Sys2Proof.Machine
end

section
/-! PROOFS. The fault records, the pending entries of the directory and the waiting sets: what keeps their laws. -/

namespace Sys2Proof.Machine

/-! ### Waiting sets -/

theorem member_bit (i j : Fin 8) : (BitVec.ofNat 8 (2 ^ i.val)).getLsbD j.val = decide (j = i) := by
  revert i j
  decide

theorem bit_ne_zero (i : Fin 8) : BitVec.ofNat 8 (2 ^ i.val) ≠ 0 := by
  revert i
  decide

/-- The states of WAIT_TILE and the waiting sets do not change. -/
theorem Awaited.of_same {s t : State} (h : Awaited s)
    (streams : ∀ i : Fin 8, (streamOf i t).state = .waitTile ↔ (streamOf i s).state = .waitTile)
    (records : ∀ side, (recordOf side t).waiting = (recordOf side s).waiting) : Awaited t := fun i => by
  rw [streams]
  simp only [records]
  exact h i

/-! ### Fault records -/

theorem recordOf_setRecord_at (side x : Side) (r : FaultRecord) (s : State) :
    recordOf x (setRecord side r s) = if x = side then r else recordOf x s := by
  cases side <;> cases x <;> rfl

theorem isOn_idle (key : Word) : ¬ FaultRecord.idle.isOn key := fun h => Bool.false_ne_true h.1

/-- At most one record is of a fault on a key. -/
theorem Faults.one {s : State} (h : Faults s) {key : Word} {x y : Side} (onX : (recordOf x s).isOn key)
    (onY : (recordOf y s).isOn key) : x = y := by
  cases x <;> cases y
  · rfl
  · exact absurd onY (h.once key onX)
  · exact absurd onX (h.once key onY)
  · rfl

/-- A record that stays of the same fault, or IDLE. -/
structure SameFault (r r' : FaultRecord) : Prop where
  active : r'.active = r.active
  key : r'.key = r.key
  idle : r.active = false → r = FaultRecord.idle → r' = FaultRecord.idle
  faulting : r.active = true → Faulting r → Faulting r'

theorem SameFault.refl (r : FaultRecord) : SameFault r r := ⟨rfl, rfl, fun _ h => h, fun _ h => h⟩

theorem SameFault.isOn {r r' : FaultRecord} (h : SameFault r r') (key : Word) : r'.isOn key ↔ r.isOn key := by
  unfold FaultRecord.isOn
  rw [h.active, h.key]

/-- The records stay of the same faults, and the entries of the directory keep what the faults read of them. -/
theorem Faults.change {s t : State} (h : Faults s) (records : ∀ side, SameFault (recordOf side s) (recordOf side t))
    (entries : ∀ (n : Fin 64) (w : Fin 4), t.tc.dir[n][w].valid = s.tc.dir[n][w].valid ∧
      t.tc.dir[n][w].key = s.tc.dir[n][w].key ∧ t.tc.dir[n][w].pending = s.tc.dir[n][w].pending)
    (apart : ∀ i : Fin 8, (recordOf .a t).waiting.getLsbD i.val = true → (recordOf .b t).waiting.getLsbD i.val = false) :
    Faults t where
  idle side off := by
    rw [(records side).active] at off
    exact (records side).idle off (h.idle side off)
  active side on := by
    rw [(records side).active] at on
    exact (records side).faulting on (h.active side on)
  held side on := by
    rw [(records side).active] at on
    rw [(records side).key]
    exact holdsKey_of_same (h.held side on) fun n w => ⟨(entries n w).1, (entries n w).2.1⟩
  once key := by
    rw [(records .a).isOn, (records .b).isOn]
    exact h.once key
  pending n w := by
    obtain ⟨valid, key, pending⟩ := entries n w
    rw [valid, key, pending, h.pending]
    simp only [fun side => (records side).isOn]
  apart := apart

theorem Faults.same_tiles {s t : State} (h : Faults s) (tf : t.tf = s.tf)
    (tiles : ∀ (n : Fin 64) (w : Fin 4), SameTile s.tc.dir[n][w] t.tc.dir[n][w]) : Faults t := by
  have records (side : Side) : recordOf side t = recordOf side s := recordOf_of_same tf
  refine h.change (fun side => by rw [records]; exact .refl _)
    (fun n w => ⟨(tiles n w).valid, (tiles n w).key, (tiles n w).pending⟩) ?_
  rw [records, records]
  exact h.apart

theorem Faults.of_same {s t : State} (h : Faults s) (tf : t.tf = s.tf) (dir : t.tc.dir = s.tc.dir) : Faults t :=
  h.same_tiles tf fun n w => by rw [dir]; exact .refl _

/-- The entry of an active fault is pending. -/
theorem Faults.pending_of {s : State} (h : Faults s) {side : Side} {n : Fin 64} {w : Fin 4}
    (on : (recordOf side s).active = true) (valid : s.tc.dir[n][w].valid = true)
    (named : s.tc.dir[n][w].key = (recordOf side s).key) : s.tc.dir[n][w].pending = true :=
  (h.pending n w).2 ⟨valid, side, on, named.symm⟩

/-- A stream is in the waiting set of one record. -/
theorem Faults.one_set {s : State} (h : Faults s) {i : Fin 8} {x y : Side} (inX : (recordOf x s).waiting.getLsbD i.val = true)
    (inY : (recordOf y s).waiting.getLsbD i.val = true) : x = y := by
  cases x <;> cases y
  · rfl
  · exact absurd inY (by rw [h.apart i inX]; decide)
  · exact absurd inX (by rw [h.apart i inY]; decide)
  · rfl

/-- A stream in the waiting set of a record is in that of an active fault. -/
theorem Faults.active_of {s : State} (h : Faults s) {side : Side} {i : Fin 8}
    (member : (recordOf side s).waiting.getLsbD i.val = true) : (recordOf side s).active = true := by
  by_contra off
  rw [h.idle side (Bool.eq_false_iff.2 off)] at member
  exact absurd member (by simp [FaultRecord.idle])

/-- R96: a fault is raised on an entry that no fault names. -/
theorem Faults.raises {s t : State} (h : Faults s) (dir : dirLegal s) {side : Side} (off : (recordOf side s).active = false)
    {i : Fin 8} (fresh : ∀ x, (recordOf x s).waiting.getLsbD i.val = false) {key : Word} (unnamed : ∀ x, ¬ (recordOf x s).isOn key)
    (raised : Faulting (recordOf side t) ∧ (recordOf side t).isOn key ∧ (recordOf side t).waiting = BitVec.ofNat 8 (2 ^ i.val))
    (other : recordOf (otherSide side) t = recordOf (otherSide side) s) {n : Fin 64} {w : Fin 4}
    (valid : s.tc.dir[n][w].valid = true) (named : s.tc.dir[n][w].key = key)
    (written : wrote n w { s.tc.dir[n][w] with pending := true } s t) : Faults t := by
  obtain ⟨faulting, on, waiting⟩ := raised
  have entries (m : Fin 64) (v : Fin 4) : t.tc.dir[m][v].valid = s.tc.dir[m][v].valid ∧
      t.tc.dir[m][v].key = s.tc.dir[m][v].key := by
    rw [written]
    split
    next here => rw [here.1, here.2]; exact ⟨rfl, rfl⟩
    next => exact ⟨rfl, rfl⟩
  have others {x : Side} (here : x ≠ side) : recordOf x t = recordOf x s := by
    rw [(side_cases side x).resolve_left here, other]
  have isOn (k : Word) : (∃ x, (recordOf x t).isOn k) ↔ k = key ∨ ∃ x, (recordOf x s).isOn k := by
    constructor
    · rintro ⟨x, onX⟩
      by_cases here : x = side
      · subst here
        exact .inl (onX.2.symm.trans on.2)
      · exact .inr ⟨x, others here ▸ onX⟩
    · rintro (rfl | ⟨x, onX⟩)
      · exact ⟨side, on⟩
      · refine ⟨x, ?_⟩
        rw [others]
        · exact onX
        · rintro rfl
          exact absurd onX.1 (by rw [off]; decide)
  refine ⟨fun x off' => ?_, fun x on' => ?_, fun x on' => ?_, fun k => ?_, fun m v => ?_, fun j => ?_⟩
  · by_cases here : x = side
    · rw [here, on.1] at off'
      cases off'
    · rw [others here] at off' ⊢
      exact h.idle x off'
  · by_cases here : x = side
    · rw [here]
      exact faulting
    · rw [others here] at on' ⊢
      exact h.active x on'
  · refine holdsKey_of_same (s := s) ?_ entries
    by_cases here : x = side
    · rw [here, on.2]
      exact ⟨n, w, valid, named⟩
    · rw [others here] at on' ⊢
      exact h.held x on'
  · intro onA onB
    have both : ∀ x, (recordOf x t).isOn k := fun x => by cases x <;> assumption
    have same : k = key := (both side).2.symm.trans on.2
    refine unnamed (otherSide side) ?_
    rw [← same, ← other]
    exact both _
  · rw [(entries m v).1, (entries m v).2, isOn, written]
    split
    next here =>
      rw [here.1, here.2]
      exact ⟨fun _ => ⟨valid, .inl named⟩, fun _ => rfl⟩
    next elsewhere =>
      rw [h.pending]
      refine and_congr_right fun valid' => ⟨.inr, fun either => either.resolve_left fun same => elsewhere ?_⟩
      exact dir.unique valid' valid (same.trans named.symm)
  · have bits (x : Side) : (recordOf x t).waiting.getLsbD j.val = true →
        (recordOf x s).waiting.getLsbD j.val = true ∨ j = i ∧ x = side := by
      by_cases here : x = side
      · rw [here, waiting, member_bit]
        exact fun same => .inr ⟨of_decide_eq_true same, rfl⟩
      · rw [others here]
        exact .inl
    intro inA
    by_contra inB
    rw [Bool.not_eq_false] at inB
    rcases bits .a inA with a | ⟨a, sideA⟩ <;> rcases bits .b inB with b | ⟨b, sideB⟩
    · exact absurd b (by rw [h.apart j a]; decide)
    · exact absurd a (by rw [b, fresh]; decide)
    · exact absurd b (by rw [a, fresh]; decide)
    · exact absurd (sideA.trans sideB.symm) (by decide)

/-- R92, R99, R102, R103: a record goes IDLE, and the entry that its fault named is no longer pending, or is invalid. -/
theorem Faults.ends {s t : State} (h : Faults s) (dir : dirLegal s) {side : Side} (on : (recordOf side s).active = true)
    (idle : recordOf side t = FaultRecord.idle) (other : recordOf (otherSide side) t = recordOf (otherSide side) s)
    {n : Fin 64} {w : Fin 4} (valid : s.tc.dir[n][w].valid = true) (named : s.tc.dir[n][w].key = (recordOf side s).key)
    (cleared : t.tc.dir[n][w].pending = false ∧ (t.tc.dir[n][w].valid = true → t.tc.dir[n][w].key = s.tc.dir[n][w].key))
    (others : ∀ (m : Fin 64) (v : Fin 4), ¬ (m = n ∧ v = w) → t.tc.dir[m][v] = s.tc.dir[m][v]) : Faults t := by
  have records {x : Side} (here : x ≠ side) : recordOf x t = recordOf x s := by
    rw [(side_cases side x).resolve_left here, other]
  have gone {x : Side} {k : Word} (onX : (recordOf x t).isOn k) : x ≠ side := by
    rintro rfl
    rw [idle] at onX
    exact isOn_idle k onX
  refine ⟨fun x off => ?_, fun x on' => ?_, fun x on' => ?_, fun k onA onB => ?_, fun m v => ?_, fun j inA => ?_⟩
  · by_cases here : x = side
    · rw [here]
      exact idle
    · rw [records here] at off ⊢
      exact h.idle x off
  · have here := gone ⟨on', rfl⟩
    rw [records here] at on' ⊢
    exact h.active x on'
  · have here := gone ⟨on', rfl⟩
    rw [records here] at on' ⊢
    obtain ⟨m, v, valid', named'⟩ := h.held x on'
    have elsewhere : ¬ (m = n ∧ v = w) := by
      rintro ⟨rfl, rfl⟩
      exact here (h.one ⟨on', rfl⟩ ⟨on, (named'.symm.trans named).symm⟩)
    exact ⟨m, v, by rw [others m v elsewhere]; exact valid', by rw [others m v elsewhere]; exact named'⟩
  · have hereA := gone onA
    have hereB := gone onB
    rw [records hereA] at onA
    rw [records hereB] at onB
    exact h.once k onA onB
  · by_cases here : m = n ∧ v = w
    · rw [here.1, here.2, cleared.1]
      refine ⟨fun absurd' => absurd absurd' (by decide), ?_⟩
      rintro ⟨valid', x, onX⟩
      have other' := gone onX
      rw [records other', cleared.2 valid', named] at onX
      exact absurd (h.one onX ⟨on, rfl⟩) other'
    · rw [others m v here, h.pending]
      refine and_congr_right fun valid' => ⟨?_, ?_⟩
      · rintro ⟨x, onX⟩
        refine ⟨x, ?_⟩
        rw [records]
        · exact onX
        · rintro rfl
          exact here (dir.unique valid' valid (onX.2.symm.trans named.symm))
      · rintro ⟨x, onX⟩
        exact ⟨x, records (gone onX) ▸ onX⟩
  · by_contra inB
    rw [Bool.not_eq_false] at inB
    have not_idle {x : Side} (member : (recordOf x t).waiting.getLsbD j.val = true) : x ≠ side := by
      rintro rfl
      rw [idle] at member
      exact absurd member (by simp [FaultRecord.idle])
    rw [records (not_idle inA)] at inA
    rw [records (not_idle inB)] at inB
    exact absurd inB (by rw [h.apart j inA]; decide)

/-- R75, R76: an entry that is not pending is taken for a key that no entry has. -/
theorem Faults.takes {s t : State} (h : Faults s) (tf : t.tf = s.tf) {n : Fin 64} {w : Fin 4} {key : Word} (absent : ¬ holdsKey key s)
    (spare : s.tc.dir[n][w].pending = false) (here : t.tc.dir[n][w] = ⟨true, key, 0, 0, false, false, 0⟩)
    (others : ∀ (m : Fin 64) (v : Fin 4), ¬ (m = n ∧ v = w) → SameTile s.tc.dir[m][v] t.tc.dir[m][v]) : Faults t := by
  have records (side : Side) : recordOf side t = recordOf side s := recordOf_of_same tf
  refine ⟨fun x => by rw [records]; exact h.idle x, fun x => by rw [records]; exact h.active x, fun x on => ?_,
    fun k => by rw [records, records]; exact h.once k, fun m v => ?_, by rw [records, records]; exact h.apart⟩
  · rw [records] at on ⊢
    obtain ⟨m, v, valid, named⟩ := h.held x on
    have elsewhere : ¬ (m = n ∧ v = w) := by
      rintro ⟨rfl, rfl⟩
      rw [h.pending_of on valid named] at spare
      cases spare
    exact ⟨m, v, (others m v elsewhere).valid.trans valid, (others m v elsewhere).key.trans named⟩
  · simp only [records]
    by_cases same : m = n ∧ v = w
    · rw [same.1, same.2, here]
      refine ⟨fun absurd' => absurd absurd' (by simp), ?_⟩
      rintro ⟨_, x, on⟩
      have same : (recordOf x s).key = key := on.2
      exact absurd (same ▸ h.held x on.1) absent
    · rw [(others m v same).valid, (others m v same).key, (others m v same).pending]
      exact h.pending m v

/-- Both records are IDLE and no entry is pending. -/
theorem Faults.of_idle {s : State} (records : ∀ side, recordOf side s = FaultRecord.idle)
    (entries : ∀ (n : Fin 64) (w : Fin 4), s.tc.dir[n][w].pending = false) : Faults s where
  idle side _ := records side
  active side on := by
    rw [records] at on
    cases on
  held side on := by
    rw [records] at on
    cases on
  once key on := by
    rw [records] at on
    exact absurd on (isOn_idle key)
  pending n w := by
    rw [entries]
    refine ⟨fun absurd' => absurd absurd' (by decide), ?_⟩
    rintro ⟨_, side, on⟩
    rw [records] at on
    exact absurd on (isOn_idle _)
  apart i member := by
    rw [records] at member
    exact absurd member (by simp [FaultRecord.idle])

/-- With both records IDLE no entry is pending, and no stream is in WAIT_TILE. -/
theorem Faults.none_pending {s : State} (h : Faults s) (off : ∀ side, (recordOf side s).active = false) (n : Fin 64) (w : Fin 4) :
    s.tc.dir[n][w].pending = false := by
  rw [Bool.eq_false_iff, Ne, h.pending]
  rintro ⟨_, side, on⟩
  exact absurd on.1 (by rw [off]; decide)

end Sys2Proof.Machine
end

section
/-! PROOFS. The handovers keep the laws of the blocks that draw: a reservation given back, a miss taken, an entry taken by an engine or
completed at once. -/

namespace Sys2Proof.Machine

/-! ### Streams that are woken for a way or a slot -/

/-- A stream that changes little and neither begins nor ends a wait for a tile, and keeps its reservation. -/
structure Eased (r r' : Stream) : Prop extends Relaxed r r' where
  tile : r'.state = .waitTile ↔ r.state = .waitTile
  reservation : r'.reservation = r.reservation

theorem Eased.refl (r : Stream) : Eased r r := ⟨.refl r, .rfl, rfl⟩

theorem Eased.trans {a b c : Stream} (h : Eased a b) (g : Eased b c) : Eased a c :=
  ⟨h.toRelaxed.trans g.toRelaxed, g.tile.trans h.tile, g.reservation.trans h.reservation⟩

/-- A stream that waits for another thing than a tile is woken. -/
theorem Eased.woken {r : Stream} (waits : r.state.waits = true) (other : r.state ≠ .waitTile) :
    Eased r { r with state := .ready } :=
  ⟨.woken waits r.reservation, ⟨fun h => (nomatch h), fun h => absurd h other⟩, rfl⟩

theorem Eased.marked {r : Stream} (opened : r.state ≠ .closed) (expected : Half) (rewind : Option RewindReason) (renewed : Bool) :
    Eased r { r with expected := expected, rewind := rewind, renewed := renewed } :=
  ⟨.marked opened expected rewind renewed, .rfl, rfl⟩

theorem wakeWay_eased (s : State) (i : Fin 8) : Eased (streamOf i s) (streamOf i (wakeWay s)) := by
  rw [wakeWay, streamOf_mapStreams]
  split
  next way => exact .woken (by rw [way]; rfl) (by rw [way]; decide)
  next => exact .refl _

theorem wokenByIdle_eased (side : Side) (r : Stream) : Eased r (wokenByIdle side r) := by
  unfold wokenByIdle
  split
  next waits =>
    rcases waits with way | ⟨slot, _⟩
    · exact .woken (by rw [way]; rfl) (by rw [way]; decide)
    · exact .woken (by rw [slot]; rfl) (by rw [slot]; decide)
  next => exact .refl _

/-! ### What leaves the laws as they are -/

/-- Streams change little, the rest of what the laws read does not change. -/
theorem Drawn.eased {s t : State} (h : Drawn s) (streams : ∀ i : Fin 8, Eased (streamOf i s) (streamOf i t))
    (queues : ∀ side, queueOf side t = queueOf side s) (de : t.de = s.de) (tf : t.tf = s.tf) (dir : t.tc.dir = s.tc.dir) : Drawn t where
  queues := h.queues.relaxed (fun i => (streams i).toRelaxed) queues (engineOf_of_same de)
  reserves := h.reserves.of_same (fun i => (streams i).reservation) dir
  faults := h.faults.of_same tf dir
  awaited := h.awaited.of_same (fun i => (streams i).tile) fun side => by rw [recordOf_of_same tf]
  dir := dirLegal_of_same dir h.dir

theorem Drawn.of_same {s t : State} (h : Drawn s) (sq : t.sq = s.sq) (de : t.de = s.de) (tf : t.tf = s.tf) (dir : t.tc.dir = s.tc.dir) :
    Drawn t :=
  h.eased (fun i => by rw [streamOf_of_same sq]; exact .refl _) (queueOf_of_same sq) de tf dir

theorem Apart.drawn {s t : State} (h : Apart s t) (legal : Drawn s) : Drawn t :=
  legal.of_same h.sq h.de h.tf (by rw [h.tc])

theorem wakeWay_drawn {s : State} (h : Drawn s) : Drawn (wakeWay s) :=
  h.eased (wakeWay_eased s) (fun side => by cases side <;> rfl) rfl rfl rfl

/-- One open stream has its number or its marks changed. -/
theorem setStream_drawn {s : State} (h : Drawn s) {i : Fin 8} {r : Stream} (eased : Eased (streamOf i s) r) : Drawn (setStream i r s) :=
  h.eased (fun j => by
    rw [streamOf_setStream]
    split
    next here => rw [here]; exact eased
    next => exact .refl _) (fun side => queueOf_setStream side i r s) rfl rfl rfl

/-- A side queue changes as its laws allow. -/
theorem setQueue_drawn {s : State} (h : Drawn s) {side : Side} {q : List Entry} (queues : Queues (setQueue side q s)) :
    Drawn (setQueue side q s) where
  queues := queues
  reserves := h.reserves.of_same (fun i => by rw [streamOf_setQueue]) (by rw [setQueue_tc])
  faults := h.faults.of_same (setQueue_tf side q s) (by rw [setQueue_tc])
  awaited := h.awaited.of_same (fun i => by rw [streamOf_setQueue]) fun x => by rw [recordOf_of_same (setQueue_tf side q s)]
  dir := setQueue_dir side q h.dir

/-! ### Reservations given back (R82) -/

/-- What giving back a reservation does to the streams. -/
theorem releaseReservation_stream (i j : Fin 8) (s : State) :
    Relaxed (streamOf j s) (streamOf j (releaseReservation i s)) ∧
      ((streamOf j (releaseReservation i s)).state = .waitTile ↔ (streamOf j s).state = .waitTile) ∧
      (streamOf j (releaseReservation i s)).reservation = if j = i then none else (streamOf j s).reservation := by
  have given (u : State) (same : ∀ k, streamOf k u = streamOf k (setStream i { streamOf i s with reservation := none } s)) :
      Relaxed (streamOf j s) (streamOf j u) ∧ ((streamOf j u).state = .waitTile ↔ (streamOf j s).state = .waitTile) ∧
        (streamOf j u).reservation = if j = i then none else (streamOf j s).reservation := by
    rw [same, streamOf_setStream]
    split
    next here =>
      rw [here]
      exact ⟨.released _, .rfl, rfl⟩
    next => exact ⟨.refl _, .rfl, rfl⟩
  unfold releaseReservation
  split
  next key holds =>
    unfold releaseEntry
    split
    next w _ =>
      have written (ways : TileSet) := given
        (setTileSet key ways (setStream i { streamOf i s with reservation := none } s))
        fun k => streamOf_of_same (setTileSet_sq key ways _) k
      dsimp only
      split
      · obtain ⟨relaxed, tile, reservation⟩ := written _
        have woken := wakeWay_eased (setTileSet key ((tileSet key (setStream i { streamOf i s with reservation := none } s)).set w
          { (tileSet key (setStream i { streamOf i s with reservation := none } s))[w] with
            reserve := (tileSet key (setStream i { streamOf i s with reservation := none } s))[w].reserve - 1 })
          (setStream i { streamOf i s with reservation := none } s)) j
        exact ⟨relaxed.trans woken.toRelaxed, woken.tile.trans tile, woken.reservation.trans reservation⟩
      · exact written _
    next => exact given _ fun _ => rfl
  next unreserved =>
    refine ⟨.refl _, .rfl, ?_⟩
    split
    next here => rw [here, unreserved]
    next => rfl

theorem wakeWay_rest (s : State) : (wakeWay s).de = s.de ∧ (wakeWay s).tf = s.tf ∧ (wakeWay s).tc = s.tc ∧
    ∀ side, queueOf side (wakeWay s) = queueOf side s := ⟨rfl, rfl, rfl, fun side => by cases side <;> rfl⟩

/-- A reservation given back changes no queue, no engine and no fault. -/
theorem releaseReservation_rest (i : Fin 8) (s : State) : (releaseReservation i s).de = s.de ∧ (releaseReservation i s).tf = s.tf ∧
    ∀ side, queueOf side (releaseReservation i s) = queueOf side s := by
  refine ⟨releaseReservation_de i s, ?_, fun side => ?_⟩
  · unfold releaseReservation releaseEntry
    split
    · split
      · dsimp only
        split
        · rw [(wakeWay_rest _).2.1, setTileSet_tf, setStream_tf]
        · rw [setTileSet_tf, setStream_tf]
      · rfl
    · rfl
  · unfold releaseReservation releaseEntry
    split
    · split
      · dsimp only
        split
        · rw [(wakeWay_rest _).2.2.2, queueOf_of_same (setTileSet_sq _ _ _), queueOf_setStream]
        · rw [queueOf_of_same (setTileSet_sq _ _ _), queueOf_setStream]
      · exact queueOf_setStream side i _ s
    · rfl

/-- The entry of a reservation given back counts one less. -/
theorem releaseReservation_wrote {i : Fin 8} {key : Word} {s : State} {w : Fin 4} (holds : (streamOf i s).reservation = some key)
    (found : findWay key (tileSet key s) = some w) :
    wrote (setIndex key) w { s.tc.dir[setIndex key][w] with reserve := s.tc.dir[setIndex key][w].reserve - 1 } s
      (releaseReservation i s) := by
  have found' : findWay key (tileSet key (setStream i { streamOf i s with reservation := none } s)) = some w := found
  unfold releaseReservation
  rw [holds]
  unfold releaseEntry
  dsimp only
  rw [found']
  dsimp only
  split
  · exact setTileSet_wrote key w _ (setStream i { streamOf i s with reservation := none } s)
  · exact setTileSet_wrote key w _ (setStream i { streamOf i s with reservation := none } s)

theorem releaseReservation_reserves (i : Fin 8) {s : State} (h : Reserves s) (dir : dirLegal s) :
    Reserves (releaseReservation i s) := by
  cases holds : (streamOf i s).reservation with
  | none =>
    rw [releaseReservation_none holds]
    exact h
  | some key =>
    obtain ⟨w, found⟩ := Option.isSome_iff_exists.1 (dir.holds_iff.1 (h.held i key holds))
    obtain ⟨valid, named⟩ := findWay_holds found
    refine h.gives dir holds ?_ (fun j other => ?_) valid named (releaseReservation_wrote holds found)
    · rw [(releaseReservation_stream i i s).2.2, if_pos rfl]
    · rw [(releaseReservation_stream i j s).2.2, if_neg other]

theorem releaseReservation_faults (i : Fin 8) {s : State} (h : Faults s) : Faults (releaseReservation i s) := by
  have records (side : Side) := recordOf_of_same (side := side) (releaseReservation_rest i s).2.1
  refine h.change (fun side => by rw [records]; exact .refl _) (fun n w => ?_) (by rw [records, records]; exact h.apart)
  obtain ⟨k, entry⟩ := releaseReservation_entry i s n w
  rw [entry]
  exact ⟨rfl, rfl, rfl⟩

theorem releaseReservation_drawn (i : Fin 8) {s : State} (h : Drawn s) : Drawn (releaseReservation i s) := by
  obtain ⟨de, tf, queues⟩ := releaseReservation_rest i s
  exact ⟨h.queues.relaxed (fun j => (releaseReservation_stream i j s).1) queues (engineOf_of_same de),
    releaseReservation_reserves i h.reserves h.dir, releaseReservation_faults i h.faults,
    h.awaited.of_same (fun j => (releaseReservation_stream i j s).2.1) (fun side => by rw [recordOf_of_same tf]),
    releaseReservation_dir i h.dir⟩

end Sys2Proof.Machine
end

section
/-! PROOFS. The misses that the Tile Fault Unit takes keep the laws of the blocks that draw: a stream joins a fault, raises one, or waits
for a record or a way (R94 to R96). -/

namespace Sys2Proof.Machine

/-! ### A stream that may begin to wait -/

/-- The stream of an entry handed to a FREE engine: READY, its reservation given back, its oldest entry a PLACE. -/
structure AtPlace (side : Side) (i : Fin 8) (s : State) : Prop where
  free : engineOf side s = none
  own : (streamOf i s).side = some side
  ready : (streamOf i s).state = .ready
  unreserved : (streamOf i s).reservation = none
  first : ∃ e, (queueOf side s).find? (fun e => e.stream == i) = some e ∧ e.command.isPlace = true

theorem AtPlace.of_same {side : Side} {i : Fin 8} {s t : State} (h : AtPlace side i s) (sq : t.sq = s.sq) (de : t.de = s.de) :
    AtPlace side i t := by
  refine ⟨?_, ?_, ?_, ?_, ?_⟩
  · rw [engineOf_of_same de]
    exact h.free
  · rw [streamOf_of_same sq]
    exact h.own
  · rw [streamOf_of_same sq]
    exact h.ready
  · rw [streamOf_of_same sq]
    exact h.unreserved
  · rw [queueOf_of_same sq]
    exact h.first

theorem AtPlace.waits {side : Side} {i : Fin 8} {s : State} (h : AtPlace side i s) (queues : Queues s) {w : StreamState}
    (waits : w.waits = true) : Queues (setWait i w s) := by
  obtain ⟨e, first, place⟩ := h.first
  exact queues.setWait h.free h.own h.unreserved first place waits

/-- A READY stream is in no waiting set. -/
theorem Drawn.not_waiting {s : State} (h : Drawn s) {i : Fin 8} (ready : (streamOf i s).state = .ready) (x : Side) :
    (recordOf x s).waiting.getLsbD i.val = false := by
  by_contra member
  have waits := (h.awaited i).2 ⟨x, Bool.of_not_eq_false member⟩
  rw [ready] at waits
  cases waits

theorem setWait_reservation (i j : Fin 8) (w : StreamState) (s : State) :
    (streamOf j (setWait i w s)).reservation = (streamOf j s).reservation := by
  rw [setWait, streamOf_setStream]
  split
  next here => rw [here]
  next => rfl

theorem setWait_state (i j : Fin 8) (w : StreamState) (s : State) :
    (streamOf j (setWait i w s)).state = if j = i then w else (streamOf j s).state := by
  rw [setWait, streamOf_setStream]
  split
  next => rfl
  next => rfl

/-- R94: a stream waits for a record or a way. -/
theorem setWait_drawn {s : State} (h : Drawn s) {side : Side} {i : Fin 8} (place : AtPlace side i s) {w : StreamState}
    (waits : w.waits = true) (other : w ≠ .waitTile) : Drawn (setWait i w s) where
  queues := place.waits h.queues waits
  reserves := h.reserves.of_same (fun j => setWait_reservation i j w s) rfl
  faults := h.faults.of_same rfl rfl
  awaited := h.awaited.of_same (fun j => by
    rw [setWait_state]
    split
    next here =>
      rw [here, place.ready]
      exact ⟨fun same => absurd same other, fun same => (nomatch same)⟩
    next => exact .rfl) fun _ => rfl
  dir := h.dir

/-! ### Joining a fault (R95) -/

/-- A record with one more member of its waiting set. -/
structure Joins (i : Fin 8) (r r' : FaultRecord) : Prop where
  active : r'.active = r.active
  key : r'.key = r.key
  waiting : r'.waiting = r.waiting ||| BitVec.ofNat 8 (2 ^ i.val)
  faulting : Faulting r → Faulting r'

theorem or_ne_zero {n : Nat} {a b : BitVec n} (h : a ≠ 0) : a ||| b ≠ 0 := fun zero => h (BitVec.or_eq_zero_iff.1 zero).1

/-- A record is replaced, and nothing else of what the laws read. -/
structure RecordSet (side : Side) (r : FaultRecord) (s u : State) : Prop where
  sq : u.sq = s.sq
  de : u.de = s.de
  tc : u.tc = s.tc
  records : ∀ x, recordOf x u = if x = side then r else recordOf x s

theorem setRecord_set (side : Side) (r : FaultRecord) (s : State) : RecordSet side r s (setRecord side r s) :=
  ⟨setRecord_sq side r s, setRecord_de side r s, setRecord_tc side r s, fun x => recordOf_setRecord_at side x r s⟩

theorem RecordSet.apart {side : Side} {r : FaultRecord} {s u v : State} (h : RecordSet side r s u) (apart : Apart u v) :
    RecordSet side r s v :=
  ⟨apart.sq.trans h.sq, apart.de.trans h.de, apart.tc.trans h.tc, fun x => by rw [recordOf_of_same apart.tf]; exact h.records x⟩

theorem RecordSet.self {side : Side} {r : FaultRecord} {s u : State} (h : RecordSet side r s u) : recordOf side u = r := by
  rw [h.records, if_pos rfl]

theorem RecordSet.other {side x : Side} {r : FaultRecord} {s u : State} (h : RecordSet side r s u) (other : x ≠ side) :
    recordOf x u = recordOf x s := by
  rw [h.records, if_neg other]

theorem joinFault_parts (side : Side) (i : Fin 8) (mask : BitVec 4) (s : State) :
    ∃ u r, joinFault side i mask s = setWait i .waitTile u ∧ RecordSet side r s u ∧ Joins i (recordOf side s) r := by
  unfold joinFault
  dsimp only
  by_cases covered : mask &&& ~~~ (recordOf side s).needed = 0
  · rw [if_pos covered]
    exact ⟨_, _, rfl, (setRecord_set side _ s).apart (count_apart _ _), rfl, rfl, rfl,
      fun h => ⟨h.key, h.needed, or_ne_zero h.waiting, h.tries, h.timer⟩⟩
  · rw [if_neg covered]
    exact ⟨_, _, rfl, (setRecord_set side _ s).apart ((count_apart _ _).trans (count_apart _ _)), rfl, rfl, rfl,
      fun h => ⟨h.key, or_ne_zero h.needed, or_ne_zero h.waiting, h.tries, rfl⟩⟩

theorem joinFault_drawn {s : State} (h : Drawn s) {side x : Side} {i : Fin 8} (place : AtPlace side i s) (mask : BitVec 4)
    (on : (recordOf x s).active = true) : Drawn (joinFault x i mask s) := by
  obtain ⟨u, r, same, set, joins⟩ := joinFault_parts x i mask s
  rw [same]
  have fresh := h.not_waiting place.ready
  have records (y : Side) : SameFault (recordOf y s) (recordOf y (setWait i .waitTile u)) := by
    rw [recordOf_of_same (show (setWait i .waitTile u).tf = u.tf from rfl), set.records]
    split
    next here =>
      rw [here]
      exact ⟨joins.active, joins.key, fun off => absurd on (by rw [off]; decide), fun _ => joins.faulting⟩
    next => exact .refl _
  have bits (y : Side) (j : Fin 8) : (recordOf y (setWait i .waitTile u)).waiting.getLsbD j.val = true ↔
      (recordOf y s).waiting.getLsbD j.val = true ∨ j = i ∧ y = x := by
    rw [recordOf_of_same (show (setWait i .waitTile u).tf = u.tf from rfl), set.records]
    split
    next here => rw [joins.waiting, BitVec.getLsbD_or, Bool.or_eq_true, member_bit, decide_eq_true_iff, here]; simp
    next other => simp [other]
  refine ⟨(place.of_same set.sq set.de).waits (h.queues.of_same set.sq set.de) rfl,
    h.reserves.of_same (fun j => ?_) (congrArg TileCache.dir set.tc), h.faults.change records (fun n w => ?_) fun j inA => ?_,
    fun j => ?_, dirLegal_of_same (congrArg TileCache.dir set.tc) h.dir⟩
  · rw [setWait_reservation, streamOf_of_same set.sq]
  · rw [show (setWait i .waitTile u).tc = s.tc from set.tc]
    exact ⟨rfl, rfl, rfl⟩
  · by_contra inB
    rw [Bool.not_eq_false] at inB
    rcases (bits .a j).1 inA with a | ⟨a, sideA⟩ <;> rcases (bits .b j).1 inB with b | ⟨b, sideB⟩
    · exact absurd b (by rw [h.faults.apart j a]; decide)
    · exact absurd a (by rw [b, fresh]; decide)
    · exact absurd b (by rw [a, fresh]; decide)
    · exact absurd (sideA.trans sideB.symm) (by decide)
  · rw [setWait_state]
    simp only [bits]
    split
    next here => exact ⟨fun _ => ⟨x, .inr ⟨here, rfl⟩⟩, fun _ => rfl⟩
    next other =>
      rw [streamOf_of_same set.sq, h.awaited j]
      simp [other]

/-! ### Raising a fault (R96) -/

theorem raiseFault_parts (side : Side) (i : Fin 8) (key : Word) (mask : BitVec 4) (s : State) :
    ∃ u r, raiseFault side i key mask s = setWait i .waitTile u ∧
      RecordSet side r (mapEntry key (fun e => { e with pending := true }) s) u ∧
      r.isOn key ∧ r.waiting = BitVec.ofNat 8 (2 ^ i.val) ∧ (key ≠ 0 → mask ≠ 0 → Faulting r) :=
  ⟨_, _, rfl, (setRecord_set side _ _).apart ((count_apart _ _).trans (trackRaise_apart _ _ _)), ⟨rfl, rfl⟩, rfl,
    fun key mask => ⟨key, mask, bit_ne_zero i, Nat.zero_le 7, rfl⟩⟩

theorem mapEntry_rest (key : Word) (f : DirEntry → DirEntry) (s : State) :
    (mapEntry key f s).sq = s.sq ∧ (mapEntry key f s).de = s.de ∧ (mapEntry key f s).tf = s.tf := by
  unfold mapEntry
  split
  · exact ⟨setTileSet_sq _ _ _, setTileSet_de _ _ _, setTileSet_tf _ _ _⟩
  · exact ⟨rfl, rfl, rfl⟩

theorem raiseFault_drawn {s : State} (h : Drawn s) {side : Side} {i : Fin 8} (place : AtPlace side i s) {key : Word}
    (nonzero : key ≠ 0) {mask : BitVec 4} (needed : mask ≠ 0) (off : (recordOf side s).active = false)
    (unnamed : faultOn key s = none) {w : Fin 4} (found : findWay key (tileSet key s) = some w)
    (unpinned : s.tc.dir[setIndex key][w].pinned = false) : Drawn (raiseFault side i key mask s) := by
  obtain ⟨u, r, same, set, on, waiting, faulting⟩ := raiseFault_parts side i key mask s
  obtain ⟨sq, de, tf⟩ := mapEntry_rest key (fun e => { e with pending := true }) s
  obtain ⟨valid, named⟩ := findWay_holds found
  have written := mapEntry_wrote (f := fun e => { e with pending := true }) found
  have dir : dirLegal (raiseFault side i key mask s) := by
    refine raiseFault_dir side i mask (fun v found' => ?_) h.dir
    cases found.symm.trans found'
    exact unpinned
  have none' (x : Side) : ¬ (recordOf x s).isOn key := fun onX => by
    have := (faultOn_isSome key s).2 ⟨x, onX⟩
    rw [unnamed] at this
    cases this
  have entries : wrote (setIndex key) w { s.tc.dir[setIndex key][w] with pending := true } s (raiseFault side i key mask s) := by
    intro m v
    rw [same, show (setWait i .waitTile u).tc = u.tc from rfl, set.tc]
    exact written m v
  have self : recordOf side (setWait i .waitTile u) = r := set.self
  have others {x : Side} (other : x ≠ side) : recordOf x (setWait i .waitTile u) = recordOf x s :=
    (set.other other).trans (recordOf_of_same tf)
  rw [same] at dir entries ⊢
  refine ⟨((place.of_same sq de).of_same set.sq set.de).waits ((h.queues.of_same sq de).of_same set.sq set.de) rfl,
    h.reserves.change (fun j => ?_) (fun m v => ?_), h.faults.raises h.dir off (h.not_waiting place.ready) none' ?_
      (others (otherSide_ne side)) valid named entries, fun j => ?_, dir⟩
  · rw [setWait_reservation, streamOf_of_same set.sq, streamOf_of_same sq]
  · rw [entries]
    split
    next here => rw [here.1, here.2]; exact ⟨rfl, rfl, rfl, id⟩
    next => exact ⟨rfl, rfl, rfl, id⟩
  · rw [self]
    exact ⟨faulting nonzero needed, on, waiting⟩
  · rw [setWait_state]
    split
    next here =>
      refine ⟨fun _ => ⟨side, ?_⟩, fun _ => rfl⟩
      rw [self, waiting, member_bit, here]
      exact decide_eq_true rfl
    next other =>
      rw [streamOf_of_same set.sq, streamOf_of_same sq, h.awaited j]
      refine exists_congr fun x => ?_
      by_cases here : x = side
      · rw [here, self, waiting, member_bit, h.faults.idle side off]
        simp [other, FaultRecord.idle]
      · rw [others here]

/-! ### An allocation (R75, R76) -/

theorem allocateWay_rest (key : Word) (w : Fin 4) (s : State) :
    (allocateWay key w s).sq = s.sq ∧ (allocateWay key w s).de = s.de ∧ (allocateWay key w s).tf = s.tf := allocateWay_session key w s

/-- What an allocation does to the directory. -/
theorem allocateWay_entries (key : Word) (w : Fin 4) (s : State) :
    (allocateWay key w s).tc.dir[setIndex key][w] = ⟨true, key, 0, 0, false, false, 0⟩ ∧
      ∀ (m : Fin 64) (v : Fin 4), ¬ (m = setIndex key ∧ v = w) → SameTile s.tc.dir[m][v] (allocateWay key w s).tc.dir[m][v] := by
  have tc : (allocateWay key w s).tc = (setTileSet key (takeWay key w (tileSet key s)) s).tc := by
    unfold allocateWay
    dsimp only
    split
    · exact count_tc _ _
    · rfl
  rw [tc]
  refine ⟨by rw [setTileSet_at, if_pos rfl, takeWay_taken], fun m v other => ?_⟩
  rw [setTileSet_at]
  split
  next here =>
    subst here
    unfold takeWay
    rw [set_way, if_neg fun same => other ⟨rfl, same⟩, makeRecent_way]
    exact ⟨rfl, rfl, rfl, rfl, rfl⟩
  next => exact .refl _

/-- R75: a victim is invalid, or not pending, not pinned and not reserved. -/
theorem victim_candidate {ways : TileSet} {w : Fin 4} (taken : victim ways = some w) : ways[w].candidate = true := by
  unfold victim at taken
  split at taken
  next v found =>
    cases taken
    rw [candidate_iff]
    exact .inl (by simpa using List.find?_some found)
  next =>
    have known : ∀ (l : List (Fin 4)) (best : Option (Fin 4)), (∀ b ∈ best, ways[b].candidate = true) →
        ∀ b ∈ l.foldl (olderOf ways) best, ways[b].candidate = true := by
      intro l
      induction l with
      | nil => exact fun _ known => known
      | cons v l ih =>
        refine fun best known => ih _ fun b mem => ?_
        unfold olderOf at mem
        split at mem
        next candidate =>
          split at mem
          · split at mem
            · cases mem
              exact candidate
            · exact known b mem
          · cases mem
            exact candidate
        next => exact known b mem
    rw [oldestCandidate_eq] at taken
    exact known _ none (fun _ mem => (nomatch mem)) w taken

theorem allocateWay_drawn {s : State} (h : Drawn s) {key : Word} (nonzero : key ≠ 0) (absent : findWay key (tileSet key s) = none)
    {w : Fin 4} (taken : victim (tileSet key s) = some w) : Drawn (allocateWay key w s) := by
  obtain ⟨sq, de, tf⟩ := allocateWay_rest key w s
  obtain ⟨here, others⟩ := allocateWay_entries key w s
  have gone : ¬ holdsKey key s := fun holds => by
    have := h.dir.holds_iff.1 holds
    rw [absent] at this
    cases this
  have candidate := (candidate_iff _).1 (victim_candidate taken)
  have spare : s.tc.dir[setIndex key][w].valid = true → s.tc.dir[setIndex key][w].reserve = 0 := fun valid => by
    rcases candidate with invalid | ⟨_, _, reserve⟩
    · exact absurd (valid.symm.trans invalid) (by decide)
    · exact reserve
  have still : s.tc.dir[setIndex key][w].pending = false := by
    rcases candidate with invalid | ⟨pending, _⟩
    · have empty := (h.dir (setIndex key)).2.1.1 w invalid
      rw [empty]
      rfl
    · exact pending
  exact ⟨h.queues.of_same sq de, h.reserves.takes (fun i => by rw [streamOf_of_same sq]) gone spare here others,
    h.faults.takes tf gone still here others,
    h.awaited.of_same (fun i => by rw [streamOf_of_same sq]) (fun side => by rw [recordOf_of_same tf]),
    allocateWay_dir nonzero absent h.dir⟩

/-! ### The miss (R94) -/

theorem takeMiss_drawn {s : State} (h : Drawn s) {side : Side} {i : Fin 8} (place : AtPlace side i s) {key : Word}
    (nonzero : key ≠ 0) {mask : BitVec 4} (needed : mask ≠ 0) {present : Bool}
    (there : present = true → ∃ w, findWay key (tileSet key s) = some w ∧ s.tc.dir[setIndex key][w].pinned = false)
    (absent : present = false → findWay key (tileSet key s) = none) : Drawn (takeMiss side i key mask present s) := by
  have waits (x : SubEvent) {w : StreamState} (waits : w.waits = true) (other : w ≠ .waitTile) :
      Drawn (setWait i w (count x s)) :=
    setWait_drawn ((count_apart x s).drawn h) (place.of_same (count_sq x s) (count_de x s)) waits other
  unfold takeMiss
  split
  next x named =>
    exact joinFault_drawn h place mask (faultOn_some named).1
  next unnamed =>
    split
    next => exact waits _ rfl (by decide)
    next off =>
      have off : (recordOf side s).active = false := Bool.eq_false_iff.2 off
      split
      next present =>
        obtain ⟨w, found, unpinned⟩ := there present
        exact raiseFault_drawn h place nonzero needed off unnamed found unpinned
      next missing =>
        have absent := absent (Bool.eq_false_iff.2 missing)
        split
        next w taken =>
          obtain ⟨sq, de, tf⟩ := allocateWay_rest key w s
          obtain ⟨here, _⟩ := allocateWay_entries key w s
          have legal := allocateWay_drawn h nonzero absent taken
          obtain ⟨v, found⟩ := Option.isSome_iff_exists.1 (legal.dir.holds_iff (key := key) |>.1
            ⟨setIndex key, w, by rw [here], by rw [here]⟩)
          have same : v = w := by
            rw [tileSet_allocateWay] at found
            exact takeWay_found absent found
          subst same
          refine raiseFault_drawn legal (place.of_same sq de) nonzero needed (by rw [recordOf_of_same tf]; exact off)
            ((faultOn_of_same tf).trans unnamed) found ?_
          rw [here]
        next => exact waits _ rfl (by decide)

end Sys2Proof.Machine
end

section
/-! PROOFS. The sequencer's choices keep the laws of the blocks that draw (R47, R109, R111, R113). -/

namespace Sys2Proof.Machine

/-! ### An entry that an engine takes -/

theorem grantStore_drawn {s : State} (h : Drawn s) : Drawn (grantStore s) := by
  unfold grantStore
  split
  · split
    · dsimp only
      split
      · exact (count_apart _ _).drawn (h.of_same rfl rfl rfl rfl)
      · exact h.of_same rfl rfl rfl rfl
    · exact h
  · exact h

/-- An entry whose stream is READY without a reservation, first of those that a record names, at a FREE engine. -/
structure AtEngine (side : Side) (r : ExecRecord) (s : State) : Prop where
  free : engineOf side s = none
  ready : (streamOf r.stream s).state = .ready
  unreserved : (streamOf r.stream s).reservation = none
  first : ∃ e, (queueOf side s).find? r.names = some e
  kept : r.removed = false

theorem beginExecution_drawn {s : State} (h : Drawn s) {side : Side} {r : ExecRecord} (at' : AtEngine side r s) :
    Drawn (beginExecution side r s) := by
  obtain ⟨e, first⟩ := at'.first
  have queues := h.queues.takes at'.free first at'.ready at'.unreserved at'.kept
  have streams (i : Fin 8) : streamOf i (setEngine side (some r) (setQueue side (markExecuting r (queueOf side s)) s)) =
      streamOf i s := by rw [streamOf_setEngine, streamOf_setQueue]
  have tf : (setEngine side (some r) (setQueue side (markExecuting r (queueOf side s)) s)).tf = s.tf := by
    rw [setEngine_tf, setQueue_tf]
  have dir : (setEngine side (some r) (setQueue side (markExecuting r (queueOf side s)) s)).tc.dir = s.tc.dir := by
    rw [setEngine_tc, setQueue_tc]
  have legal : Drawn (setEngine side (some r) (setQueue side (markExecuting r (queueOf side s)) s)) :=
    ⟨queues, h.reserves.of_same (fun i => by rw [streams]) dir, h.faults.of_same tf dir,
      h.awaited.of_same (fun i => by rw [streams]) (fun x => by rw [recordOf_of_same tf]), dirLegal_of_same dir h.dir⟩
  exact grantStore_drawn (legal.of_same rfl rfl rfl rfl)

/-! ### An entry that leaves its queue -/

theorem releaseEntry_setQueue (key : Word) (side : Side) (q : List Entry) (s : State) :
    releaseEntry key (setQueue side q s) = setQueue side q (releaseEntry key s) := by
  unfold releaseEntry
  rw [show tileSet key (setQueue side q s) = tileSet key s by cases side <;> rfl]
  split
  · dsimp only
    split
    · cases side <;> rfl
    · cases side <;> rfl
  · rfl

theorem releaseReservation_setQueue (i : Fin 8) (side : Side) (q : List Entry) (s : State) :
    releaseReservation i (setQueue side q s) = setQueue side q (releaseReservation i s) := by
  unfold releaseReservation
  rw [streamOf_setQueue]
  split
  · rw [← releaseEntry_setQueue]
    cases side <;> rfl
  · rfl

/-- R111, R113: an entry leaves its queue, and its stream gives back its reservation. -/
theorem removeEntry_released {s : State} (h : Drawn s) {side : Side} {r : ExecRecord} {e : Entry} (free : engineOf side s = none)
    (first : (queueOf side s).find? r.names = some e) (ready : (streamOf e.stream s).state = .ready) :
    Drawn (releaseReservation e.stream (removeEntry side r s)) := by
  have legal := releaseReservation_drawn e.stream h
  obtain ⟨de, _, queues⟩ := releaseReservation_rest e.stream s
  obtain ⟨relaxed, _, reservation⟩ := releaseReservation_stream e.stream e.stream s
  rw [if_pos rfl] at reservation
  rw [removeEntry, releaseReservation_setQueue]
  refine setQueue_drawn legal ?_
  rw [← queues]
  exact legal.queues.removes (by rw [engineOf_of_same de]; exact free) (by rw [queues]; exact first) (relaxed.ready ready).1 reservation

/-! ### The handover -/

/-- The oldest entry of a READY stream at its FREE engine. -/
theorem Drawn.hands {s : State} (h : Drawn s) {side : Side} {e : Entry} (hands : eligible side s = some e) {g : Region}
    {r : ExecRecord} (copied : CopiedFrom e g r) : (queueOf side s).find? r.names = some e :=
  h.queues.eligible_first hands (fun d named => ((names_iff r d).1 named).1.trans copied.stream) copied.names

/-- A stream whose oldest entry is no PLACE holds no reservation. -/
theorem Drawn.unreserved {s : State} (h : Drawn s) {side : Side} {e : Entry} (hands : eligible side s = some e)
    (other : e.command.isPlace = false) : (streamOf e.stream s).reservation = none := by
  by_contra reserved
  obtain ⟨_, _, _, mem⟩ := eligible_some hands
  obtain ⟨d, first, place, _⟩ := h.queues.awaits e.stream side (h.queues.queued side e mem)
    (.inr (Option.isSome_iff_ne_none.2 reserved))
  cases first.symm.trans (h.queues.eligible_first hands (p := fun d => d.stream == e.stream) (fun d same => by simpa using same)
    (by simp))
  rw [other] at place
  cases place

/-- R112: a PLACE with a clip rectangle needs a sector. -/
theorem need_nonzero {e : Entry} {g : Region} {key : Word} {x y : Int} {keyColour : Option Half}
    (command : e.command = .place key x y keyColour) (visible : clipEmpty (recordFor e g) = false) :
    sectorMask (needLo (recordFor e g) y) (needHi (recordFor e g) y) ≠ 0 := by
  obtain ⟨_, _, cy0, cy1⟩ := recordFor_clip (e := e) (g := g) (x := x) (y := y) (w := 16) (h := 16) (by rw [command]; rfl)
  have high := mt (clipEmpty_iff (recordFor e g)).2 (Bool.eq_false_iff.1 visible)
  rw [not_or] at high
  have lo : needLo (recordFor e g) y = ((max y 0 - y) / 4).toNat := by rw [needLo, cy0]
  have hi : needHi (recordFor e g) y = ((min (y + 16 - 1) (g.rh.toNat - 1) - y) / 4).toNat := by rw [needHi, cy1]
  rw [cy0, cy1] at high
  intro zero
  have here : needLo (recordFor e g) y < 4 := by omega
  have reaches : needLo (recordFor e g) y ≤ needHi (recordFor e g) y := by omega
  have bit := sectorMask_bit (needLo (recordFor e g) y) (needHi (recordFor e g) y) ⟨_, here⟩
  rw [zero, decide_eq_true ⟨le_refl _, reaches⟩] at bit
  exact absurd (BitVec.getLsbD_zero.symm.trans bit) (by decide)

theorem afterLookup_drawn (key : Word) (l : Lookup) {s : State} (h : Drawn s) : Drawn (afterLookup key l s) := by
  cases l with
  | hit w =>
    refine (count_apart _ _).drawn ?_
    have sq := setTileSet_sq key (makeRecent w (tileSet key s)) s
    have tf := setTileSet_tf key (makeRecent w (tileSet key s)) s
    exact ⟨h.queues.of_same sq (setTileSet_de _ _ _),
      h.reserves.same_tiles (fun i => by rw [streamOf_of_same sq]) (makeRecent_same key w s),
      h.faults.same_tiles tf (makeRecent_same key w s),
      h.awaited.of_same (fun i => by rw [streamOf_of_same sq]) (fun side => by rw [recordOf_of_same tf]),
      setTileSet_dir (makeRecent_legal w (h.dir _)) h.dir⟩
  | sectorMiss w => exact (count_apart _ _).drawn h
  | absent => exact (count_apart _ _).drawn h

theorem afterLookup_rest (key : Word) (l : Lookup) (s : State) :
    (afterLookup key l s).sq = s.sq ∧ (afterLookup key l s).de = s.de := by
  cases l with
  | hit w => exact ⟨(count_sq _ _).trans (setTileSet_sq _ _ _), (count_de _ _).trans (setTileSet_de _ _ _)⟩
  | sectorMiss w => exact ⟨count_sq _ _, count_de _ _⟩
  | absent => exact ⟨count_sq _ _, count_de _ _⟩

/-- R113: a PLACE with a clip rectangle. -/
theorem handPlace_drawn {s : State} (h : Drawn s) {side : Side} {e : Entry} (hands : eligible side s = some e) {g : Region}
    {key : Word} {x y : Int} {keyColour : Option Half} (command : e.command = .place key x y keyColour) (nonzero : key ≠ 0)
    (visible : clipEmpty (recordFor e g) = false) : Drawn (handPlace side (recordFor e g) key y s) := by
  obtain ⟨free, ready, _, mem⟩ := eligible_some hands
  have copied := recordFor_copied e g
  have needed := need_nonzero command visible
  have ready : (streamOf (recordFor e g).stream s).state = .ready := by rw [copied.stream]; exact ready
  have released (l : Lookup) : Drawn (releaseReservation (recordFor e g).stream (afterLookup key l s)) :=
    releaseReservation_drawn _ (afterLookup_drawn key l h)
  have free' (l : Lookup) : engineOf side (releaseReservation (recordFor e g).stream (afterLookup key l s)) = none := by
    rw [engineOf_of_same (releaseReservation_de _ _), engineOf_of_same (afterLookup_rest key l s).2]
    exact free
  have queues (l : Lookup) :
      queueOf side (releaseReservation (recordFor e g).stream (afterLookup key l s)) = queueOf side s := by
    rw [(releaseReservation_rest _ _).2.2, queueOf_of_same (afterLookup_rest key l s).1]
  have stream' (l : Lookup) := releaseReservation_stream (recordFor e g).stream (recordFor e g).stream (afterLookup key l s)
  have ready' (l : Lookup) :
      (streamOf (recordFor e g).stream (releaseReservation (recordFor e g).stream (afterLookup key l s))).state = .ready :=
    ((stream' l).1.ready (by rw [streamOf_of_same (afterLookup_rest key l s).1]; exact ready)).1
  have unreserved (l : Lookup) :
      (streamOf (recordFor e g).stream (releaseReservation (recordFor e g).stream (afterLookup key l s))).reservation = none := by
    rw [(stream' l).2.2, if_pos rfl]
  have place (l : Lookup) :
      AtPlace side (recordFor e g).stream (releaseReservation (recordFor e g).stream (afterLookup key l s)) := by
    refine ⟨free' l, ?_, ready' l, unreserved l, e, ?_, by rw [command]; rfl⟩
    · rw [(stream' l).1.side, streamOf_of_same (afterLookup_rest key l s).1, copied.stream]
      exact h.queues.queued side e mem
    · rw [queues, copied.stream]
      exact h.queues.eligible_first hands (fun d same => by simpa using same) (by simp)
  cases outcome : lookupOf key (sectorMask (needLo (recordFor e g) y) (needHi (recordFor e g) y)) s with
  | hit w =>
    rw [handPlace_hit outcome]
    refine beginExecution_drawn (released (.hit w)) ⟨free' _, ready' (.hit w), unreserved (.hit w), ⟨e, ?_⟩, copied.removed⟩
    rw [queues]
    have first : (queueOf side s).find? (recordFor e g).names = some e := h.hands hands copied
    exact first
  | sectorMiss w =>
    obtain ⟨found, lacks⟩ := lookupOf_sectorMiss outcome
    rw [handPlace_sectorMiss outcome]
    refine takeMiss_drawn (released (.sectorMiss w)) (place (.sectorMiss w)) nonzero needed (fun _ => ⟨w, ?_, ?_⟩) nofun
    · refine (releaseReservation_findWay _ _ _).trans ?_
      exact (congrArg (findWay key) (tileSet_count key .sectorMiss s)).trans found
    · obtain ⟨k, entry⟩ := releaseReservation_entry (recordFor e g).stream (afterLookup key (.sectorMiss w) s) (setIndex key) w
      have same : (afterLookup key (.sectorMiss w) s).tc = s.tc := count_tc _ _
      rw [entry, same]
      refine Bool.eq_false_iff.2 fun pin => lacks ?_
      have whole : (tileSet key s)[w].sectors = 15 := ((h.dir (setIndex key)).whole pin).1
      rw [whole]
      exact BitVec.and_zero
  | absent =>
    rw [handPlace_absent outcome]
    refine takeMiss_drawn (released .absent) (place .absent) nonzero needed nofun fun _ => ?_
    refine (releaseReservation_findWay _ _ _).trans ?_
    exact (congrArg (findWay key) (tileSet_count key .absent s)).trans (lookupOf_absent outcome)

/-- R109: a handover keeps the laws. -/
theorem handOver_drawn {s : State} (h : Drawn s) {side : Side} {e : Entry} (hands : eligible side s = some e) :
    Drawn (handOver side e s) := by
  obtain ⟨free, ready, _, mem⟩ := eligible_some hands
  have copied := recordFor_copied e (regionOf e.stream s)
  have first := h.hands hands copied
  have leaves (x : SubEvent) : Drawn (releaseReservation e.stream (removeEntry side (recordFor e (regionOf e.stream s)) (count x s))) :=
    removeEntry_released ((count_apart x s).drawn h) (by rw [engineOf_of_same (count_de x s)]; exact free)
      (by rw [queueOf_of_same (count_sq x s)]; exact first) (by rw [streamOf_of_same (count_sq x s)]; exact ready)
  have plain (other : e.command.isPlace = false) (clipped : Prop) [Decidable clipped] :
      Drawn (if clipped then removeEntry side (recordFor e (regionOf e.stream s)) (count .clipped s)
        else beginExecution side (recordFor e (regionOf e.stream s)) s) := by
    have unreserved := h.unreserved hands other
    split
    · have same := leaves .clipped
      rwa [release_removed unreserved] at same
    · refine beginExecution_drawn h ⟨free, ?_, ?_, ⟨e, first⟩, copied.removed⟩
      · rw [copied.stream]
        exact ready
      · rw [copied.stream]
        exact unreserved
  unfold handOver
  dsimp only
  split
  next key x y keyColour command =>
    split
    · exact leaves _
    next nonzero =>
      split
      · exact leaves _
      next visible => exact handPlace_drawn h hands command nonzero (Bool.eq_false_iff.2 visible)
  next command => exact plain (by rw [command]; rfl) _
  next command => exact plain (by rw [command]; rfl) _

theorem handAll_drawn {s : State} (h : Drawn s) : Drawn (handAll s) :=
  handAll_keeps (fun _ _ _ hands legal => handOver_drawn legal hands) (fun _ legal => legal.of_same rfl rfl rfl rfl)
    (fun _ legal => legal.of_same rfl rfl rfl rfl) h

theorem endOp_drawn (op : LongOp) (x : Status) {s : State} (h : Drawn s) : Drawn (endOp op x s) := by
  rw [endOp_rest]
  exact h.of_same rfl rfl rfl rfl

theorem settle_drawn {s : State} (h : Drawn s) : Drawn (settle s) := by
  have handed := handAll_drawn h
  unfold settle checkDrain
  split
  · exact endOp_drawn _ _ (handed.eased (fun _ => .refl _) (fun side => by cases side <;> rfl) rfl rfl rfl)
  · exact handed

end Sys2Proof.Machine
end

section
/-! PROOFS. The ends of faults keep the laws of the blocks that draw: a fault completes, is abandoned, or is left and cancelled by a stream
that closes (R97, R99, R102, R103, R44). -/

namespace Sys2Proof.Machine

/-! ### A record goes IDLE (R97) -/

/-- What a record that goes IDLE changes. -/
structure Idles (side : Side) (s t : State) : Prop where
  streams : ∀ i : Fin 8, streamOf i t = wokenByIdle side (streamOf i s)
  queues : ∀ x, queueOf x t = queueOf x s
  de : t.de = s.de
  tc : t.tc = s.tc
  records : ∀ x, recordOf x t = if x = side then FaultRecord.idle else recordOf x s

theorem goIdle_idles (side : Side) (s : State) : Idles side s (goIdle side s) := by
  rw [goIdle_eq]
  refine ⟨fun i => ?_, fun x => by cases side <;> cases x <;> rfl, setRecord_de side _ s, setRecord_tc side _ s,
    fun x => recordOf_setRecord_at side x _ s⟩
  exact Vector.getElem_ofFn (f := fun i : Fin 8 => wokenByIdle side (streamOf i s)) i.isLt

theorem Idles.apart {side : Side} {s t u : State} (h : Idles side s t) (apart : Apart t u) : Idles side s u where
  streams i := by rw [streamOf_of_same apart.sq]; exact h.streams i
  queues x := by rw [queueOf_of_same apart.sq]; exact h.queues x
  de := apart.de.trans h.de
  tc := apart.tc.trans h.tc
  records x := by rw [recordOf_of_same apart.tf]; exact h.records x

theorem Idles.eased {side : Side} {s t : State} (h : Idles side s t) (i : Fin 8) : Eased (streamOf i s) (streamOf i t) := by
  rw [h.streams]
  exact wokenByIdle_eased side _

theorem Idles.self {side : Side} {s t : State} (h : Idles side s t) : recordOf side t = FaultRecord.idle := by
  rw [h.records, if_pos rfl]

theorem Idles.other {side x : Side} {s t : State} (h : Idles side s t) (other : x ≠ side) : recordOf x t = recordOf x s := by
  rw [h.records, if_neg other]

theorem idle_bit (i : Fin 8) : FaultRecord.idle.waiting.getLsbD i.val = false := by simp [FaultRecord.idle]

/-! ### Completion (R99) -/

/-- The stream of a waiting set that a completed fault wakes, with its reservation. -/
def reservedBy (members : BitVec 8) (key : Word) (i : Fin 8) (r : Stream) : Stream :=
  if members.getLsbD i.val then { r with state := .ready, reservation := some key } else r

theorem completeFault_idles (side : Side) (s : State) :
    Idles side (mapStreams (reservedBy (recordOf side s).waiting (recordOf side s).key) (mapEntry (recordOf side s).key
      (fun e => { e with pending := false, reserve := e.reserve + (membersOf (recordOf side s).waiting).length }) s))
      (completeFault side s) :=
  (goIdle_idles side _).apart ((count_apart .completed _).trans (trackComplete_apart side _))

theorem completeFault_drawn {s : State} (h : Drawn s) {side : Side} (on : (recordOf side s).active = true) {w : Fin 4}
    (found : findWay (recordOf side s).key (tileSet (recordOf side s).key s) = some w)
    (sectors : s.tc.dir[setIndex (recordOf side s).key][w].sectors ≠ 0) : Drawn (completeFault side s) := by
  have idles := completeFault_idles side s
  have dir := completeFault_dir side h.dir
  obtain ⟨sq, de, tf⟩ := mapEntry_rest (recordOf side s).key (fun e => { e with
    pending := false, reserve := e.reserve + (membersOf (recordOf side s).waiting).length }) s
  obtain ⟨valid, named⟩ := findWay_holds found
  have written := mapEntry_wrote (f := fun e => { e with
    pending := false, reserve := e.reserve + (membersOf (recordOf side s).waiting).length }) found
  generalize completeFault side s = t at *
  generalize mapEntry _ _ s = u at *
  have waits {i : Fin 8} (member : (recordOf side s).waiting.getLsbD i.val = true) : (streamOf i s).state = .waitTile :=
    (h.awaited i).2 ⟨side, member⟩
  have free {i : Fin 8} (member : (recordOf side s).waiting.getLsbD i.val = true) : (streamOf i s).reservation = none :=
    h.queues.waits_unreserved (by rw [waits member]; rfl)
  have middle (i : Fin 8) : streamOf i (mapStreams (reservedBy (recordOf side s).waiting (recordOf side s).key) u) =
      reservedBy (recordOf side s).waiting (recordOf side s).key i (streamOf i s) := by
    rw [streamOf_mapStreams, streamOf_of_same sq]
  have entries : wrote (setIndex (recordOf side s).key) w { s.tc.dir[setIndex (recordOf side s).key][w] with
      pending := false, reserve := s.tc.dir[setIndex (recordOf side s).key][w].reserve +
        (membersOf (recordOf side s).waiting).length } s t := by
    intro m v
    rw [show t.tc = u.tc from idles.tc]
    exact written m v
  have records {x : Side} (other : x ≠ side) : recordOf x t = recordOf x s :=
    (idles.other other).trans (recordOf_of_same tf)
  refine ⟨h.queues.relaxed (fun i => ?_) (fun x => ?_) (engineOf_of_same (idles.de.trans de)),
    h.reserves.gains h.dir (members := (recordOf side s).waiting) (fun i => free) (fun i => ?_) valid named sectors entries,
    h.faults.ends h.dir on idles.self (records (otherSide_ne side)) valid named ?_ (fun m v other => ?_), fun i => ?_, dir⟩
  · have eased := idles.eased i
    rw [middle] at eased
    refine Relaxed.trans ?_ eased.toRelaxed
    unfold reservedBy
    split
    next member => exact .woken (by rw [waits member]; rfl) _
    next => exact .refl _
  · exact (idles.queues x).trans (queueOf_of_same sq x)
  · rw [(idles.eased i).reservation, middle]
    unfold reservedBy
    split
    next => rfl
    next => rfl
  · rw [wrote_here entries]
    exact ⟨rfl, fun _ => rfl⟩
  · rw [entries, if_neg other]
  · rw [(idles.eased i).tile, middle]
    unfold reservedBy
    split
    next member =>
      refine ⟨fun same => (nomatch same), ?_⟩
      rintro ⟨x, inX⟩
      by_cases here : x = side
      · rw [here, idles.self, idle_bit] at inX
        cases inX
      · rw [records here] at inX
        exact absurd (h.faults.one_set inX member) here
    next out =>
      rw [h.awaited i]
      refine exists_congr fun x => ?_
      by_cases here : x = side
      · rw [here, idles.self, idle_bit]
        simpa using out
      · rw [records here]

/-! ### Abandonment (R102) -/

theorem skipped_queues {l : List (Fin 8)} (distinct : l.Nodup) {s : State} (h : Queues s)
    (waits : ∀ i ∈ l, (streamOf i s).state.waits = true) : Queues (skipped l s) := by
  induction l generalizing s with
  | nil =>
    rw [skipped_nil]
    exact h
  | cons i l ih =>
    obtain ⟨fresh, distinct⟩ := List.nodup_cons.1 distinct
    obtain ⟨side, own⟩ := Option.isSome_iff_exists.1 ((h.sided i).1 (waits_open (waits i (.head _))))
    rw [← skipped_headSkipped own fresh]
    refine ih distinct (h.skips own (waits i (.head _))) fun j mem => ?_
    have other : j ≠ i := by
      rintro rfl
      exact fresh mem
    rw [streamOf_headSkipped, if_neg other]
    exact waits j (.tail _ mem)

theorem streamOf_skipped (l : List (Fin 8)) (s : State) (i : Fin 8) :
    streamOf i (skipped l s) = if i ∈ l then { streamOf i s with state := .ready } else streamOf i s := by
  have read {n : Nat} (f : Fin n → Stream) (i : Fin n) : (Vector.ofFn f)[i] = f i := Vector.getElem_ofFn i.isLt
  exact read _ i

theorem abandonFault_idles (side : Side) (s : State) :
    Idles side (mapEntry (recordOf side s).key clearPending (setStale (recordOf side s).waiting
      ((membersOf (recordOf side s).waiting).foldl skipHead s))) (abandonFault side s) :=
  (goIdle_idles side _).apart ((count_apart .abandoned _).trans (trackLost_apart side _))

theorem setStale_rest (m : BitVec 8) (s : State) :
    (setStale m s).sq = s.sq ∧ (setStale m s).de = s.de ∧ (setStale m s).tf = s.tf ∧ (setStale m s).tc = s.tc := by
  have raises := raiseEvent_apart .regionStale (m.setWidth 24)
    (mapRegions (fun i r => if m.getLsbD i.val then { r with stale := true } else r) s)
  exact ⟨raises.sq, raises.de, raises.tf, raises.tc⟩

theorem clearPending_clears (e : DirEntry) : (clearPending e).pending = false ∧ ((clearPending e).valid = true → (clearPending e).key = e.key) := by
  unfold clearPending
  split
  · exact ⟨rfl, fun valid => (nomatch valid)⟩
  · exact ⟨rfl, fun _ => rfl⟩

theorem abandonFault_drawn {s : State} (h : Drawn s) {side : Side} (on : (recordOf side s).active = true) :
    Drawn (abandonFault side s) := by
  have idles := abandonFault_idles side s
  have dir := abandonFault_dir side h.dir
  have waits {i : Fin 8} (member : (recordOf side s).waiting.getLsbD i.val = true) : (streamOf i s).state = .waitTile :=
    (h.awaited i).2 ⟨side, member⟩
  have waiting (i : Fin 8) (mem : i ∈ membersOf (recordOf side s).waiting) : (streamOf i s).state.waits = true := by
    rw [waits (mem_membersOf.1 mem)]
    rfl
  have skips := (endsAs_refl s).skipHeads (membersOf_nodup (recordOf side s).waiting)
    fun i mem => (h.queues.sided i).1 (waits_open (waiting i mem))
  have queues := skipped_queues (membersOf_nodup _) h.queues waiting
  obtain ⟨staleSq, staleDe, staleTf, staleTc⟩ := setStale_rest (recordOf side s).waiting
    ((membersOf (recordOf side s).waiting).foldl skipHead s)
  obtain ⟨sq, de, tf⟩ := mapEntry_rest (recordOf side s).key clearPending (setStale (recordOf side s).waiting
    ((membersOf (recordOf side s).waiting).foldl skipHead s))
  have tcs : (setStale (recordOf side s).waiting ((membersOf (recordOf side s).waiting).foldl skipHead s)).tc = s.tc :=
    staleTc.trans skips.same_tc
  obtain ⟨w, found⟩ := Option.isSome_iff_exists.1 (h.dir.holds_iff.1 (h.faults.held side on))
  obtain ⟨valid, named⟩ := findWay_holds found
  have written := mapEntry_wrote (f := clearPending) (s := setStale (recordOf side s).waiting
    ((membersOf (recordOf side s).waiting).foldl skipHead s)) (key := (recordOf side s).key) (w := w) (by
      simp only [tileSet, tcs]
      exact found)
  rw [tcs] at written
  have streams (i : Fin 8) : streamOf i (mapEntry (recordOf side s).key clearPending (setStale (recordOf side s).waiting
      ((membersOf (recordOf side s).waiting).foldl skipHead s))) = streamOf i (skipped (membersOf (recordOf side s).waiting) s) := by
    rw [streamOf_of_same sq, streamOf_of_same staleSq, skips.same_streamOf]
  have queues' (x : Side) : queueOf x (mapEntry (recordOf side s).key clearPending (setStale (recordOf side s).waiting
      ((membersOf (recordOf side s).waiting).foldl skipHead s))) = queueOf x (skipped (membersOf (recordOf side s).waiting) s) := by
    rw [queueOf_of_same sq, queueOf_of_same staleSq, skips.same_queueOf]
  have des : (mapEntry (recordOf side s).key clearPending (setStale (recordOf side s).waiting
      ((membersOf (recordOf side s).waiting).foldl skipHead s))).de = s.de := (de.trans staleDe).trans skips.same_de
  have tfs : (mapEntry (recordOf side s).key clearPending (setStale (recordOf side s).waiting
      ((membersOf (recordOf side s).waiting).foldl skipHead s))).tf = s.tf := (tf.trans staleTf).trans skips.same_tf
  generalize abandonFault side s = t at *
  have entries : wrote (setIndex (recordOf side s).key) w (clearPending s.tc.dir[setIndex (recordOf side s).key][w]) s t := by
    intro m v
    rw [idles.tc, written, tcs]
  have records {x : Side} (other : x ≠ side) : recordOf x t = recordOf x s :=
    (idles.other other).trans (recordOf_of_same tfs)
  have eased (i : Fin 8) : Eased (streamOf i (skipped (membersOf (recordOf side s).waiting) s)) (streamOf i t) := by
    rw [← streams]
    exact idles.eased i
  refine ⟨queues.relaxed (fun i => (eased i).toRelaxed) (fun x => (idles.queues x).trans (queues' x))
      (engineOf_of_same (idles.de.trans des)), h.reserves.clears (fun i => ?_) entries,
    h.faults.ends h.dir on idles.self (records (otherSide_ne side)) valid named ?_ (fun m v other => ?_), fun i => ?_, dir⟩
  · rw [(eased i).reservation, streamOf_skipped]
    split
    next => rfl
    next => rfl
  · rw [wrote_here entries]
    exact clearPending_clears _
  · rw [entries, if_neg other]
  · rw [(eased i).tile, streamOf_skipped]
    split
    next mem =>
      have member := mem_membersOf.1 mem
      refine ⟨fun same => (nomatch same), ?_⟩
      rintro ⟨x, inX⟩
      by_cases here : x = side
      · rw [here, idles.self, idle_bit] at inX
        cases inX
      · rw [records here] at inX
        exact absurd (h.faults.one_set inX member) here
    next out =>
      rw [h.awaited i]
      refine exists_congr fun x => ?_
      by_cases here : x = side
      · rw [here, idles.self, idle_bit]
        rw [mem_membersOf] at out
        simpa using out
      · rw [records here]

end Sys2Proof.Machine
end

section
/-! PROOFS. A stream that closes leaves its fault, which is cancelled when no other stream waits for it, and gives back its reservation
(R44, R45, R103). -/

namespace Sys2Proof.Machine

/-- R93, but for one stream that is closing. -/
def AwaitedBut (i : Fin 8) (s : State) : Prop :=
  ∀ j : Fin 8, j ≠ i → ((streamOf j s).state = .waitTile ↔ ∃ side, (recordOf side s).waiting.getLsbD j.val = true)

/-- The session of a stream that is closing: what the reservations and the faults keep. -/
structure Closing (i : Fin 8) (s : State) : Prop where
  reserves : Reserves s
  faults : Faults s
  awaited : AwaitedBut i s
  dir : dirLegal s

/-- R103: a fault whose waiting set is left empty is cancelled. -/
theorem cancelFault_idles (side : Side) (s : State) :
    Idles side (mapEntry (recordOf side s).key clearPending s) (cancelFault side s) :=
  (goIdle_idles side _).apart ((count_apart .cancelled _).trans (trackLost_apart side _))

/-- What a stream that leaves a fault does to the streams, the queues and the engines: wake-ups. -/
structure Leaves (s t : State) : Prop where
  streams : ∀ j : Fin 8, Eased (streamOf j s) (streamOf j t)
  queues : ∀ x, queueOf x t = queueOf x s
  de : t.de = s.de

theorem Leaves.refl (s : State) : Leaves s s := ⟨fun _ => .refl _, fun _ => rfl, rfl⟩

theorem Leaves.trans {s t u : State} (h : Leaves s t) (g : Leaves t u) : Leaves s u :=
  ⟨fun j => (h.streams j).trans (g.streams j), fun x => (g.queues x).trans (h.queues x), g.de.trans h.de⟩

theorem without_bit (m : BitVec 8) (i j : Fin 8) :
    (m &&& ~~~ BitVec.ofNat 8 (2 ^ i.val)).getLsbD j.val = (m.getLsbD j.val && decide (j ≠ i)) := by
  rw [BitVec.getLsbD_and, BitVec.getLsbD_not, member_bit]
  simp

/-- The record of a waiting set that a stream has left. -/
def leftRecord (i : Fin 8) (r : FaultRecord) : FaultRecord := { r with waiting := r.waiting &&& ~~~ BitVec.ofNat 8 (2 ^ i.val) }

theorem leaveFault_others {side : Side} {i : Fin 8} {s : State} (member : (recordOf side s).active = true ∧
      (recordOf side s).waiting.getLsbD i.val = true)
    (others : (recordOf side s).waiting &&& ~~~ BitVec.ofNat 8 (2 ^ i.val) ≠ 0) :
    leaveFault side i s = setRecord side (leftRecord i (recordOf side s)) s := by
  unfold leaveFault
  dsimp only
  rw [if_pos (by rw [member.1, member.2]; rfl), if_neg others]
  rfl

theorem leaveFault_last {side : Side} {i : Fin 8} {s : State} (member : (recordOf side s).active = true ∧
      (recordOf side s).waiting.getLsbD i.val = true)
    (last : (recordOf side s).waiting &&& ~~~ BitVec.ofNat 8 (2 ^ i.val) = 0) :
    leaveFault side i s = cancelFault side (setRecord side (leftRecord i (recordOf side s)) s) := by
  unfold leaveFault
  dsimp only
  rw [if_pos (by rw [member.1, member.2]; rfl), if_pos last]
  rfl

theorem leaveFault_off {side : Side} {i : Fin 8} {s : State} (out : ¬ ((recordOf side s).active = true ∧
      (recordOf side s).waiting.getLsbD i.val = true)) : leaveFault side i s = s := by
  unfold leaveFault
  dsimp only
  exact if_neg (by simpa using out)

theorem leaveFault_leaves (side : Side) (i : Fin 8) (s : State) : Leaves s (leaveFault side i s) := by
  by_cases member : (recordOf side s).active = true ∧ (recordOf side s).waiting.getLsbD i.val = true
  · have set := setRecord_set side (leftRecord i (recordOf side s)) s
    by_cases last : (recordOf side s).waiting &&& ~~~ BitVec.ofNat 8 (2 ^ i.val) = 0
    · rw [leaveFault_last member last]
      have idles := cancelFault_idles side (setRecord side (leftRecord i (recordOf side s)) s)
      obtain ⟨sq, de, _⟩ := mapEntry_rest (recordOf side (setRecord side (leftRecord i (recordOf side s)) s)).key clearPending
        (setRecord side (leftRecord i (recordOf side s)) s)
      refine ⟨fun j => ?_, fun x => ?_, (idles.de.trans de).trans set.de⟩
      · have eased := idles.eased j
        rw [streamOf_of_same sq, streamOf_of_same set.sq] at eased
        exact eased
      · rw [idles.queues, queueOf_of_same sq, queueOf_of_same set.sq]
    · rw [leaveFault_others member last]
      exact ⟨fun j => by rw [streamOf_of_same set.sq]; exact .refl _, queueOf_of_same set.sq, set.de⟩
  · rw [leaveFault_off member]
    exact .refl s

/-- The closing stream is in no waiting set of a record that it has left. -/
theorem leaveFault_bit (side : Side) {i : Fin 8} {s : State} (faults : Faults s) :
    (recordOf side (leaveFault side i s)).waiting.getLsbD i.val = false ∧
      recordOf (otherSide side) (leaveFault side i s) = recordOf (otherSide side) s := by
  by_cases member : (recordOf side s).active = true ∧ (recordOf side s).waiting.getLsbD i.val = true
  · have set := setRecord_set side (leftRecord i (recordOf side s)) s
    by_cases last : (recordOf side s).waiting &&& ~~~ BitVec.ofNat 8 (2 ^ i.val) = 0
    · rw [leaveFault_last member last]
      have idles := cancelFault_idles side (setRecord side (leftRecord i (recordOf side s)) s)
      obtain ⟨_, _, tf⟩ := mapEntry_rest (recordOf side (setRecord side (leftRecord i (recordOf side s)) s)).key clearPending
        (setRecord side (leftRecord i (recordOf side s)) s)
      refine ⟨by rw [idles.self, idle_bit], ?_⟩
      rw [idles.other (otherSide_ne side), recordOf_of_same tf, set.other (otherSide_ne side)]
    · rw [leaveFault_others member last]
      refine ⟨?_, set.other (otherSide_ne side)⟩
      rw [set.self, leftRecord, without_bit]
      simp
  · rw [leaveFault_off member]
    refine ⟨?_, rfl⟩
    by_contra inside
    exact member ⟨faults.active_of (Bool.of_not_eq_false inside), Bool.of_not_eq_false inside⟩

theorem leaveFault_closing (side : Side) {i : Fin 8} {s : State} (h : Closing i s) : Closing i (leaveFault side i s) := by
  have dir := leaveFault_dir side i h.dir
  have leaves := leaveFault_leaves side i s
  by_cases member : (recordOf side s).active = true ∧ (recordOf side s).waiting.getLsbD i.val = true
  · have set := setRecord_set side (leftRecord i (recordOf side s)) s
    have self : recordOf side (setRecord side (leftRecord i (recordOf side s)) s) = leftRecord i (recordOf side s) := set.self
    by_cases last : (recordOf side s).waiting &&& ~~~ BitVec.ofNat 8 (2 ^ i.val) = 0
    · rw [leaveFault_last member last] at leaves dir ⊢
      have idles := cancelFault_idles side (setRecord side (leftRecord i (recordOf side s)) s)
      obtain ⟨w, found⟩ := Option.isSome_iff_exists.1 (h.dir.holds_iff.1 (h.faults.held side member.1))
      obtain ⟨valid, named⟩ := findWay_holds found
      have key : (recordOf side (setRecord side (leftRecord i (recordOf side s)) s)).key = (recordOf side s).key := by
        rw [self]
        rfl
      rw [key] at idles
      obtain ⟨sq, de, tf⟩ := mapEntry_rest (recordOf side s).key clearPending (setRecord side (leftRecord i (recordOf side s)) s)
      have written := mapEntry_wrote (f := clearPending) (s := setRecord side (leftRecord i (recordOf side s)) s)
        (key := (recordOf side s).key) (w := w) (by
          simp only [tileSet, set.tc]
          exact found)
      generalize cancelFault side (setRecord side (leftRecord i (recordOf side s)) s) = t at *
      have entries : wrote (setIndex (recordOf side s).key) w (clearPending s.tc.dir[setIndex (recordOf side s).key][w]) s t := by
        intro m v
        rw [idles.tc, written, set.tc]
      have records {x : Side} (other : x ≠ side) : recordOf x t = recordOf x s := by
        rw [idles.other other, recordOf_of_same tf, set.other other]
      refine ⟨h.reserves.clears (fun j => (leaves.streams j).reservation) entries,
        h.faults.ends h.dir member.1 idles.self (records (otherSide_ne side)) valid named ?_ (fun m v other => ?_),
        fun j other => ?_, dir⟩
      · rw [wrote_here entries]
        exact clearPending_clears _
      · rw [entries, if_neg other]
      · rw [(leaves.streams j).tile, h.awaited j other]
        refine exists_congr fun x => ?_
        by_cases here : x = side
        · have bit := congrArg (fun m => m.getLsbD j.val) last
          rw [without_bit, decide_eq_true other, Bool.and_true] at bit
          have none' : (recordOf side s).waiting.getLsbD j.val = false := bit.trans BitVec.getLsbD_zero
          rw [here, idles.self, idle_bit, none']
        · rw [records here]
    · rw [leaveFault_others member last] at leaves dir ⊢
      have bits (x : Side) (j : Fin 8) : (recordOf x (setRecord side (leftRecord i (recordOf side s)) s)).waiting.getLsbD j.val =
          ((recordOf x s).waiting.getLsbD j.val && decide (x = side → j ≠ i)) := by
        rw [set.records]
        split
        next here => rw [leftRecord, without_bit, here]; simp
        next other => simp [other]
      refine ⟨h.reserves.of_same (fun j => (leaves.streams j).reservation) (congrArg TileCache.dir set.tc),
        h.faults.change (fun x => ?_) (fun n w => by rw [set.tc]; exact ⟨rfl, rfl, rfl⟩) (fun j inA => ?_), fun j other => ?_, dir⟩
      · rw [set.records]
        split
        next here =>
          rw [here]
          exact ⟨rfl, rfl, fun off => absurd member.1 (by rw [off]; decide),
            fun _ f => ⟨f.key, f.needed, last, f.tries, f.timer⟩⟩
        next => exact .refl _
      · rw [bits, Bool.and_eq_true] at inA
        rw [bits, h.faults.apart j inA.1, Bool.false_and]
      · rw [(leaves.streams j).tile, h.awaited j other]
        simp only [bits, ne_eq, other, not_false_eq_true, implies_true, decide_true, Bool.and_true]
  · rw [leaveFault_off member]
    exact h

/-! ### The close (R44, R45) -/

theorem withoutEntries_rest (i : Fin 8) (s : State) : (withoutEntries i s).tf = s.tf ∧ (withoutEntries i s).tc = s.tc := by
  unfold withoutEntries
  split
  · next side _ => cases side <;> exact ⟨rfl, rfl⟩
  · exact ⟨rfl, rfl⟩

theorem closeStream_drawn {s : State} (h : Drawn s) {i : Fin 8} (opened : (streamOf i s).state ≠ .closed) :
    Drawn (closeStream i s) := by
  obtain ⟨side, own⟩ := Option.isSome_iff_exists.1 ((h.queues.sided i).1 opened)
  obtain ⟨tf, tc⟩ := withoutEntries_rest i s
  have streams (j : Fin 8) := withoutEntries_stream i j s
  have records (x : Side) : recordOf x (withoutEntries i s) = recordOf x s := recordOf_of_same tf
  have first : Closing i (withoutEntries i s) :=
    ⟨h.reserves.of_same (fun j => by rw [streams]) (congrArg TileCache.dir tc), h.faults.of_same tf (congrArg TileCache.dir tc),
      fun j _ => by simp only [streams, records]; exact h.awaited j, dirLegal_of_same (congrArg TileCache.dir tc) h.dir⟩
  have second := leaveFault_closing .a first
  have third := leaveFault_closing .b second
  have leaves := (leaveFault_leaves .a i (withoutEntries i s)).trans (leaveFault_leaves .b i _)
  obtain ⟨outA, _⟩ := leaveFault_bit .a (i := i) first.faults
  obtain ⟨outB, sameA⟩ := leaveFault_bit .b (i := i) second.faults
  have dir := closeStream_dir i h.dir
  rw [closeStream_eq, givenUp] at dir ⊢
  generalize leaveFault .b i (leaveFault .a i (withoutEntries i s)) = t at *
  obtain ⟨de, tf', queues⟩ := releaseReservation_rest i t
  have given (j : Fin 8) := releaseReservation_stream i j t
  have reserves := releaseReservation_reserves i third.reserves third.dir
  have faults := releaseReservation_faults i third.faults
  have records' (x : Side) : recordOf x (releaseReservation i t) = recordOf x t := recordOf_of_same tf'
  have out (x : Side) : (recordOf x (releaseReservation i t)).waiting.getLsbD i.val = false := by
    rw [records']
    cases x
    · rw [show recordOf .a t = _ from sameA]
      exact outA
    · exact outB
  have final (j : Fin 8) (other : j ≠ i) : streamOf j (setStream i (closedRecord (streamOf i (releaseReservation i t)))
      (releaseReservation i t)) = streamOf j (releaseReservation i t) := by
    rw [streamOf_setStream, if_neg other]
  refine ⟨h.queues.closes own ?_ (fun j other => ?_) (fun x => ?_) (fun x => ?_), reserves.of_same (fun j => ?_) rfl,
    faults.of_same rfl rfl, fun j => ?_, dir⟩
  · rw [streamOf_setStream_self]
    exact ⟨rfl, rfl, rfl, rfl⟩
  · rw [final j other, ← streams]
    exact (leaves.streams j).toRelaxed.trans (given j).1
  · rw [queueOf_setStream, queues, leaves.queues, withoutEntries_side own, queueOf_setEngine, queueOf_setQueue]
  · rw [engineOf_of_same (setStream_de i _ _), engineOf_of_same de, engineOf_of_same leaves.de, withoutEntries_side own,
      engineOf_setEngine, engineOf_setQueue]
  · by_cases here : j = i
    · rw [here, streamOf_setStream_self, (given i).2.2, if_pos rfl]
      rfl
    · rw [final j here]
  · have same (x : Side) : recordOf x (setStream i (closedRecord (streamOf i (releaseReservation i t))) (releaseReservation i t)) =
        recordOf x (releaseReservation i t) := rfl
    by_cases here : j = i
    · rw [here, streamOf_setStream_self]
      refine ⟨fun same => (nomatch same), ?_⟩
      rintro ⟨x, inX⟩
      rw [same, out] at inX
      cases inX
    · rw [final j here, (given j).2.1, third.awaited j here]
      simp only [same, records']

end Sys2Proof.Machine
end

section
/-! PROOFS. The operations of an event keep the laws of the blocks that draw: fills, frames, the ends of executions, marks, openings,
moves, resets. -/

namespace Sys2Proof.Machine

/-! ### Records and marks -/

/-- A record that stays of the same fault with the same waiting set is replaced. -/
theorem setRecord_drawn {s : State} (h : Drawn s) {side : Side} {r : FaultRecord} (same : SameFault (recordOf side s) r)
    (waiting : r.waiting = (recordOf side s).waiting) : Drawn (setRecord side r s) := by
  have set := setRecord_set side r s
  have bits (x : Side) : (recordOf x (setRecord side r s)).waiting = (recordOf x s).waiting := by
    rw [set.records]
    split
    next here => rw [here, waiting]
    next => rfl
  refine ⟨h.queues.of_same set.sq set.de, h.reserves.of_same (fun i => by rw [streamOf_of_same set.sq]) (congrArg TileCache.dir set.tc),
    h.faults.change (fun x => ?_) (fun n w => by rw [set.tc]; exact ⟨rfl, rfl, rfl⟩) (by rw [bits, bits]; exact h.faults.apart),
    h.awaited.of_same (fun i => by rw [streamOf_of_same set.sq]) bits, setRecord_dir side r h.dir⟩
  rw [set.records]
  split
  next here => rw [here]; exact same
  next => exact .refl _

/-- R104: a record that is sent again. -/
theorem representFault_drawn (side : Side) {s : State} (h : Drawn s) : Drawn (representFault side s) := by
  unfold representFault
  dsimp only
  split
  next on =>
    refine (count_apart _ _).drawn (setRecord_drawn h ⟨rfl, rfl, fun off => absurd on (by rw [off]; decide), fun _ f => ?_⟩ rfl)
    exact ⟨f.key, f.needed, f.waiting, f.tries, rfl⟩
  next => exact h

/-- R101: a record that is retried, below a retry limit in its range. -/
theorem retryFault_drawn {side : Side} {s : State} (h : Drawn s) (on : (recordOf side s).active = true)
    (below : (recordOf side s).tries < 7) : Drawn (retryFault side s) := by
  refine (count_apart _ _).drawn (setRecord_drawn h ⟨rfl, rfl, fun off => absurd on (by rw [off]; decide), fun _ f => ?_⟩ rfl)
  exact ⟨f.key, f.needed, f.waiting, below, rfl⟩

/-- The rewind flag of a stream is cleared, or its renewed mark. -/
theorem Eased.unmarked (r : Stream) {rewind : Option RewindReason} (fewer : rewind = r.rewind ∨ rewind = none) (renewed : Bool) :
    Eased r { r with rewind := rewind, renewed := renewed } where
  side := rfl
  closed := .rfl
  shut _ h := ⟨by rcases fewer with rfl | rfl; exacts [h.1, rfl], h.2⟩
  reserved h := h
  waits h := h
  ready h := ⟨h, id⟩
  tile := .rfl
  reservation := rfl

theorem completeItem_drawn (item : TxItem) {s : State} (h : Drawn s) : Drawn (completeItem item s) := by
  cases item with
  | greet =>
    unfold completeItem
    dsimp only
    split
    · exact h.of_same rfl rfl rfl rfl
    · exact h.of_same rfl rfl rfl rfl
  | keys => exact h.of_same rfl rfl rfl rfl
  | fault side =>
    unfold completeItem
    dsimp only
    split
    · refine setRecord_drawn h ⟨rfl, rfl, fun _ idle => ?_, fun _ f => ⟨f.key, f.needed, f.waiting, f.tries, f.timer⟩⟩ rfl
      rw [idle]
      rfl
    · refine setRecord_drawn h ⟨rfl, rfl, fun _ idle => ?_, fun _ f => ⟨f.key, f.needed, f.waiting, f.tries, f.timer⟩⟩ rfl
      rw [idle]
      rfl
  | rewind i =>
    unfold completeItem
    dsimp only
    split
    · exact setStream_drawn h (.unmarked _ (.inl rfl) _)
    · exact setStream_drawn h (.unmarked _ (.inr rfl) (streamOf i s).renewed)
  | reply => exact h.of_same rfl rfl rfl rfl
  | event k => exact (count_apart _ _).drawn ((setEventSlot_apart k _ s).drawn h)

theorem flagRewind_drawn (reason : RewindReason) {i : Fin 8} {s : State} (h : Drawn s) (opened : (streamOf i s).state ≠ .closed) :
    Drawn (flagRewind reason i s) := setStream_drawn h (.marked opened (streamOf i s).expected _ _)

theorem flagOpenRewinds_drawn (reason : RewindReason) {s : State} (h : Drawn s) : Drawn (flagOpenRewinds reason s) := by
  have each (l : List (Fin 8)) : ∀ {s : State}, Drawn s →
      Drawn (l.foldl (fun t i => if isOpen i t then flagRewind reason i t else t) s) := by
    induction l with
    | nil => exact fun h => h
    | cons i l ih =>
      refine fun {s} h => ih ?_
      dsimp only
      split
      next opened => exact flagRewind_drawn reason h (by simpa [isOpen] using opened)
      next => exact h
  exact each _ h

/-! ### Fills (R77 to R79) -/

theorem writeSector_drawn {s : State} (h : Drawn s) {key : Word} {w : Fin 4} (valid : (tileSet key s)[w].valid = true)
    (sector : Nat) (data : List Byte) : Drawn (writeSector key w sector data s) := by
  have dir := writeSector_dir sector data valid h.dir
  have written : wrote (setIndex key) w { s.tc.dir[setIndex key][w] with
      sectors := s.tc.dir[setIndex key][w].sectors ||| BitVec.ofNat 4 (2 ^ sector) } s (writeSector key w sector data s) :=
    setTileSet_wrote key w _ { s with tc.store := cellWrite 0 s.tc.store (sectorAddress key w sector) data }
  have sq : (writeSector key w sector data s).sq = s.sq := setTileSet_sq _ _ _
  have de : (writeSector key w sector data s).de = s.de := setTileSet_de _ _ _
  have tf : (writeSector key w sector data s).tf = s.tf := setTileSet_tf _ _ _
  generalize writeSector key w sector data s = t at *
  have records (x : Side) : recordOf x t = recordOf x s := recordOf_of_same tf
  refine ⟨h.queues.of_same sq de, h.reserves.change (fun i => by rw [streamOf_of_same sq]) (fun m v => ?_),
    h.faults.change (fun x => by rw [records]; exact .refl _) (fun m v => ?_) (by rw [records, records]; exact h.faults.apart),
    h.awaited.of_same (fun i => by rw [streamOf_of_same sq]) (fun x => by rw [records]), dir⟩
  · rw [written]
    split
    next here => rw [here.1, here.2]; exact ⟨rfl, rfl, rfl, or_ne_zero⟩
    next => exact ⟨rfl, rfl, rfl, id⟩
  · rw [written]
    split
    next here => rw [here.1, here.2]; exact ⟨rfl, rfl, rfl⟩
    next => exact ⟨rfl, rfl, rfl⟩

/-- R99: a fill is passed on, and completes the fault that has all it needs. -/
theorem fillPassed_drawn {s : State} (h : Drawn s) {key : Word} {w : Fin 4} (found : findWay key (tileSet key s) = some w) :
    Drawn (fillPassed key w s) := by
  unfold fillPassed
  split
  next side named =>
    obtain ⟨on, same⟩ := faultOn_some named
    split
    next covered =>
      subst same
      refine completeFault_drawn h on (w := w) found ?_
      intro zero
      have sectors : (tileSet (recordOf side s).key s)[w].sectors = 0 := zero
      rw [sectors, show ~~~ (0 : BitVec 4) = BitVec.allOnes 4 by decide, BitVec.and_allOnes] at covered
      exact (h.faults.active side on).needed covered
    next => exact h
  next => exact h

theorem fillPresent_drawn {s : State} (h : Drawn s) {key : Word} {w : Fin 4} (found : findWay key (tileSet key s) = some w)
    (sector : Nat) (data : List Byte) : Drawn (fillPresent key w sector data s) := by
  have legal := (count_apart .fillPresent _).drawn (writeSector_drawn h (findWay_some found).1 sector data)
  unfold fillPresent
  dsimp only
  split
  · refine fillPassed_drawn legal ?_
    have written : wrote (setIndex key) w { s.tc.dir[setIndex key][w] with
        sectors := s.tc.dir[setIndex key][w].sectors ||| BitVec.ofNat 4 (2 ^ sector) } s (writeSector key w sector data s) :=
      setTileSet_wrote key w _ { s with tc.store := cellWrite 0 s.tc.store (sectorAddress key w sector) data }
    refine Eq.trans (findWay_congr fun v => ?_) found
    have same := written (setIndex key) v
    rw [tileSet_count]
    show (writeSector key w sector data s).tc.dir[setIndex key][v].valid = s.tc.dir[setIndex key][v].valid ∧
      (writeSector key w sector data s).tc.dir[setIndex key][v].key = s.tc.dir[setIndex key][v].key
    rw [same]
    split
    next here => rw [here.2]; exact ⟨rfl, rfl⟩
    next => exact ⟨rfl, rfl⟩
  · exact legal

theorem fillAbsent_drawn {s : State} (h : Drawn s) {key : Word} (nonzero : key ≠ 0) (absent : findWay key (tileSet key s) = none)
    (sector : Nat) (data : List Byte) : Drawn (fillAbsent key sector data s) := by
  unfold fillAbsent
  split
  next w taken =>
    refine (count_apart _ _).drawn (writeSector_drawn (allocateWay_drawn h nonzero absent taken) ?_ _ _)
    rw [tileSet_allocateWay, takeWay_taken]
  next => exact (count_apart _ _).drawn h

theorem doTile_drawn (key : Word) (sector : Byte) (data : List Byte) {s : State} (h : Drawn s) : Drawn (doTile key sector data s) := by
  unfold doTile
  split
  · exact (count_apart _ _).drawn h
  next good =>
    split
    · exact (count_apart _ _).drawn h
    · split
      next w found => exact settle_drawn (fillPresent_drawn h found _ _)
      next absent => exact fillAbsent_drawn h (fun zero => good (.inl zero)) absent _ _

/-! ### The end of an execution (R119, R120) -/

theorem drawn_tc (r : ExecRecord) (s : State) : (drawn r s).tc = s.tc := by
  rw [drawn, (markBlocks_apart _ _).tc, pixelsWritten_rest]

theorem finishExecution_drawn {side : Side} {r : ExecRecord} {s : State} (h : Drawn s) (busy : engineOf side s = some r) :
    Drawn (finishExecution side r s) := by
  have written : Drawn (drawn r s) := h.of_same (drawn_sq r s) (drawn_de r s) (drawn_tf r s) (by rw [drawn_tc])
  have busy' : engineOf side (drawn r s) = some r := by rw [engineOf_of_same (drawn_de r s)]; exact busy
  have queues := written.queues.completes busy'
  rw [finishExecution_eq]
  generalize drawn r s = u at written queues
  have rest : (if r.removed = true then u else removeEntry side r u).tf = u.tf ∧
      (if r.removed = true then u else removeEntry side r u).tc = u.tc ∧
      ∀ i, streamOf i (if r.removed = true then u else removeEntry side r u) = streamOf i u := by
    split
    · exact ⟨rfl, rfl, fun _ => rfl⟩
    · exact ⟨setQueue_tf _ _ _, setQueue_tc _ _ _, fun i => streamOf_setQueue _ _ i _⟩
  generalize (if r.removed = true then u else removeEntry side r u) = v at queues rest
  obtain ⟨tf, tc, streams⟩ := rest
  have counted := count_apart (drawnEvent r.command) v
  refine grantStore_drawn ⟨queues.of_same ?_ ?_, written.reserves.of_same (fun i => ?_) ?_, written.faults.of_same ?_ ?_,
    written.awaited.of_same (fun i => ?_) (fun x => ?_), dirLegal_of_same ?_ written.dir⟩
  · rw [setEngine_sq, setEngine_sq, counted.sq]
  · cases side <;> simp only [setEngine, counted.de]
  · rw [streamOf_setEngine, streamOf_of_same counted.sq, streams]
  · rw [setEngine_tc, counted.tc, tc]
  · rw [setEngine_tf, counted.tf, tf]
  · rw [setEngine_tc, counted.tc, tc]
  · rw [streamOf_setEngine, streamOf_of_same counted.sq, streams]
  · rw [recordOf_of_same ((setEngine_tf side none _).trans (counted.tf.trans tf))]
  · rw [setEngine_tc, counted.tc, tc]

/-! ### DRAW frames (R50 to R57) -/

theorem takeFrame_settles {s : State} (h : Drawn s) {side : Side} {i : Fin 8} (own : (streamOf i s).side = some side) (seq : Half)
    (cs : List DrawCommand) : ∃ u, takeFrame side i seq cs s = settle u ∧ Drawn u := by
  have joined := setQueue_drawn h (h.queues.joins own (es := entriesOf i seq cs) fun e mem => by
    obtain ⟨c, _, rfl⟩ := List.mem_map.1 mem
    exact ⟨rfl, rfl⟩)
  refine ⟨_, rfl, (count_apart _ _).drawn (setStream_drawn joined ?_)⟩
  rw [streamOf_setQueue]
  exact .marked (h.queues.opened own) _ _ _

theorem takeFrame_drawn {s : State} (h : Drawn s) {side : Side} {i : Fin 8} (own : (streamOf i s).side = some side) (seq : Half)
    (cs : List DrawCommand) : Drawn (takeFrame side i seq cs s) := by
  obtain ⟨u, settles, drawn⟩ := takeFrame_settles h own seq cs
  rw [settles]
  exact settle_drawn drawn

theorem shedVictim_candidate {side : Side} {s : State} {v : Fin 8} (chosen : shedVictim side s = some v) :
    shedCandidate side s v = true := by
  have each (l : List (Fin 8)) (best : Option (Fin 8)) (known : ∀ b ∈ best, shedCandidate side s b = true) :
      ∀ b ∈ l.foldl (fun best i =>
        if shedCandidate side s i then
          match best with
          | some b => if queued b s < queued i s then some i else some b
          | none => some i
        else best) best, shedCandidate side s b = true := by
    induction l generalizing best with
    | nil => exact known
    | cons i l ih =>
      refine ih _ fun b mem => ?_
      dsimp only at mem
      split at mem
      next candidate =>
        split at mem
        · split at mem
          · cases mem
            exact candidate
          · exact known b mem
        · cases mem
          exact candidate
      next => exact known b mem
  exact each _ none (fun _ mem => (nomatch mem)) v chosen

theorem shedStream_drawn {s : State} (h : Drawn s) {side : Side} {v : Fin 8} (candidate : shedCandidate side s v = true) :
    Drawn (shedStream side v s) := by
  simp only [shedCandidate, Bool.and_eq_true, beq_iff_eq] at candidate
  obtain ⟨⟨⟨own, waits⟩, _⟩, _⟩ := candidate
  have shed := setQueue_drawn h (h.queues.sheds (side := side) waits)
  have opened : (streamOf v s).state ≠ .closed := waits_open waits
  unfold shedStream
  dsimp only
  refine (countN_counted _ _ _).apart.drawn ((count_apart _ _).drawn (flagRewind_drawn .shed (setStream_drawn shed ?_) ?_))
  · rw [streamOf_setQueue]
    exact .marked opened _ (streamOf v s).rewind (streamOf v s).renewed
  · rw [streamOf_setStream_self, streamOf_setQueue]
    exact opened

/-- A shed leaves every stream its side and whether it is open. -/
theorem shedStream_stream (side : Side) (v j : Fin 8) (s : State) : (streamOf j (shedStream side v s)).side = (streamOf j s).side ∧
    (streamOf j (shedStream side v s)).state = (streamOf j s).state := by
  unfold shedStream
  dsimp only
  rw [streamOf_of_same ((countN_counted _ _ _).apart.sq.trans (count_apart _ _).sq), flagRewind, streamOf_setStream]
  split
  next here =>
    rw [here, streamOf_setStream_self, streamOf_setQueue]
    exact ⟨rfl, rfl⟩
  next other =>
    rw [streamOf_setStream, if_neg other, streamOf_setQueue]
    exact ⟨rfl, rfl⟩

theorem refuseForRoom_drawn {s : State} (h : Drawn s) {i : Fin 8} (opened : (streamOf i s).state ≠ .closed) :
    Drawn (refuseForRoom i s) :=
  flagRewind_drawn .gap ((count_apart _ _).drawn h) (by rw [streamOf_of_same (count_sq _ _)]; exact opened)

theorem inOrder_drawn {s : State} (h : Drawn s) {side : Side} {i : Fin 8} (own : (streamOf i s).side = some side) (seq : Half)
    (cs : List DrawCommand) : Drawn (inOrder side i seq cs s) := by
  have opened := h.queues.opened own
  unfold inOrder
  split
  · exact takeFrame_drawn h own seq cs
  · split
    next v chosen =>
      have shed := shedStream_drawn h (shedVictim_candidate chosen)
      obtain ⟨side', state⟩ := shedStream_stream side v i s
      dsimp only
      split
      · exact (count_apart _ _).drawn shed
      · split
        · exact takeFrame_drawn shed (side'.trans own) seq cs
        · exact refuseForRoom_drawn shed (by rw [state]; exact opened)
    next =>
      exact refuseForRoom_drawn ((count_apart _ _).drawn h) (by rw [streamOf_of_same (count_sq _ _)]; exact opened)

theorem doDraw_drawn (stream : Byte) (seq : Half) (commands : List Byte) {s : State} (h : Drawn s) :
    Drawn (doDraw stream seq commands s) := by
  have counted (x : SubEvent) : Drawn (count x s) := (count_apart x s).drawn h
  unfold doDraw
  split
  · split
    · unfold judgeDraw
      split
      · exact counted _
      next side own =>
        split
        · exact counted _
        · split
          · exact counted _
          · dsimp only
            split
            · exact inOrder_drawn h own _ _
            · split
              · split
                · exact flagRewind_drawn .gap (counted .gap) (by
                    rw [streamOf_of_same (count_sq _ _)]
                    exact h.queues.opened own)
                · exact counted _
              · exact counted _
    · exact counted _
  · exact counted _

/-! ### Opening, and what empties the session -/

theorem openStream_drawn {s : State} (h : Drawn s) {i : Fin 8} (closed : (streamOf i s).state = .closed) (start : Half) :
    Drawn (openStream i start s) := by
  have self : streamOf i (openStream i start s) = ⟨.ready, some (sideForOpen s), start, none, false, none⟩ :=
    streamOf_setStream_self i _ s
  have others (j : Fin 8) (other : j ≠ i) : streamOf j (openStream i start s) = streamOf j s :=
    streamOf_setStream_ne (Ne.symm other) _ s
  refine ⟨h.queues.opens closed (by rw [self]; exact ⟨rfl, rfl, rfl⟩) others (fun x => by cases x <;> rfl)
      (fun x => by cases x <;> rfl), h.reserves.of_same (fun j => ?_) rfl, h.faults.of_same rfl rfl,
    h.awaited.of_same (fun j => ?_) (fun _ => rfl), h.dir⟩
  · by_cases here : j = i
    · rw [here, self, (h.queues.shut i closed).2]
    · rw [others j here]
  · by_cases here : j = i
    · rw [here, self, closed]
      exact ⟨fun same => (nomatch same), fun same => (nomatch same)⟩
    · rw [others j here]

theorem emptyDir_entry {s : State} (fresh : s.tc.dir = emptyDir) (n : Fin 64) (w : Fin 4) :
    s.tc.dir[n][w] = DirEntry.invalid w.val := by
  have set : emptyDir[n] = emptySet := Vector.getElem_replicate n.isLt
  rw [fresh, set]
  simp [emptySet]

/-- R67, R68, R90, R106: with every stream closed, nothing queued, the directory empty and both records IDLE. -/
theorem Drawn.of_reset {s : State} (empty : ∀ side, queueOf side s = [])
    (engines : ∀ side r, engineOf side s = some r → r.removed = true)
    (streams : ∀ i : Fin 8, (streamOf i s).state = .closed ∧ (streamOf i s).side = none ∧ (streamOf i s).rewind = none ∧
      (streamOf i s).reservation = none) (records : ∀ side, recordOf side s = FaultRecord.idle) (dir : s.tc.dir = emptyDir) :
    Drawn s where
  queues := .of_empty empty engines fun i => ⟨(streams i).2.2.2, .inr ⟨(streams i).1, (streams i).2.1, (streams i).2.2.1⟩⟩
  reserves := .of_unreserved (fun i => (streams i).2.2.2) fun n w => by rw [emptyDir_entry dir]; rfl
  faults := .of_idle records fun n w => by rw [emptyDir_entry dir]; rfl
  awaited i := by
    rw [(streams i).1]
    refine ⟨fun same => (nomatch same), ?_⟩
    rintro ⟨side, member⟩
    rw [records, idle_bit] at member
    cases member
  dir := emptyDir_legal dir

theorem sessionless_drawn (s : State) : Drawn (sessionless s) := by
  refine .of_reset (fun side => by cases side <;> rfl) (fun side r busy => ?_) (fun i => ?_) (fun side => by cases side <;> rfl) rfl
  · cases side
    · obtain ⟨_, _, rfl⟩ := Option.map_eq_some_iff.1 (show s.de.engineA.map _ = some r from busy)
      rfl
    · obtain ⟨_, _, rfl⟩ := Option.map_eq_some_iff.1 (show s.de.engineB.map _ = some r from busy)
      rfl
  · have read (f : Fin 8 → Stream) (i : Fin 8) : (Vector.ofFn f)[i] = f i := Vector.getElem_ofFn i.isLt
    have self : streamOf i (sessionless s) = ⟨.closed, none, (streamOf i s).expected, none, false, none⟩ :=
      read (fun i => ⟨.closed, none, (streamOf i s).expected, none, false, none⟩) i
    rw [self]
    exact ⟨rfl, rfl, rfl, rfl⟩

theorem stopFill_drawn {s : State} (h : Drawn s) : Drawn (stopFill s) := by
  rw [stopFill_rest]
  exact h.of_same rfl rfl rfl rfl

theorem teardownLayout_drawn {s : State} (h : Drawn s) : Drawn (teardownLayout s) := by
  obtain ⟨sq, de, tf, tc⟩ := setStale_rest 0xFF s
  have stale : Drawn (setChanged true (setStale 0xFF s)) := h.of_same sq de tf (congrArg TileCache.dir tc)
  exact grantStore_drawn ((stopFill_drawn stale).of_same rfl rfl rfl rfl)

theorem teardown_drawn (s : State) : Drawn (teardown s) := by
  unfold teardown
  dsimp only
  rw [sessionless_eq]
  exact (trackTeardown_apart _).drawn (teardownLayout_drawn (sessionless_drawn _))

theorem dockReset_drawn (s : State) : Drawn (dockReset s) := by
  unfold dockReset
  dsimp only
  rw [sessionless_eq]
  exact (sessionless_drawn _).of_same rfl rfl rfl rfl

end Sys2Proof.Machine
end

section
/-! PROOFS. The rest of what keeps the laws of the blocks that draw: the operations made with nothing left to drain (R33, R64 to R66, R86),
pins (R84, R85), fills of the Layout Unit (R34, R37), ticks and resets. -/

namespace Sys2Proof.Machine

/-! ### With nothing left to drain -/

/-- R63: with nothing left to drain, streams are READY or CLOSED and hold no reservation. -/
theorem Drawn.calm {s : State} (h : Drawn s) (left : nothingLeft s) (i : Fin 8) : (streamOf i s).reservation = none ∧
    ((streamOf i s).state = .ready ∧ (streamOf i s).side.isSome = true ∨
      (streamOf i s).state = .closed ∧ (streamOf i s).side = none ∧ (streamOf i s).rewind = none) := by
  have empty (side : Side) : queueOf side s = [] := by
    obtain ⟨queueA, queueB, -⟩ := left
    cases side
    · exact queueA
    · exact queueB
  by_cases closed : (streamOf i s).state = .closed
  · obtain ⟨rewind, reservation⟩ := h.queues.shut i closed
    refine ⟨reservation, .inr ⟨closed, ?_, rewind⟩⟩
    have shut := mt (h.queues.sided i).2 (not_not.2 closed)
    simpa using shut
  · have sided := (h.queues.sided i).1 closed
    obtain ⟨side, own⟩ := Option.isSome_iff_exists.1 sided
    have calm : ¬ ((streamOf i s).state.waits = true ∨ (streamOf i s).reservation.isSome = true) := by
      intro some'
      obtain ⟨e, first, -⟩ := h.queues.awaits i side own some'
      rw [empty side] at first
      cases first
    obtain ⟨waits, reserved⟩ := not_or.1 calm
    refine ⟨by simpa using reserved, .inl ⟨?_, sided⟩⟩
    generalize (streamOf i s).state = state at closed waits
    cases state with
    | ready => rfl
    | closed => exact absurd rfl closed
    | waitTile => exact absurd rfl waits
    | waitSlot => exact absurd rfl waits
    | waitWay => exact absurd rfl waits

/-- With nothing left to drain, what matters of the streams is which of them are open. -/
theorem Drawn.of_calm {s t : State} (h : Drawn s) (left : nothingLeft s)
    (sq : t.sq.queueA = s.sq.queueA ∧ t.sq.queueB = s.sq.queueB) (de : t.de = s.de) (tf : t.tf = s.tf) (dir : t.tc.dir = s.tc.dir)
    (streams : ∀ i : Fin 8, (streamOf i t).state = (streamOf i s).state ∧
      (streamOf i t).side.isSome = (streamOf i s).side.isSome ∧
      ((streamOf i s).state = .closed → (streamOf i t).rewind = (streamOf i s).rewind) ∧
      (streamOf i t).reservation = (streamOf i s).reservation) : Drawn t where
  queues := by
    obtain ⟨queueA, queueB, engineA, engineB, -⟩ := id left
    refine .of_empty (fun side => ?_) (fun side r busy => ?_) fun i => ?_
    · cases side
      · exact sq.1.trans queueA
      · exact sq.2.trans queueB
    · rw [engineOf_of_same de] at busy
      cases side
      · cases engineA.symm.trans busy
      · cases engineB.symm.trans busy
    · obtain ⟨state, side, rewind, reservation⟩ := streams i
      obtain ⟨unreserved, calm⟩ := h.calm left i
      rw [state, side, reservation]
      refine ⟨unreserved, calm.imp id fun closed => ?_⟩
      obtain ⟨closed, none', still⟩ := closed
      rw [none'] at side
      exact ⟨closed, Option.isNone_iff_eq_none.1 (by simpa using side), (rewind closed).trans still⟩
  reserves := h.reserves.of_same (fun i => (streams i).2.2.2) dir
  faults := h.faults.of_same tf dir
  awaited := h.awaited.of_same (fun i => by rw [(streams i).1]) fun side => by rw [recordOf_of_same tf]
  dir := dirLegal_of_same dir h.dir

/-! ### RESUME and the sweep (R64 to R66, R86) -/

theorem moveStream_drawn {side : Side} {s : State} (h : Drawn s) (left : nothingLeft s) :
    Drawn (moveStream side s) ∧ nothingLeft (moveStream side s) := by
  unfold moveStream
  split
  next i found =>
    have own : isOpen i s = true ∧ (streamOf i s).side = some side := by
      have is := List.find?_some found
      simpa using is
    have moved : Drawn (setStream i { streamOf i s with side := some (otherSide side) } s) := by
      refine h.of_calm left ⟨rfl, rfl⟩ rfl rfl rfl fun j => ?_
      by_cases here : j = i
      · subst here
        rw [streamOf_setStream_self]
        exact ⟨rfl, by rw [own.2]; rfl, fun _ => rfl, rfl⟩
      · rw [streamOf_setStream_ne (Ne.symm here)]
        exact ⟨rfl, rfl, fun _ => rfl, rfl⟩
    have counted := count_apart .rebalanceMove (setStream i { streamOf i s with side := some (otherSide side) } s)
    exact ⟨counted.drawn moved, counted.nothingLeft.2 left⟩
  next => exact ⟨h, left⟩

theorem rebalance_drawn {s : State} (h : Drawn s) (left : nothingLeft s) : Drawn (rebalance s) ∧ nothingLeft (rebalance s) := by
  have each (fuel : Nat) : ∀ {s : State}, Drawn s → nothingLeft s →
      Drawn (rebalanceFuel fuel s) ∧ nothingLeft (rebalanceFuel fuel s) := by
    induction fuel with
    | zero => exact fun h left => ⟨h, left⟩
    | succ fuel ih =>
      intro s h left
      have moved (side : Side) := moveStream_drawn (side := side) h left
      unfold rebalanceFuel
      split
      · exact ih (moved .a).1 (moved .a).2
      · split
        · exact ih (moved .b).1 (moved .b).2
        · exact ⟨h, left⟩
  exact each 8 h left

theorem flagOpenRewinds_rest (reason : RewindReason) (s : State) : flagOpenRewinds reason s =
    { s with sq.streams := (flagOpenRewinds reason s).sq.streams } := by
  rw [flagOpenRewinds_eq]
  rfl

theorem finishResume_drawn {s : State} (h : Drawn s) (left : nothingLeft s) : Drawn (finishResume s) := by
  have balanced := (rebalance_drawn h left).1
  have flagged := flagOpenRewinds_drawn .quiesceEnd balanced
  unfold finishResume
  dsimp only
  generalize flagOpenRewinds .quiesceEnd (rebalance s) = t at flagged
  have running : Drawn { t with sq.quiesce := .running } := flagged.eased (fun i => .refl _) (fun side => by cases side <;> rfl) rfl rfl rfl
  exact endOp_drawn _ _ running

theorem setChanged_drawn (b : Bool) {s : State} (h : Drawn s) : Drawn (setChanged b s) := h.of_same rfl rfl rfl rfl

theorem setStale_drawn (m : BitVec 8) {s : State} (h : Drawn s) : Drawn (setStale m s) := by
  obtain ⟨sq, de, tf, tc⟩ := setStale_rest m s
  exact h.of_same sq de tf (congrArg TileCache.dir tc)

theorem askStore_drawn (w : Writer) {s : State} (h : Drawn s) : Drawn (askStore w s) :=
  grantStore_drawn (h.of_same rfl rfl rfl rfl)

theorem beginApply_drawn {s : State} (h : Drawn s) : Drawn (beginApply s) := by
  unfold beginApply
  dsimp only
  have noted : Drawn (setChanged false { s with lu.apply := some (notedRegions s) }) := setChanged_drawn _ (h.of_same rfl rfl rfl rfl)
  generalize setChanged false { s with lu.apply := some (notedRegions s) } = t at noted
  refine askStore_drawn _ ((count_apart _ _).drawn ?_)
  split
  · exact noted
  · exact setStale_drawn _ noted

theorem beginLong_drawn (tag kind : Byte) (op : LongOp) {s : State} (h : Drawn s) : Drawn (beginLong tag kind op s) :=
  h.of_same rfl rfl rfl rfl

theorem emptySet_entry (w : Fin 4) : emptySet[w] = DirEntry.invalid w.val := by simp [emptySet]

/-- R86: with nothing left to drain, no entry of a set is pending or reserved, so that it can be emptied. -/
theorem sweepSet_drawn (n : Fin 64) {s : State} (h : Drawn s) (left : nothingLeft s) : Drawn (sweepSet n s) := by
  have idle (side : Side) : recordOf side s = FaultRecord.idle := h.faults.idle side (nothingLeft_records left side)
  have unreserved (m : Fin 64) (w : Fin 4) : s.tc.dir[m][w].reserve = 0 :=
    h.reserves.none_reserved h.dir (fun i => (h.calm left i).1) m w
  have unpending := h.faults.none_pending (nothingLeft_records left)
  have entry (m : Fin 64) (w : Fin 4) : (s.tc.dir.set n emptySet)[m][w] =
      if m = n then DirEntry.invalid w.val else s.tc.dir[m][w] := by
    by_cases here : m = n
    · subst here
      rw [if_pos rfl]
      have set : (s.tc.dir.set m emptySet)[m] = emptySet := Vector.getElem_set_self m.isLt
      rw [set, emptySet_entry]
    · rw [if_neg here]
      have set : (s.tc.dir.set n emptySet)[m] = s.tc.dir[m] :=
        Vector.getElem_set_ne n.isLt m.isLt fun same => here (Fin.ext same.symm)
      rw [set]
  have swept : Drawn { s with tc.dir := s.tc.dir.set n emptySet, tc.sweep := n.val + 1 } := by
    refine ⟨h.queues.of_same rfl rfl, .of_unreserved (fun i => (h.calm left i).1) fun m w => ?_, .of_idle idle fun m w => ?_,
      h.awaited, dirLegal_set (emptySet_legal n) h.dir⟩
    · dsimp only
      rw [entry]
      split
      · rfl
      · exact unreserved m w
    · dsimp only
      rw [entry]
      split
      · rfl
      · exact unpending m w
  unfold sweepSet
  dsimp only
  split
  · exact endOp_drawn _ _ swept
  · exact swept

/-! ### Pins (R84, R85) -/

/-- An entry may be pinned or unpinned. -/
theorem setPinned_drawn {s : State} (h : Drawn s) {key : Word} (w : Fin 4) (pinned : Bool)
    (dir : dirLegal (setTileSet key ((tileSet key s).set w { (tileSet key s)[w] with pinned := pinned }) s)) :
    Drawn (setTileSet key ((tileSet key s).set w { (tileSet key s)[w] with pinned := pinned }) s) := by
  have written : wrote (setIndex key) w { s.tc.dir[setIndex key][w] with pinned := pinned } s
    (setTileSet key ((tileSet key s).set w { (tileSet key s)[w] with pinned := pinned }) s) := setTileSet_wrote key w _ s
  have sq := setTileSet_sq key ((tileSet key s).set w { (tileSet key s)[w] with pinned := pinned }) s
  have de := setTileSet_de key ((tileSet key s).set w { (tileSet key s)[w] with pinned := pinned }) s
  have tf := setTileSet_tf key ((tileSet key s).set w { (tileSet key s)[w] with pinned := pinned }) s
  generalize setTileSet key ((tileSet key s).set w { (tileSet key s)[w] with pinned := pinned }) s = t at *
  have tiles (m : Fin 64) (v : Fin 4) : SameTile s.tc.dir[m][v] t.tc.dir[m][v] := by
    rw [written m v]
    split
    next here =>
      obtain ⟨rfl, rfl⟩ := here
      exact ⟨rfl, rfl, rfl, rfl, rfl⟩
    next => exact .refl _
  exact ⟨h.queues.of_same sq de, h.reserves.same_tiles (fun i => by rw [streamOf_of_same sq]) tiles, h.faults.same_tiles tf tiles,
    h.awaited.of_same (fun i => by rw [streamOf_of_same sq]) (fun side => by rw [recordOf_of_same tf]), dir⟩

theorem unpin_drawn (tag : Byte) (key : Word) {s : State} (h : Drawn s) : Drawn (unpin tag key s) := by
  have dir := unpin_dir tag key h.dir
  unfold unpin at dir ⊢
  dsimp only at dir ⊢
  split at dir
  next w found =>
    split at dir
    next pinned =>
      rw [if_pos pinned]
      exact (answer_apart _ _ _ _).drawn (wakeWay_drawn (setPinned_drawn h w false dir))
    next unpinned =>
      rw [if_neg unpinned]
      exact (answer_apart _ _ _ _).drawn h
  next none' =>
    exact (answer_apart _ _ _ _).drawn h

theorem doTilePin_drawn (tag : Byte) (key : Word) {s : State} (h : Drawn s) : Drawn (doTilePin tag key s) := by
  have dir := doTilePin_dir tag key h.dir
  have answers (x : Status) : Drawn (answer tag 0x08 x s) := (answer_apart _ _ _ _).drawn h
  unfold doTilePin at dir ⊢
  dsimp only at dir ⊢
  split at dir
  next w found =>
    split at dir
    next out => rw [if_pos out]; exact answers _
    next whole =>
      rw [if_neg whole]
      split at dir
      next pinned => rw [if_pos pinned]; exact answers _
      next unpinned =>
        rw [if_neg unpinned]
        split at dir
        next full => rw [if_pos full]; exact answers _
        next room =>
          rw [if_neg room]
          exact (answer_apart _ _ _ _).drawn (setPinned_drawn h w true dir)
  next none' =>
    exact answers _

/-! ### The Layout Unit's fills (R34, R37) -/

theorem finishApply_drawn (mask : BitVec 8) {s : State} (h : Drawn s) : Drawn (finishApply mask s) :=
  grantStore_drawn (((readToEnd_apart _ _).trans (markBlocks_apart _ _)).drawn (h.of_same rfl rfl rfl rfl))

theorem finishTeardownFill_drawn (c : Half) {s : State} (h : Drawn s) : Drawn (finishTeardownFill c s) :=
  grantStore_drawn (((readToEnd_apart _ _).trans (markBlocks_apart _ _)).drawn (h.of_same rfl rfl rfl rfl))

/-! ### Ticks and resets -/

theorem tickRecord_same (s : State) (r : FaultRecord) : SameFault r (tickRecord s r) ∧ (tickRecord s r).waiting = r.waiting := by
  unfold tickRecord
  split
  next runs =>
    refine ⟨⟨rfl, rfl, fun off => absurd (runs.2.symm.trans off) Bool.noConfusion, fun _ f =>
      ⟨f.key, f.needed, f.waiting, f.tries, ?_⟩⟩, rfl⟩
    rw [Option.isSome_map]
    exact f.timer
  next => exact ⟨.refl r, rfl⟩

theorem recordOf_passTick (side : Side) (s : State) : recordOf side (passTick s) = tickRecord s (recordOf side s) := by
  cases side <;> rfl

theorem passTick_drawn {s : State} (h : Drawn s) : Drawn (passTick s) := by
  have bits (side : Side) : (recordOf side (passTick s)).waiting = (recordOf side s).waiting := by
    rw [recordOf_passTick]
    exact (tickRecord_same s _).2
  refine ⟨h.queues.of_same rfl rfl, h.reserves.of_same (fun _ => rfl) rfl,
    h.faults.change (fun side => ?_) (fun _ _ => ⟨rfl, rfl, rfl⟩) (by rw [bits, bits]; exact h.faults.apart),
    h.awaited.of_same (fun _ => .rfl) bits, h.dir⟩
  rw [recordOf_passTick]
  exact (tickRecord_same s _).1

theorem powerOn_drawn (flash : List Host.Cell) (free : Nat) (pending : List Instr) : Drawn (powerOn flash free pending) := by
  rw [powerOn_eq]
  refine .of_reset (fun side => by cases side <;> rfl) (fun side r busy => by cases side <;> cases busy)
    (fun i => ?_) (fun side => by cases side <;> rfl) rfl
  have fresh := streamOf_afterPowerOn flash free pending i
  unfold afterPowerOn at fresh
  rw [fresh]
  exact ⟨rfl, rfl, rfl, rfl⟩

end Sys2Proof.Machine
end

section
/-! PROOFS. The quiesce state, the request in progress, the apply and the sweep (R61 to R66, R86): most operations leave them alone, and
a handover that is followed by the check of the drain keeps the laws between them. -/

namespace Sys2Proof.Machine

/-- The laws of the quiesce state and the request in progress (R33, R61 to R64, R86). -/
structure Phase (s : State) : Prop where
  drained : s.sq.quiesce = .quiesced → nothingLeft s
  request : decide (s.sq.quiesce = .quiescing) = (s.me.inProgress.any fun r => r.op == .quiesce && !r.silent)
  left : s.sq.quiesce = .quiescing → ¬ nothingLeft s
  requests : requestsLegal s

/-- The quiesce state, the request in progress, the apply and the sweep are as they were. -/
structure SamePhase (s t : State) : Prop where
  quiesce : t.sq.quiesce = s.sq.quiesce
  inProgress : t.me.inProgress = s.me.inProgress
  apply : t.lu.apply = s.lu.apply
  sweep : t.tc.sweep = s.tc.sweep

theorem SamePhase.refl (s : State) : SamePhase s s := ⟨rfl, rfl, rfl, rfl⟩

theorem SamePhase.trans {s t u : State} (h : SamePhase s t) (g : SamePhase t u) : SamePhase s u where
  quiesce := g.quiesce.trans h.quiesce
  inProgress := g.inProgress.trans h.inProgress
  apply := g.apply.trans h.apply
  sweep := g.sweep.trans h.sweep

theorem Apart.phase {s t : State} (h : Apart s t) : SamePhase s t :=
  ⟨congrArg Sequencer.quiesce h.sq, h.inProgress, congrArg LayoutUnit.apply h.lu, congrArg TileCache.sweep h.tc⟩

theorem Handed.phase {s t : State} (h : Handed s t) (quiesce : t.sq.quiesce = s.sq.quiesce) : SamePhase s t where
  quiesce := quiesce
  inProgress := h.inProgress
  apply := by rw [h.drawing.1]
  sweep := by rw [h.drawing.1]

theorem SamePhase.requests {s t : State} (same : SamePhase s t) (h : requestsLegal s) : requestsLegal t := by
  unfold requestsLegal at *
  rw [same.quiesce, same.inProgress, same.apply, same.sweep]
  exact h

/-- What leaves the phase alone keeps its laws when it neither drains nor queues. -/
theorem SamePhase.keeps {s t : State} (same : SamePhase s t) (left : nothingLeft t ↔ nothingLeft s) (h : Phase s) : Phase t where
  drained quiesced := left.2 (h.drained (same.quiesce.symm.trans quiesced))
  request := by rw [same.quiesce, same.inProgress]; exact h.request
  left quiescing := fun none' => h.left (same.quiesce.symm.trans quiescing) (left.1 none')
  requests := same.requests h.requests

/-- In RUNNING there is no drain. -/
theorem SamePhase.runs {s t : State} (same : SamePhase s t) (running : s.sq.quiesce = .running) (h : Phase s) : Phase t where
  drained quiesced := by rw [same.quiesce, running] at quiesced; cases quiesced
  request := by rw [same.quiesce, same.inProgress]; exact h.request
  left quiescing := by rw [same.quiesce, running] at quiescing; cases quiescing
  requests := same.requests h.requests

theorem nothingLeft_congr {s t : State} (queues : ∀ side, queueOf side t = queueOf side s)
    (engines : ∀ side, engineOf side t = engineOf side s)
    (records : ∀ side, (recordOf side t).active = (recordOf side s).active) : nothingLeft t ↔ nothingLeft s := by
  have queueA : t.sq.queueA = s.sq.queueA := queues .a
  have queueB : t.sq.queueB = s.sq.queueB := queues .b
  have engineA : t.de.engineA = s.de.engineA := engines .a
  have engineB : t.de.engineB = s.de.engineB := engines .b
  have recA : t.tf.recA.active = s.tf.recA.active := records .a
  have recB : t.tf.recB.active = s.tf.recB.active := records .b
  unfold nothingLeft
  rw [queueA, queueB, engineA, engineB, recA, recB]

/-! ### The check of the drain (R62) -/

theorem handAll_phase (s : State) : SamePhase s (handAll s) := (handAll_handed s).phase (handAll_hands s).quiesce

theorem endLong_inProgress (x : Status) (s : State) : (endLong x s).me.inProgress = none := by
  unfold endLong
  split
  · split <;> rfl
  next idle => exact idle

theorem endOp_inProgress {op : LongOp} {x : Status} {s : State} {r : Request} (current : s.me.inProgress = some r) (is : r.op = op) :
    (endOp op x s).me.inProgress = none := by
  have named : (s.me.inProgress.any fun r => r.op == op) = true := by
    rw [current, Option.any_some, is]
    exact beq_self_eq_true op
  rw [endOp, if_pos named]
  exact endLong_inProgress _ _

/-- R62: a drain that comes to its end ends the QUIESCE. -/
theorem drained_phase {s : State} (left : nothingLeft s)
    (request : (s.me.inProgress.any fun r => r.op == .quiesce && !r.silent) = true) (requests : requestsLegal s) :
    Phase (endOp .quiesce .ok { s with sq.quiesce := .quiesced }) := by
  obtain ⟨r, current⟩ : ∃ r, s.me.inProgress = some r := by
    refine Option.ne_none_iff_exists'.1 fun none' => ?_
    rw [none'] at request
    cases request
  have op : r.op = .quiesce := by
    rw [current] at request
    exact eq_of_beq (Bool.and_eq_true_iff.1 request).1
  have ended := endOp_inProgress (x := .ok) (s := { s with sq.quiesce := .quiesced }) current op
  have rest := endOp_rest .quiesce .ok { s with sq.quiesce := .quiesced }
  obtain ⟨apply, sweep, -⟩ := requests
  rw [current] at apply sweep
  simp only [Option.any_some, op] at apply sweep
  have none' : s.lu.apply.isSome = false := apply
  have unswept : ¬ s.tc.sweep < 64 := of_decide_eq_false sweep
  generalize endOp .quiesce .ok { s with sq.quiesce := .quiesced } = t at ended rest
  have quiesced : t.sq.quiesce = .quiesced := by rw [rest]
  have applying : t.lu.apply = s.lu.apply := by rw [rest]
  have sweeping : t.tc.sweep = s.tc.sweep := by rw [rest]
  refine ⟨fun _ => ?_, ?_, fun quiescing => ?_, ?_, ?_, fun _ => quiesced⟩
  · rw [rest]
    exact left
  · rw [ended, quiesced]
    rfl
  · rw [quiesced] at quiescing
    cases quiescing
  · rw [applying, ended, none']
    rfl
  · rw [sweeping, ended, decide_eq_false unswept]
    rfl

theorem SamePhase.settles {s u : State} (same : SamePhase s u) (running : s.sq.quiesce = .running) : SamePhase s (settle u) := by
  have handed := same.trans (handAll_phase u)
  unfold settle
  rw [checkDrain_not_quiescing (by rw [handed.quiesce, running]; decide)]
  exact handed

/-- R47, R62: what an event leaves to the handovers and the check of the drain keeps the laws of the phase when it queues nothing in
QUIESCED. -/
theorem settle_phase {s u : State} (h : Phase s) (same : SamePhase s u) (still : nothingLeft s → nothingLeft u) :
    Phase (settle u) := by
  rcases quiesce : s.sq.quiesce with _ | _ | _
  case running => exact (same.settles quiesce).runs quiesce h
  case quiescing =>
    have handed := same.trans (handAll_phase u)
    unfold settle
    have request : ((handAll u).me.inProgress.any fun r => r.op == .quiesce && !r.silent) = true := by
      rw [handed.inProgress, ← h.request, quiesce]
      rfl
    have requests := handed.requests h.requests
    have quiescing : (handAll u).sq.quiesce = .quiescing := handed.quiesce.trans quiesce
    generalize handAll u = v at *
    by_cases left : nothingLeft v
    · rw [checkDrain, if_pos ⟨quiescing, (drained_iff v).2 left⟩]
      exact drained_phase left request requests
    · rw [checkDrain_waits fun _ => left]
      refine ⟨fun quiesced => ?_, ?_, fun _ => left, requests⟩
      · rw [quiescing] at quiesced
        cases quiesced
      · rw [quiescing, request]
        rfl
  case quiesced =>
    have left := still (h.drained quiesce)
    unfold settle
    rw [handAll_nothingLeft left, checkDrain_not_quiescing (by rw [same.quiesce, quiesce]; decide)]
    exact same.keeps ⟨fun _ => h.drained quiesce, still⟩ h

/-! ### What leaves the phase alone -/

theorem setStream_phase (i : Fin 8) (r : Stream) (s : State) : SamePhase s (setStream i r s) := ⟨rfl, rfl, rfl, rfl⟩

theorem setQueue_phase (side : Side) (q : List Entry) (s : State) : SamePhase s (setQueue side q s) := by
  cases side <;> exact ⟨rfl, rfl, rfl, rfl⟩

theorem setRecord_phase (side : Side) (r : FaultRecord) (s : State) : SamePhase s (setRecord side r s) := by
  cases side <;> exact ⟨rfl, rfl, rfl, rfl⟩

theorem setTileSet_phase (key : Word) (ways : TileSet) (s : State) : SamePhase s (setTileSet key ways s) := ⟨rfl, rfl, rfl, rfl⟩

theorem countN_apart (x : SubEvent) (n : Nat) (s : State) : Apart s (countN x n s) := (countN_counted x n s).apart

theorem setStale_phase (m : BitVec 8) (s : State) : SamePhase s (setStale m s) :=
  .trans (t := mapRegions (fun i r => if m.getLsbD i.val then { r with stale := true } else r) s) ⟨rfl, rfl, rfl, rfl⟩
    (raiseEvent_apart _ _ _).phase

theorem flagRewind_phase (reason : RewindReason) (i : Fin 8) (s : State) : SamePhase s (flagRewind reason i s) := setStream_phase _ _ s

theorem flagOpenRewinds_phase (reason : RewindReason) (s : State) : SamePhase s (flagOpenRewinds reason s) := by
  rw [flagOpenRewinds_eq]
  exact ⟨rfl, rfl, rfl, rfl⟩

theorem representFault_phase (side : Side) (s : State) : SamePhase s (representFault side s) := by
  unfold representFault
  dsimp only
  split
  · exact (setRecord_phase _ _ s).trans (count_apart _ _).phase
  · exact .refl s

theorem retryFault_phase (side : Side) (s : State) : SamePhase s (retryFault side s) :=
  (setRecord_phase _ _ s).trans (count_apart _ _).phase

theorem completeItem_phase (item : TxItem) (s : State) : SamePhase s (completeItem item s) := by
  cases item with
  | greet =>
    unfold completeItem
    dsimp only
    split <;> exact ⟨rfl, rfl, rfl, rfl⟩
  | keys => exact ⟨rfl, rfl, rfl, rfl⟩
  | fault side => exact setRecord_phase _ _ s
  | rewind i => exact setStream_phase _ _ s
  | reply => exact ⟨rfl, rfl, rfl, rfl⟩
  | event k => exact ((setEventSlot_apart k _ s).trans (count_apart _ _)).phase

theorem completeFault_phase (side : Side) (s : State) : SamePhase s (completeFault side s) :=
  (completeFault_handed side s).phase (completeFault_quiesce side s)

theorem abandonFault_phase (side : Side) (s : State) : SamePhase s (abandonFault side s) := by
  have skips (l : List (Fin 8)) : ∀ s, SamePhase s (l.foldl skipHead s) := by
    induction l with
    | nil => exact .refl
    | cons i l ih => exact fun s => ((skipHead_handed s i).phase (skipHead_quiesce s i)).trans (ih _)
  have cleared (key : Word) (s : State) : SamePhase s (mapEntry key clearPending s) :=
    (mapEntry_handed (fun e unpinned => by unfold clearPending; split; exacts [rfl, unpinned]) s).phase (mapEntry_hands _ _ s).quiesce
  unfold abandonFault
  dsimp only
  exact ((((skips _ s).trans (setStale_phase _ _)).trans (cleared _ _)).trans
    ((goIdle_handed side _).phase (goIdle_hands side _).quiesce)).trans
    ((count_apart _ _).trans (trackLost_apart _ _)).phase

theorem withoutEntries_phase (i : Fin 8) (s : State) : SamePhase s (withoutEntries i s) := by
  refine (withoutEntries_handed i s).phase ?_
  unfold withoutEntries
  split
  next side _ => cases side <;> rfl
  next => rfl

theorem closeStream_phase {i : Fin 8} {s : State} (opened : (streamOf i s).state ≠ .closed) : SamePhase s (closeStream i s) := by
  refine (closeStream_handed i s).phase ?_
  rw [closeStream_eq]
  exact (givenUp_hands opened).quiesce.trans (withoutEntries_phase i s).quiesce

theorem finishExecution_phase (side : Side) (r : ExecRecord) (s : State) : SamePhase s (finishExecution side r s) := by
  have drawn : SamePhase s (drawn r s) :=
    ⟨congrArg Sequencer.quiesce (drawn_sq r s), drawn_inProgress r s, by rw [(drawn_drawing r s).1], by rw [drawn_tc]⟩
  refine drawn.trans ((finishExecution_handed side r s).phase ?_)
  rw [finishExecution_sq, drawn_sq]
  split
  · rfl
  · exact (setQueue_phase side _ s).quiesce

theorem openStream_phase (i : Fin 8) (start : Half) (s : State) : SamePhase s (openStream i start s) := ⟨rfl, rfl, rfl, rfl⟩

theorem wakeWay_phase (s : State) : SamePhase s (wakeWay s) := ⟨rfl, rfl, rfl, rfl⟩

theorem grantStore_phase (s : State) : SamePhase s (grantStore s) := (grantStore_handed s).phase (congrArg Sequencer.quiesce (grantStore_sq s))

theorem writeSector_phase (key : Word) (w : Fin 4) (sector : Nat) (data : List Byte) (s : State) :
    SamePhase s (writeSector key w sector data s) := ⟨rfl, rfl, rfl, rfl⟩

theorem fillPassed_phase (key : Word) (w : Fin 4) (s : State) : SamePhase s (fillPassed key w s) := by
  unfold fillPassed
  split
  · split
    · exact completeFault_phase _ s
    · exact .refl s
  · exact .refl s

theorem fillPresent_phase (key : Word) (w : Fin 4) (sector : Nat) (data : List Byte) (s : State) :
    SamePhase s (fillPresent key w sector data s) := by
  have written := (writeSector_phase key w sector data s).trans (count_apart .fillPresent _).phase
  unfold fillPresent
  dsimp only
  split
  · exact written.trans (fillPassed_phase _ _ _)
  · exact written

end Sys2Proof.Machine
end

section
/-! PROOFS. Every operation of an event keeps the laws of the session (R40 to R66, R71 to R106): the laws of the blocks that draw, and of
the quiesce state with the request in progress. -/

namespace Sys2Proof.Machine

/-- The laws of the blocks that draw and of the phase they are in. -/
structure Laws (s : State) : Prop where
  drawn : Drawn s
  phase : Phase s

theorem Apart.laws {s t : State} (h : Apart s t) (legal : Laws s) : Laws t :=
  ⟨h.drawn legal.drawn, h.phase.keeps h.nothingLeft legal.phase⟩

theorem Laws.empty {s : State} (h : Laws s) (quiesced : s.sq.quiesce = .quiesced) : nothingLeft s := h.phase.drained quiesced

/-! ### Marks, fills and frames -/

theorem flagOpenRewinds_laws (reason : RewindReason) {s : State} (h : Laws s) : Laws (flagOpenRewinds reason s) := by
  refine ⟨flagOpenRewinds_drawn reason h.drawn, (flagOpenRewinds_phase reason s).keeps ?_ h.phase⟩
  rw [flagOpenRewinds_rest]

theorem setRecord_left {side : Side} {r : FaultRecord} {s : State} (active : r.active = (recordOf side s).active) :
    nothingLeft (setRecord side r s) ↔ nothingLeft s := by
  cases side with
  | a =>
    have active' : r.active = s.tf.recA.active := active
    simp [nothingLeft, setRecord, active']
  | b =>
    have active' : r.active = s.tf.recB.active := active
    simp [nothingLeft, setRecord, active']

theorem representFault_laws (side : Side) {s : State} (h : Laws s) : Laws (representFault side s) := by
  refine ⟨representFault_drawn side h.drawn, (representFault_phase side s).keeps ?_ h.phase⟩
  unfold representFault
  dsimp only
  split
  · refine (count_apart .represented _).nothingLeft.trans (setRecord_left ?_)
    rfl
  · exact .rfl

theorem retryFault_laws {side : Side} {s : State} (h : Laws s) (on : (recordOf side s).active = true)
    (below : (recordOf side s).tries < 7) : Laws (retryFault side s) :=
  ⟨retryFault_drawn h.drawn on below, (retryFault_phase side s).keeps
    ((count_apart .retried _).nothingLeft.trans (setRecord_left rfl)) h.phase⟩

theorem completeItem_laws (item : TxItem) {s : State} (h : Laws s) : Laws (completeItem item s) := by
  refine ⟨completeItem_drawn item h.drawn, (completeItem_phase item s).keeps ?_ h.phase⟩
  cases item with
  | greet =>
    unfold completeItem
    dsimp only
    split <;> exact .rfl
  | keys => exact .rfl
  | fault side =>
    refine setRecord_left ?_
    split <;> rfl
  | rewind i => exact .rfl
  | reply => exact .rfl
  | event k => exact ((setEventSlot_apart k _ s).trans (count_apart _ _)).nothingLeft

/-! ### DRAW and TILE frames -/

/-- R54 to R57: a frame in order is taken, sheds or is refused, and all of it leaves the phase alone in RUNNING. -/
theorem inOrder_phase (side : Side) (i : Fin 8) (seq : Half) (cs : List DrawCommand) {s : State}
    (running : s.sq.quiesce = .running) : SamePhase s (inOrder side i seq cs s) := by
  have taken {t : State} (same : SamePhase s t) : SamePhase s (takeFrame side i seq cs t) :=
    SamePhase.settles (((same.trans (setQueue_phase _ _ t)).trans (setStream_phase _ _ _)).trans (count_apart _ _).phase) running
  have sheds (v : Fin 8) : SamePhase s (shedStream side v s) :=
    ((((setQueue_phase _ _ s).trans (setStream_phase _ _ _)).trans (flagRewind_phase _ _ _)).trans (count_apart .shedRun _).phase).trans
      (countN_apart _ _ _).phase
  have refused {t : State} (same : SamePhase s t) : SamePhase s (refuseForRoom i t) :=
    (same.trans (count_apart _ _).phase).trans (flagRewind_phase _ _ _)
  unfold inOrder
  split
  · exact taken (.refl s)
  · split
    next v _ =>
      dsimp only
      split
      · exact (sheds v).trans (count_apart _ _).phase
      · split
        · exact taken (sheds v)
        · exact refused (sheds v)
    · exact refused (count_apart _ s).phase

theorem doDraw_phase (stream : Byte) (seq : Half) (commands : List Byte) {s : State} (h : Phase s) :
    Phase (doDraw stream seq commands s) := by
  have counted (x : SubEvent) : Phase (count x s) := (count_apart x s).phase.keeps (count_apart x s).nothingLeft h
  unfold doDraw
  split
  · split
    · unfold judgeDraw
      split
      · exact counted _
      · split
        · exact counted _
        · split
          · exact counted _
          next running =>
            have running : s.sq.quiesce = .running := not_not.1 running
            dsimp only
            split
            · exact (inOrder_phase _ _ _ _ running).runs running h
            · split
              · split
                · exact ((count_apart .gap s).phase.trans (flagRewind_phase _ _ _)).runs running h
                · exact counted _
              · exact counted _
    · exact counted _
  · exact counted _

theorem doDraw_laws (stream : Byte) (seq : Half) (commands : List Byte) {s : State} (h : Laws s) :
    Laws (doDraw stream seq commands s) := ⟨doDraw_drawn stream seq commands h.drawn, doDraw_phase stream seq commands h.phase⟩

theorem fillPassed_left (key : Word) (w : Fin 4) {s : State} (left : nothingLeft s) : fillPassed key w s = s := by
  unfold fillPassed
  split
  next side on =>
    obtain ⟨x, active, -⟩ := (faultOn_isSome key s).1 (Option.isSome_iff_exists.2 ⟨side, on⟩)
    rw [nothingLeft_records left x] at active
    cases active
  next => rfl

theorem fillPresent_left (key : Word) (w : Fin 4) (sector : Nat) (data : List Byte) {s : State} (left : nothingLeft s) :
    nothingLeft (fillPresent key w sector data s) := by
  have written : nothingLeft (count .fillPresent (writeSector key w sector data s)) := (count_apart _ _).nothingLeft.2 left
  unfold fillPresent
  dsimp only
  split
  · rw [fillPassed_left key w written]
    exact written
  · exact written

theorem doTile_phase (key : Word) (sector : Byte) (data : List Byte) {s : State} (h : Phase s) : Phase (doTile key sector data s) := by
  have counted (x : SubEvent) : Phase (count x s) := (count_apart x s).phase.keeps (count_apart x s).nothingLeft h
  unfold doTile
  split
  · exact counted _
  · split
    · exact counted _
    · split
      · exact settle_phase h (fillPresent_phase _ _ _ _ s) (fillPresent_left _ _ _ _)
      · unfold fillAbsent
        split
        next w _ =>
          obtain ⟨sq, de, tf⟩ := allocateWay_session key w s
          have allocated : SamePhase s (allocateWay key w s) := (allocateWay_handed key w s).phase (by rw [sq])
          have filled := (allocated.trans (writeSector_phase key w sector.toNat data _)).trans (count_apart .fillAllocated _).phase
          refine filled.keeps ((count_apart .fillAllocated _).nothingLeft.trans ?_) h
          exact nothingLeft_of_same (s := s) (by rw [← sq]; exact ⟨rfl, rfl⟩) de tf
        next => exact counted _

theorem doTile_laws (key : Word) (sector : Byte) (data : List Byte) {s : State} (h : Laws s) : Laws (doTile key sector data s) :=
  ⟨doTile_drawn key sector data h.drawn, doTile_phase key sector data h.phase⟩

/-! ### Executions and faults -/

theorem nothingLeft_engines {s : State} (left : nothingLeft s) (side : Side) : engineOf side s = none := by
  obtain ⟨-, -, engineA, engineB, -⟩ := left
  cases side
  · exact engineA
  · exact engineB

theorem executionEnds_laws {side : Side} {r : ExecRecord} {s : State} (h : Laws s) (busy : engineOf side s = some r) :
    Laws (settle (finishExecution side r s)) := by
  refine ⟨settle_drawn (finishExecution_drawn h.drawn busy), settle_phase h.phase (finishExecution_phase side r s) fun left => ?_⟩
  rw [nothingLeft_engines left side] at busy
  cases busy

theorem expireFault_laws {side : Side} {s : State} (h : Laws s) (limit : s.settings.retryLimit ≤ 7)
    (expired : faultExpires side s = true) : Laws (expireFault side s) := by
  have on := faultExpires_active expired
  unfold expireFault
  split
  next below => exact retryFault_laws h on (Nat.lt_of_lt_of_le below limit)
  next =>
    refine ⟨settle_drawn (abandonFault_drawn h.drawn on), settle_phase h.phase (abandonFault_phase side s) fun left => ?_⟩
    rw [nothingLeft_records left side] at on
    cases on

/-! ### Requests -/

theorem layout_laws {s : State} (h : Laws s) {lu : LayoutUnit} (apply : lu.apply = s.lu.apply) : Laws { s with lu := lu } :=
  ⟨h.drawn.of_same rfl rfl rfl rfl, SamePhase.keeps (s := s) ⟨rfl, rfl, apply, rfl⟩ .rfl h.phase⟩

theorem refuseLayout_laws (tag : Byte) (x : Status) {s : State} (h : Laws s) : Laws (refuseLayout tag x s) :=
  ((count_apart _ s).trans (answer_apart _ _ _ _)).laws h

theorem doHeaderWrite_laws (tag : Byte) (border undocked : Half) {s : State} (h : Laws s) :
    Laws (doHeaderWrite tag border undocked s) := by
  unfold doHeaderWrite
  split
  · exact (answer_apart _ _ _ _).laws (layout_laws h rfl)
  · exact refuseLayout_laws _ _ h

theorem doRegionWrite_laws (tag : Byte) (i : Fin 8) (enabled : Bool) (ox oy rw rh background : Half) {s : State} (h : Laws s) :
    Laws (doRegionWrite tag i enabled ox oy rw rh background s) := by
  have refused (x : Status) := refuseLayout_laws tag x h
  unfold doRegionWrite
  split
  · exact refused _
  · split
    · exact refused _
    · split
      · exact refused _
      · split
        · exact refused _
        · exact (answer_apart _ _ _ _).laws (layout_laws h rfl)

theorem doStreamWrite_laws (tag : Byte) (i : Fin 8) (stale : Bool) {s : State} (h : Laws s) : Laws (doStreamWrite tag i stale s) := by
  unfold doStreamWrite
  refine (answer_apart _ _ _ _).laws ?_
  split
  · exact h
  · exact layout_laws h rfl

theorem doStreamOpen_laws (tag stream : Byte) (start : Half) {s : State} (h : Laws s) : Laws (doStreamOpen tag stream start s) := by
  have answered (x : Status) := (answer_apart tag 0x03 x s).laws h
  unfold doStreamOpen
  split
  · dsimp only
    split
    · exact answered _
    · split
      · exact answered _
      next closed =>
        have closed : (streamOf ⟨stream.toNat, ‹_›⟩ s).state = .closed := by simpa [isOpen] using closed
        exact (answer_apart _ _ _ _).laws ⟨openStream_drawn h.drawn closed start, (openStream_phase _ start s).keeps .rfl h.phase⟩
  · exact answered _

theorem nothingLeft_queues {s : State} (left : nothingLeft s) (side : Side) : queueOf side s = [] := by
  obtain ⟨queueA, queueB, -⟩ := left
  cases side
  · exact queueA
  · exact queueB

theorem withoutEntries_left {i : Fin 8} {s : State} (left : nothingLeft s) : nothingLeft (withoutEntries i s) := by
  rcases own : (streamOf i s).side with _ | side
  · have same : withoutEntries i s = s := by rw [withoutEntries, own]
    rw [same]
    exact left
  · refine (nothingLeft_congr (s := s) (fun x => ?_) (fun x => ?_) fun x => ?_).2 left
    · rw [withoutEntries_side own, queueOf_setEngine, queueOf_setQueue, nothingLeft_queues left, nothingLeft_queues left]
      exact ite_id _
    · rw [withoutEntries_side own, engineOf_setEngine, engineOf_setQueue, nothingLeft_engines left, nothingLeft_engines left]
      exact ite_id _
    · rw [recordOf_of_same (withoutEntries_rest i s).1]

theorem leaveFault_left (side : Side) (i : Fin 8) {s : State} (left : nothingLeft s) : leaveFault side i s = s :=
  leaveFault_off fun member => absurd (member.1.symm.trans (nothingLeft_records left side)) Bool.noConfusion

theorem closeStream_left {i : Fin 8} {s : State} (left : nothingLeft s) : nothingLeft (closeStream i s) := by
  have without := withoutEntries_left (i := i) left
  have given : givenUp i s = releaseReservation i (withoutEntries i s) := by
    rw [givenUp, leaveFault_left .a i without, leaveFault_left .b i without]
  obtain ⟨de, tf, queues⟩ := releaseReservation_rest i (withoutEntries i s)
  rw [closeStream_eq, given]
  exact (nothingLeft_of_same ⟨queues .a, queues .b⟩ de tf).2 without

theorem doStreamClose_laws (tag stream : Byte) {s : State} (h : Laws s) : Laws (doStreamClose tag stream s) := by
  unfold doStreamClose
  split
  · dsimp only
    split
    next opened =>
      have opened : (streamOf ⟨stream.toNat, ‹_›⟩ s).state ≠ .closed := by simpa [isOpen] using opened
      have answered := answer_apart tag 0x04 .ok (closeStream ⟨stream.toNat, ‹_›⟩ s)
      exact ⟨settle_drawn (answered.drawn (closeStream_drawn h.drawn opened)), settle_phase h.phase
        ((closeStream_phase opened).trans answered.phase) fun left => answered.nothingLeft.2 (closeStream_left left)⟩
    · exact (answer_apart _ _ _ _).laws h
  · exact (answer_apart _ _ _ _).laws h

/-- Whether a request is carried out on the settings store (R166, R167). -/
def Request.isStore (r : Request) : Prop := (∃ page, r.op = .erase page) ∨ ∃ offset data, r.op = .program offset data

theorem any_store {request : Option Request} (store : ∀ r, request = some r → r.isStore) {op : LongOp}
    (session : op = .quiesce ∨ op = .resume ∨ op = .tileFlush) (p : Request → Bool) :
    (request.any fun r => r.op == op && p r) = false := by
  cases request with
  | none => rfl
  | some r =>
    have other : (r.op == op) = false := by
      rcases store r rfl with ⟨_, is⟩ | ⟨_, _, is⟩ <;> rw [is] <;> rcases session with rfl | rfl | rfl <;> rfl
    rw [Option.any_some, other, Bool.false_and]

/-- In RUNNING and with no request of the session in progress, the laws of the phase hold. -/
theorem Phase.of_running {s : State} (running : s.sq.quiesce = .running) (apply : s.lu.apply = none) (swept : ¬ s.tc.sweep < 64)
    (store : ∀ r, s.me.inProgress = some r → r.isStore) : Phase s := by
  have resume := any_store store (op := .resume) (.inr (.inl rfl)) fun _ => true
  have tileFlush := any_store store (op := .tileFlush) (.inr (.inr rfl)) fun _ => true
  simp only [Bool.and_true] at resume tileFlush
  refine ⟨fun quiesced => ?_, ?_, fun quiescing => ?_, ?_, ?_, fun busy => ?_⟩
  · rw [running] at quiesced
    cases quiesced
  · rw [any_store store (.inl rfl), running]
    rfl
  · rw [running] at quiescing
    cases quiescing
  · rw [apply, resume]
    rfl
  · rw [tileFlush, decide_eq_false swept]
  · rcases busy with applying | sweeping
    · rw [apply] at applying
      cases applying
    · exact absurd sweeping swept

/-- A request of the settings store stands for none. -/
theorem Phase.of_store {s : State} (h : Phase s) (before : ∀ r, s.me.inProgress = some r → r.isStore) {t : State}
    (after : ∀ r, t.me.inProgress = some r → r.isStore) (quiesce : t.sq.quiesce = s.sq.quiesce) (apply : t.lu.apply = s.lu.apply)
    (sweep : t.tc.sweep = s.tc.sweep) (left : nothingLeft t ↔ nothingLeft s) : Phase t := by
  have same {op : LongOp} (session : op = .quiesce ∨ op = .resume ∨ op = .tileFlush) (p : Request → Bool) :
      (t.me.inProgress.any fun r => r.op == op && p r) = s.me.inProgress.any fun r => r.op == op && p r :=
    (any_store after session p).trans (any_store before session p).symm
  have resume := same (op := .resume) (.inr (.inl rfl)) fun _ => true
  have tileFlush := same (op := .tileFlush) (.inr (.inr rfl)) fun _ => true
  simp only [Bool.and_true] at resume tileFlush
  obtain ⟨applies, sweeps, both⟩ := h.requests
  exact {
    drained := fun quiesced => left.2 (h.drained (quiesce.symm.trans quiesced))
    request := by rw [quiesce, same (.inl rfl), h.request]
    left := fun quiescing => fun none' => h.left (quiesce.symm.trans quiescing) (left.1 none')
    requests := ⟨by rw [apply, resume, applies], by rw [sweep, tileFlush, sweeps], by rw [apply, sweep, quiesce]; exact both⟩ }

theorem isStore_none {s : State} (idle : s.me.inProgress = none) : ∀ r, s.me.inProgress = some r → r.isStore := by
  rw [idle]
  exact nofun

theorem beginStore_laws (tag kind : Byte) {op : LongOp} {s : State} (h : Laws s) (idle : s.me.inProgress = none)
    (store : (⟨tag, kind, op, false⟩ : Request).isStore) : Laws (beginLong tag kind op s) :=
  ⟨beginLong_drawn tag kind op h.drawn, h.phase.of_store (isStore_none idle) (fun _ current => Option.some.inj current ▸ store) rfl rfl rfl
    .rfl⟩

theorem doStoreErase_laws (tag page : Byte) {s : State} (h : Laws s) (idle : s.me.inProgress = none) :
    Laws (doStoreErase tag page s) := by
  unfold doStoreErase
  split
  · exact (answer_apart _ _ _ _).laws h
  · exact beginStore_laws _ _ h idle (.inl ⟨_, rfl⟩)

theorem doStoreWrite_laws (tag : Byte) (offset : Half) (data : List Byte) {s : State} (h : Laws s) (idle : s.me.inProgress = none) :
    Laws (doStoreWrite tag offset data s) := by
  unfold doStoreWrite
  dsimp only
  split
  · exact (answer_apart _ _ _ _).laws h
  · exact beginStore_laws _ _ h idle (.inr ⟨_, _, rfl⟩)

theorem endStore_laws (x : Status) {r : Request} {s : State} (h : Laws s) (current : s.me.inProgress = some r) (store : r.isStore) :
    Laws (endLong x s) := by
  have ended := endLong_inProgress x s
  have rest := endLong_rest x s
  have before : ∀ r, s.me.inProgress = some r → r.isStore := fun x is => Option.some.inj (current.symm.trans is) ▸ store
  generalize endLong x s = t at *
  have sq : t.sq = s.sq := by rw [rest]
  have de : t.de = s.de := by rw [rest]
  have tf : t.tf = s.tf := by rw [rest]
  have tc : t.tc = s.tc := by rw [rest]
  exact ⟨h.drawn.of_same sq de tf (by rw [tc]), h.phase.of_store before (isStore_none ended) (by rw [sq]) (by rw [rest]) (by rw [tc])
    (nothingLeft_of_same (by rw [sq]; exact ⟨rfl, rfl⟩) de tf)⟩

/-! ### QUIESCE, RESUME and TILE_FLUSH (R61 to R66, R86) -/

theorem doQuiesce_laws (tag : Byte) {s : State} (h : Laws s) (idle : s.me.inProgress = none) : Laws (doQuiesce tag s) := by
  unfold doQuiesce
  split
  · exact (answer_apart _ _ _ _).laws h
  next other =>
    have drawn : Drawn (beginLong tag 0x05 .quiesce { s with sq.quiesce := .quiescing }) :=
      h.drawn.eased (fun _ => .refl _) (fun side => by cases side <;> rfl) rfl rfl rfl
    obtain ⟨apply, sweep, -⟩ := h.phase.requests
    rw [idle] at apply sweep
    have requests : requestsLegal (beginLong tag 0x05 .quiesce { s with sq.quiesce := .quiescing }) := by
      refine ⟨apply, sweep, fun busy => ?_⟩
      rcases busy with applying | sweeping
      · exact absurd (apply.symm.trans applying) Bool.noConfusion
      · exact absurd sweeping (of_decide_eq_false sweep)
    by_cases left : nothingLeft s
    · have left' : nothingLeft (beginLong tag 0x05 .quiesce { s with sq.quiesce := .quiescing }) := left
      rw [checkDrain, if_pos ⟨rfl, (drained_iff _).2 left'⟩]
      exact ⟨endOp_drawn _ _ (drawn.eased (fun _ => .refl _) (fun side => by cases side <;> rfl) rfl rfl rfl),
        drained_phase left' rfl requests⟩
    · have left' : ¬ nothingLeft (beginLong tag 0x05 .quiesce { s with sq.quiesce := .quiescing }) := left
      rw [checkDrain_waits fun _ => left']
      exact ⟨drawn, fun quiesced => (nomatch quiesced), rfl, fun _ => left', requests⟩

theorem doTileFlush_laws (tag : Byte) {s : State} (h : Laws s) (idle : s.me.inProgress = none) : Laws (doTileFlush tag s) := by
  unfold doTileFlush
  split
  next quiesced =>
    obtain ⟨apply, -, -⟩ := h.phase.requests
    rw [idle] at apply
    exact ⟨h.drawn.of_same rfl rfl rfl rfl, fun _ => h.empty quiesced,
      (by rw [show (beginLong tag 0x07 .tileFlush { s with tc.sweep := 0 }).sq.quiesce = .quiesced from quiesced]; rfl),
      (fun quiescing => absurd (quiesced.symm.trans quiescing) (by decide)), apply, rfl, fun _ => quiesced⟩
  · exact (answer_apart _ _ _ _).laws h

theorem current_op {s : State} {op : LongOp} (current : (s.me.inProgress.any fun r => r.op == op) = true) :
    ∃ r, s.me.inProgress = some r ∧ r.op = op := by
  rcases request : s.me.inProgress with _ | r
  · rw [request] at current
    cases current
  · rw [request] at current
    exact ⟨r, rfl, eq_of_beq current⟩

theorem sweepSet_laws {s : State} (h : Laws s) (sweeping : s.tc.sweep < 64) : Laws (sweepSet ⟨s.tc.sweep, sweeping⟩ s) := by
  obtain ⟨apply, sweep, both⟩ := h.phase.requests
  have quiesced := both (.inr sweeping)
  have left := h.empty quiesced
  refine ⟨sweepSet_drawn _ h.drawn left, ?_⟩
  obtain ⟨r, current, op⟩ := current_op (sweep.symm.trans (decide_eq_true sweeping))
  unfold sweepSet
  dsimp only
  split
  next last =>
    have ended := endOp_inProgress (x := .ok) (s := { s with
      tc.dir := s.tc.dir.set (⟨s.tc.sweep, sweeping⟩ : Fin 64) emptySet, tc.sweep := s.tc.sweep + 1 }) current op
    have rest := endOp_rest .tileFlush .ok { s with
      tc.dir := s.tc.dir.set (⟨s.tc.sweep, sweeping⟩ : Fin 64) emptySet, tc.sweep := s.tc.sweep + 1 }
    generalize endOp .tileFlush .ok { s with
      tc.dir := s.tc.dir.set (⟨s.tc.sweep, sweeping⟩ : Fin 64) emptySet, tc.sweep := s.tc.sweep + 1 } = t at *
    have quiesced' : t.sq.quiesce = .quiesced := by rw [rest]; exact quiesced
    have swept : t.tc.sweep = s.tc.sweep + 1 := by rw [rest]
    have applied : t.lu.apply = s.lu.apply := by rw [rest]
    have empty : nothingLeft t := by rw [rest]; exact left
    rw [current] at apply
    simp only [Option.any_some, op] at apply
    refine ⟨fun _ => empty, ?_, fun quiescing => absurd (quiesced'.symm.trans quiescing) (by decide), ?_, ?_, fun _ => quiesced'⟩
    · rw [ended, quiesced']
      rfl
    · rw [ended, applied]
      exact apply
    · rw [ended, swept, last]
      rfl
  next more =>
    refine ⟨fun _ => left, h.phase.request, h.phase.left, apply, ?_, fun _ => quiesced⟩
    have below : s.tc.sweep + 1 < 64 := Nat.lt_of_le_of_ne sweeping more
    rw [← sweep, decide_eq_true sweeping]
    exact decide_eq_true below

end Sys2Proof.Machine
end

section
/-! PROOFS. The laws of the session hold after every step (the second part of O55): RESUME and its apply, the teardown, the resets, and
every other operation of an event. -/

namespace Sys2Proof.Machine

/-! ### RESUME (R33, R64 to R66) -/

theorem moveStream_phase (side : Side) (s : State) : SamePhase s (moveStream side s) := by
  unfold moveStream
  split
  · exact (setStream_phase _ _ s).trans (count_apart _ _).phase
  · exact .refl s

theorem rebalance_phase (s : State) : SamePhase s (rebalance s) := by
  have each (fuel : Nat) : ∀ s, SamePhase s (rebalanceFuel fuel s) := by
    induction fuel with
    | zero => exact .refl
    | succ fuel ih =>
      intro s
      unfold rebalanceFuel
      split
      · exact (moveStream_phase _ s).trans (ih _)
      · split
        · exact (moveStream_phase _ s).trans (ih _)
        · exact .refl s
  exact each 8 s

/-- R64 to R66: the end of a RESUME. -/
theorem finishResume_laws {s : State} (drawn : Drawn s) (left : nothingLeft s)
    (current : (s.me.inProgress.any fun r => r.op == .resume) = true) (apply : s.lu.apply = none) (swept : ¬ s.tc.sweep < 64) :
    Laws (finishResume s) := by
  refine ⟨finishResume_drawn drawn left, ?_⟩
  have same := (rebalance_phase s).trans (flagOpenRewinds_phase .quiesceEnd (rebalance s))
  obtain ⟨r, current, op⟩ := current_op current
  unfold finishResume
  dsimp only
  generalize flagOpenRewinds .quiesceEnd (rebalance s) = t at same
  have ended := endOp_inProgress (x := .ok) (s := { t with sq.quiesce := .running }) (same.inProgress.trans current) op
  have rest := endOp_rest .resume .ok { t with sq.quiesce := .running }
  generalize endOp .resume .ok { t with sq.quiesce := .running } = u at *
  exact .of_running (by rw [rest]) (by rw [rest]; exact same.apply.trans apply)
    (by rw [rest]; rw [show ({ t with sq.quiesce := .running } : State).tc.sweep = s.tc.sweep from same.sweep]; exact swept)
    (isStore_none ended)

theorem beginApply_phase {s : State} : SamePhase { s with lu.apply := some (notedRegions s) } (beginApply s) := by
  unfold beginApply
  dsimp only
  have noted : SamePhase { s with lu.apply := some (notedRegions s) }
    (setChanged false { s with lu.apply := some (notedRegions s) }) := ⟨rfl, rfl, rfl, rfl⟩
  generalize setChanged false { s with lu.apply := some (notedRegions s) } = t at *
  have asks (u : State) : SamePhase u (askStore .layoutApply (count .layoutApply u)) :=
    (count_apart .layoutApply u).phase.trans ((askStore_handed _ _).phase (askStore_hands _ _).quiesce)
  refine noted.trans (.trans ?_ (asks _))
  split
  · exact .refl t
  · exact setStale_phase _ t

theorem beginApply_left {s : State} (left : nothingLeft s) : nothingLeft (beginApply s) := by
  unfold beginApply
  dsimp only
  have noted : nothingLeft (setChanged false { s with lu.apply := some (notedRegions s) }) := left
  generalize setChanged false { s with lu.apply := some (notedRegions s) } = t at noted
  have asks (u : State) (left : nothingLeft u) : nothingLeft (askStore .layoutApply (count .layoutApply u)) := by
    have counted := (count_apart .layoutApply u).nothingLeft.2 left
    generalize count .layoutApply u = v at counted
    unfold askStore
    refine (nothingLeft_of_same (s := v) ?_ ?_ ?_).2 counted
    · rw [grantStore_sq]
      exact ⟨rfl, rfl⟩
    · rw [grantStore_de]
    · rw [grantStore_tf]
  refine asks _ ?_
  split
  · exact noted
  · obtain ⟨sq, de, tf, -⟩ := setStale_rest (notedRegions s) t
    exact (nothingLeft_of_same (by rw [sq]; exact ⟨rfl, rfl⟩) de tf).2 noted

theorem doResume_laws (tag : Byte) {s : State} (h : Laws s) (idle : s.me.inProgress = none) : Laws (doResume tag s) := by
  unfold doResume
  split
  next quiesced =>
    have left := h.empty quiesced
    obtain ⟨apply, sweep, -⟩ := h.phase.requests
    rw [idle] at apply sweep
    have begun := beginLong_drawn tag 0x06 .resume h.drawn
    dsimp only
    split
    · refine ⟨beginApply_drawn begun, ?_⟩
      have same := beginApply_phase (s := beginLong tag 0x06 .resume s)
      have empty := beginApply_left (s := beginLong tag 0x06 .resume s) left
      generalize beginApply (beginLong tag 0x06 .resume s) = t at *
      have quiesced' : t.sq.quiesce = .quiesced := same.quiesce.trans quiesced
      refine ⟨fun _ => empty, ?_, fun quiescing => absurd (quiesced'.symm.trans quiescing) (by decide), ?_, ?_, fun _ => quiesced'⟩
      · rw [same.inProgress, quiesced']
        rfl
      · rw [same.inProgress, same.apply]
        rfl
      · rw [same.inProgress, same.sweep]
        exact sweep
    · exact finishResume_laws begun left rfl (Option.isSome_eq_false_iff.1 apply |> Option.isNone_iff_eq_none.1)
        (of_decide_eq_false sweep)
  · exact (answer_apart _ _ _ _).laws h

/-! ### The Layout Unit's fills (R34, R37) -/

/-- A fill of the Layout Unit that ends, with the apply and the fill colour as it leaves them. -/
theorem grantMarked_phase (named : Nat → Bool) (img : Image) {s t : State} (same : SamePhase s t) :
    SamePhase s (grantStore (markBlocks named (readToEnd img t))) :=
  (same.trans ((readToEnd_apart img t).trans (markBlocks_apart named _)).phase).trans (grantStore_phase _)

theorem grantMarked_left (named : Nat → Bool) (img : Image) (t : State) :
    nothingLeft (grantStore (markBlocks named (readToEnd img t))) ↔ nothingLeft t := by
  have apart := (readToEnd_apart img t).trans (markBlocks_apart named _)
  refine .trans (nothingLeft_of_same ?_ (grantStore_de _) (grantStore_tf _)) apart.nothingLeft
  rw [grantStore_sq]
  exact ⟨rfl, rfl⟩

theorem applyEnds_laws {mask : BitVec 8} {s : State} (h : Laws s) (applying : s.lu.apply = some mask) :
    Laws (finishResume (finishApply mask s)) := by
  obtain ⟨apply, sweep, both⟩ := h.phase.requests
  have left := h.empty (both (.inl (by rw [applying]; rfl)))
  have same : SamePhase { s with lu.apply := none } (finishApply mask s) := grantMarked_phase _ _ ⟨rfl, rfl, rfl, rfl⟩
  rw [applying] at apply
  obtain ⟨r, current, op⟩ := current_op apply.symm
  rw [current] at sweep
  simp only [Option.any_some, op] at sweep
  refine finishResume_laws (finishApply_drawn mask h.drawn) ((grantMarked_left _ _ _).2 left) ?_ same.apply ?_
  · rw [same.inProgress]
    exact apply.symm
  · rw [same.sweep]
    exact of_decide_eq_false sweep

theorem finishTeardownFill_laws (c : Half) {s : State} (h : Laws s) : Laws (finishTeardownFill c s) := by
  refine ⟨finishTeardownFill_drawn c h.drawn, ?_⟩
  have same : SamePhase s { s with fs.image := imageUniform c, fs.holder := none, lu.fillColour := none } := ⟨rfl, rfl, rfl, rfl⟩
  have left : nothingLeft { s with fs.image := imageUniform c, fs.holder := none, lu.fillColour := none } ↔ nothingLeft s := .rfl
  unfold finishTeardownFill
  dsimp only
  generalize ({ s with fs.image := imageUniform c, fs.holder := none, lu.fillColour := none } : State) = t at *
  exact (grantMarked_phase _ _ same).keeps ((grantMarked_left _ _ _).trans left) h.phase

/-! ### Pins (R84, R85) -/

theorem doTilePin_laws (tag : Byte) (key : Word) {s : State} (h : Laws s) : Laws (doTilePin tag key s) := by
  have answered (x : Status) (s : State) (h : Phase s) : Phase (answer tag 0x08 x s) :=
    (answer_apart tag 0x08 x s).phase.keeps (answer_apart tag 0x08 x s).nothingLeft h
  refine ⟨doTilePin_drawn tag key h.drawn, ?_⟩
  unfold doTilePin
  dsimp only
  split
  · split
    · exact answered _ s h.phase
    · split
      · exact answered _ s h.phase
      · split
        · exact answered _ s h.phase
        · exact answered _ _ ((setTileSet_phase key _ s).keeps .rfl h.phase)
  · exact answered _ s h.phase

theorem unpin_phase (tag : Byte) (key : Word) (s : State) : SamePhase s (unpin tag key s) := by
  unfold unpin
  dsimp only
  split
  · split
    · exact ((setTileSet_phase key _ s).trans (wakeWay_phase _)).trans (answer_apart _ _ _ _).phase
    · exact (answer_apart _ _ _ _).phase
  · exact (answer_apart _ _ _ _).phase

theorem unpin_left (tag : Byte) (key : Word) {s : State} (left : nothingLeft s) : nothingLeft (unpin tag key s) := by
  unfold unpin
  dsimp only
  split
  · split
    · exact left
    · exact left
  · exact left

theorem doTileUnpin_laws (tag : Byte) (key : Word) {s : State} (h : Laws s) : Laws (doTileUnpin tag key s) :=
  ⟨settle_drawn (unpin_drawn tag key h.drawn), settle_phase h.phase (unpin_phase tag key s) (unpin_left tag key)⟩

/-! ### Teardown and resets -/

theorem requestLeft_isStore {request : Option Request} : ∀ r, requestLeft request = some r → r.isStore := by
  rcases request with _ | ⟨tag, kind, op, silent⟩
  · exact nofun
  · cases op with
    | erase page => exact fun r is => Option.some.inj is ▸ .inl ⟨page, rfl⟩
    | program offset data => exact fun r is => Option.some.inj is ▸ .inr ⟨offset, data, rfl⟩
    | quiesce => exact nofun
    | resume => exact nofun
    | tileFlush => exact nofun

theorem teardown_laws (s : State) : Laws (teardown s) := by
  refine ⟨teardown_drawn s, ?_⟩
  have rest := (teardown_ends s).1
  generalize teardown s = t at *
  rw [sessionEnded_rest] at rest
  have sq : t.sq.quiesce = .running := by rw [rest]
  have apply : t.lu.apply = none := by rw [rest]
  have sweep : t.tc.sweep = 64 := by rw [rest]
  have request : t.me.inProgress = requestLeft s.me.inProgress := by rw [rest]
  exact .of_running sq apply (by rw [sweep]; decide) (by rw [request]; exact requestLeft_isStore)

theorem cutAllButGreet_apart (s : State) : Apart s (cutAllButGreet s) := by
  unfold cutAllButGreet
  exact .ite (cutTx_apart s) (.refl s)

theorem dockReset_laws {s : State} (h : Laws s) (idle : s.me.inProgress = none) : Laws (dockReset s) := by
  refine ⟨dockReset_drawn s, ?_⟩
  have cut := cutAllButGreet_apart s
  obtain ⟨apply, -⟩ := h.phase.requests
  rw [idle] at apply
  unfold dockReset
  dsimp only
  rw [sessionless_eq]
  refine .of_running rfl ?_ (Nat.lt_irrefl 64) (isStore_none (cut.inProgress.trans idle))
  exact (congrArg LayoutUnit.apply cut.lu).trans (Option.isNone_iff_eq_none.1 (Option.isSome_eq_false_iff.1 apply))

theorem powerOn_laws (flash : List Host.Cell) (free : Nat) (pending : List Instr) : Laws (powerOn flash free pending) := by
  refine ⟨powerOn_drawn flash free pending, ?_⟩
  rw [powerOn_eq]
  exact .of_running rfl rfl (Nat.lt_irrefl 64) (isStore_none rfl)

theorem passTick_laws {s : State} (h : Laws s) : Laws (passTick s) := by
  have same : SamePhase s (passTick s) := ⟨rfl, rfl, rfl, rfl⟩
  refine ⟨passTick_drawn h.drawn, same.keeps (nothingLeft_congr (fun side => by cases side <;> rfl)
    (fun side => by cases side <;> rfl) fun side => ?_) h.phase⟩
  rw [recordOf_passTick]
  exact (tickRecord_same s _).1.active

end Sys2Proof.Machine
end

section
/-! PROOFS. The handovers come to an end with nothing to hand over (R47): each removes an entry, makes an engine busy, or makes a READY
stream wait, and only a reservation given back wakes streams. -/

namespace Sys2Proof.Machine

/-! ### What is left to hand over -/

def readyStreams (s : State) : Nat := (List.finRange 8).countP fun i => (streamOf i s).state == .ready

def reservingStreams (s : State) : Nat := (List.finRange 8).countP fun i => (streamOf i s).reservation.isSome

/-- The number of FREE engines. -/
def freeEngines (s : State) : Nat := (if s.de.engineA.isNone then 1 else 0) + if s.de.engineB.isNone then 1 else 0

/-- A bound on the handovers that are left: entries, FREE engines, READY streams, and what the reservations could wake. -/
def handWork (s : State) : Nat :=
  s.sq.queueA.length + s.sq.queueB.length + freeEngines s + 8 * reservingStreams s + readyStreams s

theorem readyStreams_le (s : State) : readyStreams s ≤ 8 := List.countP_le_length.trans (List.length_finRange).le

theorem reservingStreams_le (s : State) : reservingStreams s ≤ 8 := List.countP_le_length.trans (List.length_finRange).le

theorem handWork_bound (s : State) : handWork s < s.sq.queueA.length + s.sq.queueB.length + 80 := by
  have ready := readyStreams_le s
  have reserving := reservingStreams_le s
  have free : freeEngines s ≤ 2 := by unfold freeEngines; split <;> split <;> decide
  unfold handWork
  omega

theorem handWork_of_same {s t : State} (sq : t.sq = s.sq) (de : t.de = s.de) : handWork t = handWork s := by
  unfold handWork freeEngines reservingStreams readyStreams streamOf
  rw [sq, de]

theorem handWork_of_streams {s t : State} (queues : ∀ side, queueOf side t = queueOf side s) (de : t.de = s.de)
    (streams : 8 * reservingStreams t + readyStreams t ≤ 8 * reservingStreams s + readyStreams s) : handWork t ≤ handWork s := by
  have queueA : t.sq.queueA = s.sq.queueA := queues .a
  have queueB : t.sq.queueB = s.sq.queueB := queues .b
  unfold handWork freeEngines
  rw [queueA, queueB, de]
  omega

theorem countP_only (i : Fin 8) : (List.finRange 8).countP (fun j => decide (j = i)) = 1 := by
  revert i
  decide

theorem countP_one_less {p q : Fin 8 → Bool} {i : Fin 8} (here : p i = true) (gone : q i = false)
    (others : ∀ j, j ≠ i → q j = p j) : (List.finRange 8).countP q + 1 = (List.finRange 8).countP p := by
  rw [← countP_only i]
  refine (countP_disjoint (fun j _ => ?_) fun j _ both => ?_).symm
  · by_cases same : j = i
    · rw [same, here, gone, decide_eq_true rfl]
      rfl
    · rw [others j same, decide_eq_false same, Bool.or_false]
  · rw [of_decide_eq_true both.2, gone] at both
    cases both.1

theorem releaseReservation_work (i : Fin 8) (s : State) :
    handWork (releaseReservation i s) ≤ handWork s := by
  rcases reserved : (streamOf i s).reservation with _ | key
  · rw [releaseReservation_none reserved]
  · obtain ⟨de, -, queues⟩ := releaseReservation_rest i s
    refine handWork_of_streams queues de ?_
    have given : reservingStreams (releaseReservation i s) + 1 = reservingStreams s := by
      refine countP_one_less (i := i) (by rw [reserved]; rfl) ?_ fun j other => ?_
      · rw [(releaseReservation_stream i i s).2.2, if_pos rfl]
        rfl
      · rw [(releaseReservation_stream i j s).2.2, if_neg other]
    have woken := readyStreams_le (releaseReservation i s)
    omega

theorem setWait_work {i : Fin 8} {w : StreamState} {s : State} (ready : (streamOf i s).state = .ready) (waits : w.waits = true) :
    handWork (setWait i w s) < handWork s := by
  have reserving : reservingStreams (setWait i w s) = reservingStreams s := by
    unfold reservingStreams
    simp only [setWait_reservation]
  have fewer : readyStreams (setWait i w s) + 1 = readyStreams s := by
    refine countP_one_less (i := i) (by rw [ready]; rfl) ?_ fun j other => ?_
    · rw [setWait_state, if_pos rfl]
      cases w with
      | ready => cases waits
      | closed => rfl
      | waitTile => rfl
      | waitSlot => rfl
      | waitWay => rfl
    · rw [setWait_state, if_neg other]
  have queueA : (setWait i w s).sq.queueA = s.sq.queueA := rfl
  have queueB : (setWait i w s).sq.queueB = s.sq.queueB := rfl
  have free : freeEngines (setWait i w s) = freeEngines s := rfl
  unfold handWork
  rw [queueA, queueB, free, reserving]
  omega

theorem setQueue_work (side : Side) (q : List Entry) (s : State) :
    handWork (setQueue side q s) + (queueOf side s).length = handWork s + q.length := by
  have free : freeEngines (setQueue side q s) = freeEngines s := by cases side <;> rfl
  have reserving : reservingStreams (setQueue side q s) = reservingStreams s := by cases side <;> rfl
  have ready : readyStreams (setQueue side q s) = readyStreams s := by cases side <;> rfl
  unfold handWork
  rw [free, reserving, ready]
  cases side with
  | a =>
    show q.length + s.sq.queueB.length + _ + _ + _ + s.sq.queueA.length = _
    omega
  | b =>
    show s.sq.queueA.length + q.length + _ + _ + _ + s.sq.queueB.length = _
    omega

theorem removeEntry_work {side : Side} {r : ExecRecord} {e : Entry} {s : State} (first : (queueOf side s).find? r.names = some e) :
    handWork (removeEntry side r s) < handWork s := by
  have sizes := setQueue_work side ((queueOf side s).eraseP r.names) s
  have erased := List.length_eraseP_of_mem (List.mem_of_find?_eq_some first) (List.find?_some first)
  have some' : 0 < (queueOf side s).length := List.length_pos_of_mem (List.mem_of_find?_eq_some first)
  unfold removeEntry
  omega

theorem markExecuting_length (r : ExecRecord) (q : List Entry) : (markExecuting r q).length = q.length := by
  induction q with
  | nil => rfl
  | cons e q ih =>
    unfold markExecuting
    split
    · rfl
    · rw [List.length_cons, ih, List.length_cons]

theorem setEngine_work {side : Side} (r : ExecRecord) {s : State} (free : engineOf side s = none) :
    handWork (setEngine side (some r) s) + 1 = handWork s := by
  have reserving : reservingStreams (setEngine side (some r) s) = reservingStreams s := by cases side <;> rfl
  have ready : readyStreams (setEngine side (some r) s) = readyStreams s := by cases side <;> rfl
  have taken : freeEngines (setEngine side (some r) s) + 1 = freeEngines s := by
    cases side with
    | a =>
      have free' : s.de.engineA = none := free
      simp [freeEngines, setEngine, free', Nat.add_comm]
    | b =>
      have free' : s.de.engineB = none := free
      simp [freeEngines, setEngine, free']
  have sq : (setEngine side (some r) s).sq = s.sq := by cases side <;> rfl
  unfold handWork
  rw [sq, reserving, ready]
  omega

theorem beginExecution_work {side : Side} (r : ExecRecord) {s : State} (free : engineOf side s = none) :
    handWork (beginExecution side r s) < handWork s := by
  have asked : handWork (beginExecution side r s) =
      handWork (setEngine side (some r) (setQueue side (markExecuting r (queueOf side s)) s)) :=
    handWork_of_same (grantStore_sq _) (grantStore_de _)
  have sizes := setQueue_work side (markExecuting r (queueOf side s)) s
  have taken := setEngine_work r (s := setQueue side (markExecuting r (queueOf side s)) s) (by rw [engineOf_setQueue]; exact free)
  rw [markExecuting_length] at sizes
  omega

/-! ### One handover -/

/-- R95, R96: a miss makes its stream wait. -/
theorem takeMiss_waits (side : Side) (i : Fin 8) (key : Word) (mask : BitVec 4) (present : Bool) (s : State) :
    ∃ w u, takeMiss side i key mask present s = setWait i w u ∧ w.waits = true ∧ u.sq = s.sq ∧ u.de = s.de := by
  have raises (t : State) (sq : t.sq = s.sq) (de : t.de = s.de) : ∃ w u, raiseFault side i key mask t = setWait i w u ∧
      w.waits = true ∧ u.sq = s.sq ∧ u.de = s.de := by
    obtain ⟨u, r, raised, set, -⟩ := raiseFault_parts side i key mask t
    obtain ⟨sq', de', -⟩ := mapEntry_rest key (fun e => { e with pending := true }) t
    exact ⟨_, u, raised, rfl, set.sq.trans (sq'.trans sq), set.de.trans (de'.trans de)⟩
  unfold takeMiss
  split
  next x _ =>
    obtain ⟨u, r, joined, set, -⟩ := joinFault_parts x i mask s
    exact ⟨_, u, joined, rfl, set.sq, set.de⟩
  next =>
    split
    · exact ⟨_, _, rfl, rfl, count_sq _ _, count_de _ _⟩
    · split
      · exact raises s rfl rfl
      · split
        next w _ =>
          obtain ⟨sq, de, -⟩ := allocateWay_rest key w s
          exact raises _ sq de
        next => exact ⟨_, _, rfl, rfl, count_sq _ _, count_de _ _⟩

theorem takeMiss_work {side : Side} {i : Fin 8} (key : Word) (mask : BitVec 4) (present : Bool) {s : State}
    (ready : (streamOf i s).state = .ready) : handWork (takeMiss side i key mask present s) < handWork s := by
  obtain ⟨w, u, misses, waits, sq, de⟩ := takeMiss_waits side i key mask present s
  rw [misses, ← handWork_of_same sq de]
  exact setWait_work (by rw [streamOf_of_same sq]; exact ready) waits

theorem handPlace_work {side : Side} {r : ExecRecord} (key : Word) (y : Int) {s : State} (free : engineOf side s = none)
    (ready : (streamOf r.stream s).state = .ready) : handWork (handPlace side r key y s) < handWork s := by
  unfold handPlace
  dsimp only
  generalize lookupOf key (sectorMask (needLo r y) (needHi r y)) s = l
  obtain ⟨sq, de⟩ := afterLookup_rest key l s
  have ready' : (streamOf r.stream (afterLookup key l s)).state = .ready := by rw [streamOf_of_same sq]; exact ready
  have released := releaseReservation_work r.stream (afterLookup key l s)
  rw [handWork_of_same sq de] at released
  have still := ((releaseReservation_stream r.stream r.stream (afterLookup key l s)).1.ready ready').1
  have free' : engineOf side (releaseReservation r.stream (afterLookup key l s)) = none := by
    rw [engineOf_of_same ((releaseReservation_rest _ _).1), engineOf_of_same de]
    exact free
  cases l with
  | hit w => exact (beginExecution_work _ free').trans_le released
  | sectorMiss w => exact (takeMiss_work key _ true still).trans_le released
  | absent => exact (takeMiss_work key _ false still).trans_le released

/-- R47: each handover leaves less to hand over. -/
theorem handOver_work {side : Side} {e : Entry} {s : State} (h : Drawn s) (hands : eligible side s = some e) :
    handWork (handOver side e s) < handWork s := by
  obtain ⟨free, ready, -⟩ := eligible_some hands
  have copied := recordFor_copied e (regionOf e.stream s)
  have first := h.hands hands copied
  have removes (x : SubEvent) : handWork (removeEntry side (recordFor e (regionOf e.stream s)) (count x s)) < handWork s := by
    rw [← handWork_of_same (count_sq x s) (count_de x s)]
    exact removeEntry_work (by rw [queueOf_of_same (count_sq x s)]; exact first)
  have gives (x : SubEvent) :
      handWork (releaseReservation e.stream (removeEntry side (recordFor e (regionOf e.stream s)) (count x s))) < handWork s := by
    exact (releaseReservation_work _ _).trans_lt (removes x)
  have begins := beginExecution_work (recordFor e (regionOf e.stream s)) free
  unfold handOver
  dsimp only
  split
  · split
    · exact gives _
    · split
      · exact gives _
      · exact handPlace_work _ _ free (by rw [copied.stream]; exact ready)
  · split
    · exact removes _
    · exact begins
  · split
    · exact removes _
    · exact begins

/-! ### All handovers -/

/-- R47: neither engine can be handed an entry. -/
def handedOut (s : State) : Prop := eligible .a s = none ∧ eligible .b s = none

theorem handedOut_of_same {s t : State} (h : handedOut s) (sq : t.sq = s.sq) (de : t.de = s.de) : handedOut t := by
  unfold handedOut
  rw [eligible_of_same sq de, eligible_of_same sq de]
  exact h

theorem handFuel_handsOut {fuel : Nat} {s : State} (h : Drawn s) (enough : handWork s < fuel) : handedOut (handFuel fuel s) := by
  induction fuel generalizing s with
  | zero => exact absurd enough (Nat.not_lt_zero _)
  | succ fuel ih =>
    have next' {side : Side} {e : Entry} {t : State} (drawn : Drawn t) (work : handWork t = handWork s)
        (hands : eligible side t = some e) : handedOut (handFuel fuel (handOver side e t)) := by
      have less := handOver_work drawn hands
      exact ih (handOver_drawn drawn hands) (by omega)
    have free : Drawn (takeFree s) := (takeFree_apart s).drawn h
    have same (side : Side) : eligible side (takeFree s) = eligible side s := eligible_of_same rfl rfl side
    unfold handFuel
    split
    next none' none'' => exact ⟨none', none''⟩
    next e first _ => exact next' h rfl first
    next e _ second => exact next' h rfl second
    next e f first second =>
      split
      · exact next' free (handWork_of_same rfl rfl) ((same .b).trans second)
      · exact next' free (handWork_of_same rfl rfl) ((same .a).trans first)

theorem handAll_handsOut {s : State} (h : Drawn s) : handedOut (handAll s) := by
  have each : handedOut (handEach s) := handFuel_handsOut h (handWork_bound s)
  rcases handAll_cases s with same | same | same <;> rw [same]
  · exact each
  · exact handedOut_of_same each rfl rfl
  · exact handedOut_of_same each rfl rfl

theorem handedOut.nothingToHand {s : State} (h : handedOut s) (drawn : Drawn s) : nothingToHand s :=
  nothingToHand_of_eligible h.1 h.2 fun _ free _ mem => drawn.queues.idle free mem

theorem nothingToHand_of_queues {s t : State} (h : nothingToHand s) (streams : ∀ i : Fin 8, (streamOf i t).state = .ready →
    (streamOf i s).state = .ready) (queues : ∀ side, ∀ e ∈ queueOf side t, e ∈ queueOf side s)
    (engines : ∀ side, engineOf side t = none → engineOf side s = none) : nothingToHand t :=
  fun side free e mem ready => h side (engines side free) e (queues side e mem) (streams e.stream ready)

/-- R47, R49: whatever is followed by the handovers leaves nothing to hand over. -/
theorem settle_nothingToHand {s : State} (h : Drawn s) : nothingToHand (settle s) := by
  have out := (handAll_handsOut h).nothingToHand (handAll_drawn h)
  unfold settle checkDrain
  generalize handAll s = t at out
  split
  · refine nothingToHand_of_queues out (fun i => ?_) (fun side e mem => ?_) fun side free => ?_
    · rw [streamOf_of_same (endOp_sq _ _ _)]
      exact id
    · rw [queueOf_of_same (endOp_sq _ _ _)] at mem
      cases side <;> exact mem
    · rw [engineOf_of_same (endOp_de _ _ _)] at free
      cases side <;> exact free
  · exact out

end Sys2Proof.Machine
end

section
/-! PROOFS. The second and the third part of O55: every step keeps the laws of the session, and leaves nothing to hand over where it found
nothing (R47, R49). -/

namespace Sys2Proof.Machine

/-- The laws of the session are kept, and under them that there is nothing to hand over. -/
def Keeps (s t : State) : Prop := Laws s → Laws t ∧ (nothingToHand s → nothingToHand t)

theorem Keeps.trans {s t u : State} (h : Keeps s t) (g : Keeps t u) : Keeps s u := fun laws =>
  have ⟨mid, hands⟩ := h laws
  have ⟨after, hands'⟩ := g mid
  ⟨after, hands' ∘ hands⟩

theorem nothingToHand_of_same {s t : State} (h : nothingToHand s) (sq : t.sq = s.sq) (de : t.de = s.de) : nothingToHand t :=
  nothingToHand_of_queues h (fun i => by rw [streamOf_of_same sq]; exact id) (fun side e => by rw [queueOf_of_same sq]; exact id)
    fun side => by rw [engineOf_of_same de]; exact id

theorem nothingToHand_of_no_entries {s : State} (empty : ∀ side, queueOf side s = []) : nothingToHand s := fun side _ e mem => by
  rw [empty side] at mem
  cases mem

/-- What leaves the sequencer and the engines alone leaves nothing to hand over. -/
theorem Keeps.of_same {s t : State} (laws : Laws s → Laws t) (sq : t.sq = s.sq) (de : t.de = s.de) : Keeps s t :=
  fun h => ⟨laws h, fun hands => nothingToHand_of_same hands sq de⟩

theorem Apart.keeps {s t : State} (h : Apart s t) : Keeps s t := .of_same h.laws h.sq h.de

/-! ### Marks -/

theorem setStream_hands_over {i : Fin 8} {r : Stream} {s : State} (ready : r.state = .ready → (streamOf i s).state = .ready)
    (h : nothingToHand s) : nothingToHand (setStream i r s) := by
  refine nothingToHand_of_queues h (fun j => ?_) (fun side e => ?_) fun side => id
  · rw [streamOf_setStream]
    split
    next here => rw [here]; exact ready
    next => exact id
  · rw [queueOf_setStream]
    exact id

theorem flagRewind_hands_over (reason : RewindReason) (i : Fin 8) {s : State} (h : nothingToHand s) :
    nothingToHand (flagRewind reason i s) := setStream_hands_over id h

theorem flagOpenRewinds_keeps (reason : RewindReason) (s : State) : Keeps s (flagOpenRewinds reason s) := fun h => by
  refine ⟨flagOpenRewinds_laws reason h, fun hands => ?_⟩
  have each (l : List (Fin 8)) : ∀ {s : State}, nothingToHand s →
      nothingToHand (l.foldl (fun t i => if isOpen i t then flagRewind reason i t else t) s) := by
    induction l with
    | nil => exact id
    | cons i l ih =>
      refine fun {s} h => ih ?_
      dsimp only
      split
      · exact flagRewind_hands_over reason i h
      · exact h
  exact each _ hands

theorem setRecord_rest (side : Side) (r : FaultRecord) (s : State) :
    (setRecord side r s).sq = s.sq ∧ (setRecord side r s).de = s.de := by
  cases side <;> exact ⟨rfl, rfl⟩

theorem representFault_keeps (side : Side) (s : State) : Keeps s (representFault side s) := by
  have marked (r : FaultRecord) := setRecord_rest side r s
  refine .of_same (representFault_laws side) ?_ ?_
  · unfold representFault
    dsimp only
    split
    · exact (count_sq _ _).trans (marked _).1
    · rfl
  · unfold representFault
    dsimp only
    split
    · exact (count_de _ _).trans (marked _).2
    · rfl

theorem completeItem_keeps (item : TxItem) (s : State) : Keeps s (completeItem item s) := fun h => by
  refine ⟨completeItem_laws item h, fun hands => ?_⟩
  cases item with
  | greet =>
    unfold completeItem
    dsimp only
    split <;> exact hands
  | keys => exact hands
  | fault side => exact nothingToHand_of_same hands (setRecord_rest side _ s).1 (setRecord_rest side _ s).2
  | rewind i =>
    refine setStream_hands_over ?_ hands
    split <;> exact id
  | reply => exact hands
  | event k =>
    unfold completeItem
    dsimp only
    exact nothingToHand_of_same hands (count_sq _ _) (count_de _ _)

/-! ### DRAW and TILE frames -/

theorem shedStream_hands_over (side : Side) (v : Fin 8) {s : State} (h : nothingToHand s) : nothingToHand (shedStream side v s) := by
  have shorter : nothingToHand (setQueue side ((queueOf side s).filter fun e => !younger v (queueOf side s) e) s) := by
    refine nothingToHand_of_queues h (fun i => ?_) (fun x e => ?_) fun x => ?_
    · rw [streamOf_setQueue]
      exact id
    · rw [queueOf_setQueue]
      split
      next here => rw [here]; exact fun mem => (List.mem_filter.1 mem).1
      next => exact id
    · rw [engineOf_setQueue]
      exact id
  unfold shedStream
  dsimp only
  have apart (t : State) := (count_apart .shedRun t).trans (countN_apart .commandsShed ((queueOf side s).filter (younger v (queueOf side s))).length _)
  refine nothingToHand_of_same ?_ (apart _).sq (apart _).de
  exact flagRewind_hands_over .shed v (setStream_hands_over id shorter)

theorem inOrder_hands_over {s : State} (drawn : Drawn s) {side : Side} {i : Fin 8} (own : (streamOf i s).side = some side) (seq : Half)
    (cs : List DrawCommand) (h : nothingToHand s) : nothingToHand (inOrder side i seq cs s) := by
  have counted (x : SubEvent) {t : State} (h : nothingToHand t) : nothingToHand (count x t) :=
    nothingToHand_of_same h (count_sq x t) (count_de x t)
  have taken {t : State} (drawn : Drawn t) (own : (streamOf i t).side = some side) : nothingToHand (takeFrame side i seq cs t) := by
    obtain ⟨u, settles, drawn'⟩ := takeFrame_settles drawn own seq cs
    rw [settles]
    exact settle_nothingToHand drawn'
  have refused {t : State} (h : nothingToHand t) : nothingToHand (refuseForRoom i t) :=
    flagRewind_hands_over .gap i (counted .noRoom h)
  unfold inOrder
  split
  · exact taken drawn own
  · split
    next v chosen =>
      have shed := shedStream_hands_over side v h
      dsimp only
      split
      · exact counted _ shed
      · split
        · exact taken (shedStream_drawn drawn (shedVictim_candidate chosen)) ((shedStream_stream side v i s).1.trans own)
        · exact refused shed
    next => exact refused (counted _ h)

theorem doDraw_keeps (stream : Byte) (seq : Half) (commands : List Byte) (s : State) : Keeps s (doDraw stream seq commands s) :=
  fun h => by
    refine ⟨doDraw_laws stream seq commands h, fun hands => ?_⟩
    have counted (x : SubEvent) : nothingToHand (count x s) := nothingToHand_of_same hands (count_sq x s) (count_de x s)
    unfold doDraw
    split
    · split
      · unfold judgeDraw
        split
        · exact counted _
        next side own =>
          split
          · exact counted _
          · split
            · exact counted _
            · dsimp only
              split
              · exact inOrder_hands_over h.drawn own _ _ hands
              · split
                · split
                  · exact flagRewind_hands_over _ _ (counted _)
                  · exact counted _
                · exact counted _
      · exact counted _
    · exact counted _

theorem doTile_keeps (key : Word) (sector : Byte) (data : List Byte) (s : State) : Keeps s (doTile key sector data s) := fun h => by
  refine ⟨doTile_laws key sector data h, fun hands => ?_⟩
  have counted (x : SubEvent) : nothingToHand (count x s) := nothingToHand_of_same hands (count_sq x s) (count_de x s)
  unfold doTile
  split
  · exact counted _
  · split
    · exact counted _
    · split
      next w found => exact settle_nothingToHand (fillPresent_drawn h.drawn found _ _)
      next =>
        unfold fillAbsent
        split
        next w _ =>
          obtain ⟨sq, de, _⟩ := allocateWay_rest key w s
          exact nothingToHand_of_same hands ((count_sq _ _).trans sq) ((count_de _ _).trans de)
        next => exact counted _

/-! ### Executions and faults -/

theorem executionEnds_keeps {side : Side} {r : ExecRecord} {s : State} (busy : engineOf side s = some r) :
    Keeps s (settle (finishExecution side r s)) := fun h =>
  ⟨executionEnds_laws h busy, fun _ => settle_nothingToHand (finishExecution_drawn h.drawn busy)⟩

theorem expireFault_keeps {side : Side} {s : State} (limit : s.settings.retryLimit ≤ 7) (expired : faultExpires side s = true) :
    Keeps s (expireFault side s) := fun h => by
  refine ⟨expireFault_laws h limit expired, fun hands => ?_⟩
  unfold expireFault
  split
  · obtain ⟨sq, de⟩ := setRecord_rest side (sendSet (faultOnLane side s) { recordOf side s with
      tries := (recordOf side s).tries + 1, timer := some (faultLoad s) }) s
    exact nothingToHand_of_same hands ((count_sq _ _).trans sq) ((count_de _ _).trans de)
  · exact settle_nothingToHand (abandonFault_drawn h.drawn (faultExpires_active expired))

/-! ### Requests -/

theorem answer_hands_over (tag kind : Byte) (x : Status) {s : State} (h : nothingToHand s) : nothingToHand (answer tag kind x s) := h

theorem refuseLayout_hands_over (tag : Byte) (x : Status) {s : State} (h : nothingToHand s) : nothingToHand (refuseLayout tag x s) :=
  nothingToHand_of_same h (count_sq _ _) (count_de _ _)

theorem doHeaderWrite_keeps (tag : Byte) (border undocked : Half) (s : State) : Keeps s (doHeaderWrite tag border undocked s) :=
  fun h => by
    refine ⟨doHeaderWrite_laws tag border undocked h, fun hands => ?_⟩
    unfold doHeaderWrite
    split
    · exact hands
    · exact refuseLayout_hands_over _ _ hands

theorem doRegionWrite_keeps (tag : Byte) (i : Fin 8) (enabled : Bool) (ox oy rw rh background : Half) (s : State) :
    Keeps s (doRegionWrite tag i enabled ox oy rw rh background s) := fun h => by
  refine ⟨doRegionWrite_laws tag i enabled ox oy rw rh background h, fun hands => ?_⟩
  have refused (x : Status) := refuseLayout_hands_over tag x hands
  unfold doRegionWrite
  split
  · exact refused _
  · split
    · exact refused _
    · split
      · exact refused _
      · split
        · exact refused _
        · exact hands

theorem doStreamWrite_keeps (tag : Byte) (i : Fin 8) (stale : Bool) (s : State) : Keeps s (doStreamWrite tag i stale s) := fun h => by
  refine ⟨doStreamWrite_laws tag i stale h, fun hands => ?_⟩
  unfold doStreamWrite
  split
  · exact hands
  · exact hands

theorem doStreamOpen_keeps (tag stream : Byte) (start : Half) (s : State) : Keeps s (doStreamOpen tag stream start s) := fun h => by
  refine ⟨doStreamOpen_laws tag stream start h, fun hands => ?_⟩
  unfold doStreamOpen
  split
  next below =>
    dsimp only
    split
    · exact hands
    · split
      · exact hands
      next closed =>
        have closed : (streamOf ⟨stream.toNat, below⟩ s).state = .closed := by simpa [isOpen] using closed
        refine fun side free e mem ready => ?_
        have mem : e ∈ queueOf side s := by cases side <;> exact mem
        have free : engineOf side s = none := by cases side <;> exact free
        have other : e.stream ≠ ⟨stream.toNat, below⟩ := fun same =>
          h.drawn.queues.opened_entry mem (by rw [same]; exact closed)
        refine hands side free e mem ?_
        rw [← streamOf_setStream_ne (Ne.symm other)]
        exact ready
  next => exact hands

theorem doStreamClose_keeps (tag stream : Byte) (s : State) : Keeps s (doStreamClose tag stream s) := fun h => by
  refine ⟨doStreamClose_laws tag stream h, fun hands => ?_⟩
  unfold doStreamClose
  split
  next below =>
    dsimp only
    split
    next opened =>
      have opened : (streamOf ⟨stream.toNat, below⟩ s).state ≠ .closed := by simpa [isOpen] using opened
      exact settle_nothingToHand ((answer_apart _ _ _ _).drawn (closeStream_drawn h.drawn opened))
    next => exact hands
  next => exact hands

theorem doQuiesce_keeps (tag : Byte) {s : State} (idle : s.me.inProgress = none) : Keeps s (doQuiesce tag s) := fun h => by
  refine ⟨doQuiesce_laws tag h idle, fun hands => ?_⟩
  have begun : nothingToHand (beginLong tag 0x05 .quiesce { s with sq.quiesce := .quiescing }) :=
    nothingToHand_of_queues hands (fun _ => id) (fun side e => by cases side <;> exact id) fun side => by cases side <;> exact id
  unfold doQuiesce
  split
  · exact hands
  · unfold checkDrain
    generalize beginLong tag 0x05 .quiesce { s with sq.quiesce := .quiescing } = t at begun
    split
    · have ended : nothingToHand { t with sq.quiesce := .quiesced } :=
        nothingToHand_of_queues begun (fun _ => id) (fun side e => by cases side <;> exact id) fun side => by cases side <;> exact id
      exact nothingToHand_of_same ended (endOp_sq _ _ _) (endOp_de _ _ _)
    · exact begun

theorem doTileFlush_keeps (tag : Byte) {s : State} (idle : s.me.inProgress = none) : Keeps s (doTileFlush tag s) := fun h => by
  refine ⟨doTileFlush_laws tag h idle, fun hands => ?_⟩
  unfold doTileFlush
  split <;> exact hands

theorem doTilePin_keeps (tag : Byte) (key : Word) (s : State) : Keeps s (doTilePin tag key s) := fun h => by
  refine ⟨doTilePin_laws tag key h, fun hands => ?_⟩
  unfold doTilePin
  dsimp only
  split
  · split
    · exact hands
    · split
      · exact hands
      · split
        · exact hands
        · exact hands
  · exact hands

theorem doTileUnpin_keeps (tag : Byte) (key : Word) (s : State) : Keeps s (doTileUnpin tag key s) := fun h =>
  ⟨doTileUnpin_laws tag key h, fun _ => settle_nothingToHand (unpin_drawn tag key h.drawn)⟩

theorem doStoreErase_keeps (tag page : Byte) {s : State} (idle : s.me.inProgress = none) : Keeps s (doStoreErase tag page s) :=
  fun h => by
    refine ⟨doStoreErase_laws tag page h idle, fun hands => ?_⟩
    unfold doStoreErase
    split <;> exact hands

theorem doStoreWrite_keeps (tag : Byte) (offset : Half) (data : List Byte) {s : State} (idle : s.me.inProgress = none) :
    Keeps s (doStoreWrite tag offset data s) := fun h => by
  refine ⟨doStoreWrite_laws tag offset data h idle, fun hands => ?_⟩
  unfold doStoreWrite
  dsimp only
  split <;> exact hands

theorem endStore_keeps (x : Status) {r : Request} {s : State} (current : s.me.inProgress = some r) (store : r.isStore) :
    Keeps s (endLong x s) := fun h =>
  ⟨endStore_laws x h current store, fun hands => nothingToHand_of_same hands (endLong_sq _ _) (endLong_de _ _)⟩

/-! ### With nothing left to drain -/

theorem moveStream_queues (side : Side) (s : State) (x : Side) : queueOf x (moveStream side s) = queueOf x s := by
  unfold moveStream
  split
  · rw [queueOf_of_same (count_sq _ _), queueOf_setStream]
  · rfl

theorem flagOpenRewinds_queues (reason : RewindReason) (s : State) (side : Side) :
    queueOf side (flagOpenRewinds reason s) = queueOf side s := by
  rw [flagOpenRewinds_eq]
  cases side <;> rfl

theorem finishResume_queues (s : State) (side : Side) : queueOf side (finishResume s) = queueOf side s := by
  have moves (fuel : Nat) : ∀ s, queueOf side (rebalanceFuel fuel s) = queueOf side s := by
    induction fuel with
    | zero => exact fun _ => rfl
    | succ fuel ih =>
      intro s
      unfold rebalanceFuel
      split
      · rw [ih, moveStream_queues]
      · split
        · rw [ih, moveStream_queues]
        · rfl
  have flagged : queueOf side (flagOpenRewinds .quiesceEnd (rebalance s)) = queueOf side s := by
    rw [flagOpenRewinds_queues, rebalance, moves]
  unfold finishResume
  dsimp only
  generalize flagOpenRewinds .quiesceEnd (rebalance s) = t at flagged
  rw [queueOf_of_same (endOp_sq _ _ _), ← flagged]
  cases side <;> rfl

theorem finishApply_queues (mask : BitVec 8) (s : State) (side : Side) : queueOf side (finishApply mask s) = queueOf side s :=
  queueOf_of_same (finishApply_sq mask s) side

theorem doResume_keeps (tag : Byte) {s : State} (idle : s.me.inProgress = none) : Keeps s (doResume tag s) := fun h => by
  refine ⟨doResume_laws tag h idle, fun hands => ?_⟩
  unfold doResume
  split
  next quiesced =>
    have left : nothingLeft (beginLong tag 0x06 .resume s) := h.empty quiesced
    dsimp only
    generalize beginLong tag 0x06 .resume s = t at left
    split
    · exact nothingToHand_of_no_entries (nothingLeft_queues (beginApply_left left))
    · refine nothingToHand_of_no_entries fun side => ?_
      rw [finishResume_queues, nothingLeft_queues left]
  next => exact hands

theorem applyEnds_keeps {mask : BitVec 8} {s : State} (applying : s.lu.apply = some mask) :
    Keeps s (finishResume (finishApply mask s)) := fun h => by
  refine ⟨applyEnds_laws h applying, fun _ => nothingToHand_of_no_entries fun side => ?_⟩
  obtain ⟨-, -, both⟩ := h.phase.requests
  rw [finishResume_queues, finishApply_queues, nothingLeft_queues (h.empty (both (.inl (by rw [applying]; rfl))))]

theorem finishTeardownFill_keeps (c : Half) (s : State) : Keeps s (finishTeardownFill c s) := by
  have apart := (readToEnd_apart (imageUniform c) { s with fs.image := imageUniform c, fs.holder := none, lu.fillColour := none }).trans
    (markBlocks_apart (fun _ => true) _)
  exact .of_same (finishTeardownFill_laws c) ((grantStore_sq _).trans apart.sq) ((grantStore_de _).trans apart.de)

theorem sweepSet_keeps {s : State} (sweeping : s.tc.sweep < 64) : Keeps s (sweepSet ⟨s.tc.sweep, sweeping⟩ s) := fun h => by
  refine ⟨sweepSet_laws h sweeping, fun hands => ?_⟩
  unfold sweepSet
  dsimp only
  split
  · exact nothingToHand_of_same hands (endOp_sq _ _ _) (endOp_de _ _ _)
  · exact hands

/-! ### Teardown and resets -/

theorem teardown_keeps (s : State) : Keeps s (teardown s) := fun _ => by
  refine ⟨teardown_laws s, fun _ => nothingToHand_of_no_entries fun side => ?_⟩
  have rest := (teardown_ends s).1
  rw [sessionEnded_rest] at rest
  generalize teardown s = t at *
  rw [rest]
  cases side <;> rfl

theorem doDockReset_keeps (tag : Byte) {s : State} (idle : s.me.inProgress = none) : Keeps s (doDockReset tag s) := fun h => by
  refine ⟨(answer_apart _ _ _ _).laws (dockReset_laws h idle), fun _ => nothingToHand_of_no_entries fun side => ?_⟩
  cases side <;> rfl

theorem takeHello_keeps (number : Word) (s : State) : Keeps s (takeHello number s) := by
  have again : Keeps s (freshAttach number (teardown s)) := (teardown_keeps s).trans (freshAttach_apart number _).keeps
  unfold takeHello
  split
  · exact (freshAttach_apart number s).keeps
  · split
    · exact (flagGreet_apart _ s).keeps
    · exact again
  · split
    · have attached : Keeps s (flagGreet .resumed { s with
          lc.attachment := .attached, lc.holdTimer := none, lc.lastCause := s.lc.holdCause, lc.lastDuration := holdMs s }) :=
        ((lc_apart _ s).trans (flagGreet_apart _ _)).keeps
      have represented := ((attached.trans (flagOpenRewinds_keeps .reattach _)).trans (representFault_keeps .a _)).trans
        (representFault_keeps .b _)
      exact represented.trans (((reattachSnapshot_scanned _).apart.trans (raiseEvent_apart _ _ _)).trans (count_apart _ _)).keeps
    · exact again

/-! ### Every event -/

/-- R160: the settings stay in their ranges. -/
theorem Happens.settings {s u : State} (h : Happens s u) (legal : settingsLegal s.settings) : settingsLegal u.settings := by
  refine h.keys (Legal := fun s => settingsLegal s.settings) (fun legal same => ?_) (fun _ _ _ _ _ legal => ?_)
    (fun _ a b c d e f g h _ _ => settingsOf_legal a b c d e f g h) (fun contacts _ legal => ?_) legal
  · rw [same.2]
    exact legal
  · unfold doKeymapWrite
    split
    · split <;> exact legal
    · exact legal
  · rw [(scanKeys_scanned contacts _).rest]
    exact legal

/-- Every operation of an event keeps the laws of the session and leaves nothing to hand over where it found nothing. -/
theorem Happens.keeps {s u : State} (h : Happens s u) : settingsLegal s.settings → Keeps s u := by
  induction h with
  | nothing s => exact fun _ => (Apart.refl s).keeps
  | andThen happens _ first next =>
    exact fun settings => (first settings).trans (next (happens.settings settings))
  | counted x s => exact fun _ => (count_apart x s).keeps
  | lossRestarts g s => exact fun _ => (Apart.ite (lc_apart _ s) (.refl s)).keeps
  | groupDown g down => exact fun _ => (Apart.ite (lc_apart _ _) (.refl _)).keeps
  | groupAligning g aligning => exact fun _ => (Apart.ite (.ite (lc_apart _ _) (lc_apart _ _)) (lc_apart _ _)).keeps
  | assembly a assembling => exact fun _ => (lc_apart _ _).keeps
  | fails assembling => exact fun _ => (failFrame_apart _).keeps
  | framing framing => exact fun _ => (passFrame_framing_apart framing).keeps
  | passes up => exact fun _ => (lc_apart _ _).keeps
  | lossExpires expired => exact fun _ => (expireLoss_apart _).keeps
  | hello number up => exact fun _ => takeHello_keeps number _
  | holdExpires expired => exact fun _ => teardown_keeps _
  | transmitted sending => exact fun _ => (lc_apart _ _).keeps.trans (completeItem_keeps _ _)
  | draw stream seq commands _ _ => exact fun _ => doDraw_keeps stream seq commands _
  | tile key sector data _ _ => exact fun _ => doTile_keeps key sector data _
  | executionEnds busy writing => exact fun _ => executionEnds_keeps busy
  | faultExpires expired =>
    intro settings
    obtain ⟨-, -, -, -, -, limit, -⟩ := settings
    exact expireFault_keeps limit expired
  | busy tag kind _ _ => exact fun _ => (answer_apart _ _ _ _).keeps
  | answered tag kind status _ => exact fun _ => (answer_apart _ _ _ _).keeps
  | tableRead tag table first number _ => exact fun _ => (doTableRead_apart _ _ _ _ _).keeps
  | headerWrite tag border undocked _ => exact fun _ => doHeaderWrite_keeps tag border undocked _
  | regionWrite tag i enabled ox oy rw rh background _ =>
    exact fun _ => doRegionWrite_keeps tag i enabled ox oy rw rh background _
  | streamWrite tag i stale _ => exact fun _ => doStreamWrite_keeps tag i stale _
  | keymapWrite tag entry cls value _ => exact fun _ => (doKeymapWrite_apart _ _ _ _ _).keeps
  | settingsWrite tag a b c d e f g h _ => exact fun _ => (doSettingsWrite_apart _ _ _).keeps
  | panelWrite tag width height level _ => exact fun _ => (doPanelWrite_apart _ _ _ _ _).keeps
  | streamOpen tag stream start _ => exact fun _ => doStreamOpen_keeps tag stream start _
  | streamClose tag stream _ => exact fun _ => doStreamClose_keeps tag stream _
  | quiesce tag taken => exact fun _ => doQuiesce_keeps tag taken.2.2.1
  | resume tag taken => exact fun _ => doResume_keeps tag taken.2.2.1
  | tileFlush tag taken => exact fun _ => doTileFlush_keeps tag taken.2.2.1
  | tilePin tag key _ => exact fun _ => doTilePin_keeps tag key _
  | tileUnpin tag key _ => exact fun _ => doTileUnpin_keeps tag key _
  | panelRestart tag _ => exact fun _ => (doPanelRestart_apart _ _).keeps
  | dockReset tag taken => exact fun _ => doDockReset_keeps tag taken.2.2.1
  | storeErase tag page taken => exact fun _ => doStoreErase_keeps tag page taken.2.2.1
  | storeWrite tag offset data taken => exact fun _ => doStoreWrite_keeps tag offset data taken.2.2.1
  | storeRead tag offset number _ => exact fun _ => (doStoreRead_apart _ _ _ _).keeps
  | monitorSet tag entry mode group unitMask condition _ => exact fun _ => (doMonitorSet_apart _ _ _ _ _ _ _).keeps
  | applyEnds applying writing => exact fun _ => applyEnds_keeps applying
  | fillEnds filling writing => exact fun _ => finishTeardownFill_keeps _ _
  | sweeps sweeping => exact fun _ => sweepSet_keeps sweeping
  | @erases r page s current op =>
    have ended : Apart s (count .eraseDone { s with flash := erasePage page s.flash }) :=
      (flash_apart _ s).trans (count_apart _ _)
    exact fun _ => ended.keeps.trans (endStore_keeps _ (ended.inProgress.trans current) (.inl ⟨_, op⟩))
  | @programs r offset data s current op =>
    have ended : Apart s (count .programDone { s with flash := programBytes offset data s.flash }) :=
      (flash_apart _ s).trans (count_apart _ _)
    unfold finishProgram
    dsimp only
    split
    · exact fun _ => ended.keeps.trans (endStore_keeps _ (ended.inProgress.trans current) (.inr ⟨_, _, op⟩))
    · have mismatch := ended.trans (count_apart .programMismatch _)
      exact fun _ => mismatch.keeps.trans (endStore_keeps _ (mismatch.inProgress.trans current) (.inr ⟨_, _, op⟩))
  | acknowledged sent => exact fun _ => (completeBlock_apart _).keeps
  | timesOut sent ended => exact fun _ => (timeOutBlock_apart _ _).keeps
  | scans contacts due => exact fun _ => (scanKeys_scanned contacts _).apart.keeps
  | millisecond due =>
    have timed (t : State) : Apart t { t with msTimer := Config.ticksPerMs } := ⟨rfl, rfl, rfl, rfl, rfl, rfl, rfl⟩
    exact fun _ => ((countMillisecond_counted _).apart.trans (timed _)).keeps
  | period due => exact fun _ => (pu_apart _ _ _).keeps

/-! ### Every step -/

/-- The laws of the session, with what the blocks that draw keep of them and the phase. -/
theorem sessionLegal_iff (s : State) : sessionLegal s ↔ settingsLegal s.settings ∧ Laws s := by
  constructor
  · rintro ⟨settings, streams, waits, executing, reserves, faults, quiesced, ⟨request, left⟩, requests, dir⟩
    exact ⟨settings, (drawn_iff s).2 ⟨streams, waits, executing, reserves, faults, dir⟩,
      ⟨fun is => (quiesced is).1, request, left, requests⟩⟩
  · rintro ⟨settings, drawn, phase⟩
    obtain ⟨streams, waits, executing, reserves, faults, dir⟩ := (drawn_iff s).1 drawn
    refine ⟨settings, streams, waits, executing, reserves, faults, fun is => ⟨phase.drained is, fun i => ?_⟩,
      ⟨phase.request, phase.left⟩, phase.requests, dir⟩
    obtain ⟨unreserved, calm⟩ := drawn.calm (phase.drained is) i
    exact ⟨calm.imp And.left And.left, unreserved⟩

theorem powerOn_settings (flash : List Host.Cell) (free : Nat) (pending : List Instr) :
    settingsLegal (powerOn flash free pending).settings := (powerOn_keyLaws flash free pending).1

/-- The laws of the session are kept by every step. -/
theorem step_sessionLegal (s t : State) (legal : sessionLegal s) (stepped : step s = .next t) : sessionLegal t := by
  rw [sessionLegal_iff] at *
  refine step_keeps (Legal := fun s => settingsLegal s.settings ∧ Laws s) legal stepped (fun s h => ⟨h.1, passTick_laws h.2⟩)
    (fun s rest h => ⟨h.1, ?_⟩) (fun s _ => ⟨powerOn_settings _ _ _, powerOn_laws _ _ _⟩) fun s u h happens => ⟨?_, ?_⟩
  · have same : Apart s { s with pending := rest } := ⟨rfl, rfl, rfl, rfl, rfl, rfl, rfl⟩
    exact same.laws h.2
  · rw [conclude_settings]
    exact happens.settings h.1
  · exact (conclude_apart s u).laws (happens.keeps h.1 h.2).1

/-- R47, R49: after every step there is nothing to hand over. -/
theorem step_nothingToHand (s t : State) (legal : sessionLegal s ∧ nothingToHand s) (stepped : step s = .next t) : nothingToHand t := by
  have kept := step_keeps (Legal := fun s => (settingsLegal s.settings ∧ Laws s) ∧ nothingToHand s)
    ⟨(sessionLegal_iff s).1 legal.1, legal.2⟩ stepped (fun s h => ⟨⟨h.1.1, passTick_laws h.1.2⟩, nothingToHand_of_same h.2 rfl rfl⟩)
    (fun s rest h => ?_) (fun s _ => ⟨⟨powerOn_settings _ _ _, powerOn_laws _ _ _⟩, ?_⟩) fun s u h happens => ?_
  · exact kept.2
  · have same : Apart s { s with pending := rest } := ⟨rfl, rfl, rfl, rfl, rfl, rfl, rfl⟩
    exact ⟨⟨h.1.1, same.laws h.1.2⟩, nothingToHand_of_same h.2 rfl rfl⟩
  · rw [powerOn_eq]
    exact nothingToHand_of_no_entries fun side => by cases side <;> rfl
  · obtain ⟨⟨settings, laws⟩, hands⟩ := h
    obtain ⟨after, still⟩ := happens.keeps settings laws
    have apart := conclude_apart s u
    exact ⟨⟨by rw [conclude_settings]; exact happens.settings settings, apart.laws after⟩, nothingToHand_of_same (still hands) apart.sq apart.de⟩

end Sys2Proof.Machine
end

section
/-! PROOFS. The writers at the frame store (R25, R108): what leaves their turns alone. -/

namespace Sys2Proof.Machine

/-- The turns at the frame store, which engines are busy, the apply, the fill and the request in progress are as they were. -/
structure SameTurns (s t : State) : Prop where
  holder : t.fs.holder = s.fs.holder
  waiting : t.fs.waiting = s.fs.waiting
  busy : ∀ side, (engineOf side t).isSome = (engineOf side s).isSome
  apply : t.lu.apply = s.lu.apply
  colour : t.lu.fillColour = s.lu.fillColour
  inProgress : t.me.inProgress = s.me.inProgress

theorem SameTurns.refl (s : State) : SameTurns s s := ⟨rfl, rfl, fun _ => rfl, rfl, rfl, rfl⟩

theorem SameTurns.trans {s t u : State} (h : SameTurns s t) (g : SameTurns t u) : SameTurns s u where
  holder := g.holder.trans h.holder
  waiting := g.waiting.trans h.waiting
  busy side := (g.busy side).trans (h.busy side)
  apply := g.apply.trans h.apply
  colour := g.colour.trans h.colour
  inProgress := g.inProgress.trans h.inProgress

theorem SameTurns.of_same {s t : State} (fs : t.fs = s.fs) (de : t.de = s.de) (apply : t.lu.apply = s.lu.apply)
    (colour : t.lu.fillColour = s.lu.fillColour) (me : t.me = s.me) : SameTurns s t :=
  ⟨by rw [fs], by rw [fs], fun side => by rw [engineOf_of_same de], apply, colour, by rw [me]⟩

theorem Apart.turns {s t : State} (h : Apart s t) : SameTurns s t :=
  ⟨by rw [h.fs], by rw [h.fs], fun side => by rw [engineOf_of_same h.de], by rw [h.lu], by rw [h.lu], h.inProgress⟩

theorem count_turns (x : SubEvent) (s : State) : SameTurns s (count x s) := (count_apart x s).turns

theorem answer_turns (tag kind : Byte) (x : Status) (s : State) : SameTurns s (answer tag kind x s) := (answer_apart tag kind x s).turns

/-! ### The streams and their queues -/

theorem setStream_turns (i : Fin 8) (r : Stream) (s : State) : SameTurns s (setStream i r s) := .of_same rfl rfl rfl rfl rfl

theorem mapStreams_turns (f : Fin 8 → Stream → Stream) (s : State) : SameTurns s (mapStreams f s) := .of_same rfl rfl rfl rfl rfl

theorem setQueue_turns (side : Side) (q : List Entry) (s : State) : SameTurns s (setQueue side q s) := by
  cases side <;> exact .of_same rfl rfl rfl rfl rfl

theorem flagRewind_turns (reason : RewindReason) (i : Fin 8) (s : State) : SameTurns s (flagRewind reason i s) := setStream_turns _ _ s

theorem flagOpenRewinds_turns (reason : RewindReason) (s : State) : SameTurns s (flagOpenRewinds reason s) := by
  rw [flagOpenRewinds_eq]
  exact mapStreams_turns _ s

theorem setWait_turns (i : Fin 8) (w : StreamState) (s : State) : SameTurns s (setWait i w s) := setStream_turns _ _ s

theorem wakeWay_turns (s : State) : SameTurns s (wakeWay s) := mapStreams_turns _ s

theorem moveStream_turns (side : Side) (s : State) : SameTurns s (moveStream side s) := by
  unfold moveStream
  split
  · exact (setStream_turns _ _ s).trans (count_turns _ _)
  · exact .refl s

theorem rebalance_turns (s : State) : SameTurns s (rebalance s) := by
  have each (fuel : Nat) : ∀ s, SameTurns s (rebalanceFuel fuel s) := by
    induction fuel with
    | zero => exact .refl
    | succ fuel ih =>
      intro s
      unfold rebalanceFuel
      split
      · exact (moveStream_turns _ s).trans (ih _)
      · split
        · exact (moveStream_turns _ s).trans (ih _)
        · exact .refl s
  exact each 8 s

/-! ### The directory and the fault records -/

theorem setTileSet_turns (key : Word) (ways : TileSet) (s : State) : SameTurns s (setTileSet key ways s) := .of_same rfl rfl rfl rfl rfl

theorem mapEntry_turns (key : Word) (f : DirEntry → DirEntry) (s : State) : SameTurns s (mapEntry key f s) := by
  unfold mapEntry
  split
  · exact setTileSet_turns _ _ s
  · exact .refl s

theorem setRecord_turns (side : Side) (r : FaultRecord) (s : State) : SameTurns s (setRecord side r s) := by
  cases side <;> exact .of_same rfl rfl rfl rfl rfl

theorem releaseReservation_turns (i : Fin 8) (s : State) : SameTurns s (releaseReservation i s) := by
  have gives (key : Word) (s : State) : SameTurns s (releaseEntry key s) := by
    unfold releaseEntry
    split
    · dsimp only
      split
      · exact (setTileSet_turns _ _ s).trans (wakeWay_turns _)
      · exact setTileSet_turns _ _ s
    · exact .refl s
  unfold releaseReservation
  split
  · exact (setStream_turns _ _ s).trans (gives _ _)
  · exact .refl s

theorem afterLookup_turns (key : Word) (l : Lookup) (s : State) : SameTurns s (afterLookup key l s) := by
  cases l with
  | hit w => exact (setTileSet_turns _ _ s).trans (count_turns _ _)
  | sectorMiss w => exact count_turns _ s
  | absent => exact count_turns _ s

theorem allocateWay_turns (key : Word) (w : Fin 4) (s : State) : SameTurns s (allocateWay key w s) := by
  unfold allocateWay
  dsimp only
  split
  · exact (setTileSet_turns _ _ s).trans (count_turns _ _)
  · exact setTileSet_turns _ _ s

theorem joinFault_turns (side : Side) (i : Fin 8) (mask : BitVec 4) (s : State) : SameTurns s (joinFault side i mask s) := by
  unfold joinFault
  dsimp only
  refine .trans (.trans ?_ (count_turns .joined _)) (setWait_turns _ _ _)
  split
  · exact setRecord_turns _ _ s
  · exact (setRecord_turns _ _ s).trans (count_turns _ _)

theorem raiseFault_turns (side : Side) (i : Fin 8) (key : Word) (mask : BitVec 4) (s : State) :
    SameTurns s (raiseFault side i key mask s) :=
  (((mapEntry_turns _ _ s).trans (setRecord_turns _ _ _)).trans ((count_apart _ _).trans (trackRaise_apart _ _ _)).turns).trans
    (setWait_turns _ _ _)

theorem takeMiss_turns (side : Side) (i : Fin 8) (key : Word) (mask : BitVec 4) (present : Bool) (s : State) :
    SameTurns s (takeMiss side i key mask present s) := by
  unfold takeMiss
  split
  · exact joinFault_turns _ _ _ s
  · split
    · exact (count_turns _ s).trans (setWait_turns _ _ _)
    · split
      · exact raiseFault_turns _ _ _ _ s
      · split
        · exact (allocateWay_turns _ _ s).trans (raiseFault_turns _ _ _ _ _)
        · exact (count_turns _ s).trans (setWait_turns _ _ _)

theorem goIdle_turns (side : Side) (s : State) : SameTurns s (goIdle side s) :=
  ((setRecord_turns _ _ s).trans (mapStreams_turns _ _)).trans (wakeWay_turns _)

theorem completeFault_turns (side : Side) (s : State) : SameTurns s (completeFault side s) :=
  (((mapEntry_turns _ _ s).trans (mapStreams_turns _ _)).trans (goIdle_turns side _)).trans
    ((count_apart _ _).trans (trackComplete_apart _ _)).turns

theorem setStale_turns (m : BitVec 8) (s : State) : SameTurns s (setStale m s) :=
  .trans (t := mapRegions (fun i r => if m.getLsbD i.val then { r with stale := true } else r) s) (.of_same rfl rfl rfl rfl rfl)
    (raiseEvent_apart _ _ _).turns

theorem skipHead_turns (s : State) (i : Fin 8) : SameTurns s (skipHead s i) := by
  unfold skipHead
  split
  · exact ((setQueue_turns _ _ s).trans (setStream_turns _ _ _)).trans (count_turns _ _)
  · exact .refl s

theorem abandonFault_turns (side : Side) (s : State) : SameTurns s (abandonFault side s) := by
  have skips (l : List (Fin 8)) : ∀ s, SameTurns s (l.foldl skipHead s) := by
    induction l with
    | nil => exact .refl
    | cons i l ih => exact fun s => (skipHead_turns s i).trans (ih _)
  exact ((((skips _ s).trans (setStale_turns _ _)).trans (mapEntry_turns _ _ _)).trans (goIdle_turns side _)).trans
    ((count_apart _ _).trans (trackLost_apart _ _)).turns

theorem retryFault_turns (side : Side) (s : State) : SameTurns s (retryFault side s) := (setRecord_turns _ _ s).trans (count_turns _ _)

theorem representFault_turns (side : Side) (s : State) : SameTurns s (representFault side s) := by
  unfold representFault
  dsimp only
  split
  · exact (setRecord_turns _ _ s).trans (count_turns _ _)
  · exact .refl s

theorem cancelFault_turns (side : Side) (s : State) : SameTurns s (cancelFault side s) :=
  ((mapEntry_turns _ _ s).trans (goIdle_turns side _)).trans ((count_apart _ _).trans (trackLost_apart _ _)).turns

theorem leaveFault_turns (side : Side) (i : Fin 8) (s : State) : SameTurns s (leaveFault side i s) := by
  unfold leaveFault
  dsimp only
  split
  · split
    · exact (setRecord_turns _ _ s).trans (cancelFault_turns side _)
    · exact setRecord_turns _ _ s
  · exact .refl s

theorem withoutEntries_turns (i : Fin 8) (s : State) : SameTurns s (withoutEntries i s) := by
  unfold withoutEntries
  split
  next side _ =>
    have marked (t : State) : SameTurns t (markRemovedOf side i t) := by
      have busy (x : Side) : (engineOf x (markRemovedOf side i t)).isSome = (engineOf x t).isSome := by
        rw [markRemovedOf, engineOf_setEngine]
        split
        next here => rw [here, Option.isSome_map]
        next => rfl
      unfold markRemovedOf at busy ⊢
      cases side <;> exact ⟨rfl, rfl, busy, rfl, rfl, rfl⟩
    exact (setQueue_turns _ _ s).trans (marked _)
  next => exact .refl s

theorem closeStream_turns (i : Fin 8) (s : State) : SameTurns s (closeStream i s) := by
  rw [closeStream_eq]
  exact ((((withoutEntries_turns i s).trans (leaveFault_turns .a i _)).trans (leaveFault_turns .b i _)).trans
    (releaseReservation_turns i _)).trans (setStream_turns _ _ _)

theorem openStream_turns (i : Fin 8) (start : Half) (s : State) : SameTurns s (openStream i start s) := .of_same rfl rfl rfl rfl rfl

theorem completeItem_turns (item : TxItem) (s : State) : SameTurns s (completeItem item s) := by
  cases item with
  | greet =>
    unfold completeItem
    dsimp only
    split <;> exact .of_same rfl rfl rfl rfl rfl
  | keys => exact .of_same rfl rfl rfl rfl rfl
  | fault side => exact setRecord_turns _ _ s
  | rewind i => exact setStream_turns _ _ s
  | reply => exact .of_same rfl rfl rfl rfl rfl
  | event k => exact ((setEventSlot_apart k _ s).trans (count_apart _ _)).turns

theorem writeSector_turns (key : Word) (w : Fin 4) (sector : Nat) (data : List Byte) (s : State) :
    SameTurns s (writeSector key w sector data s) := .of_same rfl rfl rfl rfl rfl

theorem fillPresent_turns (key : Word) (w : Fin 4) (sector : Nat) (data : List Byte) (s : State) :
    SameTurns s (fillPresent key w sector data s) := by
  have passed (s : State) : SameTurns s (fillPassed key w s) := by
    unfold fillPassed
    split
    · split
      · exact completeFault_turns _ s
      · exact .refl s
    · exact .refl s
  have written := (writeSector_turns key w sector data s).trans (count_turns .fillPresent _)
  unfold fillPresent
  dsimp only
  split
  · exact written.trans (passed _)
  · exact written

theorem fillAbsent_turns (key : Word) (sector : Nat) (data : List Byte) (s : State) : SameTurns s (fillAbsent key sector data s) := by
  unfold fillAbsent
  split
  · exact ((allocateWay_turns _ _ s).trans (writeSector_turns _ _ _ _ _)).trans (count_turns _ _)
  · exact count_turns _ s

theorem shedStream_turns (side : Side) (v : Fin 8) (s : State) : SameTurns s (shedStream side v s) :=
  ((((setQueue_turns _ _ s).trans (setStream_turns _ _ _)).trans (flagRewind_turns _ _ _)).trans (count_turns .shedRun _)).trans
    (countN_apart _ _ _).turns

theorem unpin_turns (tag : Byte) (key : Word) (s : State) : SameTurns s (unpin tag key s) := by
  unfold unpin
  dsimp only
  split
  · split
    · exact ((setTileSet_turns _ _ s).trans (wakeWay_turns _)).trans (answer_turns _ _ _ _)
    · exact answer_turns _ _ _ s
  · exact answer_turns _ _ _ s

theorem doTilePin_turns (tag : Byte) (key : Word) (s : State) : SameTurns s (doTilePin tag key s) := by
  unfold doTilePin
  dsimp only
  split
  · split
    · exact answer_turns _ _ _ s
    · split
      · exact answer_turns _ _ _ s
      · split
        · exact answer_turns _ _ _ s
        · exact (setTileSet_turns _ _ s).trans (answer_turns _ _ _ _)
  · exact answer_turns _ _ _ s

theorem refuseLayout_turns (tag : Byte) (x : Status) (s : State) : SameTurns s (refuseLayout tag x s) :=
  (count_turns _ s).trans (answer_turns _ _ _ _)

theorem setRegion_turns (i : Fin 8) (r : Region) (s : State) : SameTurns s (setRegion i r s) := .of_same rfl rfl rfl rfl rfl

theorem doHeaderWrite_turns (tag : Byte) (border undocked : Half) (s : State) : SameTurns s (doHeaderWrite tag border undocked s) := by
  unfold doHeaderWrite
  split
  · exact .of_same rfl rfl rfl rfl rfl
  · exact refuseLayout_turns _ _ s

theorem doRegionWrite_turns (tag : Byte) (i : Fin 8) (enabled : Bool) (ox oy rw rh background : Half) (s : State) :
    SameTurns s (doRegionWrite tag i enabled ox oy rw rh background s) := by
  unfold doRegionWrite
  split
  · exact refuseLayout_turns _ _ s
  · split
    · exact refuseLayout_turns _ _ s
    · split
      · exact refuseLayout_turns _ _ s
      · split
        · exact refuseLayout_turns _ _ s
        · exact (setRegion_turns _ _ s).trans (answer_turns _ _ _ _)

theorem doStreamWrite_turns (tag : Byte) (i : Fin 8) (stale : Bool) (s : State) : SameTurns s (doStreamWrite tag i stale s) := by
  unfold doStreamWrite
  split
  · exact answer_turns _ _ _ s
  · exact (setRegion_turns _ _ s).trans (answer_turns _ _ _ _)

theorem doStreamOpen_turns (tag stream : Byte) (start : Half) (s : State) : SameTurns s (doStreamOpen tag stream start s) := by
  unfold doStreamOpen
  split
  · dsimp only
    split
    · exact answer_turns _ _ _ s
    · split
      · exact answer_turns _ _ _ s
      · exact (openStream_turns _ _ s).trans (answer_turns _ _ _ _)
  · exact answer_turns _ _ _ s

end Sys2Proof.Machine
end

section
/-! PROOFS. The fourth part of O55: each engine that is busy, and each apply under way, holds the frame store or waits for it once (R25,
R108). -/

namespace Sys2Proof.Machine

/-- The writers at the frame store: the one that holds it, then those that wait. -/
def writersAt (s : State) : List Writer := s.fs.holder.toList ++ s.fs.waiting

/-- The laws of the frame store (R25, R37, R108). -/
structure StoreTurns (s : State) : Prop where
  once : (writersAt s).Nodup
  engine : ∀ side : Side, .engine side ∈ writersAt s ↔ (engineOf side s).isSome = true
  apply : .layoutApply ∈ writersAt s ↔ s.lu.apply.isSome = true
  colour : s.fs.holder = some .teardownFill ↔ s.lu.fillColour.isSome = true

/-- The laws of the frame store, and of the apply with the request that it is of (R33). -/
structure Writers (s : State) : Prop extends StoreTurns s where
  request : s.lu.apply.isSome = (s.me.inProgress.any fun r => r.op == .resume)

theorem SameTurns.store {s t : State} (same : SameTurns s t) (h : StoreTurns s) : StoreTurns t := by
  have at' : writersAt t = writersAt s := by rw [writersAt, same.holder, same.waiting]; rfl
  exact ⟨by rw [at']; exact h.once, fun side => by rw [at', same.busy]; exact h.engine side, by rw [at', same.apply]; exact h.apply,
    by rw [same.holder, same.colour]; exact h.colour⟩

theorem SameTurns.writers {s t : State} (same : SameTurns s t) (h : Writers s) : Writers t :=
  ⟨same.store h.toStoreTurns, by rw [same.apply, same.inProgress]; exact h.request⟩

/-- Nothing but the request in progress changes for the frame store. -/
theorem StoreTurns.of_same {s t : State} (h : StoreTurns s) (fs : t.fs = s.fs) (de : t.de = s.de) (lu : t.lu = s.lu) : StoreTurns t := by
  have at' : writersAt t = writersAt s := by rw [writersAt, fs]; rfl
  exact ⟨by rw [at']; exact h.once, fun side => by rw [at', engineOf_of_same de]; exact h.engine side,
    by rw [at', lu]; exact h.apply, by rw [fs, lu]; exact h.colour⟩

/-- A request that is no RESUME comes or goes. -/
theorem Writers.requests {s t : State} (h : Writers s) (fs : t.fs = s.fs) (de : t.de = s.de) (lu : t.lu = s.lu)
    (request : (t.me.inProgress.any fun r => r.op == .resume) = s.me.inProgress.any fun r => r.op == .resume) : Writers t :=
  ⟨h.toStoreTurns.of_same fs de lu, by rw [lu, request]; exact h.request⟩

/-! ### Turns -/

theorem grantStore_at (s : State) : writersAt (grantStore s) = writersAt s := by
  unfold grantStore
  split
  next free =>
    have free : s.fs.holder = none := by simpa using free
    split
    next w rest waits =>
      have before : writersAt s = w :: rest := by rw [writersAt, free, waits]; rfl
      dsimp only
      split
      · rw [before, writersAt, count_fs]
        rfl
      · rw [before]
        rfl
    next => rfl
  next => rfl

theorem grantStore_colour {s : State} (h : s.fs.holder = some .teardownFill ↔ s.lu.fillColour.isSome = true) :
    (grantStore s).fs.holder = some .teardownFill ↔ (grantStore s).lu.fillColour.isSome = true := by
  unfold grantStore
  split
  next free =>
    have free : s.fs.holder = none := by simpa using free
    split
    next w rest waits =>
      dsimp only
      split
      next fill => rw [count_fs, count_lu, fill]; simp
      next other =>
        dsimp only
        rw [free] at h
        have none' : s.lu.fillColour.isSome = false := Bool.eq_false_iff.2 fun some' => absurd (h.2 some') nofun
        rw [none']
        exact ⟨fun is => absurd (Option.some.inj is) other, nofun⟩
    next => exact h
  next => exact h

theorem grantStore_apply (s : State) : (grantStore s).lu.apply = s.lu.apply := by rw [(grantStore_handed s).drawing.1]

theorem grantStore_store {s : State} (h : StoreTurns s) : StoreTurns (grantStore s) where
  once := by rw [grantStore_at]; exact h.once
  engine side := by rw [grantStore_at, engineOf_of_same (grantStore_de s)]; exact h.engine side
  apply := by rw [grantStore_at, grantStore_apply]; exact h.apply
  colour := grantStore_colour h.colour

/-- The frame store is granted. -/
theorem grantStore_writers {s : State} (h : Writers s) : Writers (grantStore s) :=
  ⟨grantStore_store h.toStoreTurns, by rw [grantStore_apply, (grantStore_handed s).inProgress]; exact h.request⟩

/-- A writer that neither holds the frame store nor waits asks for it. -/
theorem askStore_at (w : Writer) (s : State) : writersAt (askStore w s) = writersAt s ++ [w] := by
  rw [askStore, grantStore_at, writersAt, writersAt, List.append_assoc]

theorem nodup_snoc {w : Writer} {l : List Writer} (once : l.Nodup) (fresh : w ∉ l) : (l ++ [w]).Nodup :=
  List.nodup_append'.2 ⟨once, List.nodup_singleton w, by simpa using fresh⟩

theorem setEngine_rest (side : Side) (r : Option ExecRecord) (s : State) :
    (setEngine side r s).fs = s.fs ∧ (setEngine side r s).lu = s.lu ∧ (setEngine side r s).me = s.me := by
  cases side <;> exact ⟨rfl, rfl, rfl⟩

theorem beginExecution_writers {side : Side} (r : ExecRecord) {s : State} (h : Writers s) (free : engineOf side s = none) :
    Writers (beginExecution side r s) := by
  have queued := (setQueue_turns side (markExecuting r (queueOf side s)) s).writers h
  have free' : engineOf side (setQueue side (markExecuting r (queueOf side s)) s) = none := by rw [engineOf_setQueue]; exact free
  unfold beginExecution
  generalize setQueue side (markExecuting r (queueOf side s)) s = t at queued free'
  obtain ⟨fs, lu, me⟩ := setEngine_rest side (some r) t
  have at' : writersAt (askStore (.engine side) (setEngine side (some r) t)) = writersAt t ++ [.engine side] := by
    rw [askStore_at, writersAt, fs]
    rfl
  have engines : (askStore (.engine side) (setEngine side (some r) t)).de = (setEngine side (some r) t).de := grantStore_de _
  have out : .engine side ∉ writersAt t := fun mem => by
    have busy := (queued.engine side).1 mem
    rw [free'] at busy
    cases busy
  have applies : (askStore (.engine side) (setEngine side (some r) t)).lu.apply = t.lu.apply :=
    (grantStore_apply _).trans (congrArg LayoutUnit.apply lu)
  refine ⟨⟨?_, fun x => ?_, ?_, grantStore_colour ?_⟩, ?_⟩
  · rw [at']
    exact nodup_snoc queued.once out
  · rw [at', engineOf_of_same engines, engineOf_setEngine, List.mem_append, queued.engine]
    split
    next here => simp [here]
    next other => simp [other]
  · rw [at', applies, List.mem_append, queued.apply]
    simp
  · dsimp only
    rw [fs, lu]
    exact queued.colour
  · rw [applies, (askStore_handed _ _).inProgress, me]
    exact queued.request

/-- R47: a handover keeps the laws of the frame store. -/
theorem handOver_writers {side : Side} {e : Entry} {s : State} (h : Writers s) (free : engineOf side s = none) :
    Writers (handOver side e s) := by
  have removes (r : ExecRecord) (x : SubEvent) : SameTurns s (removeEntry side r (count x s)) :=
    (count_turns x s).trans (setQueue_turns _ _ _)
  have gives (r : ExecRecord) (x : SubEvent) : SameTurns s (releaseReservation e.stream (removeEntry side r (count x s))) :=
    (removes r x).trans (releaseReservation_turns _ _)
  have begins (r : ExecRecord) := beginExecution_writers r h free
  have places (r : ExecRecord) (key : Word) (y : Int) : Writers (handPlace side r key y s) := by
    unfold handPlace
    dsimp only
    generalize lookupOf key (sectorMask (needLo r y) (needHi r y)) s = l
    have released := (afterLookup_turns key l s).trans (releaseReservation_turns r.stream _)
    cases l with
    | hit w =>
      refine beginExecution_writers _ (released.writers h) ?_
      have busy := released.busy side
      rw [free] at busy
      exact Option.isNone_iff_eq_none.1 (Option.isSome_eq_false_iff.1 busy)
    | sectorMiss w => exact (released.trans (takeMiss_turns _ _ _ _ _ _)).writers h
    | absent => exact (released.trans (takeMiss_turns _ _ _ _ _ _)).writers h
  unfold handOver
  dsimp only
  split
  · split
    · exact (gives _ _).writers h
    · split
      · exact (gives _ _).writers h
      · exact places _ _ _
  · split
    · exact (removes _ _).writers h
    · exact begins _
  · split
    · exact (removes _ _).writers h
    · exact begins _

theorem otherEngine_injective : Function.Injective Writer.otherEngine := by
  intro w v same
  rcases w with side | _ | _ <;> rcases v with x | _ | _ <;> simp_all [Writer.otherEngine]
  cases side <;> cases x <;> simp_all [otherSide]

/-- R114: with both engines at the frame store, their turns may be exchanged. -/
theorem exchangeTurns_writers {s : State} (h : Writers s) (both : ∀ side, (engineOf side s).isSome = true) :
    Writers (exchangeTurns s) := by
  have at' : writersAt (exchangeTurns s) = (writersAt s).map Writer.otherEngine := by
    unfold writersAt exchangeTurns
    dsimp only
    rw [List.map_append]
    cases s.fs.holder <;> rfl
  have mem (w v : Writer) (other : Writer.otherEngine v = w) : w ∈ writersAt (exchangeTurns s) ↔ v ∈ writersAt s := by
    subst other
    rw [at', List.mem_map_of_injective otherEngine_injective]
  refine ⟨⟨?_, fun side => ?_, ?_, ?_⟩, h.request⟩
  · rw [at']
    exact h.once.map otherEngine_injective
  · rw [mem _ (.engine (otherSide side)) (by cases side <;> rfl), h.engine, both]
    exact iff_of_true rfl (both side)
  · exact (mem _ .layoutApply rfl).trans h.apply
  · refine .trans ?_ h.colour
    show s.fs.holder.map Writer.otherEngine = some .teardownFill ↔ _
    rcases s.fs.holder with _ | w
    · exact .rfl
    · rcases w with side | _ | _ <;> simp [Writer.otherEngine]

theorem handAll_writers {s : State} (h : Writers s) : Writers (handAll s) := by
  have each : Writers (handEach s) := handFuel_keeps (fun side e t hands legal => handOver_writers legal (eligible_some hands).1)
    (fun t legal => (takeFree_apart t).turns.writers legal) _ h
  unfold handAll
  dsimp only
  generalize handEach s = t at each
  have free := (takeFree_apart t).turns
  split
  next took =>
    split
    · refine exchangeTurns_writers (free.writers each) fun side => ?_
      rw [free.busy]
      simp only [bothTook, Bool.and_eq_true] at took
      cases side
      · exact took.1.2
      · exact took.2
    · exact free.writers each
  next => exact each

theorem endOp_writers {op : LongOp} {x : Status} {s : State} (h : Writers s) (other : op ≠ .resume) : Writers (endOp op x s) := by
  by_cases current : (s.me.inProgress.any fun r => r.op == op) = true
  · obtain ⟨r, current', is⟩ := current_op current
    have ended := endOp_inProgress (x := x) current' is
    have rest := endOp_rest op x s
    generalize endOp op x s = t at *
    refine h.requests (by rw [rest]) (by rw [rest]) (by rw [rest]) ?_
    rw [ended, current', Option.any_some, is]
    exact (beq_eq_false_iff_ne.2 other).symm
  · rw [endOp, if_neg current]
    exact h

theorem checkDrain_writers {s : State} (h : Writers s) : Writers (checkDrain s) := by
  unfold checkDrain
  split
  · exact endOp_writers (h.requests rfl rfl rfl rfl) (by decide)
  · exact h

theorem settle_writers {s : State} (h : Writers s) : Writers (settle s) := checkDrain_writers (handAll_writers h)

end Sys2Proof.Machine
end

section
/-! PROOFS. Every operation of an event keeps the laws of the frame store (the fourth part of O55): who holds it leaves when its work is
done, and a teardown replaces what the Layout Unit writes by its fill (R34, R37). -/

namespace Sys2Proof.Machine

/-! ### The holder leaves -/

/-- The writer that holds the frame store has done its work and leaves it. -/
theorem StoreTurns.leaves {s u : State} (h : StoreTurns s) {w : Writer} (holds : s.fs.holder = some w)
    (fs : u.fs.holder = none ∧ u.fs.waiting = s.fs.waiting)
    (busy : ∀ side, (engineOf side u).isSome = if w = .engine side then false else (engineOf side s).isSome)
    (apply : u.lu.apply.isSome = if w = .layoutApply then false else s.lu.apply.isSome)
    (colour : u.lu.fillColour = if w = .teardownFill then none else s.lu.fillColour) : StoreTurns u := by
  have before : writersAt s = w :: s.fs.waiting := by rw [writersAt, holds]; rfl
  have after : writersAt u = s.fs.waiting := by rw [writersAt, fs.1, fs.2]; rfl
  have once := h.once
  rw [before] at once
  obtain ⟨out, once'⟩ := List.nodup_cons.1 once
  have mem {v : Writer} (other : w ≠ v) : v ∈ writersAt u ↔ v ∈ writersAt s := by
    rw [after, before, List.mem_cons]
    exact ⟨.inr, fun mem => mem.resolve_left (Ne.symm other)⟩
  have gone {v : Writer} (same : w = v) : v ∉ writersAt u := by
    rw [after, ← same]
    exact out
  refine ⟨by rw [after]; exact once', fun side => ?_, ?_, ?_⟩
  · rw [busy]
    split
    next here => exact iff_of_false (gone here) Bool.false_ne_true
    next other => rw [mem other, h.engine]
  · rw [apply]
    split
    next here => exact iff_of_false (gone here) Bool.false_ne_true
    next other => rw [mem other, h.apply]
  · rw [fs.1, colour]
    refine iff_of_false nofun ?_
    split
    next => exact nofun
    next other =>
      rw [← h.colour, holds]
      exact fun is => other (Option.some.inj is)

/-- R119, R120: the end of an execution. -/
theorem finishExecution_writers {side : Side} {r : ExecRecord} {s : State} (h : Writers s) (writing : s.fs.holder = some (.engine side)) :
    Writers (finishExecution side r s) := by
  have done (img : Image) (named : Nat → Bool) (t : State) : SameTurns t (markBlocks named (readToEnd img t)) :=
    ((readToEnd_apart img t).trans (markBlocks_apart named _)).turns
  unfold finishExecution
  dsimp only
  have cleared := (done (writeCommand (panelW s) (panelPixels s) r s.fs.image) (commandBlocks s r) { s with
    fs.image := writeCommand (panelW s) (panelPixels s) r s.fs.image, fs.holder := none })
  generalize markBlocks _ _ = t at cleared
  have removed : SameTurns t (if r.removed = true then t else removeEntry side r t) := by
    split
    · exact .refl t
    · exact setQueue_turns _ _ t
  have same := (cleared.trans removed).trans (count_turns (drawnEvent r.command) _)
  generalize count (drawnEvent r.command) (if r.removed = true then t else removeEntry side r t) = u at same
  obtain ⟨fs, lu, me⟩ := setEngine_rest side none u
  refine grantStore_writers ⟨h.toStoreTurns.leaves writing ⟨?_, ?_⟩ (fun x => ?_) ?_ ?_, ?_⟩
  · rw [fs, same.holder]
  · rw [fs, same.waiting]
  · rw [engineOf_setEngine]
    split
    next here => rw [if_pos (congrArg Writer.engine here.symm)]; rfl
    next other =>
      rw [if_neg fun is => other (Writer.engine.inj is).symm, same.busy]
      rfl
  · rw [lu, same.apply]
    rfl
  · rw [lu, same.colour]
    rfl
  · rw [lu, me, same.apply, same.inProgress]
    exact h.request

/-! ### RESUME and its apply (R33, R34, R64) -/

theorem finishResume_writers {s : State} (h : StoreTurns s) (current : (s.me.inProgress.any fun r => r.op == .resume) = true)
    (apply : s.lu.apply = none) : Writers (finishResume s) := by
  have same := (rebalance_turns s).trans (flagOpenRewinds_turns .quiesceEnd (rebalance s))
  obtain ⟨r, current, op⟩ := current_op current
  unfold finishResume
  dsimp only
  generalize flagOpenRewinds .quiesceEnd (rebalance s) = t at same
  have store := same.store h
  have ended := endOp_inProgress (x := .ok) (s := { t with sq.quiesce := .running }) (same.inProgress.trans current) op
  have rest := endOp_rest .resume .ok { t with sq.quiesce := .running }
  generalize endOp .resume .ok { t with sq.quiesce := .running } = u at *
  refine ⟨store.of_same (by rw [rest]) (by rw [rest]) (by rw [rest]), ?_⟩
  have applied : u.lu.apply = none := by
    rw [rest]
    exact same.apply.trans apply
  rw [ended, applied]
  rfl

theorem setChanged_turns (b : Bool) (s : State) : SameTurns s (setChanged b s) := .of_same rfl rfl rfl rfl rfl

/-- R33: the apply begins, and asks for the frame store. -/
theorem beginApply_writers {s : State} (h : StoreTurns s) (current : (s.me.inProgress.any fun r => r.op == .resume) = true)
    (apply : s.lu.apply = none) : Writers (beginApply s) := by
  have out : .layoutApply ∉ writersAt s := fun mem => by
    have applying := h.apply.1 mem
    rw [apply] at applying
    cases applying
  have noted := setChanged_turns false { s with lu.apply := some (notedRegions s) }
  unfold beginApply
  dsimp only
  generalize setChanged false { s with lu.apply := some (notedRegions s) } = t at noted
  have same : SameTurns { s with lu.apply := some (notedRegions s) }
      (count .layoutApply (if notedRegions s = 0 then t else setStale (notedRegions s) t)) := by
    refine noted.trans (.trans ?_ (count_turns _ _))
    split
    · exact .refl t
    · exact setStale_turns _ t
  generalize count .layoutApply (if notedRegions s = 0 then t else setStale (notedRegions s) t) = u at same
  have before : writersAt u = writersAt s := by rw [writersAt, same.holder, same.waiting]; rfl
  have engines : (askStore .layoutApply u).de = u.de := grantStore_de _
  have applied : (askStore .layoutApply u).lu.apply = some (notedRegions s) := (grantStore_apply _).trans same.apply
  refine ⟨⟨?_, fun side => ?_, ?_, grantStore_colour ?_⟩, ?_⟩
  · rw [askStore_at, before]
    exact nodup_snoc h.once out
  · rw [askStore_at, before, engineOf_of_same engines, same.busy, List.mem_append, h.engine]
    simp
    rfl
  · rw [askStore_at, before, applied, List.mem_append]
    simp
  · dsimp only
    rw [same.holder, same.colour]
    exact h.colour
  · rw [applied, (askStore_handed _ _).inProgress, same.inProgress]
    exact current.symm

theorem doResume_writers (tag : Byte) {s : State} (h : Writers s) (idle : s.me.inProgress = none) : Writers (doResume tag s) := by
  have apply : s.lu.apply = none := by
    have request := h.request
    rw [idle] at request
    exact Option.isNone_iff_eq_none.1 (Option.isSome_eq_false_iff.1 request)
  have begun : StoreTurns (beginLong tag 0x06 .resume s) := h.toStoreTurns.of_same rfl rfl rfl
  unfold doResume
  split
  · dsimp only
    split
    · exact beginApply_writers begun rfl apply
    · exact finishResume_writers begun rfl apply
  · exact (answer_turns _ _ _ s).writers h

theorem applyEnds_writers {mask : BitVec 8} {s : State} (h : Writers s) (applying : s.lu.apply = some mask)
    (writing : s.fs.holder = some .layoutApply) : Writers (finishResume (finishApply mask s)) := by
  have done (img : Image) (named : Nat → Bool) (t : State) : SameTurns t (markBlocks named (readToEnd img t)) :=
    ((readToEnd_apart img t).trans (markBlocks_apart named _)).turns
  have current := h.request.symm
  rw [applying] at current
  unfold finishApply
  dsimp only
  have same := done (applyImage s mask) (applyBlocks s mask) { s with fs.image := applyImage s mask, fs.holder := none, lu.apply := none }
  generalize markBlocks _ _ = t at same
  have left : StoreTurns t := by
    refine h.toStoreTurns.leaves writing ⟨same.holder, same.waiting⟩ (fun x => ?_) ?_ ?_
    · rw [same.busy]
      rfl
    · rw [same.apply]
      rfl
    · rw [same.colour]
      rfl
  refine finishResume_writers (grantStore_store left) ?_ ?_
  · rw [(grantStore_handed t).inProgress, same.inProgress]
    exact current
  · rw [grantStore_apply, same.apply]

theorem finishTeardownFill_writers (c : Half) {s : State} (h : Writers s) (writing : s.fs.holder = some .teardownFill) :
    Writers (finishTeardownFill c s) := by
  have done (img : Image) (named : Nat → Bool) (t : State) : SameTurns t (markBlocks named (readToEnd img t)) :=
    ((readToEnd_apart img t).trans (markBlocks_apart named _)).turns
  unfold finishTeardownFill
  dsimp only
  have same := done (imageUniform c) (fun _ => true) { s with fs.image := imageUniform c, fs.holder := none, lu.fillColour := none }
  generalize markBlocks _ _ = t at same
  refine grantStore_writers ⟨h.toStoreTurns.leaves writing ⟨same.holder, same.waiting⟩ (fun x => ?_) ?_ ?_, ?_⟩
  · rw [same.busy]
    rfl
  · rw [same.apply]
    rfl
  · rw [same.colour]
    rfl
  · rw [same.apply, same.inProgress]
    exact h.request

/-! ### Teardown (R37) -/

/-- R37: the fill takes the place of what the Layout Unit was writing. -/
theorem requestTeardownFill_store {s : State} (h : StoreTurns s) :
    StoreTurns (requestTeardownFill s) ∧ (requestTeardownFill s).lu.apply = none ∧
      (requestTeardownFill s).me.inProgress = s.me.inProgress := by
  have rest := stopFill_rest s
  unfold requestTeardownFill
  have holder : (stopFill s).fs.holder = if s.fs.holder.any Writer.isLayout then none else s.fs.holder := by rw [rest]
  have de : (stopFill s).de = s.de := by rw [rest]
  have me : (stopFill s).me = s.me := by rw [rest]
  generalize stopFill s = t at holder de me
  refine ⟨grantStore_store ?_, grantStore_apply _, (grantStore_handed _).inProgress.trans (by dsimp only; rw [me])⟩
  have at' : t.fs.holder.toList ++ (s.fs.waiting.filter (fun w => !w.isLayout) ++ [.teardownFill]) =
      (writersAt s).filter (fun w => !w.isLayout) ++ [.teardownFill] := by
    rw [← List.append_assoc, writersAt, List.filter_append, holder]
    rcases s.fs.holder with _ | _ | _ | _ <;> rfl
  refine ⟨?_, fun side => ?_, ?_, ?_⟩
  · rw [writersAt]
    dsimp only
    rw [at']
    exact nodup_snoc (h.once.filter _) fun mem => absurd (List.mem_filter.1 mem).2 Bool.false_ne_true
  · rw [writersAt]
    dsimp only
    rw [at', engineOf_of_same (s := s) (by exact de), ← h.engine, List.mem_append, List.mem_filter]
    simp [Writer.isLayout]
  · rw [writersAt]
    dsimp only
    rw [at', List.mem_append, List.mem_filter]
    simp [Writer.isLayout]
  · dsimp only
    rw [holder]
    refine iff_of_false ?_ nofun
    split
    next => exact nofun
    next other =>
      intro fill
      rw [fill] at other
      exact other rfl

theorem sessionless_turns (s : State) : SameTurns s (sessionless s) where
  holder := rfl
  waiting := rfl
  busy side := by
    cases side
    · exact Option.isSome_map ..
    · exact Option.isSome_map ..
  apply := rfl
  colour := rfl
  inProgress := rfl

theorem teardown_writers {s : State} (h : Writers s) : Writers (teardown s) := by
  have abandoned : StoreTurns (abandonRequest (clearEvents s)) := by
    rw [abandonRequest_eq]
    exact h.toStoreTurns.of_same rfl rfl rfl
  have request : (abandonRequest (clearEvents s)).me.inProgress = requestLeft s.me.inProgress := by
    rw [abandonRequest_eq]
    rfl
  unfold teardown
  dsimp only
  rw [sessionless_eq]
  generalize abandonRequest (clearEvents s) = t at abandoned request
  have link : SameTurns t (count .teardown (teardownLink t)) :=
    (((cutTx_apart t).trans (lc_apart _ (cutTx t))).trans (count_apart .teardown _)).turns
  have same := ((link.trans (sessionless_turns _)).trans (setStale_turns 0xFF _)).trans (setChanged_turns true _)
  unfold teardownLayout
  generalize setChanged true (setStale 0xFF (sessionless (count .teardown (teardownLink t)))) = u at same
  obtain ⟨store, apply, current⟩ := requestTeardownFill_store (same.store abandoned)
  refine (trackTeardown_apart _).turns.writers ⟨store, ?_⟩
  have none' := any_store (requestLeft_isStore (request := s.me.inProgress)) (op := .resume) (.inr (.inl rfl)) fun _ => true
  simp only [Bool.and_true] at none'
  rw [apply, current, same.inProgress, request, none']
  rfl

theorem dockReset_writers {s : State} (h : Writers s) : Writers (dockReset s) := by
  unfold dockReset
  dsimp only
  rw [sessionless_eq]
  have cut := (cutAllButGreet_apart s).turns
  generalize cutAllButGreet s = t at cut
  have emptied : SameTurns t { t with lc.keys := [], lc.replies := [] } := .of_same rfl rfl rfl rfl rfl
  have same := (cut.trans emptied).trans (sessionless_turns _)
  generalize sessionless { t with lc.keys := [], lc.replies := [] } = u at same
  have cleared : SameTurns u (clearEvents { u with mn := Monitor.initial }) := ⟨rfl, rfl, fun _ => rfl, rfl, rfl, rfl⟩
  exact (same.trans cleared).writers h

end Sys2Proof.Machine
end

section
/-! PROOFS. The laws of the frame store hold after every step (the fourth part of O55). -/

namespace Sys2Proof.Machine

/-! ### Frames -/

theorem inOrder_writers (side : Side) (i : Fin 8) (seq : Half) (cs : List DrawCommand) {s : State} (h : Writers s) :
    Writers (inOrder side i seq cs s) := by
  have taken {t : State} (h : Writers t) : Writers (takeFrame side i seq cs t) :=
    settle_writers ((((setQueue_turns _ _ t).trans (setStream_turns _ _ _)).trans (count_turns .accepted _)).writers h)
  have refused {t : State} (h : Writers t) : Writers (refuseForRoom i t) :=
    ((count_turns .noRoom t).trans (flagRewind_turns _ _ _)).writers h
  unfold inOrder
  split
  · exact taken h
  · split
    next v _ =>
      have shed := (shedStream_turns side v s).writers h
      dsimp only
      split
      · exact (count_turns _ _).writers shed
      · split
        · exact taken shed
        · exact refused shed
    next => exact refused ((count_turns _ s).writers h)

theorem doDraw_writers (stream : Byte) (seq : Half) (commands : List Byte) {s : State} (h : Writers s) :
    Writers (doDraw stream seq commands s) := by
  have counted (x : SubEvent) : Writers (count x s) := (count_turns x s).writers h
  unfold doDraw
  split
  · split
    · unfold judgeDraw
      split
      · exact counted _
      · split
        · exact counted _
        · split
          · exact counted _
          · dsimp only
            split
            · exact inOrder_writers _ _ _ _ h
            · split
              · split
                · exact (flagRewind_turns _ _ _).writers (counted _)
                · exact counted _
              · exact counted _
    · exact counted _
  · exact counted _

theorem doTile_writers (key : Word) (sector : Byte) (data : List Byte) {s : State} (h : Writers s) :
    Writers (doTile key sector data s) := by
  unfold doTile
  split
  · exact (count_turns _ s).writers h
  · split
    · exact (count_turns _ s).writers h
    · split
      · exact settle_writers ((fillPresent_turns _ _ _ _ s).writers h)
      · exact (fillAbsent_turns _ _ _ s).writers h

theorem expireFault_writers (side : Side) {s : State} (h : Writers s) : Writers (expireFault side s) := by
  unfold expireFault
  split
  · exact (retryFault_turns side s).writers h
  · exact settle_writers ((abandonFault_turns side s).writers h)

/-! ### Requests -/

theorem doStreamClose_writers (tag stream : Byte) {s : State} (h : Writers s) : Writers (doStreamClose tag stream s) := by
  unfold doStreamClose
  split
  · dsimp only
    split
    · exact settle_writers (((closeStream_turns _ s).trans (answer_turns _ _ _ _)).writers h)
    · exact (answer_turns _ _ _ s).writers h
  · exact (answer_turns _ _ _ s).writers h

/-- A long operation other than RESUME begins. -/
theorem beginLong_writers (tag kind : Byte) {op : LongOp} {s t : State} (h : Writers s) (idle : s.me.inProgress = none)
    (other : op ≠ .resume) (fs : t.fs = s.fs) (de : t.de = s.de) (lu : t.lu = s.lu) : Writers (beginLong tag kind op t) := by
  refine h.requests fs de lu ?_
  rw [idle, beginLong_inProgress, Option.any_some]
  exact beq_eq_false_iff_ne.2 other

theorem doQuiesce_writers (tag : Byte) {s : State} (h : Writers s) (idle : s.me.inProgress = none) : Writers (doQuiesce tag s) := by
  unfold doQuiesce
  split
  · exact (answer_turns _ _ _ s).writers h
  · exact checkDrain_writers (beginLong_writers tag 0x05 h idle (by decide) rfl rfl rfl)

theorem doTileFlush_writers (tag : Byte) {s : State} (h : Writers s) (idle : s.me.inProgress = none) : Writers (doTileFlush tag s) := by
  unfold doTileFlush
  split
  · exact beginLong_writers tag 0x07 h idle (by decide) rfl rfl rfl
  · exact (answer_turns _ _ _ s).writers h

theorem doStoreErase_writers (tag page : Byte) {s : State} (h : Writers s) (idle : s.me.inProgress = none) :
    Writers (doStoreErase tag page s) := by
  unfold doStoreErase
  split
  · exact (answer_turns _ _ _ s).writers h
  · exact beginLong_writers tag 0x0C h idle (fun same => (nomatch same)) rfl rfl rfl

theorem doStoreWrite_writers (tag : Byte) (offset : Half) (data : List Byte) {s : State} (h : Writers s)
    (idle : s.me.inProgress = none) : Writers (doStoreWrite tag offset data s) := by
  unfold doStoreWrite
  dsimp only
  split
  · exact (answer_turns _ _ _ s).writers h
  · exact beginLong_writers tag 0x0D h idle (fun same => (nomatch same)) rfl rfl rfl

theorem sweepSet_writers (n : Fin 64) {s : State} (h : Writers s) : Writers (sweepSet n s) := by
  have swept : Writers { s with tc.dir := s.tc.dir.set n emptySet, tc.sweep := n.val + 1 } := h.requests rfl rfl rfl rfl
  unfold sweepSet
  dsimp only
  split
  · exact endOp_writers swept (by decide)
  · exact swept

theorem endStore_writers (x : Status) {r : Request} {s : State} (h : Writers s) (current : s.me.inProgress = some r)
    (store : r.isStore) : Writers (endLong x s) := by
  have ended := endLong_inProgress x s
  have rest := endLong_rest x s
  generalize endLong x s = t at *
  refine h.requests (by rw [rest]) (by rw [rest]) (by rw [rest]) ?_
  have none' := any_store (request := s.me.inProgress) (fun x is => Option.some.inj (current.symm.trans is) ▸ store) (op := .resume)
    (.inr (.inl rfl)) fun _ => true
  simp only [Bool.and_true] at none'
  rw [ended, none']
  rfl

/-! ### Every event, every step -/

/-- Every operation of an event keeps the laws of the frame store. -/
theorem Session.writers {s u : State} (h : Session s u) (legal : Writers s) : Writers u := by
  induction h with
  | apart h => exact h.turns.writers legal
  | andThen _ _ first next => exact next (first legal)
  | tearsDown s => exact teardown_writers legal
  | rewinds reason s => exact (flagOpenRewinds_turns reason s).writers legal
  | represents side s => exact (representFault_turns side s).writers legal
  | completes item s => exact (completeItem_turns item s).writers legal
  | draw stream seq commands _ _ => exact doDraw_writers stream seq commands legal
  | tile key sector data _ _ => exact doTile_writers key sector data legal
  | executionEnds busy writing => exact settle_writers (finishExecution_writers legal writing)
  | faultExpires expired => exact expireFault_writers _ legal
  | headerWrite tag border undocked _ => exact (doHeaderWrite_turns tag border undocked _).writers legal
  | regionWrite tag i enabled ox oy rw rh background _ =>
    exact (doRegionWrite_turns tag i enabled ox oy rw rh background _).writers legal
  | streamWrite tag i stale _ => exact (doStreamWrite_turns tag i stale _).writers legal
  | streamOpen tag stream start _ => exact (doStreamOpen_turns tag stream start _).writers legal
  | streamClose tag stream _ => exact doStreamClose_writers tag stream legal
  | quiesce tag taken => exact doQuiesce_writers tag legal taken.2.2.1
  | resume tag taken => exact doResume_writers tag legal taken.2.2.1
  | tileFlush tag taken => exact doTileFlush_writers tag legal taken.2.2.1
  | tilePin tag key _ => exact (doTilePin_turns tag key _).writers legal
  | tileUnpin tag key _ => exact settle_writers ((unpin_turns tag key _).writers legal)
  | dockReset tag _ => exact (answer_turns _ _ _ _).writers (dockReset_writers legal)
  | storeErase tag page taken => exact doStoreErase_writers tag page legal taken.2.2.1
  | storeWrite tag offset data taken => exact doStoreWrite_writers tag offset data legal taken.2.2.1
  | applyEnds applying writing => exact applyEnds_writers legal applying writing
  | fillEnds filling writing => exact finishTeardownFill_writers _ legal writing
  | sweeps sweeping => exact sweepSet_writers _ legal
  | storeEnds status current store => exact endStore_writers status legal current store

theorem powerOn_writers (flash : List Host.Cell) (free : Nat) (pending : List Instr) : Writers (powerOn flash free pending) := by
  rw [powerOn_eq]
  have nobody : writersAt (poweredOn flash (imageValid flash) (itemsOf flash) (eventsOf flash) free pending) = [] := rfl
  refine ⟨⟨by rw [nobody]; exact .nil, fun side => ?_, ?_, ?_⟩, rfl⟩
  · rw [nobody]
    exact iff_of_false List.not_mem_nil (by cases side <;> exact nofun)
  · rw [nobody]
    exact iff_of_false List.not_mem_nil nofun
  · exact iff_of_false nofun nofun

/-- The laws of the frame store are kept by every step. -/
theorem step_writers {s t : State} (legal : Writers s) (stepped : step s = .next t) : Writers t :=
  step_keeps (Legal := Writers) legal stepped
    (fun s h => SameTurns.writers (s := s) (.of_same rfl rfl rfl rfl rfl) h)
    (fun s _ h => SameTurns.writers (s := s) (.of_same rfl rfl rfl rfl rfl) h) (fun _ _ => powerOn_writers _ _ _)
    fun s u h happens => (conclude_apart s u).turns.writers (happens.session.writers h)

theorem writers_iff (s : State) : Writers s ↔ writersLegal s ∧ s.lu.apply.isSome = (s.me.inProgress.any fun r => r.op == .resume) :=
  ⟨fun ⟨⟨once, engine, apply, colour⟩, request⟩ => ⟨⟨once, engine, apply, colour⟩, request⟩,
    fun ⟨⟨once, engine, apply, colour⟩, request⟩ => ⟨⟨once, engine, apply, colour⟩, request⟩⟩

end Sys2Proof.Machine
end

section
/-! PROOFS. The depths of the queues (R46, R151, R155): what adds to no queue. -/

namespace Sys2Proof.Machine

/-- REPLY with the owed slot, KEYS and the side queues within their depths (R46, R151, R155). -/
structure Depths (s : State) : Prop where
  replies : s.lc.replies.length + owed s ≤ 4
  keys : s.lc.keys.length ≤ 8
  queues : ∀ side, (queueOf side s).length ≤ 24

/-- The REPLY and KEYS queues and the request in progress are as they were. -/
structure SameMail (s t : State) : Prop where
  replies : t.lc.replies = s.lc.replies
  keys : t.lc.keys = s.lc.keys
  inProgress : t.me.inProgress = s.me.inProgress

/-- No queue has become longer, with the reply that is owed counted. -/
structure Fits (s t : State) : Prop where
  replies : t.lc.replies.length + owed t ≤ s.lc.replies.length + owed s
  keys : t.lc.keys.length ≤ s.lc.keys.length
  queues : ∀ side, (queueOf side t).length ≤ (queueOf side s).length

theorem SameMail.refl (s : State) : SameMail s s := ⟨rfl, rfl, rfl⟩

theorem SameMail.trans {s t u : State} (h : SameMail s t) (g : SameMail t u) : SameMail s u :=
  ⟨g.replies.trans h.replies, g.keys.trans h.keys, g.inProgress.trans h.inProgress⟩

theorem SameMail.ite {p : Prop} [Decidable p] {s t u : State} (yes : SameMail s t) (no : SameMail s u) :
    SameMail s (if p then t else u) := by
  split
  · exact yes
  · exact no

theorem Fits.trans {s t u : State} (h : Fits s t) (g : Fits t u) : Fits s u :=
  ⟨g.replies.trans h.replies, g.keys.trans h.keys, fun side => (g.queues side).trans (h.queues side)⟩

theorem Fits.depths {s t : State} (h : Fits s t) (legal : Depths s) : Depths t :=
  ⟨h.replies.trans legal.replies, h.keys.trans legal.keys, fun side => (h.queues side).trans (legal.queues side)⟩

theorem SameMail.shorter {s t : State} (mail : SameMail s t)
    (queues : ∀ side, (queueOf side t).length ≤ (queueOf side s).length) : Fits s t := by
  refine ⟨?_, by rw [mail.keys], queues⟩
  unfold owed
  rw [mail.replies, mail.inProgress]

theorem SameMail.fits {s t : State} (mail : SameMail s t) (queues : ∀ side, queueOf side t = queueOf side s) : Fits s t :=
  mail.shorter fun side => by rw [queues]

theorem Fits.refl (s : State) : Fits s s := (SameMail.refl s).fits fun _ => rfl

/-- What stands apart from drawing and keeps the mail adds to no queue. -/
theorem Apart.fits {s t : State} (h : Apart s t) (mail : SameMail s t) : Fits s t := mail.fits fun side => by rw [queueOf_of_same h.sq]

theorem Handed.mail {s t : State} (h : Handed s t) : SameMail s t := ⟨h.replies, by rw [h.drawing.1], h.inProgress⟩

theorem count_mail (x : SubEvent) (s : State) : SameMail s (count x s) :=
  ⟨by rw [count_lc], by rw [count_lc], count_inProgress _ _⟩

theorem count_fits (x : SubEvent) (s : State) : Fits s (count x s) := (count_apart x s).fits (count_mail x s)

theorem setEventSlot_mail (k : EventKind) (e : EventSlot) (s : State) : SameMail s (setEventSlot k e s) := ⟨rfl, rfl, rfl⟩

theorem raiseEvent_mail (k : EventKind) (d : BitVec 24) (s : State) : SameMail s (raiseEvent k d s) :=
  .ite ((setEventSlot_mail k _ s).trans (count_mail _ _)) (.refl s)

theorem SameMail.counts {s t : State} (h : SameMail s t) (x : SubEvent) : SameMail s (count x t) := h.trans (count_mail x t)

/-! ### The link -/

theorem cutAssembly_mail (s : State) : SameMail s (cutAssembly s) := by
  refine .ite (.counts ?_ _) (.refl s)
  exact ⟨rfl, rfl, rfl⟩

theorem cutMark_mail (item : TxItem) (s : State) : SameMail s (cutMark item s) := by
  cases item with
  | greet => exact ⟨rfl, rfl, rfl⟩
  | event k => exact setEventSlot_mail _ _ s
  | keys => exact .refl s
  | fault side => exact .refl s
  | rewind i => exact .refl s
  | reply => exact .refl s

theorem cutTx_mail (s : State) : SameMail s (cutTx s) := by
  unfold cutTx
  split
  · refine .trans (.trans ?_ (cutMark_mail _ _)) (count_mail _ _)
    exact ⟨rfl, rfl, rfl⟩
  · exact .refl s

theorem leaveUp_mail (cause : DepartCause) (s : State) : SameMail s (leaveUp cause s) := by
  have hold (s : State) : SameMail s (enterHold cause s) := by
    refine .ite (.counts ?_ _) (.refl s)
    exact ⟨rfl, rfl, rfl⟩
  have left (t : State) : SameMail t { t with lc.failureCount := 0, lc.framingCount := 0 } := ⟨rfl, rfl, rfl⟩
  exact (((cutAssembly_mail s).trans (left _)).trans (cutTx_mail _)).trans (hold _)

theorem expireLoss_mail (s : State) : SameMail s (expireLoss s) := by
  have down : SameMail s { s with lc.link := .down, lc.lossCount := 0 } := ⟨rfl, rfl, rfl⟩
  exact (down.trans (.ite (leaveUp_mail _ _) (cutAssembly_mail _))).counts _

theorem failFrame_mail (s : State) : SameMail s (failFrame s) := by
  unfold failFrame
  split
  · refine .counts ?_ _
    exact ⟨rfl, rfl, rfl⟩
  · split
    · have realigned : SameMail s { s with lc.link := .aligning, lc.alignCount := 0 } := ⟨rfl, rfl, rfl⟩
      exact ((realigned.counts _).counts _).trans (leaveUp_mail _ _)
    · refine .counts ?_ _
      exact ⟨rfl, rfl, rfl⟩
  · exact .refl s
  · exact .refl s

theorem passFrame_framing_mail {s : State} (framing : s.lc.link = .framing) : SameMail s (passFrame id s) := by
  rw [passFrame_framing _ framing]
  refine .ite (.counts ?_ _) ?_
  · exact ⟨rfl, rfl, rfl⟩
  · exact ⟨rfl, rfl, rfl⟩

theorem flagGreet_mail (outcome : GreetOutcome) (s : State) : SameMail s (flagGreet outcome s) :=
  .ite (.ite (.refl s) ⟨rfl, rfl, rfl⟩) ⟨rfl, rfl, rfl⟩

theorem freshAttach_mail (number : Word) (s : State) : SameMail s (freshAttach number s) := by
  refine .trans (.ite ?_ ?_) (flagGreet_mail .newSession _)
  · exact ⟨rfl, rfl, rfl⟩
  · exact ⟨rfl, rfl, rfl⟩

/-! ### Marks -/

theorem flagOpenRewinds_mail (reason : RewindReason) (s : State) : SameMail s (flagOpenRewinds reason s) := by
  rw [flagOpenRewinds_eq]
  exact ⟨rfl, rfl, rfl⟩

theorem flagOpenRewinds_fits (reason : RewindReason) (s : State) : Fits s (flagOpenRewinds reason s) :=
  (flagOpenRewinds_mail reason s).fits (flagOpenRewinds_queues reason s)

theorem setRecord_mail (side : Side) (r : FaultRecord) (s : State) : SameMail s (setRecord side r s) := (setRecord_handed side r s).mail

theorem representFault_fits (side : Side) (s : State) : Fits s (representFault side s) := by
  unfold representFault
  dsimp only
  split
  · refine ((setRecord_mail _ _ s).trans (count_mail _ _)).fits fun x => ?_
    rw [queueOf_of_same (count_sq _ _), queueOf_of_same (setRecord_rest _ _ _).1]
  · exact .refl s

theorem tail_le {α : Type} (l : List α) : l.tail.length ≤ l.length := by rw [List.length_tail]; exact Nat.sub_le _ _

theorem completeItem_fits (item : TxItem) (s : State) : Fits s (completeItem item s) := by
  cases item with
  | greet =>
    unfold completeItem
    dsimp only
    split
    · exact (lc_apart _ s).fits ⟨rfl, rfl, rfl⟩
    · exact (lc_apart _ s).fits ⟨rfl, rfl, rfl⟩
  | keys => exact ⟨Nat.le_refl _, tail_le _, fun _ => Nat.le_refl _⟩
  | fault side => exact (setRecord_mail side _ s).fits (queueOf_of_same (setRecord_rest _ _ _).1)
  | rewind i => exact SameMail.fits ⟨rfl, rfl, rfl⟩ fun x => queueOf_setStream x i _ s
  | reply => exact ⟨Nat.add_le_add_right (tail_le s.lc.replies) _, Nat.le_refl _, fun _ => Nat.le_refl _⟩
  | event k => exact ((setEventSlot_apart k _ s).trans (count_apart _ _)).fits ((setEventSlot_mail k _ s).trans (count_mail _ _))

/-! ### Handovers and the drain -/

/-- A side queue is replaced by one that is no longer. -/
theorem setQueue_shorter {side : Side} {q : List Entry} {s : State} (shorter : q.length ≤ (queueOf side s).length) (x : Side) :
    (queueOf x (setQueue side q s)).length ≤ (queueOf x s).length := by
  rw [queueOf_setQueue]
  split
  next here => rw [here]; exact shorter
  next => exact Nat.le_refl _

theorem removeEntry_shorter (side : Side) (r : ExecRecord) (s : State) (x : Side) :
    (queueOf x (removeEntry side r s)).length ≤ (queueOf x s).length := setQueue_shorter List.length_eraseP_le x

theorem beginExecution_shorter (side : Side) (r : ExecRecord) (s : State) (x : Side) :
    (queueOf x (beginExecution side r s)).length ≤ (queueOf x s).length := by
  unfold beginExecution askStore
  rw [queueOf_of_same (grantStore_sq _)]
  refine (setQueue_shorter (q := markExecuting r (queueOf side s)) (s := s) (markExecuting_length _ _).le x).trans' (Nat.le_of_eq ?_)
  exact congrArg List.length (queueOf_setEngine side x (some r) _)

theorem handOver_shorter (side : Side) (e : Entry) (s : State) (x : Side) :
    (queueOf x (handOver side e s)).length ≤ (queueOf x s).length := by
  have removes (r : ExecRecord) (y : SubEvent) : (queueOf x (removeEntry side r (count y s))).length ≤ (queueOf x s).length := by
    rw [← queueOf_of_same (count_sq y s) x]
    exact removeEntry_shorter side r _ x
  have gives (r : ExecRecord) (y : SubEvent) :
      (queueOf x (releaseReservation e.stream (removeEntry side r (count y s)))).length ≤ (queueOf x s).length := by
    rw [(releaseReservation_rest _ _).2.2]
    exact removes r y
  have places (r : ExecRecord) (key : Word) (y : Int) : (queueOf x (handPlace side r key y s)).length ≤ (queueOf x s).length := by
    unfold handPlace
    dsimp only
    generalize lookupOf key (sectorMask (needLo r y) (needHi r y)) s = l
    have released : queueOf x (releaseReservation r.stream (afterLookup key l s)) = queueOf x s :=
      ((releaseReservation_rest _ _).2.2 x).trans (queueOf_of_same (afterLookup_rest key l s).1 x)
    rw [← released]
    have misses (present : Bool) (mask : BitVec 4) (t : State) :
        (queueOf x (takeMiss side r.stream key mask present t)).length ≤ (queueOf x t).length := by
      obtain ⟨w, u, waits, -, sq, -⟩ := takeMiss_waits side r.stream key mask present t
      rw [waits, setWait, queueOf_setStream, queueOf_of_same sq]
    cases l with
    | hit w => exact beginExecution_shorter side _ _ x
    | sectorMiss w => exact misses true _ _
    | absent => exact misses false _ _
  unfold handOver
  dsimp only
  split
  · split
    · exact gives _ _
    · split
      · exact gives _ _
      · exact places _ _ _
  · split
    · exact removes _ _
    · exact beginExecution_shorter side _ s x
  · split
    · exact removes _ _
    · exact beginExecution_shorter side _ s x

theorem handAll_fits (s : State) : Fits s (handAll s) := by
  refine (handAll_handed s).mail.shorter fun x => ?_
  exact handAll_keeps (Legal := fun t => (queueOf x t).length ≤ (queueOf x s).length)
    (fun side e t _ h => (handOver_shorter side e t x).trans h) (fun _ h => by cases x <;> exact h) (fun _ h => by cases x <;> exact h)
    (Nat.le_refl _)

theorem endLong_fits (status : Status) (s : State) : Fits s (endLong status s) := by
  refine ⟨?_, ?_, fun side => by rw [queueOf_of_same (endLong_sq status s)]⟩
  · unfold endLong
    rcases request : s.me.inProgress with _ | r
    · exact Nat.le_refl _
    · have owes : owed s = 1 := by rw [owed, request]; rfl
      dsimp only
      rw [owes]
      split
      · exact Nat.le_succ _
      · exact (List.length_append ..).le
  · rw [endLong_rest]

theorem endOp_fits (op : LongOp) (status : Status) (s : State) : Fits s (endOp op status s) := by
  unfold endOp
  split
  · exact endLong_fits status s
  · exact .refl s

theorem quiesceState_fits (q : QuiesceState) (s : State) : Fits s { s with sq.quiesce := q } :=
  SameMail.fits ⟨rfl, rfl, rfl⟩ fun side => by cases side <;> rfl

theorem checkDrain_fits (s : State) : Fits s (checkDrain s) := by
  unfold checkDrain
  split
  · exact (quiesceState_fits _ s).trans (endOp_fits _ _ _)
  · exact .refl s

theorem settle_fits (s : State) : Fits s (settle s) := (handAll_fits s).trans (checkDrain_fits _)

/-! ### Fills, executions and faults -/

theorem completeFault_fits (side : Side) (s : State) : Fits s (completeFault side s) := by
  refine (completeFault_handed side s).mail.fits fun x => ?_
  have kept (f : Fin 8 → Stream → Stream) (t : State) : queueOf x (mapStreams f t) = queueOf x t := by cases x <;> rfl
  rw [(completeFault_idles side s).queues, kept, queueOf_of_same (mapEntry_rest _ _ s).1]

theorem skipHead_fits (s : State) (i : Fin 8) : Fits s (skipHead s i) := by
  refine (skipHead_handed s i).mail.shorter fun x => ?_
  unfold skipHead
  split
  next side _ =>
    rw [queueOf_of_same (count_sq _ _), queueOf_setStream]
    exact setQueue_shorter List.length_eraseP_le x
  next => exact Nat.le_refl _

theorem abandonFault_fits (side : Side) (s : State) : Fits s (abandonFault side s) := by
  have skips (l : List (Fin 8)) : ∀ s, Fits s (l.foldl skipHead s) := by
    induction l with
    | nil => exact .refl
    | cons i l ih => exact fun s => (skipHead_fits s i).trans (ih _)
  have stale (m : BitVec 8) (t : State) : Fits t (setStale m t) :=
    SameMail.fits (.trans (t := mapRegions (fun i r => if m.getLsbD i.val then { r with stale := true } else r) t) ⟨rfl, rfl, rfl⟩
      (raiseEvent_mail _ _ _)) (queueOf_of_same (setStale_rest m t).1)
  have cleared (key : Word) (t : State) : Fits t (mapEntry key clearPending t) :=
    (mapEntry_handed clearPending_pinned t).mail.fits (queueOf_of_same (mapEntry_rest key clearPending t).1)
  have idle (t : State) : Fits t (goIdle side t) := by
    refine (goIdle_handed side t).mail.fits fun x => ?_
    have kept := (goIdle_idles side t).queues x
    exact kept
  unfold abandonFault
  dsimp only
  exact ((((skips _ s).trans (stale _ _)).trans (cleared _ _)).trans (idle _)).trans
    ((count_fits _ _).trans (trackLost_apart _ _ |>.fits (trackLost_handed _ _).mail))

theorem retryFault_fits (side : Side) (s : State) : Fits s (retryFault side s) :=
  ((setRecord_mail _ _ s).trans (count_mail _ _)).fits (queueOf_of_same ((count_sq _ _).trans (setRecord_rest _ _ _).1))

theorem fillPresent_fits (key : Word) (w : Fin 4) (sector : Nat) (data : List Byte) (s : State) :
    Fits s (fillPresent key w sector data s) := by
  have passed (s : State) : Fits s (fillPassed key w s) := by
    unfold fillPassed
    split
    · split
      · exact completeFault_fits _ s
      · exact .refl s
    · exact .refl s
  have written : Fits s (count .fillPresent (writeSector key w sector data s)) :=
    Fits.trans (t := writeSector key w sector data s) (SameMail.fits ⟨rfl, rfl, rfl⟩ fun x => by cases x <;> rfl) (count_fits _ _)
  unfold fillPresent
  dsimp only
  split
  · exact written.trans (passed _)
  · exact written

theorem fillAbsent_fits (key : Word) (sector : Nat) (data : List Byte) (s : State) : Fits s (fillAbsent key sector data s) := by
  unfold fillAbsent
  split
  next w _ =>
    have taken : Fits s (allocateWay key w s) :=
      (allocateWay_handed key w s).mail.fits fun x => queueOf_of_same (allocateWay_rest key w s).1 x
    refine (taken.trans ?_).trans (count_fits _ _)
    exact SameMail.fits ⟨rfl, rfl, rfl⟩ fun x => by cases x <;> rfl
  next => exact count_fits _ s

theorem finishExecution_fits (side : Side) (r : ExecRecord) (s : State) : Fits s (finishExecution side r s) := by
  have drawnMail : SameMail s (drawn r s) := ⟨by rw [drawn_lc], by rw [drawn_lc], drawn_inProgress r s⟩
  refine (drawnMail.trans (finishExecution_handed side r s).mail).shorter fun x => ?_
  rw [queueOf_of_same (finishExecution_sq side r s)]
  split
  · exact Nat.le_refl _
  · exact removeEntry_shorter side r s x

theorem closeStream_fits (i : Fin 8) (s : State) : Fits s (closeStream i s) := by
  refine (closeStream_handed i s).mail.shorter fun x => ?_
  rw [closeStream_eq, queueOf_setStream, givenUp, (releaseReservation_rest _ _).2.2, (leaveFault_leaves .b i _).queues,
    (leaveFault_leaves .a i _).queues]
  rcases own : (streamOf i s).side with _ | side
  · rw [withoutEntries, own]
  · rw [withoutEntries_side own, queueOf_setEngine]
    exact setQueue_shorter (List.length_filter_le _ _) x

end Sys2Proof.Machine
end

section
/-! PROOFS. The queues stay within their depths (the first part of O55; R46, R151, R155): each request adds one reply or one that is owed, a
frame is taken where its commands have room, and a full KEYS queue gives up its newest report. -/

namespace Sys2Proof.Machine

/-! ### The panel -/

/-- The panel changes, the mail does not. -/
theorem pu_mail (pu : PanelUpdater) (free : Nat) (s : State) : SameMail s { s with pu := pu, free := free } := ⟨rfl, rfl, rfl⟩

theorem selectBlock_mail (s : State) : SameMail s (selectBlock s) := by
  rcases selectBlock_cases s with same | ⟨i, _, _, sends⟩
  · rw [same]
    exact .refl s
  · rw [sends]
    exact (pu_mail _ _ s).trans (count_mail .blockSent _)

theorem markBlocks_mail (named : Nat → Bool) (s : State) : SameMail s (markBlocks named s) :=
  (pu_mail _ s.free s).trans (selectBlock_mail _)

theorem readToEnd_mail (img : Image) (s : State) : SameMail s (readToEnd img s) := by
  rw [readToEnd_rest]
  exact pu_mail _ _ s

theorem endReading_mail (s : State) : SameMail s (endReading s) := by
  rw [endReading_rest]
  exact pu_mail _ _ s

theorem completeBlock_mail (s : State) : SameMail s (completeBlock s) :=
  (((endReading_mail s).trans (pu_mail _ (endReading s).free _)).counts _).trans (selectBlock_mail _)

theorem timeOutBlock_mail (f : InFlight) (s : State) : SameMail s (timeOutBlock f s) := by
  have ended (dirty : List Bool) (streak : Nat) : SameMail s (count .blockTimeout { endReading s with
      pu.dirty := dirty, pu.inFlight := none, pu.streak := streak }) :=
    ((endReading_mail s).trans (pu_mail _ (endReading s).free _)).counts _
  refine (ended _ _).trans (.ite (selectBlock_mail _) ?_)
  exact ((pu_mail _ _ _).counts .panelHalt).trans (raiseEvent_mail _ _ _)

theorem applyLevel_mail (n : Nat) (s : State) : SameMail s (applyLevel n s) :=
  .ite (.refl s) (((pu_mail _ s.free s).counts _).trans (raiseEvent_mail _ _ _))

theorem restartPanel_mail (s : State) : SameMail s (restartPanel s) := ((pu_mail _ s.free s).counts .restarted).trans (markBlocks_mail _ _)

theorem restartPanel_apart (s : State) : Apart s (restartPanel s) :=
  ((pu_apart _ s.free s).trans (count_apart .restarted _)).trans (markBlocks_apart _ _)

/-! ### Reports (R151, R152) -/

theorem keysWith_le (r : Report) {keys : List Report} (within : keys.length ≤ 8) : (keysWith r keys).length ≤ 8 := by
  unfold keysWith
  split
  next room => simpa using room
  next => simp; omega

/-- R151: a report that is handed on. -/
theorem queueReport_keys (r : Report) (s : State) :
    (queueReport r s).lc.keys = if s.lc.attachment = .unattached then s.lc.keys else keysWith r s.lc.keys := by
  unfold queueReport keysWith
  split
  · rfl
  · split
    next room => rw [count_lc, if_pos (show s.lc.keys.length < 8 from room)]
    next full => rw [count_lc, if_neg (show ¬ s.lc.keys.length < 8 from full)]

theorem Scanned.depths {s t : State} (h : Scanned s t) (legal : Depths s) (keys : t.lc.keys.length ≤ 8) : Depths t where
  replies := by
    have owes : owed t = owed s := by unfold owed; rw [h.apart.inProgress]
    rw [owes, h.rest]
    exact legal.replies
  keys := keys
  queues side := by rw [queueOf_of_same h.apart.sq]; exact legal.queues side

theorem reattachSnapshot_depths {s : State} (h : Depths s) : Depths (reattachSnapshot s) := by
  refine (reattachSnapshot_scanned s).depths h ?_
  rw [reattachSnapshot, queueReport_keys, count_lc]
  split
  · exact h.keys
  · exact keysWith_le _ h.keys

theorem scanKeys_depths (contacts : BitVec 128) {s : State} (h : Depths s) : Depths (scanKeys contacts s) := by
  refine (scanKeys_scanned contacts s).depths h ?_
  have board : sameBoard s.ks (counted contacts s).ks := by
    rw [counted_ks]
    exact (mapKeys_board _ s).1
  have ends := ((counted_scans contacts s).changes board (scanKeys_eq contacts s)).1
  generalize scanKeys contacts s = t at ends
  rw [ends]
  show (keysAfter t.ks.report s).length ≤ 8
  unfold keysAfter
  split
  · exact h.keys
  · exact keysWith_le _ h.keys

/-! ### Attachment (R12 to R15) -/

theorem owed_le (s : State) : owed s ≤ 1 := by unfold owed; split <;> decide

theorem teardown_depths (s : State) : Depths (teardown s) := by
  have rest := (teardown_ends s).1
  have owes := owed_le (teardown s)
  generalize teardown s = t at *
  rw [sessionEnded_rest, disconnected_lc] at rest
  have replies : t.lc.replies = [] := by rw [rest]
  have keys : t.lc.keys = [] := by rw [rest]
  refine ⟨by rw [replies, List.length_nil]; omega, by rw [keys]; exact Nat.zero_le 8, fun side => ?_⟩
  rw [rest]
  cases side <;> exact Nat.zero_le 24

theorem takeHello_depths (number : Word) {s : State} (h : Depths s) : Depths (takeHello number s) := by
  have again : Depths (freshAttach number (teardown s)) :=
    ((freshAttach_apart number _).fits (freshAttach_mail number _)).depths (teardown_depths s)
  unfold takeHello
  split
  · exact ((freshAttach_apart number s).fits (freshAttach_mail number s)).depths h
  · split
    · exact ((flagGreet_apart _ s).fits (flagGreet_mail _ s)).depths h
    · exact again
  · split
    · have attached : Fits s (flagGreet .resumed { s with
          lc.attachment := .attached, lc.holdTimer := none, lc.lastCause := s.lc.holdCause, lc.lastDuration := holdMs s }) := by
        refine Apart.fits ((lc_apart _ s).trans (flagGreet_apart _ _)) (.trans ?_ (flagGreet_mail .resumed _))
        exact ⟨rfl, rfl, rfl⟩
      have represented := ((attached.trans (flagOpenRewinds_fits .reattach _)).trans (representFault_fits .a _)).trans
        (representFault_fits .b _)
      have snapshot := reattachSnapshot_depths (represented.depths h)
      exact (((raiseEvent_apart _ _ _).trans (count_apart _ _)).fits ((raiseEvent_mail _ _ _).counts _)).depths snapshot
    · exact again

/-! ### DRAW and TILE frames -/

theorem flagRewind_fits (reason : RewindReason) (i : Fin 8) (s : State) : Fits s (flagRewind reason i s) :=
  SameMail.fits ⟨rfl, rfl, rfl⟩ fun x => queueOf_setStream x i _ s

theorem shedStream_fits (side : Side) (v : Fin 8) (s : State) : Fits s (shedStream side v s) := by
  have shorter : Fits s (setQueue side ((queueOf side s).filter fun e => !younger v (queueOf side s) e) s) :=
    (setQueue_handed _ _ s).mail.shorter (setQueue_shorter (List.length_filter_le _ _))
  have marked (r : Stream) (t : State) : Fits t (setStream v r t) :=
    SameMail.fits ⟨rfl, rfl, rfl⟩ fun x => queueOf_setStream x v r t
  exact (((shorter.trans (marked _ _)).trans (flagRewind_fits .shed v _)).trans (count_fits .shedRun _)).trans
    ((countN_apart .commandsShed _ _).fits ⟨by rw [countN_lc], by rw [countN_lc], countN_inProgress _ _ _⟩)

/-- R53: a frame is taken where its commands have room. -/
theorem takeFrame_depths {side : Side} {i : Fin 8} {seq : Half} {cs : List DrawCommand} {s : State} (h : Depths s)
    (room : hasRoom side cs.length s = true) : Depths (takeFrame side i seq cs s) := by
  have joined : Depths (setQueue side (queueOf side s ++ entriesOf i seq cs) s) := by
    have mail := (setQueue_handed side (queueOf side s ++ entriesOf i seq cs) s).mail
    refine ⟨?_, by rw [mail.keys]; exact h.keys, fun x => ?_⟩
    · unfold owed
      rw [mail.replies, mail.inProgress]
      exact h.replies
    · rw [queueOf_setQueue]
      split
      · rw [List.length_append, entriesOf, List.length_map, List.length_zipIdx]
        exact hasRoom_iff.1 room
      · exact h.queues x
  have marked (r : Stream) (t : State) : Fits t (setStream i r t) :=
    SameMail.fits ⟨rfl, rfl, rfl⟩ fun x => queueOf_setStream x i r t
  unfold takeFrame
  dsimp only
  exact (((marked _ _).trans (count_fits .accepted _)).trans (settle_fits _)).depths joined

theorem inOrder_depths (side : Side) (i : Fin 8) (seq : Half) (cs : List DrawCommand) {s : State} (h : Depths s) :
    Depths (inOrder side i seq cs s) := by
  have refused {t : State} (h : Depths t) : Depths (refuseForRoom i t) :=
    ((count_fits .noRoom t).trans (flagRewind_fits .gap i _)).depths h
  unfold inOrder
  split
  next room => exact takeFrame_depths h room
  next =>
    split
    next v _ =>
      have shed := (shedStream_fits side v s).depths h
      dsimp only
      split
      · exact (count_fits _ _).depths shed
      · split
        next room => exact takeFrame_depths shed room
        next => exact refused shed
    next => exact refused ((count_fits _ s).depths h)

theorem doDraw_depths (stream : Byte) (seq : Half) (commands : List Byte) {s : State} (h : Depths s) :
    Depths (doDraw stream seq commands s) := by
  have counted (x : SubEvent) : Depths (count x s) := (count_fits x s).depths h
  unfold doDraw
  split
  · split
    · unfold judgeDraw
      split
      · exact counted _
      · split
        · exact counted _
        · split
          · exact counted _
          · dsimp only
            split
            · exact inOrder_depths _ _ _ _ h
            · split
              · split
                · exact (flagRewind_fits _ _ _).depths (counted _)
                · exact counted _
              · exact counted _
    · exact counted _
  · exact counted _

theorem doTile_fits (key : Word) (sector : Byte) (data : List Byte) (s : State) : Fits s (doTile key sector data s) := by
  unfold doTile
  split
  · exact count_fits _ s
  · split
    · exact count_fits _ s
    · split
      · exact (fillPresent_fits _ _ _ _ s).trans (settle_fits _)
      · exact fillAbsent_fits _ _ _ s

theorem expireFault_fits (side : Side) (s : State) : Fits s (expireFault side s) := by
  unfold expireFault
  split
  · exact retryFault_fits side s
  · exact (abandonFault_fits side s).trans (settle_fits _)

/-! ### Requests (R155, R156) -/

/-- The depths, with a reply slot free and no request in progress. -/
structure Room (s : State) : Prop where
  depths : Depths s
  idle : s.me.inProgress = none
  slot : s.lc.replies.length < 4

theorem Room.of_fits {s t : State} (h : Room s) (mail : SameMail s t) (fits : Fits s t) : Room t :=
  ⟨fits.depths h.depths, mail.inProgress.trans h.idle, by rw [mail.replies]; exact h.slot⟩

theorem Room.apart {s t : State} (h : Room s) (apart : Apart s t) (mail : SameMail s t) : Room t := h.of_fits mail (apart.fits mail)

theorem Room.handed {s t : State} (h : Room s) (handed : Handed s t) (fits : Fits s t) : Room t := h.of_fits handed.mail fits

/-- R156: the reply to a request finds its slot. -/
theorem Room.posts {s : State} (h : Room s) (tag kind : Byte) (x : Status) (data : List Byte) :
    Depths (postReply tag kind x data s) := by
  refine ⟨?_, h.depths.keys, h.depths.queues⟩
  have owes : owed (postReply tag kind x data s) = 0 := owed_none h.idle
  rw [owes]
  exact (List.length_append ..).le.trans h.slot

theorem Room.answers {s : State} (h : Room s) (tag kind : Byte) (x : Status) : Depths (answer tag kind x s) := h.posts tag kind x []

/-- R155: the reply that a request owes has its slot. -/
theorem Room.begins {s : State} (h : Room s) (tag kind : Byte) (op : LongOp) : Depths (beginLong tag kind op s) :=
  ⟨h.slot, h.depths.keys, h.depths.queues⟩

theorem Room.refuses {s : State} (h : Room s) (tag : Byte) (x : Status) : Depths (refuseLayout tag x s) :=
  Room.answers (h.apart (count_apart _ s) (count_mail _ s)) tag 0x02 x

/-- A field of the layout, the keys, the settings, the store or the Monitor changes. -/
theorem Room.same {s t : State} (h : Room s) (lc : t.lc = s.lc) (me : t.me = s.me) (queues : ∀ side, queueOf side t = queueOf side s) :
    Room t := by
  have mail : SameMail s t := ⟨by rw [lc], by rw [lc], by rw [me]⟩
  exact h.of_fits mail (mail.fits queues)

theorem doTableRead_depths (tag table : Byte) (first : Half) (number : Byte) {s : State} (h : Room s) :
    Depths (doTableRead tag table first number s) := by
  unfold doTableRead
  split
  · exact h.answers _ _ _
  · split
    · exact h.answers _ _ _
    · split
      · exact h.answers _ _ _
      · exact h.posts _ _ _ _

theorem doHeaderWrite_depths (tag : Byte) (border undocked : Half) {s : State} (h : Room s) :
    Depths (doHeaderWrite tag border undocked s) := by
  unfold doHeaderWrite
  split
  · refine Room.answers ?_ _ _ _
    exact h.same rfl rfl fun _ => rfl
  · exact h.refuses _ _

theorem doRegionWrite_depths (tag : Byte) (i : Fin 8) (enabled : Bool) (ox oy rw rh background : Half) {s : State} (h : Room s) :
    Depths (doRegionWrite tag i enabled ox oy rw rh background s) := by
  unfold doRegionWrite
  split
  · exact h.refuses _ _
  · split
    · exact h.refuses _ _
    · split
      · exact h.refuses _ _
      · split
        · exact h.refuses _ _
        · refine Room.answers ?_ _ _ _
          exact h.same rfl rfl fun _ => rfl

theorem doStreamWrite_depths (tag : Byte) (i : Fin 8) (stale : Bool) {s : State} (h : Room s) :
    Depths (doStreamWrite tag i stale s) := by
  unfold doStreamWrite
  refine Room.answers ?_ _ _ _
  split
  · exact h
  · exact h.same rfl rfl fun _ => rfl

theorem doKeymapWrite_depths (tag : Byte) (entry : Half) (cls value : Byte) {s : State} (h : Room s) :
    Depths (doKeymapWrite tag entry cls value s) := by
  unfold doKeymapWrite
  split
  · split
    · refine Room.answers ?_ _ _ _
      exact h.same rfl rfl fun _ => rfl
    · exact h.answers _ _ _
  · exact h.answers _ _ _

theorem doSettingsWrite_depths (tag : Byte) (r : Settings) {s : State} (h : Room s) : Depths (doSettingsWrite tag r s) := by
  have written : Room { s with settings := r } := h.same rfl rfl fun _ => rfl
  have clamped : Room (clampCounts r.depth { s with settings := r }) := by
    generalize ({ s with settings := r } : State) = t at written
    unfold clampCounts
    exact written.same (mapKeys_lc _ _) (mapKeys_me _ _) (queueOf_of_same (mapKeys_sq _ _))
  exact clamped.answers _ _ _

theorem doPanelWrite_depths (tag width height level : Byte) {s : State} (h : Room s) :
    Depths (doPanelWrite tag width height level s) := by
  unfold doPanelWrite
  split
  · exact Room.answers (h.apart (applyLevel_apart _ s) (applyLevel_mail _ s)) _ _ _
  · exact h.answers _ _ _

theorem doStreamOpen_depths (tag stream : Byte) (start : Half) {s : State} (h : Room s) :
    Depths (doStreamOpen tag stream start s) := by
  unfold doStreamOpen
  split
  · dsimp only
    split
    · exact h.answers _ _ _
    · split
      · exact h.answers _ _ _
      · refine Room.answers ?_ _ _ _
        exact h.same rfl rfl fun side => by cases side <;> rfl
  · exact h.answers _ _ _

theorem doStreamClose_depths (tag stream : Byte) {s : State} (h : Room s) : Depths (doStreamClose tag stream s) := by
  unfold doStreamClose
  split
  · dsimp only
    split
    · exact (settle_fits _).depths (Room.answers (h.handed (closeStream_handed _ s) (closeStream_fits _ s)) _ _ _)
    · exact h.answers _ _ _
  · exact h.answers _ _ _

theorem doQuiesce_depths (tag : Byte) {s : State} (h : Room s) : Depths (doQuiesce tag s) := by
  unfold doQuiesce
  split
  · exact h.answers _ _ _
  · refine (checkDrain_fits _).depths (Room.begins ?_ _ _ _)
    exact h.same rfl rfl fun side => by cases side <;> rfl

theorem rebalance_fits (s : State) : Fits s (rebalance s) := by
  have moves (side : Side) (s : State) : Fits s (moveStream side s) := by
    unfold moveStream
    split
    · refine .trans ?_ (count_fits _ _)
      exact SameMail.fits ⟨rfl, rfl, rfl⟩ fun x => queueOf_setStream x _ _ s
    · exact .refl s
  have each (fuel : Nat) : ∀ s, Fits s (rebalanceFuel fuel s) := by
    induction fuel with
    | zero => exact .refl
    | succ fuel ih =>
      intro s
      unfold rebalanceFuel
      split
      · exact (moves _ s).trans (ih _)
      · split
        · exact (moves _ s).trans (ih _)
        · exact .refl s
  exact each 8 s

theorem finishResume_fits (s : State) : Fits s (finishResume s) :=
  (((rebalance_fits s).trans (flagOpenRewinds_fits .quiesceEnd _)).trans (quiesceState_fits .running _)).trans (endOp_fits .resume .ok _)

theorem setStale_fits (m : BitVec 8) (s : State) : Fits s (setStale m s) :=
  SameMail.fits (.trans (t := mapRegions (fun i r => if m.getLsbD i.val then { r with stale := true } else r) s) ⟨rfl, rfl, rfl⟩
    (raiseEvent_mail _ _ _)) (queueOf_of_same (setStale_rest m s).1)

theorem grantStore_fits (s : State) : Fits s (grantStore s) := (grantStore_handed s).mail.fits (queueOf_of_same (grantStore_sq s))

theorem beginApply_fits (s : State) : Fits s (beginApply s) := by
  have noted : Fits s (setChanged false { s with lu.apply := some (notedRegions s) }) := SameMail.fits ⟨rfl, rfl, rfl⟩ fun _ => rfl
  have asks (t : State) : Fits t (askStore .layoutApply t) := by
    refine .trans ?_ (grantStore_fits _)
    exact SameMail.fits ⟨rfl, rfl, rfl⟩ fun _ => rfl
  unfold beginApply
  dsimp only
  generalize setChanged false { s with lu.apply := some (notedRegions s) } = t at noted
  refine (noted.trans (.trans ?_ (count_fits .layoutApply _))).trans (asks _)
  split
  · exact .refl t
  · exact setStale_fits _ t

theorem doResume_depths (tag : Byte) {s : State} (h : Room s) : Depths (doResume tag s) := by
  have begun := h.begins tag 0x06 .resume
  unfold doResume
  split
  · dsimp only
    split
    · exact (beginApply_fits _).depths begun
    · exact (finishResume_fits _).depths begun
  · exact h.answers _ _ _

theorem doTileFlush_depths (tag : Byte) {s : State} (h : Room s) : Depths (doTileFlush tag s) := by
  unfold doTileFlush
  split
  · refine Room.begins ?_ _ _ _
    exact h.same rfl rfl fun _ => rfl
  · exact h.answers _ _ _

theorem setTileSet_queues (key : Word) (ways : TileSet) (s : State) (side : Side) :
    queueOf side (setTileSet key ways s) = queueOf side s := queueOf_of_same (setTileSet_sq key ways s) side

theorem doTilePin_depths (tag : Byte) (key : Word) {s : State} (h : Room s) : Depths (doTilePin tag key s) := by
  unfold doTilePin
  dsimp only
  split
  · split
    · exact h.answers _ _ _
    · split
      · exact h.answers _ _ _
      · split
        · exact h.answers _ _ _
        · refine Room.answers ?_ _ _ _
          exact h.same (setTileSet_lc _ _ s) (setTileSet_me _ _ s) (setTileSet_queues _ _ s)
  · exact h.answers _ _ _

theorem doTileUnpin_depths (tag : Byte) (key : Word) {s : State} (h : Room s) : Depths (doTileUnpin tag key s) := by
  refine (settle_fits _).depths ?_
  unfold unpin
  dsimp only
  split
  · split
    · have unpinned (ways : TileSet) : Room (setTileSet key ways s) :=
        h.same (setTileSet_lc _ _ s) (setTileSet_me _ _ s) (setTileSet_queues _ _ s)
      refine Room.answers ?_ _ _ _
      exact (unpinned _).same rfl rfl fun side => by cases side <;> rfl
    · exact h.answers _ _ _
  · exact h.answers _ _ _

theorem doStoreErase_depths (tag page : Byte) {s : State} (h : Room s) : Depths (doStoreErase tag page s) := by
  unfold doStoreErase
  split
  · exact h.answers _ _ _
  · exact h.begins _ _ _

theorem doStoreWrite_depths (tag : Byte) (offset : Half) (data : List Byte) {s : State} (h : Room s) :
    Depths (doStoreWrite tag offset data s) := by
  unfold doStoreWrite
  dsimp only
  split
  · exact h.answers _ _ _
  · exact h.begins _ _ _

theorem doStoreRead_depths (tag : Byte) (offset : Half) (number : Byte) {s : State} (h : Room s) :
    Depths (doStoreRead tag offset number s) := by
  unfold doStoreRead
  split
  · exact h.answers _ _ _
  · exact h.posts _ _ _ _

theorem doMonitorSet_depths (tag entry mode group : Byte) (units : Word) (condition : Byte) {s : State} (h : Room s) :
    Depths (doMonitorSet tag entry mode group units condition s) := by
  unfold doMonitorSet
  split
  · split
    · refine Room.answers ?_ _ _ _
      exact h.same rfl rfl fun _ => rfl
    · exact h.answers _ _ _
  · split
    · refine Room.answers ?_ _ _ _
      exact h.same rfl rfl fun _ => rfl
    · exact h.answers _ _ _

theorem doDockReset_depths (tag : Byte) {s : State} (h : Room s) : Depths (doDockReset tag s) := by
  have cut : SameMail s (cutAllButGreet s) := by
    unfold cutAllButGreet
    exact .ite (cutTx_mail s) (.refl s)
  have idle : (dockReset s).me.inProgress = none := cut.inProgress.trans h.idle
  exact Room.answers ⟨⟨(Nat.le_of_eq (congrArg _ (owed_none idle))).trans (Nat.zero_le 4), Nat.zero_le 8, fun side => by
    cases side <;> exact Nat.zero_le 24⟩, idle, Nat.zero_lt_succ 3⟩ _ _ _

/-! ### Fills of the Layout Unit, the sweep -/

theorem finishApply_fits (mask : BitVec 8) (s : State) : Fits s (finishApply mask s) := by
  refine SameMail.fits ⟨finishApply_replies mask s, ?_, finishApply_inProgress mask s⟩ (finishApply_queues mask s)
  rw [(finishApply_drawing mask s).1]

theorem finishTeardownFill_fits (c : Half) (s : State) : Fits s (finishTeardownFill c s) := by
  have cleared : Fits s { s with fs.image := imageUniform c, fs.holder := none, lu.fillColour := none } :=
    SameMail.fits ⟨rfl, rfl, rfl⟩ fun _ => rfl
  unfold finishTeardownFill
  dsimp only
  generalize ({ s with fs.image := imageUniform c, fs.holder := none, lu.fillColour := none } : State) = t at cleared
  refine (cleared.trans ?_).trans (grantStore_fits _)
  exact ((readToEnd_apart _ t).trans (markBlocks_apart _ _)).fits ((readToEnd_mail _ t).trans (markBlocks_mail _ _))

theorem sweepSet_fits (n : Fin 64) (s : State) : Fits s (sweepSet n s) := by
  have swept : Fits s { s with tc.dir := s.tc.dir.set n emptySet, tc.sweep := n.val + 1 } :=
    SameMail.fits ⟨rfl, rfl, rfl⟩ fun _ => rfl
  unfold sweepSet
  dsimp only
  split
  · exact swept.trans (endOp_fits _ _ _)
  · exact swept

/-! ### Every event, every step -/

theorem takesRequest.room {s : State} (taken : takesRequest s) (h : Depths s) : Room s :=
  have ⟨_, _, idle, slot⟩ := taken
  ⟨h, idle, slot⟩

/-- Every operation of an event keeps the queues within their depths. -/
theorem Happens.depths {s u : State} (h : Happens s u) (legal : Depths s) : Depths u := by
  have link {s t : State} (legal : Depths s) (apart : Apart s t) (mail : SameMail s t) : Depths t := (apart.fits mail).depths legal
  induction h with
  | nothing => exact legal
  | andThen _ _ first next => exact next (first legal)
  | counted x s => exact (count_fits x s).depths legal
  | lossRestarts g s =>
    refine link legal (.ite (lc_apart _ s) (.refl s)) (.ite ?_ (.refl s))
    exact ⟨rfl, rfl, rfl⟩
  | groupDown g down =>
    refine link legal (.ite (lc_apart _ _) (.refl _)) (.ite ?_ (.refl _))
    exact ⟨rfl, rfl, rfl⟩
  | groupAligning g aligning =>
    refine link legal (.ite (.ite (lc_apart _ _) (lc_apart _ _)) (lc_apart _ _)) (.ite (.ite ?_ ?_) ?_)
    · exact ⟨rfl, rfl, rfl⟩
    · exact ⟨rfl, rfl, rfl⟩
    · exact ⟨rfl, rfl, rfl⟩
  | assembly a assembling => exact link legal (lc_apart _ _) ⟨rfl, rfl, rfl⟩
  | fails assembling => exact link legal (failFrame_apart _) (failFrame_mail _)
  | framing framing => exact link legal (passFrame_framing_apart framing) (passFrame_framing_mail framing)
  | passes up => exact link legal (lc_apart _ _) ⟨rfl, rfl, rfl⟩
  | lossExpires expired => exact link legal (expireLoss_apart _) (expireLoss_mail _)
  | hello number up => exact takeHello_depths number legal
  | holdExpires expired => exact teardown_depths _
  | transmitted sending => exact (completeItem_fits _ _).depths (link legal (lc_apart _ _) ⟨rfl, rfl, rfl⟩)
  | draw stream seq commands _ _ => exact doDraw_depths stream seq commands legal
  | tile key sector data _ _ => exact (doTile_fits key sector data _).depths legal
  | executionEnds busy writing => exact ((finishExecution_fits _ _ _).trans (settle_fits _)).depths legal
  | faultExpires expired => exact (expireFault_fits _ _).depths legal
  | @busy tag kind s busy slot =>
    refine ⟨?_, legal.keys, legal.queues⟩
    have owes : owed (answer tag kind .busy s) ≤ 1 := owed_le _
    have one : (answer tag kind .busy s).lc.replies.length = s.lc.replies.length + 1 := List.length_append ..
    omega
  | answered tag kind status taken => exact (taken.room legal).answers tag kind status
  | tableRead tag table first number taken => exact doTableRead_depths tag table first number (taken.room legal)
  | headerWrite tag border undocked taken => exact doHeaderWrite_depths tag border undocked (taken.room legal)
  | regionWrite tag i enabled ox oy rw rh background taken =>
    exact doRegionWrite_depths tag i enabled ox oy rw rh background (taken.room legal)
  | streamWrite tag i stale taken => exact doStreamWrite_depths tag i stale (taken.room legal)
  | keymapWrite tag entry cls value taken => exact doKeymapWrite_depths tag entry cls value (taken.room legal)
  | settingsWrite tag a b c d e f g h taken => exact doSettingsWrite_depths tag _ (taken.room legal)
  | panelWrite tag width height level taken => exact doPanelWrite_depths tag width height level (taken.room legal)
  | streamOpen tag stream start taken => exact doStreamOpen_depths tag stream start (taken.room legal)
  | streamClose tag stream taken => exact doStreamClose_depths tag stream (taken.room legal)
  | quiesce tag taken => exact doQuiesce_depths tag (taken.room legal)
  | resume tag taken => exact doResume_depths tag (taken.room legal)
  | tileFlush tag taken => exact doTileFlush_depths tag (taken.room legal)
  | tilePin tag key taken => exact doTilePin_depths tag key (taken.room legal)
  | tileUnpin tag key taken => exact doTileUnpin_depths tag key (taken.room legal)
  | panelRestart tag taken => exact Room.answers ((taken.room legal).apart (restartPanel_apart _) (restartPanel_mail _)) _ _ _
  | dockReset tag taken => exact doDockReset_depths tag (taken.room legal)
  | storeErase tag page taken => exact doStoreErase_depths tag page (taken.room legal)
  | storeWrite tag offset data taken => exact doStoreWrite_depths tag offset data (taken.room legal)
  | storeRead tag offset number taken => exact doStoreRead_depths tag offset number (taken.room legal)
  | monitorSet tag entry mode group unitMask condition taken =>
    exact doMonitorSet_depths tag entry mode group unitMask condition (taken.room legal)
  | applyEnds applying writing => exact ((finishApply_fits _ _).trans (finishResume_fits _)).depths legal
  | fillEnds filling writing => exact (finishTeardownFill_fits _ _).depths legal
  | sweeps sweeping => exact (sweepSet_fits _ _).depths legal
  | @erases r page s current op =>
    have ended : SameMail s (count .eraseDone { s with flash := erasePage page s.flash }) := by
      refine .counts ?_ _
      exact ⟨rfl, rfl, rfl⟩
    exact (endLong_fits _ _).depths (link legal ((flash_apart _ s).trans (count_apart _ _)) ended)
  | @programs r offset data s current op =>
    have ended : Apart s (count .programDone { s with flash := programBytes offset data s.flash }) :=
      (flash_apart _ s).trans (count_apart _ _)
    have kept : SameMail s (count .programDone { s with flash := programBytes offset data s.flash }) := by
      refine .counts ?_ _
      exact ⟨rfl, rfl, rfl⟩
    unfold finishProgram
    dsimp only
    split
    · exact (endLong_fits _ _).depths (link legal ended kept)
    · exact (endLong_fits _ _).depths (link legal (ended.trans (count_apart _ _)) (kept.counts _))
  | acknowledged sent => exact link legal (completeBlock_apart _) (completeBlock_mail _)
  | timesOut sent ended => exact link legal (timeOutBlock_apart _ _) (timeOutBlock_mail _ _)
  | scans contacts due => exact scanKeys_depths contacts legal
  | @millisecond s due =>
    have counted := countMillisecond_counted s
    have timed (t : State) : Fits t { t with msTimer := Config.ticksPerMs } := SameMail.fits ⟨rfl, rfl, rfl⟩ fun _ => rfl
    have mail : SameMail s (countMillisecond s) := ⟨by rw [counted.same_lc], by rw [counted.same_lc], counted.same_inProgress⟩
    exact (timed _).depths (link legal counted.apart mail)
  | period due => exact link legal (pu_apart _ _ _) ⟨rfl, rfl, rfl⟩

theorem powerOn_depths (flash : List Host.Cell) (free : Nat) (pending : List Instr) : Depths (powerOn flash free pending) := by
  rw [powerOn_eq]
  exact ⟨Nat.zero_le 4, Nat.zero_le 8, fun side => by cases side <;> exact Nat.zero_le 24⟩

theorem conclude_mail (before s : State) : SameMail s (conclude before s) :=
  ⟨conclude_replies _ _, conclude_keys _ _, conclude_inProgress _ _⟩

/-- The queues stay within their depths in every step. -/
theorem step_depths {s t : State} (legal : Depths s) (stepped : step s = .next t) : Depths t :=
  step_keeps (Legal := Depths) legal stepped
    (fun s h => Fits.depths (s := s) (SameMail.fits ⟨rfl, rfl, rfl⟩ fun side => by cases side <;> rfl) h)
    (fun s rest h => Fits.depths (s := s) (SameMail.fits ⟨rfl, rfl, rfl⟩ fun _ => rfl) h) (fun _ _ => powerOn_depths _ _ _)
    fun s u h happens => ((conclude_apart s u).fits (conclude_mail s u)).depths (happens.depths h)

theorem depths_iff (s : State) : Depths s ↔ upstreamWithinLimits s ∧ sideQueuesWithinLimits s :=
  ⟨fun ⟨replies, keys, queues⟩ => ⟨⟨replies, keys⟩, queues .a, queues .b⟩,
    fun ⟨⟨replies, keys⟩, queueA, queueB⟩ => ⟨replies, keys, fun side => by cases side; exacts [queueA, queueB]⟩⟩

/-! ### All together -/

/-- Settles O55: a step keeps the depths (each request answers once or owes one reply); the laws of the session, block by block and
with the phase; that nothing is left to hand over, for each handover leaves less to hand over; and the turns at the frame
store. -/
theorem queuesStayWithinTheirDepths : Obligations.QueuesStayWithinTheirDepths := by
  unfold Obligations.QueuesStayWithinTheirDepths
  refine ⟨fun s t legal stepped => ?_, step_sessionLegal, step_nothingToHand, fun s t legal stepped => ?_⟩
  · rw [← depths_iff] at legal ⊢
    exact step_depths legal stepped
  · rw [← writers_iff] at legal ⊢
    exact step_writers legal stepped

end Sys2Proof.Machine
end
